-- ==== Sys2Proof/Word.lean ====
section
/-! DEFINITION. The word types of the Stavjo S2 (02_numbers R33, 03_registers R53): values the spec shifts, masks or adds. -/

namespace Sys2Proof

/-- A 64-bit register, address or memory word. -/
abbrev Word := BitVec 64
/-- One byte of a memory. -/
abbrev Byte := BitVec 8
/-- One 16-bit instruction word (R142). -/
abbrev IWord := BitVec 16
/-- One 128-bit vector register (R53). -/
abbrev V128 := BitVec 128
/-- The number of a register of a file of up to 32. -/
abbrev RegNo := BitVec 5

end Sys2Proof
end

