-- ==== Sys2Proof/Config.lean ====
section
/-! DEFINITION. What the spec leaves to an implementation or leaves open: values without a body, so that nothing can be
proved of them, applied to the operands they depend on or to a plain counter of the state (log entries 9 to 11). -/

namespace Sys2Proof.Config

/-- A register or value that the spec calls undefined; applied to the counter `fresh` (R19, R59). -/
opaque freeWord : Nat → Word

/-- DATA of the illegal-operation trap of a page-15 form, whose cause codes the spec does not number; applied to the house core and
the cycle (R272). -/
opaque refusalCause : Nat → Nat → Word

/-- Events counted for a partition and class over a period in which the class was active (R138, R344). -/
opaque activity : Nat → Nat → Nat → Nat

/-- Package power over a period beside that of the partitions' energy, in mW (R344, R345). -/
opaque power : Nat → Nat

/-- Port `i` comes up at a boot; applied to the counter `fresh` (R350). -/
opaque portUp : Nat → Nat → Bool

/-- A key drawn from the random number generator (R343). -/
opaque randomKey : Nat → BitVec 512

/-- A queue key of a cluster (R109). -/
opaque queueKey : Nat → BitVec 128

/-- The Nealis key held in ROM, an uncompressed P-521 point (R350). -/
opaque romKey : List Byte

/-- The device identity key's ECDSA P-521 signature over a digest: r and s (R338). -/
opaque deviceSign : List Byte → Nat × Nat

/-- The device serial number (R338). -/
opaque serial : BitVec 128

/-- Where in its slice a stagehand places a block: the 64-byte unit of its first byte (R88). -/
opaque stageUnit : Nat → Nat → Nat → Nat

end Sys2Proof.Config
end

