-- ==== Sys2Proof/Syntax.lean ====
section
/-! DEFINITION. The instructions and events of the Stavjo S2, one constructor for each row of spec/opcode_table.json.
A row with an encoding carries its operands as one record, the row's own meaning of each field being that of the
opcode maps (08_encoding R158 to R165); a row without an encoding is an event of the machine and carries what it names. -/

namespace Sys2Proof

/-- The operands an encoded instruction carries, as decode delivers them (R143, R146, R149, R150).
A field that the instruction's map does not name is zero; `p` is 7 and `w` 0 where no REG prefix stands. -/
structure Args where
  /-- The short form of a t2 form: the d field is the first source and the s field the second (R149). -/
  short : Bool := false
  /-- The d field. -/
  d : RegNo := 0
  /-- The s field. -/
  s : RegNo := 0
  /-- rt of the REG prefix. -/
  t : RegNo := 0
  /-- The predicate p0 to p7. -/
  p : BitVec 3 := 7
  /-- The group width code: 0 for 1, 1 for 2, 2 for 4. -/
  w : BitVec 2 := 0
  /-- The modifier: scope, rounding or condition (R147). -/
  m : BitVec 3 := 0
  /-- The variant: size, lane or fence kind (R148). -/
  v : BitVec 3 := 0
  /-- The assembled immediate after extension (R150); for `trap n` the number n. -/
  imm : Word := 0
  deriving DecidableEq, Repr

/-- What a wake names: the context record whose local event holds, or a far wake's packet (R98, R108). -/
inductive WakeFor where
  | record (core rec : Nat)
  | packet (id : Nat)
  deriving DecidableEq, Repr

/-- A management request as it arrives (18_module R342): the fields of its header and its body. -/
structure MgmtReq where
  part : Byte
  flags : Byte
  seq : Word
  tag : List Byte
  body : List Byte
  deriving DecidableEq, Repr

/-- An IEEE 1588 exchange as a port delivers it (R349): the port, the master's rank (lower is better)
and the offset of the reference from kptp in nanoseconds. -/
structure PtpMsg where
  port : Nat
  rank : Nat
  offset : Int
  deriving DecidableEq, Repr

/-- What an address-resolution or echo frame asks (R340). -/
inductive Resolution where
  | arpRequest (target : Nat)
  | neighborSolicitation (target : Nat)
  | echoRequest (data : List Byte)
  deriving DecidableEq, Repr

/-- A stage-1 firmware image (R350): its version, its bytes with the ECDSA P-521 signature over them, the
trusted-key list, and a new operator key when it brings one. -/
structure Firmware where
  version : Nat
  body : List Byte
  sigR : Nat
  sigS : Nat
  trusted : List (List Byte)
  opKey : Option (List Byte)
  deriving DecidableEq, Repr

/-- The instructions and events, in the order of the opcode table. -/
inductive Instr where
  /-- ADD (R172). -/
  | add (a : Args)
  /-- SUB (R172). -/
  | sub (a : Args)
  /-- AND (R172). -/
  | and (a : Args)
  /-- OR (R172). -/
  | or (a : Args)
  /-- XOR (R172). -/
  | xor (a : Args)
  /-- SHL (R172). -/
  | shl (a : Args)
  /-- SHR (R172). -/
  | shr (a : Args)
  /-- SRA (R172). -/
  | sra (a : Args)
  /-- MUL (R172). -/
  | mul (a : Args)
  /-- SEQ (R172). -/
  | seq (a : Args)
  /-- SLT (R172). -/
  | slt (a : Args)
  /-- SLTU (R172). -/
  | sltu (a : Args)
  /-- SEL (R177). -/
  | sel (a : Args)
  /-- ADD_IMM (R173). -/
  | addImm (a : Args)
  /-- SHL_IMM (R173). -/
  | shlImm (a : Args)
  /-- SHR_IMM (R173). -/
  | shrImm (a : Args)
  /-- SRA_IMM (R173). -/
  | sraImm (a : Args)
  /-- AND_IMM (R173). -/
  | andImm (a : Args)
  /-- LI (R173). -/
  | li (a : Args)
  /-- MOV (R173). -/
  | mov (a : Args)
  /-- LD_D (R187). -/
  | ldD (a : Args)
  /-- LD_W (R187). -/
  | ldW (a : Args)
  /-- ST_D (R187). -/
  | stD (a : Args)
  /-- ST_W (R187). -/
  | stW (a : Args)
  /-- VLD (R188). -/
  | vld (a : Args)
  /-- VST (R188). -/
  | vst (a : Args)
  /-- LDFR (R197). -/
  | ldfr (a : Args)
  /-- STFR (R197). -/
  | stfr (a : Args)
  /-- B (R178). -/
  | b (a : Args)
  /-- JAL (R180). -/
  | jal (a : Args)
  /-- BEQ (R178). -/
  | beq (a : Args)
  /-- BNE (R178). -/
  | bne (a : Args)
  /-- BLT (R178). -/
  | blt (a : Args)
  /-- BGE (R178). -/
  | bge (a : Args)
  /-- BLTU (R178). -/
  | bltu (a : Args)
  /-- BGEU (R178). -/
  | bgeu (a : Args)
  /-- BZ (R178). -/
  | bz (a : Args)
  /-- BNZ (R178). -/
  | bnz (a : Args)
  /-- JR (R180). -/
  | jr (a : Args)
  /-- LOOP (R179). -/
  | loop (a : Args)
  /-- KGET (R182). -/
  | kget (a : Args)
  /-- KPUT (R182). -/
  | kput (a : Args)
  /-- CUE_DEC (R255). -/
  | cueDec (a : Args)
  /-- SEND (R253). -/
  | send (a : Args)
  /-- PST_D (R190). -/
  | pstD (a : Args)
  /-- PSTV (R190). -/
  | pstv (a : Args)
  /-- BEOS (R203). -/
  | beos (a : Args)
  /-- NOP (R180). -/
  | nop (a : Args)
  /-- DONE (R258). -/
  | done (a : Args)
  /-- RET (R180). -/
  | ret (a : Args)
  /-- ERET (R271). -/
  | eret (a : Args)
  /-- HALT (R271). -/
  | halt (a : Args)
  /-- TRAP (R271). -/
  | trap (a : Args)
  /-- LD_SIZE (R187). -/
  | ldSize (a : Args)
  /-- ST_SIZE (R187). -/
  | stSize (a : Args)
  /-- LD_ACQ (R191). -/
  | ldAcq (a : Args)
  /-- ST_REL (R191). -/
  | stRel (a : Args)
  /-- ST_S (R191). -/
  | stS (a : Args)
  /-- LDV (R192). -/
  | ldv (a : Args)
  /-- STV (R193). -/
  | stv (a : Args)
  /-- RCL (R193). -/
  | rcl (a : Args)
  /-- VER (R193). -/
  | ver (a : Args)
  /-- PST_SIZE (R190). -/
  | pstSize (a : Args)
  /-- PSTV_P1 (R190). -/
  | pstvP1 (a : Args)
  /-- LDFAR (R196). -/
  | ldfar (a : Args)
  /-- STFAR (R196). -/
  | stfar (a : Args)
  /-- VLDFAR (R196). -/
  | vldfar (a : Args)
  /-- VLD_P1 (R188). -/
  | vldP1 (a : Args)
  /-- VST_P1 (R188). -/
  | vstP1 (a : Args)
  /-- VLDS (R189). -/
  | vlds (a : Args)
  /-- VSTS (R189). -/
  | vsts (a : Args)
  /-- VGAT (R189). -/
  | vgat (a : Args)
  /-- VSCT (R189). -/
  | vsct (a : Args)
  /-- AMO_ADD (R194). -/
  | amoAdd (a : Args)
  /-- AMO_AND (R194). -/
  | amoAnd (a : Args)
  /-- AMO_OR (R194). -/
  | amoOr (a : Args)
  /-- AMO_XOR (R194). -/
  | amoXor (a : Args)
  /-- AMO_MIN (R194). -/
  | amoMin (a : Args)
  /-- AMO_MAX (R194). -/
  | amoMax (a : Args)
  /-- AMO_MINU (R194). -/
  | amoMinu (a : Args)
  /-- AMO_MAXU (R194). -/
  | amoMaxu (a : Args)
  /-- AMO_SWAP (R194). -/
  | amoSwap (a : Args)
  /-- CAS (R194). -/
  | cas (a : Args)
  /-- FENCE (R195). -/
  | fence (a : Args)
  /-- CPY (R204). -/
  | cpy (a : Args)
  /-- WMK (R205). -/
  | wmk (a : Args)
  /-- JOB (R207). -/
  | job (a : Args)
  /-- JWAIT (R207). -/
  | jwait (a : Args)
  /-- TILE_PUT (R212). -/
  | tilePut (a : Args)
  /-- TILE_GET (R212). -/
  | tileGet (a : Args)
  /-- SFILL (R211). -/
  | sfill (a : Args)
  /-- SDRAIN (R211). -/
  | sdrain (a : Args)
  /-- VADD_INT (R217). -/
  | vaddInt (a : Args)
  /-- VSUB_INT (R217). -/
  | vsubInt (a : Args)
  /-- VMUL_INT (R217). -/
  | vmulInt (a : Args)
  /-- VMIN_INT (R217). -/
  | vminInt (a : Args)
  /-- VMAX_INT (R217). -/
  | vmaxInt (a : Args)
  /-- VABS_INT (R217). -/
  | vabsInt (a : Args)
  /-- VNEG_INT (R217). -/
  | vnegInt (a : Args)
  /-- VCMP_INT (R218). -/
  | vcmpInt (a : Args)
  /-- VSEL (R219). -/
  | vsel (a : Args)
  /-- VAND (R219). -/
  | vand (a : Args)
  /-- VOR (R219). -/
  | vor (a : Args)
  /-- VXOR (R219). -/
  | vxor (a : Args)
  /-- VSHL (R217). -/
  | vshl (a : Args)
  /-- VSHR (R217). -/
  | vshr (a : Args)
  /-- VSRA (R217). -/
  | vsra (a : Args)
  /-- VPERM (R219). -/
  | vperm (a : Args)
  /-- VBCST (R220). -/
  | vbcst (a : Args)
  /-- VEXT (R220). -/
  | vext (a : Args)
  /-- VINS (R220). -/
  | vins (a : Args)
  /-- VMOV (R219). -/
  | vmov (a : Args)
  /-- VRED_SUM_INT (R221). -/
  | vredSumInt (a : Args)
  /-- VRED_MAX_INT (R221). -/
  | vredMaxInt (a : Args)
  /-- VRED_MIN_INT (R221). -/
  | vredMinInt (a : Args)
  /-- ANDN (R172). -/
  | andn (a : Args)
  /-- ROL (R172). -/
  | rol (a : Args)
  /-- MULH (R172). -/
  | mulh (a : Args)
  /-- MULHU (R172). -/
  | mulhu (a : Args)
  /-- DIV (R174). -/
  | div (a : Args)
  /-- DIVU (R174). -/
  | divu (a : Args)
  /-- REM (R174). -/
  | rem (a : Args)
  /-- REMU (R174). -/
  | remu (a : Args)
  /-- MIN (R172). -/
  | min (a : Args)
  /-- MAX (R172). -/
  | max (a : Args)
  /-- MINU (R172). -/
  | minu (a : Args)
  /-- MAXU (R172). -/
  | maxu (a : Args)
  /-- CLZ (R175). -/
  | clz (a : Args)
  /-- CTZ (R175). -/
  | ctz (a : Args)
  /-- POPC (R175). -/
  | popc (a : Args)
  /-- BSWAP (R175). -/
  | bswap (a : Args)
  /-- SEXT (R175). -/
  | sext (a : Args)
  /-- ZEXT (R175). -/
  | zext (a : Args)
  /-- LIH (R173). -/
  | lih (a : Args)
  /-- ADDS (R172). -/
  | adds (a : Args)
  /-- BFX (R176). -/
  | bfx (a : Args)
  /-- BFI (R176). -/
  | bfi (a : Args)
  /-- OR_IMM (R173). -/
  | orImm (a : Args)
  /-- XOR_IMM (R173). -/
  | xorImm (a : Args)
  /-- VADD_FLOAT (R222). -/
  | vaddFloat (a : Args)
  /-- VSUB_FLOAT (R222). -/
  | vsubFloat (a : Args)
  /-- VMUL_FLOAT (R222). -/
  | vmulFloat (a : Args)
  /-- VFMA (R222). -/
  | vfma (a : Args)
  /-- VFMS (R222). -/
  | vfms (a : Args)
  /-- VMIN_FLOAT (R222). -/
  | vminFloat (a : Args)
  /-- VMAX_FLOAT (R222). -/
  | vmaxFloat (a : Args)
  /-- VABS_FLOAT (R222). -/
  | vabsFloat (a : Args)
  /-- VNEG_FLOAT (R222). -/
  | vnegFloat (a : Args)
  /-- VDIV (R222). -/
  | vdiv (a : Args)
  /-- VSQRT (R222). -/
  | vsqrt (a : Args)
  /-- VCMP_FLOAT (R223). -/
  | vcmpFloat (a : Args)
  /-- VRED_SUM_FLOAT (R224). -/
  | vredSumFloat (a : Args)
  /-- VRED_MAX_FLOAT (R224). -/
  | vredMaxFloat (a : Args)
  /-- VRED_MIN_FLOAT (R224). -/
  | vredMinFloat (a : Args)
  /-- VDOT (R224). -/
  | vdot (a : Args)
  /-- VCVT (R225). -/
  | vcvt (a : Args)
  /-- VBMAND (R226). -/
  | vbmand (a : Args)
  /-- VPFX (R226). -/
  | vpfx (a : Args)
  /-- VPOPC (R226). -/
  | vpopc (a : Args)
  /-- PAND (R227). -/
  | pand (a : Args)
  /-- POR (R227). -/
  | por (a : Args)
  /-- PXOR (R227). -/
  | pxor (a : Args)
  /-- PNOT (R227). -/
  | pnot (a : Args)
  /-- PMOV (R227). -/
  | pmov (a : Args)
  /-- PSET (R227). -/
  | pset (a : Args)
  /-- MMA (R232). -/
  | mma (a : Args)
  /-- MMAG (R233). -/
  | mmag (a : Args)
  /-- MMIX (R233). -/
  | mmix (a : Args)
  /-- MACZ (R237). -/
  | macz (a : Args)
  /-- MACR (R237). -/
  | macr (a : Args)
  /-- MACW (R237). -/
  | macw (a : Args)
  /-- MACST (R237). -/
  | macst (a : Args)
  /-- MREH (R239). -/
  | mreh (a : Args)
  /-- MWAIT (R238). -/
  | mwait (a : Args)
  /-- GACC (R244). -/
  | gacc (a : Args)
  /-- GSUB (R244). -/
  | gsub (a : Args)
  /-- GSCHUR (R245). -/
  | gschur (a : Args)
  /-- GDAMP (R246). -/
  | gdamp (a : Args)
  /-- GMEAN (R247). -/
  | gmean (a : Args)
  /-- GRES (R248). -/
  | gres (a : Args)
  /-- SEND_P7 (R253). -/
  | sendP7 (a : Args)
  /-- SENDC (R254). -/
  | sendc (a : Args)
  /-- CUE_DEC_P7 (R255). -/
  | cueDecP7 (a : Args)
  /-- CUE_ARM (R256). -/
  | cueArm (a : Args)
  /-- CUE_BIND (R256). -/
  | cueBind (a : Args)
  /-- CUE_STAT (R256). -/
  | cueStat (a : Args)
  /-- READY (R257). -/
  | ready (a : Args)
  /-- PARK (R259). -/
  | park (a : Args)
  /-- RPOLL (R260). -/
  | rpoll (a : Args)
  /-- RWAIT (R260). -/
  | rwait (a : Args)
  /-- RPOP (R103). -/
  | rpop (a : Args)
  /-- MBINC (R261). -/
  | mbinc (a : Args)
  /-- MBWAIT (R261). -/
  | mbwait (a : Args)
  /-- MBGET (R261). -/
  | mbget (a : Args)
  /-- SBIND (R200). -/
  | sbind (a : Args)
  /-- SCLOSE (R203). -/
  | sclose (a : Args)
  /-- SSTAT (R203). -/
  | sstat (a : Args)
  /-- SSEEK (R203). -/
  | sseek (a : Args)
  /-- BEOS_P8 (R203). -/
  | beosP8 (a : Args)
  /-- LDFR_P8 (R197). -/
  | ldfrP8 (a : Args)
  /-- STFR_P8 (R197). -/
  | stfrP8 (a : Args)
  /-- VLDFR (R197). -/
  | vldfr (a : Args)
  /-- VSTFR (R197). -/
  | vstfr (a : Args)
  /-- ENTER (R198). -/
  | enter (a : Args)
  /-- LEAVE (R198). -/
  | leave (a : Args)
  /-- DMOV (R198). -/
  | dmov (a : Args)
  /-- FRREF (R198). -/
  | frref (a : Args)
  /-- FRREL (R198). -/
  | frrel (a : Args)
  /-- CFETCH (R213). -/
  | cfetch (a : Args)
  /-- CSTAT (R213). -/
  | cstat (a : Args)
  /-- JF (R181). -/
  | jf (a : Args)
  /-- JFL (R181). -/
  | jfl (a : Args)
  /-- CURTAIN (R262). -/
  | curtain (a : Args)
  /-- CURTAIN_ARR (R263). -/
  | curtainArr (a : Args)
  /-- CURTAIN_EXCUSE (R264). -/
  | curtainExcuse (a : Args)
  /-- CASTQ (R265). -/
  | castq (a : Args)
  /-- QENQ (R268). -/
  | qenq (a : Args)
  /-- QDEQ (R268). -/
  | qdeq (a : Args)
  /-- QSTEAL (R268). -/
  | qsteal (a : Args)
  /-- QMINT (R267). -/
  | qmint (a : Args)
  /-- CHORUS (R269). -/
  | chorus (a : Args)
  /-- CHORUS_END (R270). -/
  | chorusEnd (a : Args)
  /-- PART_CFG (R272). -/
  | partCfg (a : Args)
  /-- PART_CFG_RELEASE (R272). -/
  | partCfgRelease (a : Args)
  /-- PART_ZERO (R272). -/
  | partZero (a : Args)
  /-- PART_RUN (R272). -/
  | partRun (a : Args)
  /-- PART_SUSP (R272). -/
  | partSusp (a : Args)
  /-- SLICE_PUT (R273). -/
  | slicePut (a : Args)
  /-- SLICE_ARM (R273). -/
  | sliceArm (a : Args)
  /-- KEY_PUT (R274). -/
  | keyPut (a : Args)
  /-- KEY_ZERO (R274). -/
  | keyZero (a : Args)
  /-- SYS_PAGE_TABLE_WRITE (R347). -/
  | sysPageTableWrite (addr data : Word)
  /-- ASYNC_TRAP_DELIVERY (R307). -/
  | asyncTrapDelivery (core ts : Nat)
  /-- CODELET_START (R59). -/
  | codeletStart (core ts : Nat)
  /-- CONTEXT_RESUME (R20). -/
  | contextResume (core ts : Nat)
  /-- FAULT_RESUME (R94). -/
  | faultResume (core ts : Nat)
  /-- EVENT_TAKE (R313). -/
  | eventTake (core : Nat)
  /-- CUE_DEC_ARRIVAL (R132). -/
  | cueDecArrival (id : Nat)
  /-- MESSAGE_APPEND (R101). -/
  | messageAppend (id : Nat)
  /-- POSTED_STORE_ARRIVAL (R190). -/
  | postedStoreArrival (id : Nat)
  /-- STV_ARRIVAL (R134). -/
  | stvArrival (id : Nat)
  /-- MAILBOX_INCREMENT (R135). -/
  | mailboxIncrement (id : Nat)
  /-- DELIVERY_ACCEPTED (R105). -/
  | deliveryAccepted (id : Nat)
  /-- DELIVERY_REFUSED (R105). -/
  | deliveryRefused (id : Nat)
  /-- RETRANSMIT (R105). -/
  | retransmit (id : Nat)
  /-- FAR_REQUEST (R196). -/
  | farRequest (id : Nat)
  /-- FAR_ANSWER (R196). -/
  | farAnswer (id : Nat)
  /-- CONTEXT_WAKE (R98). -/
  | contextWake (w : WakeFor)
  /-- FAULT_WAKE (R98). -/
  | faultWake (w : WakeFor)
  /-- VERSION_WAIT_PARK (R133). -/
  | versionWaitPark (core ts : Nat)
  /-- PARK_TIMEOUT (R259). -/
  | parkTimeout (core rec : Nat)
  /-- QUANTUM_CHOICE (R300). -/
  | quantumChoice (sh : Nat)
  /-- FETCH_COMPLETE (R117). -/
  | fetchComplete (sh part blk : Nat)
  /-- FETCH_FAULT (R89). -/
  | fetchFault (sh part blk : Nat)
  /-- DRAIN_END (R117). -/
  | drainEnd (sh part blk : Nat)
  /-- WRITEBACK_DONE (R117). -/
  | writebackDone (sh part blk : Nat)
  /-- PIN_TIMEOUT (R117). -/
  | pinTimeout (sh part blk : Nat)
  /-- STREAM_FILL (R106). -/
  | streamFill (core ts slot : Nat)
  /-- STREAM_DRAIN (R106). -/
  | streamDrain (core ts slot : Nat)
  /-- LINK_ELEMENT_ARRIVAL (R107). -/
  | linkElementArrival (id : Nat)
  /-- COPY_PUSH (R137). -/
  | copyPush (id : Nat)
  /-- COPY_FAULT (R137). -/
  | copyFault (id : Nat)
  /-- JOB_START (R297). -/
  | jobStart (core job : Nat)
  /-- JOB_COMPLETE (R136). -/
  | jobComplete (core job : Nat)
  /-- JOB_FAULT (R186). -/
  | jobFault (core job : Nat)
  /-- STAGE_TIMEOUT (R209). -/
  | stageTimeout (sh part : Nat)
  /-- MATRIX_BEGIN (R230). -/
  | matrixBegin (core : Nat)
  /-- MATRIX_COMPLETE (R231). -/
  | matrixComplete (core : Nat)
  /-- GANG_BARRIER_COMPLETE (R234). -/
  | gangBarrierComplete (row : Nat) (pair : Bool)
  /-- GANG_TIMEOUT (R24). -/
  | gangTimeout (row : Nat) (pair : Bool)
  /-- GANG_ABORT (R235). -/
  | gangAbort (row : Nat) (pair : Bool)
  /-- SCHUR_COMPLETE (R243). -/
  | schurComplete (core : Nat)
  /-- CURTAIN_RELEASE (R263). -/
  | curtainRelease (part ctx : Nat)
  /-- CURTAIN_TIMEOUT (R263). -/
  | curtainTimeout (part ctx : Nat)
  /-- MAILBOX_TIMEOUT (R135). -/
  | mailboxTimeout (core ts : Nat)
  /-- CHORUS_WAIT_TIMEOUT (R269). -/
  | chorusWaitTimeout (core ts : Nat)
  /-- CAST_ROUND_COMPLETE (R266). -/
  | castRoundComplete (part cast : Nat)
  /-- COLLECTIVE_TIMEOUT (R266). -/
  | collectiveTimeout (part cast : Nat)
  /-- OVERLAY_FETCH_DONE (R213). -/
  | overlayFetchDone (core slot : Nat)
  /-- ENERGY_UPDATE (R138). -/
  | energyUpdate
  /-- BUDGET_PERIOD (R139). -/
  | budgetPeriod
  /-- POWER_PERIOD (R345). -/
  | powerPeriod
  /-- LAUNCH_GO (R295). -/
  | launchGo (part : Nat)
  /-- ZEROING_DONE (R90). -/
  | zeroingDone (part : Nat)
  /-- SLICE_SWITCH (R303). -/
  | sliceSwitch
  /-- LINK_RESYNC (R314). -/
  | linkResync (core dir : Nat)
  /-- LINK_DEAD (R314). -/
  | linkDead (core dir : Nat)
  /-- ROUTE_CHANGE (R314). -/
  | routeChange
  /-- MODULE_RESET (R350). -/
  | moduleReset
  /-- CONFIGURE_PARTITION (R343). -/
  | configurePartition (r : MgmtReq)
  /-- ZERO_PARTITION (R343). -/
  | zeroPartition (r : MgmtReq)
  /-- LAUNCH (R294). -/
  | launch (r : MgmtReq)
  /-- SUSPEND (R343). -/
  | suspend (r : MgmtReq)
  /-- RESUME (R343). -/
  | resume (r : MgmtReq)
  /-- SLICE_ENTRY (R343). -/
  | sliceEntry (r : MgmtReq)
  /-- ARM_SLICES (R343). -/
  | armSlices (r : MgmtReq)
  /-- SET_ALLOTMENT (R343). -/
  | setAllotment (r : MgmtReq)
  /-- READ_ENERGY (R343). -/
  | readEnergy (r : MgmtReq)
  /-- ATTEST (R338). -/
  | attest (r : MgmtReq)
  /-- ADVANCE_ROLLBACK (R337). -/
  | advanceRollback (r : MgmtReq)
  /-- READ_STATUS (R343). -/
  | readStatus (r : MgmtReq)
  /-- RDMA_WRITE (R341). -/
  | rdmaWrite (qp : Nat) (addr : Word) (data : List Byte)
  /-- RDMA_READ (R341). -/
  | rdmaRead (qp : Nat) (addr : Word) (len : Nat)
  /-- ROCE_SEND (R341). -/
  | roceSend (qp : Nat) (data : List Byte)
  /-- PTP_MESSAGE (R349). -/
  | ptpMessage (m : PtpMsg)
  /-- PTP_HOLDOVER (R349). -/
  | ptpHoldover
  /-- ADDRESS_RESOLUTION (R340). -/
  | addressResolution (port : Nat) (k : Resolution)
  /-- ILLEGAL_INSTRUCTION (R153). -/
  | illegalInstruction (off : Nat)
  /-- INSTRUCTION_FETCH (R81). -/
  | instructionFetch (core ts : Nat)
  /-- DROPPED_FRAME (R340). -/
  | droppedFrame (port : Nat)
  /-- PRIORITY_FLOW_CONTROL (R340). -/
  | priorityFlowControl (port prio : Nat) (pause : Bool)
  /-- PORT_LINK_UP_OR_DOWN (R348). -/
  | portLinkUpOrDown (port : Nat) (up : Bool)
  /-- STAGE_1_FIRMWARE_UPDATE (R350). -/
  | stage1FirmwareUpdate (f : Firmware)
  deriving DecidableEq, Repr

end Sys2Proof
end

