-- ==== Sys2Proof/Decode.lean ====
section
/-! DEFINITION. The opcode maps (08_encoding R156 to R165), the decoder over instruction words (R142 to R155) and,
after it, the encoder of the same maps. -/

namespace Sys2Proof

/-- The four base formats (R143). -/
inductive Fmt where
  | rr | ri | j | s
  deriving DecidableEq, Repr

/-- How a form extends its immediate, or that it has none (R150). -/
inductive ImmKind where
  | none | signed | unsigned
  deriving DecidableEq, Repr

/-- The file of an operand field (R144); `none`: the form does not name the field, which must be zero. -/
inductive File where
  | none | x | v | p | a | sd | cd | od
  deriving DecidableEq, Repr

/-- What a form does with rt of the REG prefix (R149). -/
inductive RtUse where
  | none | t | t2
  deriving DecidableEq, Repr

/-- What a form's entry says its immediate may be, beyond its width (R64, R144, R173, R176, R220, R225, R227, R237). -/
inductive Limit where
  | free
  | max (n : Nat)
  | selector
  | laneIndex
  | bitField
  | convert
  | sub (n : Nat)
  | trapNo
  deriving DecidableEq, Repr

/-- Where a form is accepted: on cores, in stage programs, or on both (R160, R210). -/
inductive Home where
  | core | stage | both
  deriving DecidableEq, Repr

/-- One entry of the opcode maps. -/
structure Row where
  page : Nat
  op : Nat
  fmt : Fmt
  imm : ImmKind
  /-- The greatest legal modifier; 0 where the form uses none (R146, R147). -/
  modMax : Nat
  /-- The least and the greatest legal variant; 0 and 0 where the form uses none (R148). -/
  varMin : Nat
  varMax : Nat
  rt : RtUse
  pred : Bool
  group : Bool
  dFile : File
  sFile : File
  tFile : File
  limit : Limit
  home : Home
  deriving DecidableEq, Repr

/-- How many values a field of the file may hold (R144). -/
def File.count : File → Nat
  | .none => 1
  | .x => 32
  | .v => 32
  | .p => 8
  | .a => 4
  | .sd => 8
  | .cd => 2
  | .od => 16

/-- The width that a group code names (R149). -/
def groupWidth (w : BitVec 2) : Nat :=
  if w = 0 then 1 else if w = 1 then 2 else 4

/-- A control-register selector of R63. -/
def selectorListed (n : Nat) : Bool :=
  n ≤ 0x11 || (0x18 ≤ n && n ≤ 0x27)

/-- A format code that `vcvt` accepts (R31, R225). -/
def convertCode (n : Nat) : Bool :=
  n ≤ 0x0F || n == 0x11

/-- The bytes of an integer lane (R148). -/
def laneBytes (v : BitVec 3) : Nat := 2 ^ (v.toNat % 4)

/-- The immediate obeys what the form's entry says of it. -/
def Limit.holds (l : Limit) (a : Args) : Bool :=
  match l with
  | .free => true
  | .max n => a.imm.toNat ≤ n
  | .selector => selectorListed a.imm.toNat
  | .laneIndex => a.imm.toNat < 16 / laneBytes a.v
  | .bitField => a.imm.toNat < 2 ^ 12 && a.imm.toNat % 64 + a.imm.toNat / 64 + 1 ≤ 64
  | .convert => a.imm.toNat < 1024 && convertCode (a.imm.toNat / 32) && convertCode (a.imm.toNat % 32)
  | .sub _ => a.imm == 0
  | .trapNo => a.imm.toNat < 256

/-- A register group stays inside its file; only v operands form groups (R56). -/
def groupFits (f : File) (r : RegNo) (w : BitVec 2) : Bool :=
  f != .v || r.toNat + groupWidth w ≤ 32

/-- A source group equals the destination group or shares no register with it (R56). -/
def groupApart (f : File) (r d : RegNo) (w : BitVec 2) : Bool :=
  f != .v || r == d || r.toNat + groupWidth w ≤ d.toNat || d.toNat + groupWidth w ≤ r.toNat

/-- A REG prefix is accepted by the form at all (R149). -/
def Row.takesReg (r : Row) : Bool := r.rt != .none || r.pred || r.group

/-- The fields of the PAGE prefix, or of its absence, are legal for the form (R146 to R148). -/
def Row.pageOk (r : Row) (m v : BitVec 3) : Bool :=
  m.toNat ≤ r.modMax && r.varMin ≤ v.toNat && v.toNat ≤ r.varMax

/-- The fields of the REG prefix, or of its absence, are legal for the form (R149). -/
def Row.regOk (r : Row) (t : RegNo) (p : BitVec 3) (w : BitVec 2) : Bool :=
  w != 3 && (r.pred || p == 7) && (r.group || w == 0) && (r.rt != .none || t == 0)

/-- Register limits, index limits and groups (R144, R56): step 6 of R153. -/
def Row.limitsOk (r : Row) (a : Args) : Bool :=
  a.d.toNat < r.dFile.count && a.s.toNat < r.sFile.count &&
  (r.rt == .none || a.short || a.t.toNat < r.tFile.count) &&
  (a.w == 0 ||
    (groupFits r.dFile a.d a.w && groupFits r.sFile a.s a.w && groupFits r.tFile a.t a.w &&
     (r.dFile != .v || (groupApart r.sFile a.s a.d a.w && groupApart r.tFile a.t a.d a.w)))) &&
  r.limit.holds a

/-- The map entry and the operands of an encoded instruction; `none` for an event. `part.cfg` with W = 0 has the
words of `part.cfg` (R272): the record decides, so the release row has no words of its own. -/
def Instr.parts : Instr → Option (Row × Args)
  | .add a => some (⟨0, 0x00, .rr, .none, 0, 0, 0, .t2, true, false, .x, .x, .x, .free, .both⟩, a)
  | .sub a => some (⟨0, 0x01, .rr, .none, 0, 0, 0, .t2, true, false, .x, .x, .x, .free, .both⟩, a)
  | .and a => some (⟨0, 0x02, .rr, .none, 0, 0, 0, .t2, true, false, .x, .x, .x, .free, .both⟩, a)
  | .or a => some (⟨0, 0x03, .rr, .none, 0, 0, 0, .t2, true, false, .x, .x, .x, .free, .both⟩, a)
  | .xor a => some (⟨0, 0x04, .rr, .none, 0, 0, 0, .t2, true, false, .x, .x, .x, .free, .both⟩, a)
  | .shl a => some (⟨0, 0x05, .rr, .none, 0, 0, 0, .t2, true, false, .x, .x, .x, .free, .both⟩, a)
  | .shr a => some (⟨0, 0x06, .rr, .none, 0, 0, 0, .t2, true, false, .x, .x, .x, .free, .both⟩, a)
  | .sra a => some (⟨0, 0x07, .rr, .none, 0, 0, 0, .t2, true, false, .x, .x, .x, .free, .both⟩, a)
  | .mul a => some (⟨0, 0x08, .rr, .none, 0, 0, 0, .t2, true, false, .x, .x, .x, .free, .both⟩, a)
  | .seq a => some (⟨0, 0x10, .rr, .none, 0, 0, 0, .t2, true, false, .x, .x, .x, .free, .both⟩, a)
  | .slt a => some (⟨0, 0x11, .rr, .none, 0, 0, 0, .t2, true, false, .x, .x, .x, .free, .both⟩, a)
  | .sltu a => some (⟨0, 0x12, .rr, .none, 0, 0, 0, .t2, true, false, .x, .x, .x, .free, .both⟩, a)
  | .sel a => some (⟨0, 0x13, .rr, .none, 0, 0, 0, .t2, true, false, .x, .x, .x, .free, .both⟩, a)
  | .addImm a => some (⟨0, 0x09, .ri, .signed, 0, 0, 0, .none, true, false, .x, .none, .none, .free, .both⟩, a)
  | .shlImm a => some (⟨0, 0x0A, .ri, .unsigned, 0, 0, 0, .none, true, false, .x, .none, .none, (.max 63), .both⟩, a)
  | .shrImm a => some (⟨0, 0x0B, .ri, .unsigned, 0, 0, 0, .none, true, false, .x, .none, .none, (.max 63), .both⟩, a)
  | .sraImm a => some (⟨0, 0x0C, .ri, .unsigned, 0, 0, 0, .none, true, false, .x, .none, .none, (.max 63), .both⟩, a)
  | .andImm a => some (⟨0, 0x0D, .ri, .signed, 0, 0, 0, .none, true, false, .x, .none, .none, .free, .both⟩, a)
  | .li a => some (⟨0, 0x0E, .ri, .signed, 0, 0, 0, .none, true, false, .x, .none, .none, .free, .both⟩, a)
  | .mov a => some (⟨0, 0x0F, .rr, .none, 0, 0, 0, .none, true, false, .x, .x, .none, .free, .both⟩, a)
  | .ldD a => some (⟨0, 0x14, .rr, .signed, 0, 0, 0, .none, true, false, .x, .x, .none, .free, .both⟩, a)
  | .ldW a => some (⟨0, 0x15, .rr, .signed, 0, 0, 0, .none, true, false, .x, .x, .none, .free, .both⟩, a)
  | .stD a => some (⟨0, 0x16, .rr, .signed, 0, 0, 0, .none, true, false, .x, .x, .none, .free, .both⟩, a)
  | .stW a => some (⟨0, 0x17, .rr, .signed, 0, 0, 0, .none, true, false, .x, .x, .none, .free, .both⟩, a)
  | .vld a => some (⟨0, 0x18, .rr, .signed, 0, 0, 0, .none, true, true, .v, .x, .none, .free, .core⟩, a)
  | .vst a => some (⟨0, 0x19, .rr, .signed, 0, 0, 0, .none, true, true, .v, .x, .none, .free, .core⟩, a)
  | .ldfr a => some (⟨0, 0x1A, .ri, .unsigned, 0, 0, 0, .none, true, false, .x, .none, .none, .free, .core⟩, a)
  | .stfr a => some (⟨0, 0x1B, .ri, .unsigned, 0, 0, 0, .none, true, false, .x, .none, .none, .free, .core⟩, a)
  | .b a => some (⟨0, 0x1C, .j, .signed, 0, 0, 0, .none, false, false, .none, .none, .none, .free, .both⟩, a)
  | .jal a => some (⟨0, 0x1D, .j, .signed, 0, 0, 0, .none, false, false, .none, .none, .none, .free, .both⟩, a)
  | .beq a => some (⟨0, 0x1E, .rr, .signed, 0, 0, 0, .none, false, false, .x, .x, .none, .free, .both⟩, a)
  | .bne a => some (⟨0, 0x1F, .rr, .signed, 0, 0, 0, .none, false, false, .x, .x, .none, .free, .both⟩, a)
  | .blt a => some (⟨0, 0x20, .rr, .signed, 0, 0, 0, .none, false, false, .x, .x, .none, .free, .both⟩, a)
  | .bge a => some (⟨0, 0x21, .rr, .signed, 0, 0, 0, .none, false, false, .x, .x, .none, .free, .both⟩, a)
  | .bltu a => some (⟨0, 0x22, .rr, .signed, 0, 0, 0, .none, false, false, .x, .x, .none, .free, .both⟩, a)
  | .bgeu a => some (⟨0, 0x23, .rr, .signed, 0, 0, 0, .none, false, false, .x, .x, .none, .free, .both⟩, a)
  | .bz a => some (⟨0, 0x24, .ri, .signed, 0, 0, 0, .none, false, false, .x, .none, .none, .free, .both⟩, a)
  | .bnz a => some (⟨0, 0x25, .ri, .signed, 0, 0, 0, .none, false, false, .x, .none, .none, .free, .both⟩, a)
  | .jr a => some (⟨0, 0x26, .rr, .none, 0, 0, 0, .none, false, false, .none, .x, .none, .free, .both⟩, a)
  | .loop a => some (⟨0, 0x27, .ri, .signed, 0, 0, 0, .none, false, false, .x, .none, .none, .free, .both⟩, a)
  | .kget a => some (⟨0, 0x28, .ri, .unsigned, 0, 0, 0, .none, true, false, .x, .none, .none, .selector, .core⟩, a)
  | .kput a => some (⟨0, 0x29, .ri, .unsigned, 0, 0, 0, .none, true, false, .x, .none, .none, .selector, .core⟩, a)
  | .cueDec a => some (⟨0, 0x2A, .rr, .none, 0, 0, 0, .none, false, false, .none, .x, .none, .free, .both⟩, a)
  | .send a => some (⟨0, 0x2B, .rr, .none, 0, 0, 0, .none, false, false, .x, .x, .none, .free, .both⟩, a)
  | .pstD a => some (⟨0, 0x2C, .rr, .signed, 0, 0, 0, .none, true, false, .x, .x, .none, .free, .core⟩, a)
  | .pstv a => some (⟨0, 0x2D, .rr, .signed, 0, 0, 0, .none, true, false, .v, .x, .none, .free, .core⟩, a)
  | .beos a => some (⟨0, 0x2E, .j, .signed, 0, 0, 0, .none, false, false, .none, .none, .none, .free, .core⟩, a)
  | .nop a => some (⟨0, 0x2F, .s, .none, 0, 0, 0, .none, false, false, .none, .none, .none, (.sub 0), .both⟩, a)
  | .done a => some (⟨0, 0x2F, .s, .none, 0, 0, 0, .none, false, false, .none, .none, .none, (.sub 1), .both⟩, a)
  | .ret a => some (⟨0, 0x2F, .s, .none, 0, 0, 0, .none, false, false, .none, .none, .none, (.sub 2), .both⟩, a)
  | .eret a => some (⟨0, 0x2F, .s, .none, 0, 0, 0, .none, false, false, .none, .none, .none, (.sub 3), .core⟩, a)
  | .halt a => some (⟨0, 0x2F, .s, .none, 0, 0, 0, .none, false, false, .none, .none, .none, (.sub 4), .core⟩, a)
  | .trap a => some (⟨0, 0x2F, .s, .none, 0, 0, 0, .none, false, false, .none, .none, .none, .trapNo, .both⟩, a)
  | .ldSize a => some (⟨1, 0x00, .rr, .signed, 0, 0, 3, .none, true, false, .x, .x, .none, .free, .both⟩, a)
  | .stSize a => some (⟨1, 0x01, .rr, .signed, 0, 0, 3, .none, true, false, .x, .x, .none, .free, .both⟩, a)
  | .ldAcq a => some (⟨1, 0x02, .rr, .signed, 6, 0, 3, .none, true, false, .x, .x, .none, .free, .core⟩, a)
  | .stRel a => some (⟨1, 0x03, .rr, .signed, 6, 0, 3, .none, true, false, .x, .x, .none, .free, .core⟩, a)
  | .stS a => some (⟨1, 0x04, .rr, .signed, 6, 0, 3, .none, true, false, .x, .x, .none, .free, .core⟩, a)
  | .ldv a => some (⟨1, 0x05, .rr, .signed, 0, 0, 0, .t, true, false, .x, .x, .x, .free, .core⟩, a)
  | .stv a => some (⟨1, 0x06, .rr, .signed, 0, 0, 0, .t, true, false, .x, .x, .x, .free, .core⟩, a)
  | .rcl a => some (⟨1, 0x07, .rr, .signed, 0, 0, 0, .none, true, false, .x, .x, .none, .free, .core⟩, a)
  | .ver a => some (⟨1, 0x08, .rr, .signed, 0, 0, 0, .none, true, false, .x, .x, .none, .free, .core⟩, a)
  | .pstSize a => some (⟨1, 0x09, .rr, .signed, 0, 0, 3, .none, true, false, .x, .x, .none, .free, .core⟩, a)
  | .pstvP1 a => some (⟨1, 0x0A, .rr, .signed, 0, 0, 0, .none, true, false, .v, .x, .none, .free, .core⟩, a)
  | .ldfar a => some (⟨1, 0x0B, .rr, .signed, 0, 0, 3, .none, true, false, .x, .x, .none, .free, .both⟩, a)
  | .stfar a => some (⟨1, 0x0C, .rr, .signed, 0, 0, 3, .none, true, false, .x, .x, .none, .free, .both⟩, a)
  | .vldfar a => some (⟨1, 0x0D, .rr, .signed, 0, 0, 0, .none, true, false, .v, .x, .none, .free, .core⟩, a)
  | .vldP1 a => some (⟨1, 0x0E, .rr, .signed, 0, 0, 0, .none, true, true, .v, .x, .none, .free, .core⟩, a)
  | .vstP1 a => some (⟨1, 0x0F, .rr, .signed, 0, 0, 0, .none, true, true, .v, .x, .none, .free, .core⟩, a)
  | .vlds a => some (⟨1, 0x10, .rr, .signed, 0, 0, 0, .t, true, false, .v, .x, .x, .free, .core⟩, a)
  | .vsts a => some (⟨1, 0x11, .rr, .signed, 0, 0, 0, .t, true, false, .v, .x, .x, .free, .core⟩, a)
  | .vgat a => some (⟨1, 0x12, .rr, .signed, 0, 0, 3, .t, true, false, .v, .x, .v, .free, .core⟩, a)
  | .vsct a => some (⟨1, 0x13, .rr, .signed, 0, 0, 3, .t, true, false, .v, .x, .v, .free, .core⟩, a)
  | .amoAdd a => some (⟨1, 0x14, .rr, .signed, 6, 2, 3, .t, true, false, .x, .x, .x, .free, .core⟩, a)
  | .amoAnd a => some (⟨1, 0x15, .rr, .signed, 6, 2, 3, .t, true, false, .x, .x, .x, .free, .core⟩, a)
  | .amoOr a => some (⟨1, 0x16, .rr, .signed, 6, 2, 3, .t, true, false, .x, .x, .x, .free, .core⟩, a)
  | .amoXor a => some (⟨1, 0x17, .rr, .signed, 6, 2, 3, .t, true, false, .x, .x, .x, .free, .core⟩, a)
  | .amoMin a => some (⟨1, 0x18, .rr, .signed, 6, 2, 3, .t, true, false, .x, .x, .x, .free, .core⟩, a)
  | .amoMax a => some (⟨1, 0x19, .rr, .signed, 6, 2, 3, .t, true, false, .x, .x, .x, .free, .core⟩, a)
  | .amoMinu a => some (⟨1, 0x1A, .rr, .signed, 6, 2, 3, .t, true, false, .x, .x, .x, .free, .core⟩, a)
  | .amoMaxu a => some (⟨1, 0x1B, .rr, .signed, 6, 2, 3, .t, true, false, .x, .x, .x, .free, .core⟩, a)
  | .amoSwap a => some (⟨1, 0x1C, .rr, .signed, 6, 2, 3, .t, true, false, .x, .x, .x, .free, .core⟩, a)
  | .cas a => some (⟨1, 0x1D, .rr, .signed, 6, 2, 3, .t, true, false, .x, .x, .x, .free, .core⟩, a)
  | .fence a => some (⟨1, 0x1E, .s, .none, 6, 0, 4, .none, false, false, .none, .none, .none, (.sub 0), .core⟩, a)
  | .cpy a => some (⟨1, 0x1F, .rr, .none, 0, 0, 0, .t, false, false, .x, .x, .x, .free, .core⟩, a)
  | .wmk a => some (⟨1, 0x20, .ri, .unsigned, 0, 0, 0, .none, false, false, .x, .none, .none, (.max 3), .core⟩, a)
  | .job a => some (⟨1, 0x21, .rr, .none, 0, 0, 0, .none, false, false, .x, .x, .none, .free, .core⟩, a)
  | .jwait a => some (⟨1, 0x22, .rr, .none, 0, 0, 0, .none, false, false, .none, .x, .none, .free, .core⟩, a)
  | .tilePut a => some (⟨1, 0x23, .rr, .none, 0, 0, 0, .t, false, false, .x, .x, .x, .free, .stage⟩, a)
  | .tileGet a => some (⟨1, 0x24, .rr, .none, 0, 0, 0, .t, false, false, .x, .x, .x, .free, .stage⟩, a)
  | .sfill a => some (⟨1, 0x25, .rr, .none, 0, 0, 0, .t, false, false, .x, .x, .x, .free, .stage⟩, a)
  | .sdrain a => some (⟨1, 0x26, .rr, .none, 0, 0, 0, .t, false, false, .x, .x, .x, .free, .stage⟩, a)
  | .vaddInt a => some (⟨2, 0x00, .rr, .none, 0, 0, 7, .t2, true, true, .v, .v, .v, .free, .core⟩, a)
  | .vsubInt a => some (⟨2, 0x01, .rr, .none, 0, 0, 7, .t2, true, true, .v, .v, .v, .free, .core⟩, a)
  | .vmulInt a => some (⟨2, 0x02, .rr, .none, 0, 0, 7, .t2, true, true, .v, .v, .v, .free, .core⟩, a)
  | .vminInt a => some (⟨2, 0x03, .rr, .none, 0, 0, 7, .t2, true, true, .v, .v, .v, .free, .core⟩, a)
  | .vmaxInt a => some (⟨2, 0x04, .rr, .none, 0, 0, 7, .t2, true, true, .v, .v, .v, .free, .core⟩, a)
  | .vabsInt a => some (⟨2, 0x05, .rr, .none, 0, 0, 3, .none, true, true, .v, .v, .none, .free, .core⟩, a)
  | .vnegInt a => some (⟨2, 0x06, .rr, .none, 0, 0, 3, .none, true, true, .v, .v, .none, .free, .core⟩, a)
  | .vcmpInt a => some (⟨2, 0x07, .rr, .none, 3, 0, 7, .t, true, false, .p, .v, .v, .free, .core⟩, a)
  | .vsel a => some (⟨2, 0x08, .rr, .none, 0, 0, 0, .t2, true, true, .v, .v, .v, .free, .core⟩, a)
  | .vand a => some (⟨2, 0x09, .rr, .none, 0, 0, 0, .t2, true, true, .v, .v, .v, .free, .core⟩, a)
  | .vor a => some (⟨2, 0x0A, .rr, .none, 0, 0, 0, .t2, true, true, .v, .v, .v, .free, .core⟩, a)
  | .vxor a => some (⟨2, 0x0B, .rr, .none, 0, 0, 0, .t2, true, true, .v, .v, .v, .free, .core⟩, a)
  | .vshl a => some (⟨2, 0x0C, .rr, .none, 0, 0, 7, .t2, true, true, .v, .v, .v, .free, .core⟩, a)
  | .vshr a => some (⟨2, 0x0D, .rr, .none, 0, 0, 7, .t2, true, true, .v, .v, .v, .free, .core⟩, a)
  | .vsra a => some (⟨2, 0x0E, .rr, .none, 0, 0, 7, .t2, true, true, .v, .v, .v, .free, .core⟩, a)
  | .vperm a => some (⟨2, 0x0F, .rr, .none, 0, 0, 0, .t2, true, false, .v, .v, .v, .free, .core⟩, a)
  | .vbcst a => some (⟨2, 0x10, .rr, .none, 0, 0, 7, .none, true, false, .v, .x, .none, .free, .core⟩, a)
  | .vext a => some (⟨2, 0x11, .rr, .unsigned, 0, 0, 7, .none, true, false, .x, .v, .none, .laneIndex, .core⟩, a)
  | .vins a => some (⟨2, 0x12, .rr, .unsigned, 0, 0, 7, .none, true, false, .v, .x, .none, .laneIndex, .core⟩, a)
  | .vmov a => some (⟨2, 0x13, .rr, .none, 0, 0, 0, .none, true, true, .v, .v, .none, .free, .core⟩, a)
  | .vredSumInt a => some (⟨2, 0x14, .rr, .none, 0, 0, 7, .none, true, false, .x, .v, .none, .free, .core⟩, a)
  | .vredMaxInt a => some (⟨2, 0x15, .rr, .none, 0, 0, 7, .none, true, false, .x, .v, .none, .free, .core⟩, a)
  | .vredMinInt a => some (⟨2, 0x16, .rr, .none, 0, 0, 7, .none, true, false, .x, .v, .none, .free, .core⟩, a)
  | .andn a => some (⟨2, 0x17, .rr, .none, 0, 0, 0, .t2, true, false, .x, .x, .x, .free, .both⟩, a)
  | .rol a => some (⟨2, 0x18, .rr, .none, 0, 0, 0, .t2, true, false, .x, .x, .x, .free, .both⟩, a)
  | .mulh a => some (⟨2, 0x19, .rr, .none, 0, 0, 0, .t2, true, false, .x, .x, .x, .free, .both⟩, a)
  | .mulhu a => some (⟨2, 0x1A, .rr, .none, 0, 0, 0, .t2, true, false, .x, .x, .x, .free, .both⟩, a)
  | .div a => some (⟨2, 0x1B, .rr, .none, 0, 0, 0, .t2, true, false, .x, .x, .x, .free, .both⟩, a)
  | .divu a => some (⟨2, 0x1C, .rr, .none, 0, 0, 0, .t2, true, false, .x, .x, .x, .free, .both⟩, a)
  | .rem a => some (⟨2, 0x1D, .rr, .none, 0, 0, 0, .t2, true, false, .x, .x, .x, .free, .both⟩, a)
  | .remu a => some (⟨2, 0x1E, .rr, .none, 0, 0, 0, .t2, true, false, .x, .x, .x, .free, .both⟩, a)
  | .min a => some (⟨2, 0x1F, .rr, .none, 0, 0, 0, .t2, true, false, .x, .x, .x, .free, .both⟩, a)
  | .max a => some (⟨2, 0x20, .rr, .none, 0, 0, 0, .t2, true, false, .x, .x, .x, .free, .both⟩, a)
  | .minu a => some (⟨2, 0x21, .rr, .none, 0, 0, 0, .t2, true, false, .x, .x, .x, .free, .both⟩, a)
  | .maxu a => some (⟨2, 0x22, .rr, .none, 0, 0, 0, .t2, true, false, .x, .x, .x, .free, .both⟩, a)
  | .clz a => some (⟨2, 0x23, .rr, .none, 0, 0, 0, .none, true, false, .x, .x, .none, .free, .both⟩, a)
  | .ctz a => some (⟨2, 0x24, .rr, .none, 0, 0, 0, .none, true, false, .x, .x, .none, .free, .both⟩, a)
  | .popc a => some (⟨2, 0x25, .rr, .none, 0, 0, 0, .none, true, false, .x, .x, .none, .free, .both⟩, a)
  | .bswap a => some (⟨2, 0x26, .rr, .none, 0, 1, 3, .none, true, false, .x, .x, .none, .free, .both⟩, a)
  | .sext a => some (⟨2, 0x27, .rr, .none, 0, 0, 2, .none, true, false, .x, .x, .none, .free, .both⟩, a)
  | .zext a => some (⟨2, 0x28, .rr, .none, 0, 0, 2, .none, true, false, .x, .x, .none, .free, .both⟩, a)
  | .lih a => some (⟨2, 0x29, .ri, .signed, 0, 0, 0, .none, true, false, .x, .none, .none, .free, .both⟩, a)
  | .adds a => some (⟨2, 0x2A, .rr, .none, 0, 0, 0, .t2, true, false, .x, .x, .x, .free, .both⟩, a)
  | .bfx a => some (⟨2, 0x2B, .rr, .unsigned, 0, 0, 0, .none, true, false, .x, .x, .none, .bitField, .both⟩, a)
  | .bfi a => some (⟨2, 0x2C, .rr, .unsigned, 0, 0, 0, .none, true, false, .x, .x, .none, .bitField, .both⟩, a)
  | .orImm a => some (⟨2, 0x2D, .ri, .signed, 0, 0, 0, .none, true, false, .x, .none, .none, .free, .both⟩, a)
  | .xorImm a => some (⟨2, 0x2E, .ri, .signed, 0, 0, 0, .none, true, false, .x, .none, .none, .free, .both⟩, a)
  | .vaddFloat a => some (⟨3, 0x00, .rr, .none, 4, 0, 3, .t2, true, true, .v, .v, .v, .free, .core⟩, a)
  | .vsubFloat a => some (⟨3, 0x01, .rr, .none, 4, 0, 3, .t2, true, true, .v, .v, .v, .free, .core⟩, a)
  | .vmulFloat a => some (⟨3, 0x02, .rr, .none, 4, 0, 3, .t2, true, true, .v, .v, .v, .free, .core⟩, a)
  | .vfma a => some (⟨3, 0x03, .rr, .none, 4, 0, 3, .t2, true, true, .v, .v, .v, .free, .core⟩, a)
  | .vfms a => some (⟨3, 0x04, .rr, .none, 4, 0, 3, .t2, true, true, .v, .v, .v, .free, .core⟩, a)
  | .vminFloat a => some (⟨3, 0x05, .rr, .none, 0, 0, 3, .t2, true, true, .v, .v, .v, .free, .core⟩, a)
  | .vmaxFloat a => some (⟨3, 0x06, .rr, .none, 0, 0, 3, .t2, true, true, .v, .v, .v, .free, .core⟩, a)
  | .vabsFloat a => some (⟨3, 0x07, .rr, .none, 0, 0, 3, .none, true, true, .v, .v, .none, .free, .core⟩, a)
  | .vnegFloat a => some (⟨3, 0x08, .rr, .none, 0, 0, 3, .none, true, true, .v, .v, .none, .free, .core⟩, a)
  | .vdiv a => some (⟨3, 0x09, .rr, .none, 4, 0, 3, .t2, true, true, .v, .v, .v, .free, .core⟩, a)
  | .vsqrt a => some (⟨3, 0x0A, .rr, .none, 4, 0, 3, .none, true, true, .v, .v, .none, .free, .core⟩, a)
  | .vcmpFloat a => some (⟨3, 0x0B, .rr, .none, 4, 0, 3, .t, true, false, .p, .v, .v, .free, .core⟩, a)
  | .vredSumFloat a => some (⟨3, 0x0C, .rr, .none, 4, 0, 3, .t, true, false, .v, .v, .v, .free, .core⟩, a)
  | .vredMaxFloat a => some (⟨3, 0x0D, .rr, .none, 0, 0, 3, .t, true, false, .v, .v, .v, .free, .core⟩, a)
  | .vredMinFloat a => some (⟨3, 0x0E, .rr, .none, 0, 0, 3, .t, true, false, .v, .v, .v, .free, .core⟩, a)
  | .vdot a => some (⟨3, 0x0F, .rr, .none, 4, 0, 3, .t, true, false, .v, .v, .v, .free, .core⟩, a)
  | .vcvt a => some (⟨3, 0x10, .rr, .unsigned, 4, 0, 0, .none, true, false, .v, .v, .none, .convert, .core⟩, a)
  | .vbmand a => some (⟨4, 0x00, .rr, .none, 0, 0, 0, .t2, true, false, .v, .v, .v, .free, .core⟩, a)
  | .vpfx a => some (⟨4, 0x01, .rr, .none, 0, 0, 0, .none, true, false, .v, .v, .none, .free, .core⟩, a)
  | .vpopc a => some (⟨4, 0x02, .rr, .none, 0, 0, 0, .none, true, false, .x, .v, .none, .free, .core⟩, a)
  | .pand a => some (⟨4, 0x03, .rr, .none, 0, 0, 0, .t2, true, false, .p, .p, .p, .free, .core⟩, a)
  | .por a => some (⟨4, 0x04, .rr, .none, 0, 0, 0, .t2, true, false, .p, .p, .p, .free, .core⟩, a)
  | .pxor a => some (⟨4, 0x05, .rr, .none, 0, 0, 0, .t2, true, false, .p, .p, .p, .free, .core⟩, a)
  | .pnot a => some (⟨4, 0x06, .rr, .none, 0, 0, 0, .none, true, false, .p, .p, .none, .free, .core⟩, a)
  | .pmov a => some (⟨4, 0x07, .rr, .none, 0, 0, 0, .none, true, false, .p, .p, .none, .free, .core⟩, a)
  | .pset a => some (⟨4, 0x08, .ri, .unsigned, 0, 0, 0, .none, true, false, .p, .none, .none, (.max 65535), .core⟩, a)
  | .mma a => some (⟨5, 0x00, .rr, .none, 0, 0, 0, .t, false, false, .a, .x, .x, .free, .core⟩, a)
  | .mmag a => some (⟨5, 0x01, .rr, .none, 0, 0, 0, .t, false, false, .a, .x, .x, .free, .core⟩, a)
  | .mmix a => some (⟨5, 0x02, .rr, .none, 0, 0, 0, .t, false, false, .a, .v, .x, .free, .core⟩, a)
  | .macz a => some (⟨5, 0x03, .rr, .none, 0, 0, 0, .none, false, false, .a, .none, .none, .free, .core⟩, a)
  | .macr a => some (⟨5, 0x04, .rr, .unsigned, 0, 0, 0, .none, false, false, .v, .a, .none, (.max 63), .core⟩, a)
  | .macw a => some (⟨5, 0x05, .rr, .unsigned, 0, 0, 0, .none, false, false, .a, .v, .none, (.max 31), .core⟩, a)
  | .macst a => some (⟨5, 0x06, .rr, .signed, 0, 0, 0, .none, false, false, .a, .x, .none, .free, .core⟩, a)
  | .mreh a => some (⟨5, 0x07, .s, .none, 0, 0, 0, .none, false, false, .none, .none, .none, (.sub 0), .core⟩, a)
  | .mwait a => some (⟨5, 0x08, .rr, .none, 0, 0, 0, .none, false, false, .a, .none, .none, .free, .core⟩, a)
  | .gacc a => some (⟨6, 0x00, .rr, .none, 0, 0, 0, .none, false, false, .x, .x, .none, .free, .core⟩, a)
  | .gsub a => some (⟨6, 0x01, .rr, .none, 0, 0, 0, .none, false, false, .x, .x, .none, .free, .core⟩, a)
  | .gschur a => some (⟨6, 0x02, .rr, .none, 0, 0, 0, .t, false, false, .x, .x, .x, .free, .core⟩, a)
  | .gdamp a => some (⟨6, 0x03, .rr, .none, 0, 0, 0, .t, false, false, .x, .x, .x, .free, .core⟩, a)
  | .gmean a => some (⟨6, 0x04, .rr, .none, 0, 0, 0, .none, false, false, .x, .x, .none, .free, .core⟩, a)
  | .gres a => some (⟨6, 0x05, .rr, .none, 0, 0, 0, .t, false, false, .x, .x, .x, .free, .core⟩, a)
  | .sendP7 a => some (⟨7, 0x00, .rr, .none, 0, 0, 0, .none, false, false, .x, .x, .none, .free, .both⟩, a)
  | .sendc a => some (⟨7, 0x01, .rr, .unsigned, 0, 0, 0, .none, false, false, .x, .x, .none, (.max 255), .core⟩, a)
  | .cueDecP7 a => some (⟨7, 0x02, .rr, .none, 0, 0, 0, .none, false, false, .none, .x, .none, .free, .both⟩, a)
  | .cueArm a => some (⟨7, 0x03, .rr, .none, 0, 0, 0, .none, false, false, .x, .x, .none, .free, .core⟩, a)
  | .cueBind a => some (⟨7, 0x04, .rr, .none, 0, 0, 0, .none, false, false, .x, .x, .none, .free, .core⟩, a)
  | .cueStat a => some (⟨7, 0x05, .rr, .none, 0, 0, 0, .none, false, false, .x, .x, .none, .free, .core⟩, a)
  | .ready a => some (⟨7, 0x06, .rr, .none, 0, 0, 0, .none, false, false, .none, .x, .none, .free, .core⟩, a)
  | .park a => some (⟨7, 0x07, .rr, .none, 0, 0, 0, .none, false, false, .none, .x, .none, .free, .core⟩, a)
  | .rpoll a => some (⟨7, 0x08, .ri, .unsigned, 0, 0, 0, .none, false, false, .x, .none, .none, (.max 3), .core⟩, a)
  | .rwait a => some (⟨7, 0x09, .ri, .unsigned, 0, 0, 0, .none, false, false, .x, .none, .none, (.max 3), .core⟩, a)
  | .rpop a => some (⟨7, 0x0A, .ri, .unsigned, 0, 0, 0, .none, false, false, .none, .none, .none, (.max 3), .core⟩, a)
  | .mbinc a => some (⟨7, 0x0B, .rr, .none, 0, 0, 0, .none, false, false, .x, .x, .none, .free, .both⟩, a)
  | .mbwait a => some (⟨7, 0x0C, .rr, .none, 0, 0, 0, .t, false, false, .x, .x, .x, .free, .core⟩, a)
  | .mbget a => some (⟨7, 0x0D, .rr, .none, 0, 0, 0, .none, false, false, .x, .x, .none, .free, .core⟩, a)
  | .sbind a => some (⟨8, 0x00, .rr, .none, 0, 0, 0, .none, false, false, .sd, .x, .none, .free, .core⟩, a)
  | .sclose a => some (⟨8, 0x01, .rr, .none, 0, 0, 0, .none, false, false, .sd, .none, .none, .free, .core⟩, a)
  | .sstat a => some (⟨8, 0x02, .ri, .unsigned, 0, 0, 0, .none, false, false, .x, .none, .none, (.max 7), .core⟩, a)
  | .sseek a => some (⟨8, 0x03, .rr, .none, 0, 0, 0, .none, false, false, .sd, .x, .none, .free, .core⟩, a)
  | .beosP8 a => some (⟨8, 0x04, .j, .signed, 0, 0, 0, .none, false, false, .none, .none, .none, .free, .core⟩, a)
  | .ldfrP8 a => some (⟨8, 0x05, .ri, .unsigned, 0, 0, 0, .none, true, false, .x, .none, .none, .free, .core⟩, a)
  | .stfrP8 a => some (⟨8, 0x06, .ri, .unsigned, 0, 0, 0, .none, true, false, .x, .none, .none, .free, .core⟩, a)
  | .vldfr a => some (⟨8, 0x07, .ri, .unsigned, 0, 0, 0, .none, true, false, .v, .none, .none, .free, .core⟩, a)
  | .vstfr a => some (⟨8, 0x08, .ri, .unsigned, 0, 0, 0, .none, true, false, .v, .none, .none, .free, .core⟩, a)
  | .enter a => some (⟨8, 0x09, .ri, .unsigned, 0, 0, 0, .none, false, false, .none, .none, .none, .free, .core⟩, a)
  | .leave a => some (⟨8, 0x0A, .s, .none, 0, 0, 0, .none, false, false, .none, .none, .none, (.sub 0), .core⟩, a)
  | .dmov a => some (⟨8, 0x0B, .ri, .unsigned, 0, 0, 0, .none, false, false, .x, .none, .none, (.max 7), .core⟩, a)
  | .frref a => some (⟨8, 0x0C, .rr, .none, 0, 0, 0, .none, false, false, .none, .x, .none, .free, .core⟩, a)
  | .frrel a => some (⟨8, 0x0D, .rr, .none, 0, 0, 0, .none, false, false, .none, .x, .none, .free, .core⟩, a)
  | .cfetch a => some (⟨8, 0x0E, .rr, .none, 0, 0, 0, .none, false, false, .od, .x, .none, .free, .core⟩, a)
  | .cstat a => some (⟨8, 0x0F, .ri, .unsigned, 0, 0, 0, .none, false, false, .x, .none, .none, (.max 15), .core⟩, a)
  | .jf a => some (⟨8, 0x10, .j, .signed, 0, 0, 0, .none, false, false, .none, .none, .none, .free, .core⟩, a)
  | .jfl a => some (⟨8, 0x11, .j, .signed, 0, 0, 0, .none, false, false, .none, .none, .none, .free, .core⟩, a)
  | .curtain a => some (⟨9, 0x00, .rr, .none, 0, 0, 0, .none, false, false, .cd, .x, .none, .free, .core⟩, a)
  | .curtainArr a => some (⟨9, 0x01, .rr, .none, 0, 0, 0, .none, false, false, .cd, .none, .none, .free, .core⟩, a)
  | .curtainExcuse a => some (⟨9, 0x02, .rr, .none, 0, 0, 0, .none, false, false, .cd, .x, .none, .free, .core⟩, a)
  | .castq a => some (⟨9, 0x03, .ri, .unsigned, 0, 0, 0, .none, false, false, .x, .none, .none, (.max 3), .core⟩, a)
  | .qenq a => some (⟨9, 0x04, .rr, .none, 0, 0, 0, .t, false, false, .x, .x, .x, .free, .core⟩, a)
  | .qdeq a => some (⟨9, 0x05, .rr, .none, 0, 0, 0, .none, false, false, .x, .x, .none, .free, .core⟩, a)
  | .qsteal a => some (⟨9, 0x06, .rr, .none, 0, 0, 0, .none, false, false, .x, .x, .none, .free, .core⟩, a)
  | .qmint a => some (⟨9, 0x07, .rr, .none, 0, 0, 0, .t, false, false, .x, .x, .x, .free, .core⟩, a)
  | .chorus a => some (⟨9, 0x08, .rr, .none, 0, 0, 0, .none, false, false, .none, .x, .none, .free, .core⟩, a)
  | .chorusEnd a => some (⟨9, 0x09, .s, .none, 0, 0, 0, .none, false, false, .none, .none, .none, (.sub 0), .core⟩, a)
  | .partCfg a => some (⟨15, 0x00, .rr, .none, 0, 0, 0, .none, false, false, .x, .x, .none, .free, .core⟩, a)
  | .partZero a => some (⟨15, 0x01, .rr, .none, 0, 0, 0, .none, false, false, .x, .x, .none, .free, .core⟩, a)
  | .partRun a => some (⟨15, 0x02, .rr, .none, 0, 0, 0, .none, false, false, .x, .x, .none, .free, .core⟩, a)
  | .partSusp a => some (⟨15, 0x03, .rr, .none, 0, 0, 0, .none, false, false, .x, .none, .none, .free, .core⟩, a)
  | .slicePut a => some (⟨15, 0x04, .rr, .none, 0, 0, 0, .t, false, false, .x, .x, .x, .free, .core⟩, a)
  | .sliceArm a => some (⟨15, 0x05, .s, .none, 0, 0, 0, .none, false, false, .none, .none, .none, (.sub 0), .core⟩, a)
  | .keyPut a => some (⟨15, 0x06, .rr, .none, 0, 0, 0, .t, false, false, .x, .x, .x, .free, .core⟩, a)
  | .keyZero a => some (⟨15, 0x07, .rr, .none, 0, 0, 0, .none, false, false, .x, .x, .none, .free, .core⟩, a)
  | .partCfgRelease _ => none
  | .sysPageTableWrite _ _ => none
  | .asyncTrapDelivery _ _ => none
  | .codeletStart _ _ => none
  | .contextResume _ _ => none
  | .faultResume _ _ => none
  | .eventTake _ => none
  | .cueDecArrival _ => none
  | .messageAppend _ => none
  | .postedStoreArrival _ => none
  | .stvArrival _ => none
  | .mailboxIncrement _ => none
  | .deliveryAccepted _ => none
  | .deliveryRefused _ => none
  | .retransmit _ => none
  | .farRequest _ => none
  | .farAnswer _ => none
  | .contextWake _ => none
  | .faultWake _ => none
  | .versionWaitPark _ _ => none
  | .parkTimeout _ _ => none
  | .quantumChoice _ => none
  | .fetchComplete _ _ _ => none
  | .fetchFault _ _ _ => none
  | .drainEnd _ _ _ => none
  | .writebackDone _ _ _ => none
  | .pinTimeout _ _ _ => none
  | .streamFill _ _ _ => none
  | .streamDrain _ _ _ => none
  | .linkElementArrival _ => none
  | .copyPush _ => none
  | .copyFault _ => none
  | .jobStart _ _ => none
  | .jobComplete _ _ => none
  | .jobFault _ _ => none
  | .stageTimeout _ _ => none
  | .matrixBegin _ => none
  | .matrixComplete _ => none
  | .gangBarrierComplete _ _ => none
  | .gangTimeout _ _ => none
  | .gangAbort _ _ => none
  | .schurComplete _ => none
  | .curtainRelease _ _ => none
  | .curtainTimeout _ _ => none
  | .mailboxTimeout _ _ => none
  | .chorusWaitTimeout _ _ => none
  | .castRoundComplete _ _ => none
  | .collectiveTimeout _ _ => none
  | .overlayFetchDone _ _ => none
  | .energyUpdate => none
  | .budgetPeriod => none
  | .powerPeriod => none
  | .launchGo _ => none
  | .zeroingDone _ => none
  | .sliceSwitch => none
  | .linkResync _ _ => none
  | .linkDead _ _ => none
  | .routeChange => none
  | .moduleReset => none
  | .configurePartition _ => none
  | .zeroPartition _ => none
  | .launch _ => none
  | .suspend _ => none
  | .resume _ => none
  | .sliceEntry _ => none
  | .armSlices _ => none
  | .setAllotment _ => none
  | .readEnergy _ => none
  | .attest _ => none
  | .advanceRollback _ => none
  | .readStatus _ => none
  | .rdmaWrite _ _ _ => none
  | .rdmaRead _ _ _ => none
  | .roceSend _ _ => none
  | .ptpMessage _ => none
  | .ptpHoldover => none
  | .addressResolution _ _ => none
  | .illegalInstruction _ => none
  | .instructionFetch _ _ => none
  | .droppedFrame _ => none
  | .priorityFlowControl _ _ _ => none
  | .portLinkUpOrDown _ _ => none
  | .stage1FirmwareUpdate _ => none

/-- Page 0 of the opcode maps: the instruction that an operation value names (R156). -/
def page0 (op : Nat) (a : Args) : Option Instr :=
  match op with
  | 0x00 => some (.add a)
  | 0x01 => some (.sub a)
  | 0x02 => some (.and a)
  | 0x03 => some (.or a)
  | 0x04 => some (.xor a)
  | 0x05 => some (.shl a)
  | 0x06 => some (.shr a)
  | 0x07 => some (.sra a)
  | 0x08 => some (.mul a)
  | 0x09 => some (.addImm a)
  | 0x0A => some (.shlImm a)
  | 0x0B => some (.shrImm a)
  | 0x0C => some (.sraImm a)
  | 0x0D => some (.andImm a)
  | 0x0E => some (.li a)
  | 0x0F => some (.mov a)
  | 0x10 => some (.seq a)
  | 0x11 => some (.slt a)
  | 0x12 => some (.sltu a)
  | 0x13 => some (.sel a)
  | 0x14 => some (.ldD a)
  | 0x15 => some (.ldW a)
  | 0x16 => some (.stD a)
  | 0x17 => some (.stW a)
  | 0x18 => some (.vld a)
  | 0x19 => some (.vst a)
  | 0x1A => some (.ldfr a)
  | 0x1B => some (.stfr a)
  | 0x1C => some (.b a)
  | 0x1D => some (.jal a)
  | 0x1E => some (.beq a)
  | 0x1F => some (.bne a)
  | 0x20 => some (.blt a)
  | 0x21 => some (.bge a)
  | 0x22 => some (.bltu a)
  | 0x23 => some (.bgeu a)
  | 0x24 => some (.bz a)
  | 0x25 => some (.bnz a)
  | 0x26 => some (.jr a)
  | 0x27 => some (.loop a)
  | 0x28 => some (.kget a)
  | 0x29 => some (.kput a)
  | 0x2A => some (.cueDec a)
  | 0x2B => some (.send a)
  | 0x2C => some (.pstD a)
  | 0x2D => some (.pstv a)
  | 0x2E => some (.beos a)
  | _ => none

/-- Page 1 of the opcode maps: the instruction that an operation value names (R156). -/
def page1 (op : Nat) (a : Args) : Option Instr :=
  match op with
  | 0x00 => some (.ldSize a)
  | 0x01 => some (.stSize a)
  | 0x02 => some (.ldAcq a)
  | 0x03 => some (.stRel a)
  | 0x04 => some (.stS a)
  | 0x05 => some (.ldv a)
  | 0x06 => some (.stv a)
  | 0x07 => some (.rcl a)
  | 0x08 => some (.ver a)
  | 0x09 => some (.pstSize a)
  | 0x0A => some (.pstvP1 a)
  | 0x0B => some (.ldfar a)
  | 0x0C => some (.stfar a)
  | 0x0D => some (.vldfar a)
  | 0x0E => some (.vldP1 a)
  | 0x0F => some (.vstP1 a)
  | 0x10 => some (.vlds a)
  | 0x11 => some (.vsts a)
  | 0x12 => some (.vgat a)
  | 0x13 => some (.vsct a)
  | 0x14 => some (.amoAdd a)
  | 0x15 => some (.amoAnd a)
  | 0x16 => some (.amoOr a)
  | 0x17 => some (.amoXor a)
  | 0x18 => some (.amoMin a)
  | 0x19 => some (.amoMax a)
  | 0x1A => some (.amoMinu a)
  | 0x1B => some (.amoMaxu a)
  | 0x1C => some (.amoSwap a)
  | 0x1D => some (.cas a)
  | 0x1E => some (.fence a)
  | 0x1F => some (.cpy a)
  | 0x20 => some (.wmk a)
  | 0x21 => some (.job a)
  | 0x22 => some (.jwait a)
  | 0x23 => some (.tilePut a)
  | 0x24 => some (.tileGet a)
  | 0x25 => some (.sfill a)
  | 0x26 => some (.sdrain a)
  | _ => none

/-- Page 2 of the opcode maps: the instruction that an operation value names (R156). -/
def page2 (op : Nat) (a : Args) : Option Instr :=
  match op with
  | 0x00 => some (.vaddInt a)
  | 0x01 => some (.vsubInt a)
  | 0x02 => some (.vmulInt a)
  | 0x03 => some (.vminInt a)
  | 0x04 => some (.vmaxInt a)
  | 0x05 => some (.vabsInt a)
  | 0x06 => some (.vnegInt a)
  | 0x07 => some (.vcmpInt a)
  | 0x08 => some (.vsel a)
  | 0x09 => some (.vand a)
  | 0x0A => some (.vor a)
  | 0x0B => some (.vxor a)
  | 0x0C => some (.vshl a)
  | 0x0D => some (.vshr a)
  | 0x0E => some (.vsra a)
  | 0x0F => some (.vperm a)
  | 0x10 => some (.vbcst a)
  | 0x11 => some (.vext a)
  | 0x12 => some (.vins a)
  | 0x13 => some (.vmov a)
  | 0x14 => some (.vredSumInt a)
  | 0x15 => some (.vredMaxInt a)
  | 0x16 => some (.vredMinInt a)
  | 0x17 => some (.andn a)
  | 0x18 => some (.rol a)
  | 0x19 => some (.mulh a)
  | 0x1A => some (.mulhu a)
  | 0x1B => some (.div a)
  | 0x1C => some (.divu a)
  | 0x1D => some (.rem a)
  | 0x1E => some (.remu a)
  | 0x1F => some (.min a)
  | 0x20 => some (.max a)
  | 0x21 => some (.minu a)
  | 0x22 => some (.maxu a)
  | 0x23 => some (.clz a)
  | 0x24 => some (.ctz a)
  | 0x25 => some (.popc a)
  | 0x26 => some (.bswap a)
  | 0x27 => some (.sext a)
  | 0x28 => some (.zext a)
  | 0x29 => some (.lih a)
  | 0x2A => some (.adds a)
  | 0x2B => some (.bfx a)
  | 0x2C => some (.bfi a)
  | 0x2D => some (.orImm a)
  | 0x2E => some (.xorImm a)
  | _ => none

/-- Page 3 of the opcode maps: the instruction that an operation value names (R156). -/
def page3 (op : Nat) (a : Args) : Option Instr :=
  match op with
  | 0x00 => some (.vaddFloat a)
  | 0x01 => some (.vsubFloat a)
  | 0x02 => some (.vmulFloat a)
  | 0x03 => some (.vfma a)
  | 0x04 => some (.vfms a)
  | 0x05 => some (.vminFloat a)
  | 0x06 => some (.vmaxFloat a)
  | 0x07 => some (.vabsFloat a)
  | 0x08 => some (.vnegFloat a)
  | 0x09 => some (.vdiv a)
  | 0x0A => some (.vsqrt a)
  | 0x0B => some (.vcmpFloat a)
  | 0x0C => some (.vredSumFloat a)
  | 0x0D => some (.vredMaxFloat a)
  | 0x0E => some (.vredMinFloat a)
  | 0x0F => some (.vdot a)
  | 0x10 => some (.vcvt a)
  | _ => none

/-- Page 4 of the opcode maps: the instruction that an operation value names (R156). -/
def page4 (op : Nat) (a : Args) : Option Instr :=
  match op with
  | 0x00 => some (.vbmand a)
  | 0x01 => some (.vpfx a)
  | 0x02 => some (.vpopc a)
  | 0x03 => some (.pand a)
  | 0x04 => some (.por a)
  | 0x05 => some (.pxor a)
  | 0x06 => some (.pnot a)
  | 0x07 => some (.pmov a)
  | 0x08 => some (.pset a)
  | _ => none

/-- Page 5 of the opcode maps: the instruction that an operation value names (R156). -/
def page5 (op : Nat) (a : Args) : Option Instr :=
  match op with
  | 0x00 => some (.mma a)
  | 0x01 => some (.mmag a)
  | 0x02 => some (.mmix a)
  | 0x03 => some (.macz a)
  | 0x04 => some (.macr a)
  | 0x05 => some (.macw a)
  | 0x06 => some (.macst a)
  | 0x07 => some (.mreh a)
  | 0x08 => some (.mwait a)
  | _ => none

/-- Page 6 of the opcode maps: the instruction that an operation value names (R156). -/
def page6 (op : Nat) (a : Args) : Option Instr :=
  match op with
  | 0x00 => some (.gacc a)
  | 0x01 => some (.gsub a)
  | 0x02 => some (.gschur a)
  | 0x03 => some (.gdamp a)
  | 0x04 => some (.gmean a)
  | 0x05 => some (.gres a)
  | _ => none

/-- Page 7 of the opcode maps: the instruction that an operation value names (R156). -/
def page7 (op : Nat) (a : Args) : Option Instr :=
  match op with
  | 0x00 => some (.sendP7 a)
  | 0x01 => some (.sendc a)
  | 0x02 => some (.cueDecP7 a)
  | 0x03 => some (.cueArm a)
  | 0x04 => some (.cueBind a)
  | 0x05 => some (.cueStat a)
  | 0x06 => some (.ready a)
  | 0x07 => some (.park a)
  | 0x08 => some (.rpoll a)
  | 0x09 => some (.rwait a)
  | 0x0A => some (.rpop a)
  | 0x0B => some (.mbinc a)
  | 0x0C => some (.mbwait a)
  | 0x0D => some (.mbget a)
  | _ => none

/-- Page 8 of the opcode maps: the instruction that an operation value names (R156). -/
def page8 (op : Nat) (a : Args) : Option Instr :=
  match op with
  | 0x00 => some (.sbind a)
  | 0x01 => some (.sclose a)
  | 0x02 => some (.sstat a)
  | 0x03 => some (.sseek a)
  | 0x04 => some (.beosP8 a)
  | 0x05 => some (.ldfrP8 a)
  | 0x06 => some (.stfrP8 a)
  | 0x07 => some (.vldfr a)
  | 0x08 => some (.vstfr a)
  | 0x09 => some (.enter a)
  | 0x0A => some (.leave a)
  | 0x0B => some (.dmov a)
  | 0x0C => some (.frref a)
  | 0x0D => some (.frrel a)
  | 0x0E => some (.cfetch a)
  | 0x0F => some (.cstat a)
  | 0x10 => some (.jf a)
  | 0x11 => some (.jfl a)
  | _ => none

/-- Page 9 of the opcode maps: the instruction that an operation value names (R156). -/
def page9 (op : Nat) (a : Args) : Option Instr :=
  match op with
  | 0x00 => some (.curtain a)
  | 0x01 => some (.curtainArr a)
  | 0x02 => some (.curtainExcuse a)
  | 0x03 => some (.castq a)
  | 0x04 => some (.qenq a)
  | 0x05 => some (.qdeq a)
  | 0x06 => some (.qsteal a)
  | 0x07 => some (.qmint a)
  | 0x08 => some (.chorus a)
  | 0x09 => some (.chorusEnd a)
  | _ => none

/-- Page 15 of the opcode maps: the instruction that an operation value names (R156). -/
def page15 (op : Nat) (a : Args) : Option Instr :=
  match op with
  | 0x00 => some (.partCfg a)
  | 0x01 => some (.partZero a)
  | 0x02 => some (.partRun a)
  | 0x03 => some (.partSusp a)
  | 0x04 => some (.slicePut a)
  | 0x05 => some (.sliceArm a)
  | 0x06 => some (.keyPut a)
  | 0x07 => some (.keyZero a)
  | _ => none

/-- The system group of page 0 op 0x2F by its sub10 field (R159). -/
def systemForm (sub : Nat) : Option Instr :=
  match sub with
  | 0 => some (.nop {})
  | 1 => some (.done {})
  | 2 => some (.ret {})
  | 3 => some (.eret {})
  | 4 => some (.halt {})
  | n => if 0x100 ≤ n ∧ n ≤ 0x1FF then some (.trap { imm := BitVec.ofNat 64 (n - 0x100) }) else none

/-- The instruction that a page and an operation value name, with operands `a` (R156). -/
def formAt (page op sub : Nat) (a : Args) : Option Instr :=
  match page with
  | 0 => if op = 0x2F then systemForm sub else page0 op a
  | 1 => page1 op a
  | 2 => page2 op a
  | 3 => page3 op a
  | 4 => page4 op a
  | 5 => page5 op a
  | 6 => page6 op a
  | 7 => page7 op a
  | 8 => page8 op a
  | 9 => page9 op a
  | 15 => page15 op a
  | _ => none

/-- The map entry of an instruction, when it has one. -/
def Instr.row? (i : Instr) : Option Row := i.parts.map (·.1)

/-! ## The prefix chain -/

/-- op6, bits [15:10] of a word (R143). -/
def op6 (w : IWord) : Nat := w.toNat / 1024

/-- The low ten bits of a word: a prefix payload, imm10 or sub10. -/
def low10 (w : IWord) : BitVec 10 := w.extractLsb' 0 10

/-- The words of one instruction, taken apart (R145, R152). -/
structure Chain where
  page : Option (BitVec 10) := none
  reg : Option (BitVec 10) := none
  imms : List (BitVec 10) := []
  hint : Option (BitVec 10) := none
  base : IWord := 0
  /-- How many words stand before the base word. -/
  pfx : Nat := 0
  deriving DecidableEq, Repr

/-- Why decode refuses: the index of the word found illegal, or page 15 below house level (R153). -/
inductive DecodeError where
  | illegal (word : Nat)
  | privilege
  deriving DecidableEq, Repr

/-- A prefix word joins the chain: kinds ascend, none but IMM repeats, and at most four stand (R152). -/
def Chain.push (c : Chain) (w : IWord) : Option Chain :=
  let x := low10 w
  if 4 ≤ c.pfx then none
  else
    let c' := { c with pfx := c.pfx + 1 }
    match op6 w with
    | 0x30 => if c.pfx = 0 then some { c' with page := some x } else none
    | 0x31 => if c.reg = none ∧ c.imms = [] ∧ c.hint = none then some { c' with reg := some x } else none
    | 0x32 => if c.imms.length < 2 ∧ c.hint = none then some { c' with imms := c.imms ++ [x] } else none
    | 0x33 => if c.hint = none then some { c' with hint := some x } else none
    | _ => none

/-- Step 1 of R153 on the words from the instruction's start to the end of its slot: a prefix in the slot's last
word would continue the chain across the slot boundary, which is illegal at that prefix (R152). -/
def Chain.read (c : Chain) : List IWord → Except DecodeError Chain
  | [] => .error (.illegal (c.pfx - 1))
  | w :: ws =>
    if op6 w < 0x30 then .ok { c with base := w }
    else
      match c.push w with
      | none => .error (.illegal c.pfx)
      | some c' => Chain.read c' ws

/-! ## Immediates -/

/-- Bits of the immediate that the base word holds (R143, R150). -/
def Fmt.baseBits : Fmt → Nat
  | .rr => 0
  | .ri => 5
  | .j => 10
  | .s => 0

/-- The immediate bits of the base word. -/
def Fmt.baseImm (f : Fmt) (w : IWord) : Word :=
  match f with
  | .rr => 0
  | .ri => (w.extractLsb' 0 5).setWidth 64
  | .j => (w.extractLsb' 0 10).setWidth 64
  | .s => 0

/-- IMM payloads, the first holding the highest bits, prepended above the base word's bits (R150). -/
def assemble (f : Fmt) (imms : List (BitVec 10)) (w : IWord) : Word :=
  match imms with
  | [] => f.baseImm w
  | [x] => (x.setWidth 64 <<< f.baseBits) ||| f.baseImm w
  | x :: y :: _ => (x.setWidth 64 <<< (f.baseBits + 10)) ||| (y.setWidth 64 <<< f.baseBits) ||| f.baseImm w

/-- An assembled immediate of `n` bits, extended to 64 (R150). -/
def extend (k : ImmKind) (n : Nat) (v : Word) : Word :=
  match k with
  | .none => 0
  | .signed => if n = 0 then 0 else (v <<< (64 - n)).sshiftRight (64 - n)
  | .unsigned => v

/-! ## Decode -/

/-- What decode answers: the instruction, its length in words and the stall count of a HINT prefix (R151). -/
structure Decoded where
  instr : Instr
  words : Nat
  stall : Nat
  deriving DecidableEq, Repr

/-- The operands that a chain gives a form, before any check. -/
def Row.args (r : Row) (c : Chain) : Args :=
  let pg := c.page.getD 0
  let rg := c.reg.getD 0x01C
  { short := r.rt == .t2 && c.reg == none
    d := if r.fmt == .rr || r.fmt == .ri then c.base.extractLsb' 5 5 else 0
    s := if r.fmt == .rr then c.base.extractLsb' 0 5 else 0
    t := rg.extractLsb' 5 5
    p := rg.extractLsb' 2 3
    w := rg.extractLsb' 0 2
    m := pg.extractLsb' 3 3
    v := pg.extractLsb' 0 3
    imm := if r.limit == .trapNo then (c.base.extractLsb' 0 8).setWidth 64
           else extend r.imm (r.fmt.baseBits + 10 * c.imms.length) (assemble r.fmt c.imms c.base) }

/-- The home of a form admits the unit that decodes: a core or a stage program (R160, R210). -/
def Home.admits (h : Home) (stage : Bool) : Bool :=
  match h with
  | .core => !stage
  | .stage => stage
  | .both => true

/-- Steps 4 to 6 of R153 for a chain whose words are well built and whose page is open. DESIGN CHOICE: the word found illegal is the
base word wherever a limit of step 6 fails, also through the rt field of REG or an index that IMM extends, and where a form that
needs REG has none: R153 does not say which word that is (log entry on illegal-instruction records). -/
def decodeForm (stage : Bool) (c : Chain) : Except DecodeError Decoded :=
  let page := (c.page.getD 0).toNat / 64
  let op := op6 c.base
  let sub := (low10 c.base).toNat
  let atBase : Except DecodeError Decoded := .error (.illegal c.pfx)
  let atPage : Except DecodeError Decoded := .error (.illegal 0)
  let regAt := if c.page = none then 0 else 1
  let immAt := if c.reg = none then regAt else regAt + 1
  match formAt page op sub {} with
  | none => atBase
  | some i0 =>
    match i0.parts with
    | none => atBase
    | some (r, _) =>
      let a := r.args c
      if !r.home.admits stage then atBase
      else if !r.pageOk a.m a.v then (if c.page = none then atBase else atPage)
      else if c.reg = none && r.rt == .t then atBase
      else if c.reg ≠ none && !(r.takesReg && r.regOk a.t a.p a.w) then .error (.illegal regAt)
      else if c.imms ≠ [] && r.imm == .none then .error (.illegal immAt)
      else if r.fmt == .s && r.page ≠ 0 && sub ≠ 0 then atBase
      else if !r.limitsOk a then atBase
      else
        match formAt page op sub a with
        | none => atBase
        | some i => .ok { instr := i, words := c.pfx + 1, stall := ((c.hint.getD 0).toNat / 128) }

/-- The instruction that the words from an instruction's start to the end of its slot encode, checked in the order of
R153. `house` says that the thread set runs at house level; `stage` that a stage program decodes (R210). -/
def decode (stage house : Bool) (ws : List IWord) : Except DecodeError Decoded :=
  match Chain.read {} ws with
  | .error e => .error e
  | .ok c =>
    let page := (c.page.getD 0).toNat / 64
    if page = 15 && !stage && !house then .error .privilege
    else if 10 ≤ page && (page ≤ 14 || stage) then .error (.illegal 0)
    else decodeForm stage c

/-- Words from an instruction's bits, bit 0 the least significant bit of the first word, in the order they are
stored (R142). -/
def wordsOf (w : Nat) : Nat → List IWord
  | 0 => []
  | n + 1 => BitVec.ofNat 16 w :: wordsOf (w / 65536) n

/-- The longest instruction: four prefix words and a base word (R142). -/
def maxWords : Nat := 5

/-- The instruction that decode reads from an instruction whose low `nbits` bits are `w`, every bit above them zero;
at house level, where every page of a core is open. -/
def decodeTableWord (nbits w : Nat) : Option Instr :=
  match decode false true (wordsOf (w % 2 ^ nbits) maxWords) with
  | .ok d => some d.instr
  | .error _ => none

/-! ## Encode -/

/-- An immediate fits `n` bits under its extension (R150, R155). -/
def fits (k : ImmKind) (n : Nat) (v : Word) : Bool :=
  match k with
  | .none => v == 0
  | .signed => extend .signed n v == v
  | .unsigned => v.toNat < 2 ^ n

/-- The widest immediate a form can hold: two IMM prefixes (R150). -/
def Row.immBits (r : Row) : Nat := r.fmt.baseBits + 20

/-- The immediate can be written in the form (R150). -/
def Row.immOk (r : Row) (v : Word) : Bool :=
  match r.limit with
  | .trapNo => v.toNat < 256
  | _ => fits r.imm r.immBits v

/-- The fewest IMM prefixes that hold the immediate; `vcvt` always takes one (R155, R162). -/
def Row.immCount (r : Row) (v : Word) : Nat :=
  if r.limit == .trapNo then 0
  else if r.imm == .none then 0
  else if r.limit != .convert && fits r.imm r.fmt.baseBits v then 0
  else if fits r.imm (r.fmt.baseBits + 10) v then 1
  else 2

/-- The IMM payloads, highest bits first. -/
def Row.immWords (r : Row) (v : Word) : List (BitVec 10) :=
  match r.immCount v with
  | 0 => []
  | 1 => [v.extractLsb' r.fmt.baseBits 10]
  | _ => [v.extractLsb' (r.fmt.baseBits + 10) 10, v.extractLsb' r.fmt.baseBits 10]

/-- The low ten bits of the base word (R143, R159). -/
def Row.low (r : Row) (a : Args) : BitVec 10 :=
  match r.fmt with
  | .rr => a.d ++ a.s
  | .ri => a.d ++ a.imm.extractLsb' 0 5
  | .j => a.imm.extractLsb' 0 10
  | .s =>
    match r.limit with
    | .sub n => BitVec.ofNat 10 n
    | .trapNo => 0x100#10 ||| (a.imm.extractLsb' 0 8).setWidth 10
    | _ => 0

/-- The form needs a REG prefix for these operands (R155). -/
def Row.needsReg (r : Row) (a : Args) : Bool :=
  r.rt == .t || (r.rt == .t2 && !a.short) || a.p != 7 || a.w != 0

/-- A word from its op6 value and its low ten bits. -/
def mkWord (op : Nat) (x : BitVec 10) : IWord := BitVec.ofNat 6 op ++ x

/-- The chain of an instruction of the form `r` with operands `a` and stall count `h`: PAGE, REG, IMM, HINT as R155
lets them stand. HINT is left out where the chain holds four prefixes without it. -/
def encodeRow (r : Row) (a : Args) (h : BitVec 3) : List IWord :=
  let page := if r.page = 0 then [] else [mkWord 0x30 (BitVec.ofNat 4 r.page ++ a.m ++ a.v)]
  let reg := if r.needsReg a then [mkWord 0x31 (a.t ++ a.p ++ a.w)] else []
  let imm := (r.immWords a.imm).map (mkWord 0x32)
  let three := page ++ reg ++ imm
  let hint := if h = 0 || 4 ≤ three.length then [] else [mkWord 0x33 (h ++ 0#7)]
  three ++ hint ++ [mkWord r.op (r.low a)]

/-- The words of an encoded instruction without a stall count; `[]` for an event. -/
def encode (i : Instr) : List IWord :=
  match i.parts with
  | some (r, a) => encodeRow r a 0
  | none => []

/-- Operands legal for the form and as decode delivers them: what an instruction of the syntax must be. -/
def Row.argsOk (r : Row) (a : Args) : Bool :=
  r.pageOk a.m a.v && r.regOk a.t a.p a.w && r.limitsOk a && r.immOk a.imm &&
  (if a.short then r.rt == .t2 && a.t == 0 && a.p == 7 && a.w == 0 else true) &&
  (r.fmt == .rr || r.fmt == .ri || a.d == 0) && (r.fmt == .rr || a.s == 0)

end Sys2Proof
end

