-- ==== Sys2Proof/Machine/Map.lean ====
section
/-! DEFINITION. Sparse tables and byte memories: lists of (key, value) pairs with rising keys. A memory lists no byte
that is zero, which is what an unlisted address reads as (04_memories R90: zeroing). -/

namespace Sys2Proof.Machine

/-- A table from numbers to values; a key it does not list reads as the default the reader names. -/
abbrev Map (α : Type) := List (Nat × α)

/-- The value listed at `k`, if any. -/
def Map.find {α : Type} : Map α → Nat → Option α
  | [], _ => none
  | (k', v) :: m, k => if k = k' then some v else Map.find m k

/-- The value at `k`, `d` where none is listed. -/
def Map.get {α : Type} (m : Map α) (d : α) (k : Nat) : α := (m.find k).getD d

/-- The table without `k`. -/
def Map.erase {α : Type} : Map α → Nat → Map α
  | [], _ => []
  | (k', v) :: m, k => if k = k' then Map.erase m k else (k', v) :: Map.erase m k

/-- Put `k` before the first greater key. -/
def Map.place {α : Type} : Map α → Nat → α → Map α
  | [], k, v => [(k, v)]
  | (k', v') :: m, k, v => if k < k' then (k, v) :: (k', v') :: m else (k', v') :: Map.place m k v

/-- The table with `v` at `k`. -/
def Map.set {α : Type} (m : Map α) (k : Nat) (v : α) : Map α := Map.place (m.erase k) k v

/-- The table with `v` at `k`, unlisted where `v` is the default. -/
def Map.put {α : Type} [DecidableEq α] (m : Map α) (d : α) (k : Nat) (v : α) : Map α :=
  if v = d then m.erase k else m.set k v

/-- A byte memory: (address, byte) pairs, an unlisted address reading zero. -/
abbrev Memory := List Host.Cell

/-- The byte at `a`. -/
def Memory.byte (m : Memory) (a : Nat) : Byte := Map.get m 0 a

/-- The memory with `b` at `a`. -/
def Memory.poke (m : Memory) (a : Nat) (b : Byte) : Memory := Map.put m 0 a b

/-- Keys rise strictly. -/
def Map.rising {α : Type} : Map α → Bool
  | [] => true
  | [_] => true
  | (k, _) :: (k', v') :: m => k < k' && Map.rising ((k', v') :: m)

/-- The canonical form: addresses rise strictly and no listed byte is what an unlisted address reads as. -/
def Memory.wf (m : Memory) : Bool := Map.rising m && m.all (fun c => c.2 != 0)

/-- `n` bytes from `a`, lowest address first. -/
def Memory.bytes (m : Memory) (a : Nat) : Nat → List Byte
  | 0 => []
  | n + 1 => m.byte a :: Memory.bytes m (a + 1) n

/-- The memory with the bytes `bs` from `a` on. -/
def Memory.pokes (m : Memory) (a : Nat) : List Byte → Memory
  | [] => m
  | b :: bs => Memory.pokes (m.poke a b) (a + 1) bs

/-- The listed cells of `[a, a + n)`, renumbered from 0. -/
def Memory.slice (m : Memory) (a n : Nat) : Memory :=
  (m.filter (fun c => a ≤ c.1 && c.1 < a + n)).map (fun c => (c.1 - a, c.2))

/-- The memory with `[a, a + n)` zero. -/
def Memory.clear (m : Memory) (a n : Nat) : Memory :=
  m.filter (fun c => !(a ≤ c.1 && c.1 < a + n))

/-- The memory with `[a, a + n)` replaced by the cells of `x`, numbered from 0. -/
def Memory.blit (m : Memory) (a n : Nat) (x : Memory) : Memory :=
  let lo := m.filter (fun c => c.1 < a)
  let mid := (x.filter (fun c => c.1 < n)).map (fun c => (c.1 + a, c.2))
  let hi := m.filter (fun c => a + n ≤ c.1)
  lo ++ mid ++ hi

end Sys2Proof.Machine
end

