-- ==== Sys2Proof/Machine/State.lean ====
section
/-! DEFINITION. The state of the module, all of it plain data, and the state right after reset.
Every field names the rule of spec/ that gives it; fields that are the model's own say so. -/

namespace Sys2Proof.Machine

/-! ## Thread sets -/

/-- The condition of one ECC-protected word (R62, R80). -/
inductive Ecc where
  | good | single | double
  deriving DecidableEq, Repr

/-- Privilege levels (01_machine R29, 03_registers R66). -/
inductive Priv where
  | user | supervisor | house
  deriving DecidableEq, Repr

/-- The fault record of eight words (16_traps R310). -/
structure FaultRec where
  cause : Byte := 0
  inner : Byte := 0
  evt : Bool := false
  async : Bool := false
  ovf : Bool := false
  count : BitVec 13 := 0
  ts : BitVec 2 := 0
  priv : BitVec 2 := 0
  pc : BitVec 14 := 0
  addr : Word := 0
  pos : BitVec 32 := 0
  lane : Byte := 0
  reg : Byte := 0xFF
  index : BitVec 16 := 0
  mx : BitVec 10 := 0
  my : Byte := 0
  val : BitVec 32 := 0
  mask : Word := 0
  mask2 : Word := 0
  data : Word := 0
  time : Word := 0
  deriving DecidableEq, Repr

/-- A stream slot (R57, R58, R106, R199): descriptor words 0 to 2, the position, the FIFO, and what the stream
hardware has filled or drained. -/
structure Slot where
  bnd : Bool := false
  eos : Bool := false
  flt : Bool := false
  mism : Bool := false
  pos : BitVec 32 := 0
  w0 : Word := 0
  w1 : Word := 0
  w2 : Word := 0
  fifo : List V128 := []
  /-- Elements the hardware has read (loads) or written (stores). -/
  moved : Nat := 0
  /-- Nonzero values pushed so far (compress-store) or read so far (expand-load). -/
  nnz : Nat := 0
  /-- Values and bitmap bits written but not yet a whole word (R353). -/
  nnzOut : Nat := 0
  bitWord : Word := 0
  valWord : Nat := 0
  header : Bool := false
  /-- kmode.TC as the newest element's push sampled it, for the header of a compress-store (R38, R202). -/
  pushTc : Bool := false
  /-- The fault at POS that FLT records: its cause and address (R106). -/
  fault : Option (Byte × Word) := none
  deriving DecidableEq, Repr

/-- What a thread set waits in place for (R15, R22). -/
inductive WaitKind where
  /-- A versioned load or `rwait` of an own word (R192, R260). -/
  | version (off : Nat) (target : Byte)
  /-- `mbwait` (R261): counter, target, time-out. -/
  | counter (idx : Nat) (target : BitVec 32) (limit : Nat)
  /-- `curtain.arr` (R263) in its fence: the context and the phase it was issued in. -/
  | arriving (ctx : Nat) (phase : Nat)
  /-- `curtain.arr` (R263): the context and the phase count it arrived in. -/
  | curtain (ctx : Nat) (phase : Nat)
  /-- A lead waiting in `chorus` for the followers of the mask (R269). -/
  | chorus (mask : BitVec 16)
  /-- `fence` (R195). -/
  | fence
  /-- `park` with a bound slot (R259): the event operand. -/
  | event (op : Word)
  /-- A partition form that waits for its partition's target state (R272). -/
  | partition (q : Nat)
  /-- Any other stall in place. -/
  | other
  deriving DecidableEq, Repr

/-- A stall in place: its kind and the cycle it began, suspended cycles left out (R304). -/
structure Waiting where
  kind : WaitKind
  since : Nat
  deriving DecidableEq, Repr

/-- The waiter a wings record names: a context record, or a thread set stalled in place (R108). -/
structure Waiter where
  core : Nat
  idx : Nat
  stall : Bool
  deriving DecidableEq, Repr

/-- A stagehand's answer to a far request (R196). -/
inductive FarAns where
  | served (bytes : List Byte)
  | absent
  | notRecorded
  | fault (cause : Byte) (addr : Word)
  deriving DecidableEq, Repr

/-- The far access that a thread set has under way (R196). -/
inductive FarPhase where
  | idle
  | asked (id : Nat)
  | answered (a : FarAns)
  /-- Absent, stalled in place until the wake (R22). -/
  | stalled
  deriving DecidableEq, Repr

/-- One thread set (R14, R53, R63). -/
structure ThreadSet where
  /-- Runs a codelet, context or handler; free otherwise (R18). -/
  busy : Bool := false
  pc : BitVec 14 := 0
  x : Vector Word 32 := Vector.replicate 32 0
  v : Vector V128 32 := Vector.replicate 32 0
  p : Vector (BitVec 16) 8 := Vector.replicate 8 0
  d : Vector Word 8 := Vector.replicate 8 0
  sd : Vector Slot 8 := Vector.replicate 8 {}
  tc : Bool := false
  eos : Bool := false
  prt : Bool := false
  cho : Bool := false
  fol : Bool := false
  sup : Bool := false
  priv : Priv := .user
  kfflags : BitVec 6 := 0
  kfmta : BitVec 5 := 0x0C
  kfmtb : BitVec 5 := 0x0C
  kscla : BitVec 16 := 0
  ksclb : BitVec 16 := 0
  kplanes : BitVec 4 := 8
  kgpiv : BitVec 32 := 0x35800000
  kepcPc : BitVec 14 := 0
  kepcPriv : BitVec 2 := 0
  kvec : BitVec 14 := 0
  kfault : Vector Word 8 := Vector.replicate 8 0
  krgn : Vector Word 8 := Vector.replicate 8 0
  /-- A trap handler runs: from trap entry until `eret`, `done` or kill (R82). -/
  handler : Bool := false
  /-- An event's handler codelet runs (R313). -/
  event : Bool := false
  /-- The followers of the chorus this thread set leads, by col (R269). -/
  followers : BitVec 16 := 0
  /-- The core that leads the chorus this thread set follows. -/
  lead : Nat := 0
  /-- The descriptor of the codelet being run (R312). -/
  desc : BitVec 16 := 0
  /-- The model's own number of the running codelet, by which a job or copy finds its issuer (R186). -/
  cid : Nat := 0
  /-- Asynchronous traps not yet taken (R307). -/
  pend : List FaultRec := []
  wait : Option Waiting := none
  far : FarPhase := .idle
  /-- The context record reserved for the far access under way (R196). -/
  farRec : Option Nat := none
  /-- The header word read by a depth-0 frame access whose slot access follows (R197). -/
  farHdr : Option Word := none
  /-- The pin tag a woken context carries to its first far access (R117). -/
  tag : Option Waiter := none
  /-- The record of the resumed context, freed when its first instruction issues (R97). -/
  holds : Option Nat := none
  /-- Waited cycles kept for a re-execution after a restore (R315). -/
  elapsed : Option Nat := none
  /-- The cycle before which taking or a hint lets nothing issue (R151, R296). -/
  notBefore : Nat := 0
  /-- The cycle of the thread set's last issue (R151). -/
  issuedAt : Nat := 0
  /-- The cycles from which results still to come are available, by REG code (R170, R185, R216, R310). -/
  due : Map Nat := []
  /-- The join cue of a `done` that has left its frames and waits for a send-window entry (R258). -/
  doneJoin : Option Word := none
  /-- A kill that waits for a send-window entry: the record of codelet-killed and the join cue (R95, R312). -/
  dying : Option (FaultRec × Word) := none
  /-- The frames of the codelet that is being killed are still to be left: a running operation holds their headers (R230). -/
  leaving : Bool := false
  /-- Register-die words of this thread set that have an error, by their REG codes (R62, R310). -/
  regErr : Map Ecc := []
  deriving DecidableEq, Repr

/-! ## Cores -/

/-- What stands beside an 8-byte word of local memory (R79, R80). -/
structure Side where
  ver : Byte := 0
  rcl : Bool := true
  ecc : Ecc := .good
  deriving DecidableEq, Repr

/-- States of an overlay slot (R81). -/
inductive SegState where
  | empty | loading | valid
  deriving DecidableEq, Repr

/-- A place of the overlay slot table (R81, R127, R213), with the fetch under way. -/
structure Overlay where
  st : SegState := .empty
  seg : BitVec 16 := 0
  flt : Bool := false
  cause : Byte := 0
  /-- Bytes of the segment that have come. -/
  got : Nat := 0
  deriving DecidableEq, Repr

/-- A copy channel (R60, R137, R204, R205). -/
structure Chan where
  base : BitVec 16 := 0
  limit : BitVec 16 := 0
  wm : BitVec 16 := 0
  busy : Bool := false
  flt : Bool := false
  /-- Source bytes whose requests have not been sent, and bytes not yet pushed or failed. -/
  todo : Nat := 0
  left : Nat := 0
  /-- Filled runs above the watermark: (first offset, offset after the last). -/
  filled : List (Nat × Nat) := []
  cv : Bool := false
  cnt : BitVec 6 := 0
  ts : Nat := 0
  cid : Nat := 0
  pc : BitVec 14 := 0
  priv : Priv := .user
  /-- The fault that stopped the watermark (R137). -/
  fault : Option (Byte × Word) := none
  deriving DecidableEq, Repr

/-- The registers a matrix operation samples (R229). -/
structure MatSample where
  fmta : BitVec 5 := 0x0C
  fmtb : BitVec 5 := 0x0C
  scla : BitVec 16 := 0
  sclb : BitVec 16 := 0
  planes : BitVec 4 := 8
  tc : Bool := false
  deriving DecidableEq, Repr

/-- Where a matrix operation stands (R230, R234). -/
inductive MatPhase where
  /-- Issued; solo, waits for R230; gang, arrived at the barrier. -/
  | issued
  /-- The arithmetic runs to the cycle named; the tile it gives. -/
  | running (done : Nat) (tile : List (BitVec 32))
  deriving DecidableEq, Repr

/-- A matrix operation of a core, issued and not complete (R229 to R236). -/
structure MatOp where
  acc : Nat
  gang : Bool
  pair : Bool := false
  /-- Gather indices of an `mmix` (R233). -/
  mix : Option V128 := none
  a : BitVec 16
  b : BitVec 16
  sample : MatSample
  ts : Nat
  cid : Nat
  pc : BitVec 14
  priv : Priv := .user
  /-- The job whose operation this is (R236). -/
  job : Option Nat := none
  /-- The model's own number, by which an operation and the jobs of its core are told earlier or later (R230). -/
  uid : Nat := 0
  /-- The cycle in which it became ready to begin (R230, R231). -/
  ready : Option Nat := none
  phase : MatPhase := .issued
  deriving DecidableEq, Repr

/-- The Schur operation under way: the thread set, the end, and the writes or the trap it ends in (R243, R249). -/
structure Schur where
  ts : Nat
  done : Nat
  /-- Ranges of the operands, held against other agents' writes. -/
  ranges : List (Nat × Nat)
  /-- Bytes to write, by local offset. -/
  writes : List (Nat × Byte)
  /-- A register result (R248). -/
  result : Option Word
  /-- The singular pivot: its index and its bits. -/
  singular : Option (Nat × BitVec 32)
  /-- The operation has ended and its thread set has not yet gone on. -/
  ended : Bool := false
  deriving DecidableEq, Repr

/-- States of a context record (R97). -/
inductive RecState where
  | free
  /-- Reserved by the far access under way of a thread set (R196). -/
  | reserved
  | parked
  /-- Woken: its entry stands on ring A. -/
  | woken
  /-- Taken: freed when the context issues its first instruction. -/
  | taken
  deriving DecidableEq, Repr

/-- What the core keeps of a context record beside the words in local memory (R96). -/
structure Rec where
  st : RecState := .free
  cid : Nat := 0
  desc : BitVec 16 := 0
  /-- The cycle a `park` times out (R259). -/
  deadline : Option Nat := none
  /-- The waiter tag of a far wake (R117). -/
  far : Bool := false
  event : Bool := false
  handler : Bool := false
  /-- Asynchronous traps that arrived after the wake (R186). -/
  pend : List FaultRec := []
  deriving DecidableEq, Repr

/-- Where an engine job stands (R110, R297). -/
inductive JobPhase where
  | queued
  /-- Running; it ends at the cycle named, when that is known. -/
  | running (done : Option Nat)
  /-- Stopped by a fault not yet delivered: cause, address, position, missing members, and a format code refused (R32). -/
  | faulted (inner : Byte) (addr : Word) (pos : BitVec 32) (val : BitVec 32) (data : Word)
  deriving DecidableEq, Repr

/-- An unfinished job card (R206, R207). -/
structure Job where
  uid : Nat
  num : BitVec 16
  off : BitVec 16
  card : List Word
  ts : Nat
  cid : Nat
  pc : BitVec 14
  priv : Priv := .user
  sample : MatSample := {}
  phase : JobPhase := .queued
  /-- Far gather: elements issued, completed and faulted; a stage card or collective that has been sent (R206). -/
  issued : Word := 0
  complete : Word := 0
  bad : Word := 0
  /-- Far gather: the faulting element of least number, with its cause and address (R311). -/
  flaw : Option (Nat × Byte × Word) := none
  /-- Cast collective: the round the job joins, and the result to write (R266). -/
  round : Nat := 0
  result : List Word := []
  /-- The words of its written footprint it has written (R79). -/
  written : List Nat := []
  deriving DecidableEq, Repr

/-- The error and activity counters, in the order of R140. -/
structure Counters where
  regEcc : BitVec 32 := 0
  memEcc : BitVec 32 := 0
  lost : BitVec 32 := 0
  underflow : BitVec 32 := 0
  refusals : BitVec 32 := 0
  parks : BitVec 32 := 0
  issue : Word := 0
  idle : Word := 0
  stall : Word := 0
  deriving DecidableEq, Repr

/-- One core (R14, R60). -/
structure Core where
  ts : Vector ThreadSet 4 := Vector.replicate 4 {}
  mem : Memory := []
  side : Map Side := []
  imem : Memory := []
  imemEcc : Map Ecc := []
  seg : Vector Overlay 16 := Vector.replicate 16 {}
  acc : Vector (Vector (BitVec 32) 128) 4 := Vector.replicate 4 (Vector.replicate 128 0)
  shadow : Vector (Vector (BitVec 32) 128) 4 := Vector.replicate 4 (Vector.replicate 128 0)
  owner : Vector (BitVec 2) 4 := Vector.replicate 4 0
  /-- Matrix operations issued and not complete, oldest first (R231). -/
  mat : List MatOp := []
  /-- Operations started since the last rehearsal, and the cycle at which a rehearsal under way ends (R239). -/
  sinceReh : Nat := 0
  rehEnd : Nat := 0
  period : BitVec 16 := 4096
  fence : BitVec 4 := 0
  /-- Sub-arrays that give wrong results and are not yet fenced (R239). -/
  failing : BitVec 4 := 0
  chan : Vector Chan 4 := Vector.replicate 4 {}
  mb : Vector (BitVec 32) 64 := Vector.replicate 64 0
  /-- Area bases and slot counts (R93, R99). -/
  recs : BitVec 16 := 0xA000
  ringA : BitVec 16 := 0xC000
  ringB : BitVec 16 := 0xC800
  inBase : Vector (BitVec 16) 4 := #v[0xD000, 0xD400, 0xD800, 0xDC00]
  inSlots : Vector Byte 4 := Vector.replicate 4 7
  /-- Entries pushed and taken since launch, and the kind-0 entries standing (R94, R95). -/
  pushedA : Nat := 0
  takenA : Nat := 0
  pushedB : Nat := 0
  takenB : Nat := 0
  /-- Deferred pushes, oldest first: (ring B, entry) (R95). -/
  deferred : List (Bool × Word) := []
  /-- Consecutive picks from ring A (R18). -/
  sevens : Nat := 0
  recTab : Vector Rec 64 := Vector.replicate 64 {}
  events : List FaultRec := []
  /-- Deliveries held at this core, oldest arrival first, by number (R104). -/
  hold : List Nat := []
  msgNo : BitVec 32 := 0
  /-- Link buffers N, E, S, W (R107). -/
  link : Vector (List V128) 4 := Vector.replicate 4 []
  jobs : List Job := []
  jobNo : BitVec 16 := 0
  /-- Cast membership list (R120). -/
  casts : Vector (Option Byte) 4 := Vector.replicate 4 none
  /-- Cast rounds this core has joined, per cast (R266). -/
  rounds : Map Nat := []
  count : Counters := {}
  halted : Bool := false
  schur : Option Schur := none
  /-- The thread set that issued last (R15). -/
  last : Nat := 0
  /-- Frame pool: first and last offset, and the 64-byte blocks in use (R85). -/
  poolFirst : BitVec 16 := 0
  poolLast : BitVec 16 := 0
  poolUsed : List Nat := []
  /-- Live frames in local memory: bases of the cluster, core and codelet frames (R84). -/
  frames : List Nat := []
  /-- Bases of the launch frame, the cluster frame and the core frame, 0 where there is none (R83, R85). -/
  bases : Vector Word 3 := Vector.replicate 3 0
  /-- Segment directory (R127). -/
  segDir : Word := 0
  handlerEntry : BitVec 14 := 0
  uprivSup : Bool := false
  log : BitVec 17 := 0
  part : BitVec 4 := 0
  /-- The core belongs to a partition that has launched it. -/
  placed : Bool := false
  /-- Initial entries not yet pushed: (ring B, descriptor) (R295). -/
  initial : List (Bool × BitVec 16) := []
  /-- A gang trap owed at the next gang-issue instruction (R234, R235). -/
  gangOwed : Option FaultRec := none
  /-- The cycle of the last issue, for the energy and power gates (R298, R345). -/
  lastIssue : Option Nat := none
  /-- The counters as the cycle began, which a read in the cycle sees (R140). -/
  seen : Counters := {}
  /-- The energy classes that the core has been active in since the last energy update, but for class 5 (R138). -/
  active : BitVec 6 := 0
  /-- The cycles of class 5 since the last energy update (R138, R344). -/
  idled : Nat := 0
  /-- The cycle from which the core issues again after a group, and that at which its divider is free (R216). -/
  issueDue : Nat := 0
  divDue : Nat := 0
  deriving DecidableEq, Repr

/-! ## Deliveries -/

/-- A far request as it travels (R196). -/
structure FarReq where
  addr : Word
  win : Nat
  off : Nat
  size : Nat
  /-- Bytes of a store. -/
  data : Option (List Byte)
  core : Nat
  ts : Nat
  tgt : Option Waiter
  tag : Option Waiter
  part : Nat
  kclk : Nat
  deriving DecidableEq, Repr

/-- What a stagehand is asked to move beside core accesses (R204, R206, R209, R341). -/
inductive MoveKind where
  /-- A part of a copy into a channel. -/
  | copy (core ch : Nat) (dst : Nat)
  /-- An element of a far gather. -/
  | gather (core job elem : Nat) (dst : Nat)
  /-- The directory entry of a segment, or the segment itself, for an overlay slot (R127, R213). -/
  | fetch (core slot : Nat) (dir : Bool)
  /-- A part of a RoCE read or write: the exchange's number and the part's offset in it. -/
  | rdmaRead (xid : Nat) (at_ : Nat)
  | rdmaWrite (xid : Nat) (data : List Byte)
  /-- A stage program's access of its stagehand: into or out of the scratch area, or a register load. -/
  | stage (part : Nat) (store : Option (List Byte))
  deriving DecidableEq, Repr

/-- A request queued at a stagehand (R110, R299). -/
structure Move where
  id : Nat
  part : Nat
  kind : MoveKind
  addr : Word
  win : Nat
  off : Nat
  len : Nat
  /-- Its translation-miss event has been sent (R116). -/
  xpend : Bool := false
  deriving DecidableEq, Repr

/-- What a delivery carries (R105). -/
inductive Payload where
  | store (data : List (Nat × Byte))
  | stv (off : Nat) (val : Word) (n : Byte)
  | msg (h w1 : Word) (body : List Byte)
  /-- A decrement; the join value when it is the join of a codelet that ended (R258). -/
  | cue (off : Nat) (fault : Bool) (join : Option Word)
  | inc (idx : Nat) (amt : BitVec 32)
  | element (dir sdir : Nat) (v : V128)
  | far (r : FarReq)
  | move (m : Move)
  /-- A stage program card of a job (R209). -/
  | card (core job : Nat)
  /-- A wake or fault wake of a wings record (R108). -/
  | wake (w : Waiter) (fault : Option FaultRec)
  /-- Bytes pushed by a stagehand for a move (R137). -/
  | push (m : Move) (bytes : List Byte)
  /-- A move that ended in a fault (R186). -/
  | moveFault (m : Move) (inner : Byte)
  deriving DecidableEq, Repr

/-- Where a delivery stands between its issue and its acceptance (R105, R357). -/
inductive Phase where
  /-- Not transmitted: an earlier one to the same word or ring is unaccepted. -/
  | queued
  | flying (due : Nat)
  /-- In the target's holding buffer (R104). -/
  | held
  /-- The acceptance, or a fault found at the target, on its way back. -/
  | accepting (due : Nat) (fault : Option FaultRec)
  | refusing (due : Nat)
  | backoff (due : Nat)
  /-- A stagehand's answer on its way back. -/
  | answering (due : Nat) (a : FarAns)
  deriving DecidableEq, Repr

/-- One delivery, from issue to acceptance. Sources and targets are numbered: cores 0 to 73,731, stagehand s as
100,000 + s. -/
structure Delivery where
  id : Nat
  src : Nat
  ts : Nat
  cid : Nat
  pc : BitVec 14
  priv : Priv := .user
  dst : Nat
  part : Nat
  body : Payload
  phase : Phase
  /-- The send-window entry it occupies; copies of one `sendc` share one. `none` for a party without a window. -/
  win : Option Nat
  refusals : Nat := 0
  /-- A release store: not transmitted before every earlier delivery of its party is accepted (R191, R280, R358). -/
  rel : Bool := false
  /-- The store-stream slots of its thread set that must have drained so many elements before a release store is transmitted
  (R191, R280). -/
  after : List (Nat × Nat) := []
  /-- A copy of a multicast: the cast, and the router hops of its way over the root (R121, R254). -/
  cast : Option (Nat × Nat) := none
  /-- Of the copies of one multicast, the one as which the message enters the mesh (R121, R301). -/
  lead : Bool := true
  /-- Flits that have entered the mesh of a delivery whose budget has run out, and the cycle from which the next may (R301). -/
  sent : Nat := 0
  flitAt : Nat := 0
  /-- The cycle from which its stagehand sends it (R108, R204, R362). -/
  sendAt : Nat := 0
  deriving DecidableEq, Repr

/-! ## Stagehands -/

/-- States of a block at its home (R117). -/
inductive BlkState where
  | absent | fetching | onStage | draining | evicting
  deriving DecidableEq, Repr

/-- A wings record (R108). -/
structure Wing where
  addr : Word
  kclk : Nat
  who : Waiter
  part : Nat
  /-- The parked access is a write, which a mapping without WR faults (R114). -/
  write : Bool := false
  /-- It found no room in the quota and stands in the stagehand's reserve (R86). -/
  reserve : Bool := false
  deriving DecidableEq, Repr

/-- A pin: the waiter it is tagged with and the cycle it expires (R117). -/
structure Pin where
  who : Option Waiter
  expires : Nat
  deriving DecidableEq, Repr

/-- A callboard or stage-directory entry (R117, R118) with its block's data on stage. -/
structure Blk where
  part : Nat
  win : Nat
  /-- Far address div 4 KiB of the first byte. -/
  blk : Nat
  st : BlkState := .absent
  xpend : Bool := false
  dirty : Bool := false
  first : Nat := 0
  wings : List Wing := []
  pins : List Pin := []
  last : Nat := 0
  /-- Size in bytes, and the channel offset of the first byte in its window. -/
  size : Nat := 4096
  off : Nat := 0
  /-- Bytes on stage, by offset in the block, and the key they are encrypted under (R88). -/
  data : Memory := []
  key : BitVec 512 := 0
  /-- 64-byte units on stage that read with an uncorrectable error (R89). -/
  bad : List Nat := []
  /-- Chosen by R119, and its fetch waits for room. -/
  waits : Bool := false
  /-- HBM byte address of the block and quanta still to move. -/
  hbm : Nat := 0
  quanta : Nat := 0
  /-- A transfer that has started its last quantum ends at this cycle. -/
  due : Option Nat := none
  /-- The fault a fetch met. -/
  fault : Option Byte := none
  /-- The walk of the fetch under way meets V = 0 with FAT = 0 (R361). -/
  misses : Bool := false
  deriving DecidableEq, Repr

/-- A cached translation of one 64 KiB part (R115). -/
structure Xlat where
  part : Nat
  win : Nat
  page : Nat
  hbm : Nat
  wr : Bool
  deriving DecidableEq, Repr

/-- A stage program card waiting or running at a stagehand (R209). -/
structure StageRun where
  core : Nat
  job : Nat
  dst : BitVec 16
  len : BitVec 16
  entry : BitVec 12
  arg0 : Word
  arg1 : Word
  started : Nat := 0
  deriving DecidableEq, Repr

/-- A stagehand's stage program unit for one partition (R208). -/
structure StageUnit where
  code : Memory := []
  codeLen : Nat := 0
  ts : ThreadSet := {}
  scratch : Memory := []
  /-- 64-byte units of the scratch area that read with an uncorrectable error (R89). -/
  badScratch : List Nat := []
  cards : List StageRun := []
  /-- The transfer the program waits for, and its bytes or fault when it has ended. -/
  move : Option Nat := none
  answer : Option FarAns := none
  deriving DecidableEq, Repr

/-- One stagehand (R11, R112). -/
structure Stagehand where
  /-- The callboard by entry index (R118). -/
  board : Map Blk := []
  /-- The stage directory (R117). -/
  dir : List Blk := []
  overflow : List Wing := []
  cache : List Xlat := []
  /-- Page-table areas, by partition (R347, R360). -/
  tables : Map Memory := []
  /-- The key under which a partition's part of the slice was zeroed, and the keys of page-table units written since under another:
  unit u of partition q under number 2^18 q + u (R88). -/
  zeroKey : Map (BitVec 512) := []
  tableKey : Map (BitVec 512) := []
  /-- Page-table units that read with an uncorrectable error, numbered as in `tableKey` (R89). -/
  badTable : List Nat := []
  hbm : Memory := []
  /-- The key each 64-byte unit of HBM was last written under where it is not its page's (R88). -/
  unitKey : Map (BitVec 512) := []
  /-- The key each 64 KiB page was zeroed under. -/
  pageKey : Map (BitVec 512) := []
  /-- HBM units that read with an uncorrectable error (R89). -/
  badUnit : List Nat := []
  keys : Map (BitVec 512) := []
  used : Map Nat := []
  /-- Partitions that have had a quantum in this period, and places in the class cycle (R300). -/
  served : List Nat := []
  place : Map Nat := []
  chanFree : Nat := 0
  requests : List Move := []
  units : Map StageUnit := []
  /-- The partition whose program issued last (R208). -/
  turn : Nat := 0
  /-- The cycle from which the stagehand may send its next wake (R362). -/
  wakeAt : Nat := 0
  deriving DecidableEq, Repr

/-! ## Partitions, routers, clusters -/

/-- States of a partition (R125). -/
inductive PartState where
  | free | zeroing | configured | running | suspended
  deriving DecidableEq, Repr

/-- A far placement window (R113). -/
structure Window where
  v : Bool := false
  pol : Bool := false
  blk : BitVec 2 := 0
  cnt : BitVec 10 := 0
  base : BitVec 44 := 0
  size : BitVec 32 := 0
  first : BitVec 9 := 0
  deriving DecidableEq, Repr

/-- A curtain context (R26, R262 to R264). -/
structure Curtain where
  filled : Bool := false
  x0 : Nat := 0
  y0 : Nat := 0
  x1 : Nat := 0
  y1 : Nat := 0
  arrived : List Nat := []
  excused : List Nat := []
  first : Option Nat := none
  /-- kcurt.TOE as the phase's first arrival finds it (R65). -/
  toe : BitVec 5 := 20
  /-- The cycle the release of this phase comes (R26). -/
  release : Option Nat := none
  /-- Phases released, timed out or refilled since the launch, by which a waiting arrival knows its own (R263). -/
  phase : Nat := 0
  /-- The phases that ended without a release, with the record of a time-out and the cores that had arrived; a refill finds no
  arrival. -/
  timedOut : List (Nat × FaultRec × List Nat) := []
  /-- Refills on their way, oldest first: the cycle of issue, X0, Y0, X1 and Y1 (R262, R359). -/
  refills : List (Nat × Nat × Nat × Nat × Nat) := []
  deriving DecidableEq, Repr

/-- A cast-table entry (R120). -/
structure Cast where
  v : Bool := false
  rx : BitVec 10 := 0
  ry : Byte := 0
  count : BitVec 17 := 0
  lost : BitVec 17 := 0
  members : List Nat := []
  lostAt : List Nat := []
  deriving DecidableEq, Repr

/-- A member-lost event that follows the multicasts in flight to the member that it tells (R129). -/
structure LostEvent where
  cast : Nat
  /-- The member that is lost, and the member that is told. -/
  lost : Nat
  told : Nat
  /-- The copies, by delivery number, that come first. -/
  after : List Nat
  deriving DecidableEq, Repr

/-- One contribution to a cast round, and what the record of its job's fault names (R186, R266). -/
structure Contribution where
  core : Nat
  job : Nat
  op : Nat
  src : List Word
  num : BitVec 16
  ts : Nat
  cid : Nat
  pc : BitVec 14
  priv : Priv := .user
  deriving DecidableEq, Repr

/-- A cast round under way (R266, R364). -/
structure CastRound where
  cast : Nat
  n : Nat
  parts : List Contribution := []
  /-- Every core that has joined. -/
  joined : List Nat := []
  /-- OP and NEL of the first card. -/
  form : Option (Nat × Nat) := none
  /-- The cycle of the root's contribution. -/
  first : Option Nat := none
  /-- What the root broadcasts (OP 7). -/
  value : Option (List Word) := none
  /-- The fault that every contributor receives: its INNER and the count of missing members. -/
  fault : Option (Byte × Nat) := none
  deriving DecidableEq, Repr

/-- The launch data of a partition (R293) and the facts of its verified image (R326, R338). -/
structure LaunchData where
  upriv : BitVec 2 := 0
  supts : BitVec 2 := 0
  frow : BitVec 4 := 0
  fcol : BitVec 4 := 0
  foff : BitVec 16 := 0
  image : Word := 0
  ilen : BitVec 32 := 0
  d0 : Word := 0
  inj : BitVec 32 := 0
  save : Word := 0
  go : Option Nat := none
  digest : List Byte := []
  measure : List Byte := []
  signer : List Byte := []
  svn : Byte := 0
  verified : Bool := false
  deriving DecidableEq, Repr

/-- One partition (R27, R125). -/
structure Partition where
  st : PartState := .free
  stitch : BitVec 3 := 0
  cx0 : BitVec 5 := 0
  cy0 : BitVec 4 := 0
  w : BitVec 6 := 0
  h : BitVec 4 := 0
  strv : BitVec 5 := 20
  rtx : BitVec 10 := 0
  rty : Byte := 0
  quota : BitVec 12 := 0
  share : BitVec 16 := 0
  hbmpg : BitVec 16 := 0
  hbmbase : BitVec 16 := 0
  ncast : BitVec 9 := 0
  windows : Vector Window 8 := Vector.replicate 8 {}
  casts : Vector Cast 256 := Vector.replicate 256 {}
  rounds : List CastRound := []
  /-- Member-lost events still to come (R129). -/
  lostEvents : List LostEvent := []
  curtain : Vector Curtain 2 := Vector.replicate 2 {}
  toe : BitVec 5 := 20
  pha : Bool := false
  phb : Bool := false
  rem : BitVec 63 := 0
  low : Bool := false
  warn : BitVec 63 := 0
  /-- Six energy class counters (R138), and the classes in which routers and stagehands have worked for the partition since the last
  energy update. -/
  energy : Vector Word 6 := Vector.replicate 6 0
  active : BitVec 6 := 0
  /-- Allotments and thresholds that an energy update takes, oldest first, each with the cycle in which the host asked for it: an
  update of that cycle does not take it (R343, R351). -/
  pending : List (Nat × BitVec 63 × BitVec 63) := []
  launch : LaunchData := {}
  /-- The cycle of the last launch that has read its image, and the image's range, closed to the host in that cycle (R336, R339). -/
  imageLock : Option (Nat × Nat × Nat) := none
  /-- The cycle zeroing ends (R90). -/
  zeroDone : Option Nat := none
  /-- The partition is being stopped for a suspension (R303, R315). -/
  stopping : Bool := false
  /-- The cycle the partition was suspended (R304). -/
  stopped : Nat := 0
  /-- RoCE queue pairs of the partition (R341). -/
  qps : List Nat := []
  /-- Deliveries and elements discarded by the last reset, per source (R272). -/
  report : Map Nat := []
  deriving DecidableEq, Repr

/-- State of one link direction of a router (R314). -/
structure Link where
  dead : Bool := false
  /-- The number of the next flit sent, and the number that the receiver expects next. -/
  seq : Byte := 0
  expect : Byte := 0
  /-- The replay window: the condition of each entry, of the unacknowledged flits, at most 16, oldest first. -/
  window : List Ecc := []
  /-- Flits sent since the last audit flit. -/
  audit : Nat := 0
  /-- Consecutive failed resyncs, and the cycle from which the next one is made. -/
  resyncs : Nat := 0
  retry : Nat := 0
  /-- No acknowledgement arrives any more, and the cycle since which flits are pending without one. -/
  silent : Bool := false
  pending : Option Nat := none
  deriving DecidableEq, Repr

/-- A route exception (R122). -/
structure RouteEx where
  port : Nat
  x0 : Nat
  x1 : Nat
  y0 : Nat
  y1 : Nat
  deriving DecidableEq, Repr

/-- One router (R112, R121, R122, R139). -/
structure Router where
  /-- Tree entries, by cast number (R121). -/
  tree : Map (BitVec 16) := []
  routes : List RouteEx := []
  used : Map Nat := []
  links : Vector Link 4 := Vector.replicate 4 {}
  deriving DecidableEq, Repr

/-- One capability queue: its entries from head to tail and its generation (R109). -/
structure CapQueue where
  gen : BitVec 16 := 0
  entries : List Word := []
  deriving DecidableEq, Repr

/-- The queue controller of a cluster (R109). -/
structure Cluster where
  key : BitVec 128 := 0
  queues : Map CapQueue := []
  deriving DecidableEq, Repr

/-- A gang round that is open (R234). -/
structure Round where
  row : Nat
  pair : Bool
  first : Nat
  arrived : List Nat
  /-- The cycle in which it became ready to begin (R230, R231). -/
  ready : Option Nat := none
  /-- The barrier is complete and the arithmetic runs. -/
  live : Bool := false
  /-- An abort not yet performed: the cause, the member and the lane (R235). -/
  cut : Option (Byte × Nat × Byte) := none
  deriving DecidableEq, Repr

/-! ## The module -/

/-- A slice-table entry (R273). -/
structure SliceEntry where
  v : Bool := false
  instant : Word := 0
  part : BitVec 4 := 0
  deriving DecidableEq, Repr

/-- A frame or report that the module has sent to the host, oldest first in the list (R342, R294, R303, R340, R341). -/
inductive Reply where
  /-- A reply: the header of its request with REPLY set in FLAGS, and a body. -/
  | mgmt (type : Byte) (part : Byte) (status : Byte) (seq : Word) (tag : List Byte) (body : List Byte)
  | launchDone (part : Nat) (go : Nat)
  | launchRefused (part step cause : Nat)
  | sliceDone (instant : Word) (part : Nat)
  /-- slice-done to the runtime core of the partition: a report for which the spec gives no cause code and no form (R303). -/
  | sliceDoneCore (core : Nat) (instant : Word) (part : Nat)
  | rdma (xid : Nat) (ok : Bool) (data : List Byte)
  | sent (qp : Nat) (data : List Byte)
  | arp (port : Nat)
  /-- A port asks for the address that it sends to. -/
  | solicit (port : Nat)
  | advertisement (port : Nat)
  | echo (port : Nat) (data : List Byte)
  deriving DecidableEq, Repr

/-- A RoCE exchange under way (R341): parts still to come, the bytes read, whether any part failed. -/
structure Rdma where
  xid : Nat
  write : Bool
  left : Nat
  len : Nat
  data : Memory := []
  failed : Bool := false
  /-- Parts that wait at the port for a place at their stagehand (R110). -/
  todo : List (Nat × Move) := []
  deriving DecidableEq, Repr

/-- One Ethernet port (R340, R348, R349). -/
structure Port where
  up : Bool := false
  drops : Nat := 0
  pause3 : Bool := false
  pause6 : Bool := false
  /-- It has resolved the address that it sends to (R340). -/
  resolved : Bool := false
  rank : Option Nat := none
  heard : Nat := 0
  deriving DecidableEq, Repr

/-- What the SPI flash holds (R336, R342, R350). -/
structure Flash where
  copyA : Option Firmware := none
  copyB : Option Firmware := none
  trusted : List (List Byte) := []
  opKey : List Byte := []
  /-- The ceiling C of accepted SEQ numbers. -/
  ceiling : Nat := 0
  addr : Vector Nat 2 := Vector.replicate 2 0
  weights : List Nat := []
  deriving DecidableEq, Repr

/-- Fuses and flash: what no instruction of a program can change (R13, R337, R350). -/
structure Perm where
  /-- Fused-off cores. -/
  fused : List Nat := []
  /-- The anti-rollback counter, 0 to 64. -/
  ctr : Nat := 0
  flash : Flash := {}
  deriving DecidableEq, Repr

/-- The agent whose instruction `exec` performs: a thread set of a core, or a stage program. -/
inductive Agent where
  | core (c t : Nat)
  | stage (sh part : Nat)
  deriving DecidableEq, Repr

/-- A turn the environment has chosen: an event of the machine or of the host, or the next issue of a thread set. -/
inductive Turn where
  | event (i : Instr)
  | issue (core ts : Nat)
  | stage (sh part : Nat)
  deriving DecidableEq, Repr

/-- The parts of a cycle, in the order in which the model performs them (log entry on interleaving). -/
inductive CyclePhase where
  /-- Thread sets take entries, contexts and events; stage programs start. -/
  | takes
  /-- What arrives at cores, and what their units end. -/
  | due
  /-- Far accesses and Schur forms that have their answer end. -/
  | ends
  /-- Agents issue. -/
  | issue
  /-- What the instructions of the cycle come before: stagehands, wakes, and what begins. -/
  | begins
  /-- What a copy or a gather is given, which counts from the next cycle on, and the time-outs and periods (R141). -/
  | pushes
  deriving DecidableEq, Repr

/-- Everything that instructions and deliveries can change. -/
structure Mach where
  clk : Nat := 0
  cores : Map Core := []
  hands : Map Stagehand := []
  routers : Map Router := []
  clusters : Map Cluster := []
  parts : Vector Partition 16 := Vector.replicate 16 {}
  net : List Delivery := []
  nextId : Nat := 0
  rounds : List Round := []
  slices : Vector SliceEntry 16 := Vector.replicate 16 {}
  /-- The armed instants still to come, in table order: (index, instant, partition) (R273). -/
  armed : List (Nat × Word × Nat) := []
  /-- The slice set since the last arming (R302, R303). -/
  sliceSet : List Nat := []
  /-- The slice switch under way: its instant, the incoming partition, and the outgoing ones (R303). -/
  switching : Option (Word × Nat × List Nat) := none
  /-- The boot's copy of the fused-core list (R13, R350). -/
  fusedCopy : List Nat := []
  /-- kptp in nanoseconds since second 0, and the fraction of a nanosecond in units of 1/170,000: a cycle at 1.7 GHz is
  100,000 units (R2, R70). -/
  ptpNs : Nat := 0
  ptpFrac : Nat := 0
  /-- Units still to be made up (positive) or given up (negative) by slewing, and units that kptp still holds (R70, R349). -/
  ptpSlew : Int := 0
  ptpHold : Nat := 0
  ptp : BitVec 2 := 0
  ports : Vector Port 2 := Vector.replicate 2 {}
  pgate : BitVec 2 := 0
  powerMw : Nat := 0
  lastSeq : Nat := 0
  /-- Accepted management requests not answered, oldest first: type and request; the first is being performed (R342). -/
  requests : List (Nat × MgmtReq) := []
  fwVersion : Nat := 0
  fwB : Bool := false
  fwDigest : List Byte := []
  booted : Bool := false
  injPaused : Bool := false
  /-- Cores that live rerouting has found isolated (R314). -/
  gone : List Nat := []
  /-- Dead links reported and not yet routed around (R314). -/
  deadLinks : List (Nat × Nat) := []
  rdma : List Rdma := []
  replies : List Reply := []
  /-- Frames that no port may send yet, oldest first (R340). -/
  outbox : List Reply := []
  /-- The energy weights that the boot has read from flash, by class, and the energy charged to partitions in the last period, in nJ
  (R344, R350). -/
  weights : List Nat := []
  charged : Nat := 0
  /-- The current energy, budget and power periods, counted (R138, R139, R345). -/
  energyPeriod : Nat := 0
  budgetPeriod : Nat := 0
  powerPeriod : Nat := 0
  /-- The model's own: the counter applied to the free values of Config. -/
  fresh : Nat := 0
  /-- The model's own: the next codelet, job and exchange number. -/
  nextCid : Nat := 1
  /-- The model's own: the environment's turns, oldest first. -/
  agenda : List Turn := []
  /-- The model's own: the agent whose instruction is performed, and the address after that instruction. -/
  cur : Agent := .core 73728 0
  npc : BitVec 14 := 0
  /-- The model's own: the conditional branch being performed is taken (R170). -/
  taken : Bool := false
  /-- The model's own: the part of the cycle, the first unit still to have its turn in it, and the places of the agents tried. -/
  phase : CyclePhase := .issue
  rot : Nat := 0
  tried : List Nat := []
  deriving DecidableEq, Repr

/-- The state of the module. -/
structure State where
  perm : Perm := {}
  mach : Mach := {}
  deriving DecidableEq, Repr

/-! ## How a step can stop -/

/-- A step that cannot go on. -/
inductive Fault where
  /-- An instruction is performed by an agent that does not exist in the state (an agenda that names one). Raised by
  `issue`; safe: no machine has that agent. -/
  | noAgent
  deriving DecidableEq, Repr

/-- A step that the model gives no meaning. -/
inductive Refusal where
  /-- The instruction is not modelled yet; its mnemonic. Raised by `exec`; safe. -/
  | notModelled (mnemonic : String)
  deriving DecidableEq, Repr

/-! ## Reset -/

/-- House core (1023, 0), the first to run (R12, R350). -/
def houseCore : Nat := 73728

/-- Thread set 0 of house core (1023, 0) at reset: at house level and running the ROM (R12, R350). -/
def resetHouseTs : ThreadSet := { busy := true, priv := .house, sup := true }

/-- House core (1023, 0) at reset. -/
def resetHouse : Core :=
  { ts := (Vector.replicate 4 ({} : ThreadSet)).set 0 resetHouseTs, placed := true }

/-- The module right after reset. -/
def State.reset : State :=
  { mach := { cores := [(houseCore, resetHouse)], cur := .core houseCore 0 } }

end Sys2Proof.Machine
end

