-- ==== Sys2Proof/Machine/Bits.lean ====
section
/-! DEFINITION. Bit fields, little-endian byte order, vectors by number, and where agents stand on the mesh
(00_scope R3, R4; 01_machine R10 to R12; 02_numbers R33). -/

namespace Sys2Proof.Machine

/-- Bits [hi:lo] of a word, as a number (R3). -/
def fld {n : Nat} (w : BitVec n) (hi lo : Nat) : Nat := w.toNat / 2 ^ lo % 2 ^ (hi - lo + 1)

/-- Bit `i` of a word. -/
def bit {n : Nat} (w : BitVec n) (i : Nat) : Bool := fld w i i == 1

/-- 1 for true. -/
def b2n (b : Bool) : Nat := if b then 1 else 0

/-- A word from a number, modulo 2^64. -/
def wd (n : Nat) : Word := BitVec.ofNat 64 n

/-- Element `i` of a vector, `d` outside it. -/
def vget {α : Type} {n : Nat} (v : Vector α n) (d : α) (i : Nat) : α := (v[i]?).getD d

/-- The vector with `a` at `i`, unchanged where `i` is outside it. -/
def vset {α : Type} {n : Nat} (v : Vector α n) (i : Nat) (a : α) : Vector α n := v.setIfInBounds i a

/-- The number that bytes hold, lowest address first (R33). -/
def leNat : List Byte → Nat
  | [] => 0
  | b :: bs => b.toNat + 256 * leNat bs

/-- The low `n` bytes of a number, lowest address first (R33). -/
def leBytes (v : Nat) : Nat → List Byte
  | 0 => []
  | n + 1 => BitVec.ofNat 8 v :: leBytes (v / 256) n

/-- Bytes placed at successive addresses. -/
def cellsAt (a : Nat) : List Byte → List (Nat × Byte)
  | [] => []
  | b :: bs => (a, b) :: cellsAt (a + 1) bs

/-- `v[n-1:0]` extended to 64 bits with the sign (R168). -/
def sext (v : Word) (n : Nat) : Word := if n = 0 then 0 else (v <<< (64 - n)).sshiftRight (64 - n)

/-- `v[n-1:0]` extended to 64 bits with zeros (R168). -/
def zext (v : Word) (n : Nat) : Word := wd (v.toNat % 2 ^ n)

/-- Least upper bound of a quotient. -/
def ceilDiv (a b : Nat) : Nat := (a + b - 1) / b

/-- The distance of two numbers. -/
def dist (a b : Nat) : Nat := (a - b) + (b - a)

/-! ## Positions -/

/-- Mesh cores, 512 columns by 144 rows (R9). -/
def meshCores : Nat := 73728

/-- Delivery numbers of stagehands start here. -/
def handBase : Nat := 100000

/-- The position of a core (R4, R12). -/
def posOf (c : Nat) : Nat × Nat := if c < meshCores then (c % 512, c / 512) else (1023, c - meshCores)

/-- The mesh core at a position, if one stands there (R12). -/
def meshCore (x y : Nat) : Option Nat := if x < 512 ∧ y < 144 then some (y * 512 + x) else none

/-- The position by which a stagehand is addressed (R11). -/
def handPos (s : Nat) : Nat × Nat := (s / 32 % 8 * 64 + s % 32 * 2, if s < 256 then 254 else 255)

/-- The number of the core, house core or stagehand at a position; `none` where no agent stands (R12). -/
def agentAt (x y : Nat) : Option Nat :=
  if x < 512 ∧ y < 144 then some (y * 512 + x)
  else if x = 1023 ∧ y < 4 then some (meshCores + y)
  else if x < 512 ∧ x % 2 = 0 ∧ (y = 254 ∨ y = 255) then
    some (handBase + ((if y = 254 then x / 64 else 8 + x / 64) * 32 + x % 64 / 2))
  else none

/-- The router to which an agent attaches (R11, R12). -/
def routerOf (a : Nat) : Nat × Nat :=
  if handBase ≤ a then
    let s := a - handBase
    ((handPos s).1, if s < 256 then 0 else 143)
  else if meshCores ≤ a then (0, 36 * (a - meshCores))
  else posOf a

/-- Router hops between two agents, along x and then along y (R122, R123). -/
def hops (a b : Nat) : Nat :=
  let p := routerOf a
  let q := routerOf b
  dist p.1 q.1 + dist p.2 q.2

/-- The cluster of a mesh position (R10). -/
def clusterOf (x y : Nat) : Nat × Nat := (x / 16, y / 12)

/-- Two cores stand in one cluster (R10). -/
def sameCluster (a b : Nat) : Bool :=
  a < meshCores && b < meshCores && clusterOf (posOf a).1 (posOf a).2 == clusterOf (posOf b).1 (posOf b).2

/-- The stagehand that serves a column, north or south row (R11). -/
def handOf (x : Nat) (south : Bool) : Nat := (if south then 8 + x / 64 else x / 64) * 32 + x % 64 / 2

/-! ## Words of registers and records -/

/-- The code of a privilege level (R66). -/
def Priv.code : Priv → Nat
  | .user => 0
  | .supervisor => 1
  | .house => 2

/-- The level of a code; 3 never occurs (R66). -/
def Priv.ofCode (n : Nat) : Priv := if n = 0 then .user else if n = 1 then .supervisor else .house

/-- One bit. -/
def b1 (b : Bool) : BitVec 1 := if b then 1 else 0

/-- The eight words of a fault record (R310). -/
def FaultRec.words (r : FaultRec) : Vector Word 8 :=
  #v[r.cause ++ r.inner ++ b1 r.evt ++ b1 r.async ++ b1 r.ovf ++ r.count ++ r.ts ++ r.priv ++ (0 : BitVec 14) ++ r.pc,
     r.addr,
     r.pos ++ r.lane ++ r.reg ++ r.index,
     r.mx ++ r.my ++ (0 : BitVec 14) ++ r.val,
     r.mask, r.mask2, r.data, r.time]

/-- A fault record read back from its words (R310). -/
def FaultRec.ofWords (w : Vector Word 8) : FaultRec :=
  let w0 := vget w 0 0
  let w2 := vget w 0 2
  let w3 := vget w 0 3
  { cause := w0.extractLsb' 56 8, inner := w0.extractLsb' 48 8, evt := bit w0 47, async := bit w0 46, ovf := bit w0 45,
    count := w0.extractLsb' 32 13, ts := w0.extractLsb' 30 2, priv := w0.extractLsb' 28 2, pc := w0.extractLsb' 0 14,
    addr := vget w 0 1, pos := w2.extractLsb' 32 32, lane := w2.extractLsb' 24 8, reg := w2.extractLsb' 16 8,
    index := w2.extractLsb' 0 16, mx := w3.extractLsb' 54 10, my := w3.extractLsb' 46 8, val := w3.extractLsb' 0 32,
    mask := vget w 0 4, mask2 := vget w 0 5, data := vget w 0 6, time := vget w 0 7 }

/-- kmode (R66). -/
def ThreadSet.kmode (t : ThreadSet) : Word :=
  (0 : BitVec 56) ++ b1 t.sup ++ b1 t.fol ++ b1 t.cho ++ BitVec.ofNat 2 t.priv.code ++ b1 t.prt ++ b1 t.eos ++ b1 t.tc

/-! ## Far addresses (R75) -/

/-- A far address with bits [61:60] zero, as fault records report it (R75). -/
def farAddr (a : Word) : Word := a &&& ~~~(3#64 <<< 60)

/-- An address lies in far space (R75). -/
def isFar (a : Word) : Bool := fld a 63 62 == 1

/-- An address as a fault record reports it: bits [61:60] of a far address as zero (R75). -/
def shown (a : Word) : Word := if isFar a then farAddr a else a

/-! ## Fields of a stream slot (R58, R199) -/

/-- KIND. -/
def Slot.kind (s : Slot) : Nat := fld s.w0 3 0
/-- FILE: a v name. -/
def Slot.isV (s : Slot) : Bool := bit s.w0 4
/-- PORT. -/
def Slot.port (s : Slot) : Nat := fld s.w0 7 5
/-- DIR: pushed. -/
def Slot.dir (s : Slot) : Bool := bit s.w0 8
/-- ESIZE in bytes. -/
def Slot.esize (s : Slot) : Nat := fld s.w0 13 9
/-- BASE. -/
def Slot.base (s : Slot) : Nat := fld s.w0 31 16
/-- RES. -/
def Slot.res (s : Slot) : Nat := fld s.w0 47 32
/-- FMT. -/
def Slot.fmt (s : Slot) : Nat := fld s.w0 52 48
/-- PEER slot. -/
def Slot.peer (s : Slot) : Nat := fld s.w0 55 53
/-- AUX: peer thread set or channel. -/
def Slot.aux (s : Slot) : Nat := fld s.w0 57 56
/-- N0, N1, N2. -/
def Slot.n0 (s : Slot) : Nat := fld s.w1 15 0
def Slot.n1 (s : Slot) : Nat := fld s.w1 31 16
def Slot.n2 (s : Slot) : Nat := fld s.w1 47 32
/-- A stride, signed. -/
def Slot.stride (s : Slot) (i : Nat) : Int := (s.w2.extractLsb' (16 * i) 16).toInt

/-- The status word that `sstat` returns (R58). -/
def Slot.status (s : Slot) : Word :=
  if s.bnd then
    s.pos ++ (0 : BitVec 16) ++ b1 s.mism ++ b1 s.flt ++ b1 s.eos ++ BitVec.ofNat 4 s.kind ++ b1 s.dir ++ b1 s.isV ++
      BitVec.ofNat 3 s.port ++ (0 : BitVec 3) ++ b1 true
  else 0

/-! ## Fields of a cue word, of a header word and of a message (R84, R100, R131) -/

/-- A cue word from its fields (R131). -/
def cueWord (desc faults : Nat) (arm ring fired : Bool) (count : Nat) : Word :=
  BitVec.ofNat 16 desc ++ BitVec.ofNat 8 faults ++ b1 arm ++ b1 ring ++ b1 fired ++ (0 : BitVec 5) ++ BitVec.ofNat 32 count

/-- Word 1 of a frame header (R84). -/
def frameWord (refs size : Nat) (live left : Bool) (depth ox oy : Nat) : Word :=
  BitVec.ofNat 16 refs ++ BitVec.ofNat 16 size ++ b1 live ++ b1 left ++ BitVec.ofNat 3 depth ++ BitVec.ofNat 10 ox ++
    BitVec.ofNat 8 oy ++ (0 : BitVec 9)

/-- A space-0x1 address (R75). -/
def meshAddr (x y off : Nat) : Word := wd (2 ^ 60 + x * 2 ^ 32 + y * 2 ^ 24 + off)

/-- A ready-ring entry (R94). -/
def ringEntry (kind cue addr : Nat) : Word := wd (kind * 2 ^ 62 + cue * 2 ^ 16 + addr)

end Sys2Proof.Machine
end

