-- ==== Sys2Proof/Machine/Routes.lean ====
section
/-! DEFINITION. Routers: route exceptions, the ways of packets, and multicast trees (06_tables R121 to R123). -/

namespace Sys2Proof.Machine

/-- The router of a mesh core. -/
def Mach.router (m : Mach) (c : Nat) : Router := Map.get m.routers {} c

/-- The machine with a router changed. -/
def Mach.modRouter (m : Mach) (c : Nat) (f : Router → Router) : Mach := { m with routers := Map.set m.routers c (f (m.router c)) }

/-- The link of a router in one direction. -/
def Router.link (r : Router) (d : Nat) : Link := vget r.links {} d

/-- The router with a link changed. -/
def Router.modLink (r : Router) (d : Nat) (f : Link → Link) : Router := { r with links := vset r.links d (f (r.link d)) }

/-- The address of an agent: of a core, a house core or a stagehand (R4, R11, R12). -/
def addrOf (a : Nat) : Nat × Nat := if handBase ≤ a then handPos (a - handBase) else posOf a

/-- The router at which the default way to an address ends, and the port by which it leaves it: 4 is local (R123). -/
def wayEnd (dst : Nat × Nat) : Nat × Nat × Nat :=
  if dst.2 = 254 then (dst.1, 0, 0)
  else if dst.2 = 255 then (dst.1, 143, 2)
  else if dst.1 = 1023 then (0, 36 * dst.2, 3)
  else (dst.1, dst.2, 4)

/-- The port by which a router sends toward an address: the first exception whose rectangle holds it, else along x and then
along y (R122, R123). -/
def Mach.port (m : Mach) (at_ dst : Nat × Nat) : Nat :=
  match (m.router (at_.2 * 512 + at_.1)).routes.find? fun e => e.x0 ≤ dst.1 && dst.1 ≤ e.x1 && e.y0 ≤ dst.2 && dst.2 ≤ e.y1 with
  | some e => e.port
  | none =>
    let (x, y, last) := wayEnd dst
    if at_.1 < x then 1 else if x < at_.1 then 3 else if at_.2 < y then 2 else if y < at_.2 then 0 else last

/-- The position beyond a port. -/
def beyond (at_ : Nat × Nat) (port : Nat) : Nat × Nat :=
  match port with
  | 0 => (at_.1, at_.2 - 1)
  | 1 => (at_.1 + 1, at_.2)
  | 2 => (at_.1, at_.2 + 1)
  | 3 => (at_.1 - 1, at_.2)
  | _ => at_

/-- The port leads from the router out of the mesh to the agent of the address. -/
def leaves (at_ dst : Nat × Nat) (port : Nat) : Bool := port == 4 || wayEnd dst == (at_.1, at_.2, port)

/-- The routers and ports of the way from one router to an address (R122, R123). -/
def Mach.path (m : Mach) (at_ dst : Nat × Nat) : Nat → List (Nat × Nat × Nat)
  | 0 => []
  | n + 1 =>
    let p := m.port at_ dst
    (at_.1, at_.2, p) :: (if leaves at_ dst p then [] else m.path (beyond at_ p) dst n)

/-! ## Links (R314) -/

/-- The two ends of the link disagree, or no acknowledgement comes back. -/
def Link.troubled (l : Link) : Bool := !l.dead && (l.silent || l.seq != l.expect || l.window != [])

/-- The link with `n` more flits sent in the cycle `clk`. Over a link in order each is acknowledged as it arrives, and every 256 an
audit finds that the counts agree; what a troubled link sends stays in the window, which keeps the last 16 (R314). -/
def Link.carry (l : Link) (n clk : Nat) : Link :=
  if l.troubled then
    let w := l.window ++ List.replicate n .good
    { l with
      seq := l.seq + BitVec.ofNat 8 n, window := w.drop (w.length - 16), audit := l.audit + n
      pending := l.pending.or (some clk) }
  else
    { l with seq := l.seq + BitVec.ofNat 8 n, expect := l.expect + BitVec.ofNat 8 n, audit := (l.audit + n) % 256 }

/-- An audit finds the ends to disagree: the receiver's count and the sender's window, of which a unit may be lost, or cannot be read
(R314, R318). -/
def Link.disagrees (l : Link) : Bool := (l.seq - l.expect).toNat != l.window.length || l.window.contains .double

/-- Flits are pending over the link, and the time since which no acknowledgement has come is not kept yet (R314). -/
def Link.waits (l : Link) : Bool := l.troubled && l.window != [] && l.pending.isNone

/-- Some link of the mesh is troubled. -/
def Mach.anyTrouble (m : Mach) : Bool := m.routers.any fun r => r.2.links.toList.any Link.troubled

/-- `n` flits travel over the links of a way (R314). -/
def Mach.carry (m : Mach) (way : List (Nat × Nat × Nat)) (n : Nat) : Mach :=
  way.foldl (fun m s =>
    if s.2.2 < 4 then m.modRouter (s.2.1 * 512 + s.1) (·.modLink s.2.2 (·.carry n m.clk)) else m) m

/-! ## Trees (R121) -/

/-- The bit of OUT for a port (R121). -/
def outBit (port : Nat) : BitVec 16 := BitVec.ofNat 16 (2 ^ (9 + port))

/-- One step of a path joins a tree entry: V, the port OUT, and on first entry the port IN toward the root (R121). -/
def joinTree (e : BitVec 16) (out in_ : Nat) (root : Bool) : BitVec 16 :=
  (if e = 0 then 0x8000#16 ||| BitVec.ofNat 16 (64 * in_) ||| (if root then 0x4000 else 0) else e) ||| outBit out

/-- The entries of the tree from a root to members: the union of the paths to every member, by router (R121). -/
def Mach.treeEntries (m : Mach) (root : Nat × Nat) (members : List Nat) : Map (BitVec 16) :=
  members.foldl (fun t d =>
    ((m.path root (posOf d) 2048).foldl (fun (acc : Map (BitVec 16) × Nat) s =>
      let (x, y, p) := s
      let i := y * 512 + x
      (Map.set acc.1 i (joinTree (Map.get acc.1 0 i) p acc.2 ((x, y) == root)), (p + 2) % 4)) (t, 4)).1) []

/-- The tree entry of cast `n` at a router (R121). -/
def Mach.treeAt (m : Mach) (n r : Nat) : BitVec 16 := Map.get (m.router r).tree 0 n

/-- Entry `n` of a router's tree table written. -/
def Mach.setTree (m : Mach) (r n : Nat) (e : BitVec 16) : Mach :=
  m.modRouter r fun q => { q with tree := Map.put q.tree 0 n e }

/-- The routers that a multicast of cast `n` enters from router `r` on by OUT: the router, the hops to it, and whether it gives
a copy to its core (R121). -/
def Mach.treeWalk (m : Mach) (n : Nat) : Nat → Nat → Nat → List (Nat × Nat × Bool)
  | 0, _, _ => []
  | f + 1, r, h =>
    let e := m.treeAt n r
    if !bit e 15 then []
    else
      (r, h, bit e 13) :: ((List.range 4).filter fun d => bit e (9 + d)).flatMap fun d =>
        let q := beyond (r % 512, r / 512) d
        m.treeWalk n f (q.2 * 512 + q.1) (h + 1)

/-- The tree of cast `n` with its root at a core is built anew as the union of the paths to its members (R121). -/
def Mach.buildTree (m : Mach) (n root : Nat) (members : List Nat) : Mach :=
  let m := (m.treeWalk n 2048 root 0).foldl (fun m r => m.setTree r.1 n 0) m
  (m.treeEntries (posOf root) members).foldl (fun m e => m.setTree e.1 n e.2) m

/-- The cores to which cast `n` with its root at a core fans out, each with its hops from the root (R121). -/
def Mach.fanOut (m : Mach) (n root : Nat) : List (Nat × Nat) :=
  (m.treeWalk n 2048 root 0).filterMap fun r => if r.2.2 then some (r.1, r.2.1) else none

end Sys2Proof.Machine
end

