-- ==== Sys2Proof/Machine/Ops.lean ====
section
/-! DEFINITION. The named operations over memory, registers, rings, cues, records, frames and deliveries that the meanings
share, and taking a trap and returning from one (16_traps R307 to R313). -/

namespace Sys2Proof.Machine

/-! ## Reaching into the state -/

/-- Core `c`. -/
def Mach.core (m : Mach) (c : Nat) : Core := Map.get m.cores {} c

/-- The machine with core `c` replaced. -/
def Mach.setCore (m : Mach) (c : Nat) (k : Core) : Mach := { m with cores := Map.set m.cores c k }

/-- The machine with core `c` changed. -/
def Mach.modCore (m : Mach) (c : Nat) (f : Core → Core) : Mach := m.setCore c (f (m.core c))

/-- Stagehand `s`. -/
def Mach.hand (m : Mach) (s : Nat) : Stagehand := Map.get m.hands {} s

/-- The machine with stagehand `s` changed. -/
def Mach.modHand (m : Mach) (s : Nat) (f : Stagehand → Stagehand) : Mach :=
  { m with hands := Map.set m.hands s (f (m.hand s)) }

/-- Partition `p`. -/
def Mach.part (m : Mach) (p : Nat) : Partition := vget m.parts {} p

/-- The machine with partition `p` changed. -/
def Mach.modPart (m : Mach) (p : Nat) (f : Partition → Partition) : Mach :=
  { m with parts := vset m.parts p (f (m.part p)) }

/-- The stage program unit of partition `p` at stagehand `s` (R208). -/
def Mach.unit (m : Mach) (s p : Nat) : StageUnit := Map.get (m.hand s).units {} p

/-- The machine with a stage program unit changed. -/
def Mach.modUnit (m : Mach) (s p : Nat) (f : StageUnit → StageUnit) : Mach :=
  m.modHand s fun h => { h with units := Map.set h.units p (f (Map.get h.units {} p)) }

/-- Thread set `t` of a core. -/
def Core.tset (k : Core) (t : Nat) : ThreadSet := vget k.ts {} t

/-- The core with thread set `t` changed. -/
def Core.modTs (k : Core) (t : Nat) (f : ThreadSet → ThreadSet) : Core := { k with ts := vset k.ts t (f (k.tset t)) }

/-- The thread set of an agent. -/
def Mach.tset (m : Mach) : Agent → ThreadSet
  | .core c t => (m.core c).tset t
  | .stage s p => (m.unit s p).ts

/-- The machine with an agent's thread set changed. -/
def Mach.modTs (m : Mach) (a : Agent) (f : ThreadSet → ThreadSet) : Mach :=
  match a with
  | .core c t => m.modCore c (·.modTs t f)
  | .stage s p => m.modUnit s p fun u => { u with ts := f u.ts }

/-- The thread set whose instruction is performed. -/
def Mach.me (m : Mach) : ThreadSet := m.tset m.cur

/-- The machine with that thread set changed. -/
def Mach.modMe (m : Mach) (f : ThreadSet → ThreadSet) : Mach := m.modTs m.cur f

/-- The core whose instruction is performed; a stage program has none. -/
def Mach.here (m : Mach) : Nat :=
  match m.cur with
  | .core c _ => c
  | .stage s _ => handBase + s

/-- The thread-set number of the agent. -/
def Mach.tsNo (m : Mach) : Nat :=
  match m.cur with
  | .core _ t => t
  | .stage _ _ => 0

/-- The core whose instruction is performed. -/
def Mach.myCore (m : Mach) : Core := m.core m.here

/-- The partition a core or stage program works for. -/
def Mach.myPart (m : Mach) : Nat :=
  match m.cur with
  | .core c _ => (m.core c).part.toNat
  | .stage _ p => p

/-- The agent exists: a core of the mesh or a house core with its four thread sets, or a stagehand's unit. -/
def Agent.exists : Agent → Bool
  | .core c t => c < 73732 && t < 4
  | .stage s p => s < 512 && p < 16

/-! ## Meanings as functions of the machine -/

/-- How an instruction ends other than by completing. -/
inductive Stop where
  /-- A precise trap: the instruction has no effect (R307). -/
  | trap (r : FaultRec)
  /-- A trap that keeps what the instruction has done so far. -/
  | trapKeep (r : FaultRec)
  /-- The software trap, which returns to the next instruction (R271). -/
  | trapNext (r : FaultRec)
  /-- A stream fault at slot `i`: precise, but FLT is set with the fault (R106). -/
  | streamFault (i : Nat) (r : FaultRec)
  /-- A stall in place with nothing done (R15, R22). -/
  | wait (k : WaitKind)
  /-- A stall in place that keeps what the instruction has done so far. -/
  | waitKeep (k : WaitKind)
  | fault (f : Fault)
  | refused (r : Refusal)
  deriving Repr

/-- A meaning: what an instruction does to the machine. It has no hold on fuses or flash. -/
abbrev Act := EStateM Stop Mach

/-- The thread set of the instruction. -/
def me : Act ThreadSet := do return (← get).me

/-- Change the thread set of the instruction. -/
def modMe (f : ThreadSet → ThreadSet) : Act Unit := modify (·.modMe f)

/-- The core of the instruction. -/
def myCore : Act Core := do return (← get).myCore

/-- Change the core of the instruction. -/
def modMyCore (f : Core → Core) : Act Unit := modify fun m => m.modCore m.here f

/-- A record that names its cause alone. -/
def faultOf (cause : Nat) : FaultRec := { cause := BitVec.ofNat 8 cause }

/-- Raise a precise trap (R307). -/
def trap {α : Type} (r : FaultRec) : Act α := throw (.trap r)

/-- The trap with a cause and an address (R311). -/
def trapAt {α : Type} (cause : Nat) (addr : Word) : Act α := trap { faultOf cause with addr := addr }

/-- Trap unless the condition holds. -/
def require (b : Bool) (r : FaultRec) : Act Unit := if b then pure () else trap r

/-- Stall in place until the condition holds (R168). -/
def stallUntil (b : Bool) (k : WaitKind := .other) : Act Unit := if b then pure () else throw (.wait k)

/-- The codes of the causes (R311). -/
def Cause.illegalInstruction := 0x01

/-- The illegal-instruction trap of an instruction that is performed: it names the offset of the base word, the last before Next
(R3, R153, R311; log entry on illegal-instruction records). -/
def illegalWord {α : Type} : Act α := do trapAt Cause.illegalInstruction (((← get).npc - 2).setWidth 64)
def Cause.illegalOperation := 0x02
def Cause.privilege := 0x03
def Cause.address := 0x04
def Cause.alignment := 0x05
def Cause.unroutable := 0x06
def Cause.partition := 0x07
def Cause.queueArea := 0x08
def Cause.frameHeader := 0x09
def Cause.frameBounds := 0x0A
def Cause.frameRetired := 0x0B
def Cause.framePool := 0x0C
def Cause.frameDepth := 0x0D
def Cause.frameCount := 0x0E
def Cause.farPlacement := 0x0F
def Cause.farWrite := 0x10
def Cause.fatalTranslation := 0x11
def Cause.memoryEcc := 0x12
def Cause.registerEcc := 0x13
def Cause.instructionEcc := 0x14
def Cause.overlayAbsent := 0x15
def Cause.overlayBusy := 0x16
def Cause.parkLimit := 0x17
def Cause.readyOverflow := 0x18
def Cause.streamBindLimit := 0x19
def Cause.streamOverrun := 0x1A
def Cause.accumulatorOwner := 0x1B
def Cause.matrixFenced := 0x1C
def Cause.singularBlock := 0x1D
def Cause.gangTimeout := 0x1E
def Cause.gangAbort := 0x1F
def Cause.curtainTimeout := 0x20
def Cause.mailboxTimeout := 0x21
def Cause.chorusBusy := 0x22
def Cause.capability := 0x23
def Cause.copyFault := 0x24
def Cause.jobFault := 0x25
def Cause.software := 0x26
def Cause.collectiveTimeout := 0x27
def Cause.stageTimeout := 0x28
def Cause.gangIndex := 0x29
def Cause.gangMismatch := 0x2A
def Cause.formatMismatch := 0x40
def Cause.cueUnderflow := 0x41
def Cause.translationMiss := 0x42
def Cause.memberLost := 0x43
def Cause.rehearsalFence := 0x44
def Cause.energyLow := 0x45
def Cause.coreHalted := 0x46
def Cause.lostPacket := 0x47
def Cause.lostElement := 0x48
def Cause.sliceLate := 0x49
def Cause.sliceSkip := 0x4A
def Cause.codeletKilled := 0x4B
def Cause.routeChange := 0x4C
def Cause.joinRefused := 0x4D

/-! ## Partitions and reach -/

/-- The mesh rectangle of a partition: west column, north row, width and height in cores (R27, R125). -/
def Partition.rect (p : Partition) : Nat × Nat × Nat × Nat :=
  (p.cx0.toNat * 16, p.cy0.toNat * 12, p.w.toNat * 16, p.h.toNat * 12)

/-- A mesh position lies in the partition's rectangle. -/
def Partition.holds (p : Partition) (x y : Nat) : Bool :=
  let (x0, y0, w, h) := p.rect
  p.st != .free && x0 ≤ x && x < x0 + w && y0 ≤ y && y < y0 + h

/-- The core is not fused off (R13). -/
def Mach.live (m : Mach) (c : Nat) : Bool := c < meshCores && !m.fusedCopy.contains c

/-- The cores of a rectangle in row-major order (R13). -/
def rectCores (x0 y0 w h : Nat) : List Nat :=
  (List.range h).flatMap fun j => (List.range w).map fun i => (y0 + j) * 512 + (x0 + i)

/-- The live cores of a partition in logical order (R13). -/
def Mach.liveCores (m : Mach) (p : Nat) : List Nat :=
  let (x0, y0, w, h) := (m.part p).rect
  (rectCores x0 y0 w h).filter m.live

/-- The runtime core of a partition (R125). -/
def Mach.runtimeCore (m : Mach) (p : Nat) : Option Nat :=
  meshCore (m.part p).rtx.toNat (m.part p).rty.toNat

/-- The stagehands of a partition's share (R125). -/
def Partition.hands (p : Partition) : List Nat :=
  (List.range (p.w.toNat * 8)).flatMap fun j =>
    let x := p.cx0.toNat * 16 + 2 * j
    [handOf x false, handOf x true]

/-! ## Local memory with versions, reclaim bits and ECC (R79, R80) -/

/-- What stands beside the word that holds offset `a`. -/
def Core.sideAt (k : Core) (a : Nat) : Side := Map.get k.side {} (a / 8)

/-- The core with the sidecar of `a`'s word replaced. -/
def Core.setSide (k : Core) (a : Nat) (s : Side) : Core := { k with side := Map.put k.side {} (a / 8) s }

/-- `n` bytes at `a` as a number (R33). -/
def Core.readN (k : Core) (a n : Nat) : Nat := leNat (Memory.bytes k.mem a n)

/-- The aligned 8-byte word that holds `a` (R5). -/
def Core.mem64 (k : Core) (a : Nat) : Word := wd (k.readN (a / 8 * 8) 8)

/-- Ver(a) (R5). -/
def Core.verAt (k : Core) (a : Nat) : Byte := (k.sideAt a).ver

/-- The distinct words that cells lie in, in order of first appearance. -/
def cellWords (cs : List (Nat × Byte)) : List Nat := (cs.map (·.1 / 8)).eraseDups

/-- All eight bytes of word `w` are among the cells (R80). -/
def wholeWord (cs : List (Nat × Byte)) (w : Nat) : Bool :=
  (List.range 8).all fun i => cs.any fun c => c.1 == 8 * w + i

/-- One store to a word, beside it: the version rises and the reclaim bit clears; a whole rewrite of a word with an
uncorrectable error makes version 1 (R79, R80). -/
def Side.stored (s : Side) : Side :=
  if s.ecc = .double then { ver := 1, rcl := false, ecc := .good } else { ver := s.ver + 1, rcl := false, ecc := .good }

/-- A counter that holds at its greatest value (R140). -/
def satInc (c : BitVec 32) : BitVec 32 := if c = BitVec.allOnes 32 then c else c + 1

/-- Word `w` read: a single-bit error is corrected and counted (R80, R140). -/
def Core.correctWord (k : Core) (w : Nat) : Core :=
  let s := k.sideAt (8 * w)
  if s.ecc = .single then
    { k.setSide (8 * w) { s with ecc := .good } with count := { k.count with memEcc := satInc k.count.memEcc } }
  else k

/-- Single-bit errors of `[a, a + n)` corrected and counted (R80, R140). -/
def Core.correct (k : Core) (a n : Nat) : Core :=
  ((List.range (ceilDiv (a % 8 + n) 8)).map (a / 8 + ·)).foldl Core.correctWord k

/-- The core with the bytes of `cs` written, no version touched (R94, R96). -/
def Core.poke (k : Core) (cs : List (Nat × Byte)) : Core :=
  { k with mem := cs.foldl (fun m c => Memory.poke m c.1 c.2) k.mem }

/-- A word that is written in part is read first; its version rises and its reclaim bit clears (R79, R80). -/
def Core.storeWord (cs : List (Nat × Byte)) (k : Core) (w : Nat) : Core :=
  let k := if wholeWord cs w then k else k.correctWord w
  k.setSide (8 * w) (k.sideAt (8 * w)).stored

/-- One store of the bytes `cs`: each word in which a byte is written counts it once (R79). -/
def Core.store (k : Core) (cs : List (Nat × Byte)) : Core := (cellWords cs).foldl (Core.storeWord cs) (k.poke cs)

/-- One store of an 8-byte word. -/
def Core.store64 (k : Core) (a : Nat) (v : Word) : Core := k.store (cellsAt a (leBytes v.toNat 8))

/-- An 8-byte word written by the hardware without a store (R94, R96). -/
def Core.poke64 (k : Core) (a : Nat) (v : Word) : Core := k.poke (cellsAt a (leBytes v.toNat 8))

/-- A word that the bytes `cs` write in part has an uncorrectable error (R80). -/
def Core.badWrite (k : Core) (cs : List (Nat × Byte)) : Option Nat :=
  (cellWords cs).find? fun w => (k.sideAt (8 * w)).ecc = .double && !wholeWord cs w

/-- A word of `[a, a + n)` with an uncorrectable error (R80). -/
def Core.badRead (k : Core) (a n : Nat) : Option Nat :=
  ((List.range (ceilDiv (a % 8 + n) 8)).map (a / 8 + ·)).find? fun w => (k.sideAt (8 * w)).ecc = .double

/-! ## Register die (R62) -/

/-- A register-die word read: a single-bit error is corrected in the stored word and counted (R62, R140). -/
def Core.fixReg (k : Core) (t code : Nat) : Core :=
  if Map.get (k.tset t).regErr .good code = .single then
    { k.modTs t fun s => { s with regErr := s.regErr.erase code } with count := { k.count with regEcc := satInc k.count.regEcc } }
  else k

/-- A word of these that has an uncorrectable error (R62). -/
def ThreadSet.badReg (t : ThreadSet) (codes : List Nat) : Option Nat := codes.find? fun n => Map.get t.regErr .good n = .double

/-- The model's code of display register `n`, which has no REG code (R310). -/
def dispCode (n : Nat) : Nat := 256 + n

/-- The record of the register-ECC trap: REG names an x, v or p register; a display register has no code (R62, R310). -/
def regTrap (code : Nat) : FaultRec :=
  if code < 256 then { faultOf Cause.registerEcc with reg := BitVec.ofNat 8 code } else faultOf Cause.registerEcc

/-- The instruction reads a register of the register die: an x, v, p or display register (R53, R62). -/
def checkReg (code : Nat) : Act Unit := do
  let m ← get
  match Map.get m.me.regErr .good code with
  | .good => pure ()
  | .double => trap (regTrap code)
  | .single =>
    match m.cur with
    | .core c t => set (m.modCore c (·.fixReg t code))
    | .stage _ _ => set (m.modMe fun s => { s with regErr := s.regErr.erase code })

/-! ## Events (R313) -/

/-- The supervisor thread set of a core (R66). -/
def Core.supTs (k : Core) : Nat := ((List.range 4).find? fun t => (k.tset t).sup).getD 0

/-- The first element that satisfies `p`, changed. -/
def modFirst {α : Type} (p : α → Bool) (f : α → α) : List α → List α
  | [] => []
  | a :: as => if p a then f a :: as else a :: modFirst p f as

/-- The last element, changed. -/
def modLast {α : Type} (f : α → α) : List α → List α
  | [] => []
  | [a] => [f a]
  | a :: b :: as => a :: modLast f (b :: as)

/-- An event record joins a core's queue of 16, merges into the oldest of its cause, or is lost with OVF (R313). -/
def queueEvent (q : List FaultRec) (r : FaultRec) : List FaultRec :=
  if q.length < 16 then q ++ [r]
  else if q.any (·.cause == r.cause) then
    modFirst (·.cause == r.cause) (fun e => { e with count := if e.count = BitVec.allOnes 13 then e.count else e.count + 1 }) q
  else modLast (fun e => { e with ovf := true }) q

/-- Raise an event at core `c`, named for thread set `ts` or the supervisor thread set (R310, R313). -/
def Mach.event (m : Mach) (c : Nat) (r : FaultRec) (ts : Option Nat := none) : Mach :=
  m.modCore c fun k =>
    { k with events := queueEvent k.events { r with evt := true, ts := BitVec.ofNat 2 (ts.getD k.supTs), time := wd m.clk } }

/-- The sender's position in a record (R310). -/
def FaultRec.from (r : FaultRec) (src : Nat) : FaultRec :=
  let (x, y) := if handBase ≤ src then handPos (src - handBase) else posOf src
  { r with mx := BitVec.ofNat 10 x, my := BitVec.ofNat 8 y }

/-- Raise an event that a delivery of `sender` causes at core `c`; it names the thread set, the instruction and the privilege that
caused it on that core, where one did (R310). -/
def Mach.arrivalEvent (m : Mach) (c sender : Nat) (issuer : Option (Nat × BitVec 14 × Priv)) (r : FaultRec) : Mach :=
  match issuer with
  | some (t, pc, p) => m.event c ({ r with pc := pc, priv := BitVec.ofNat 2 p.code }.from sender) (some t)
  | none => m.event c (r.from sender)

/-- Raise an event at the runtime core of a partition (R313). -/
def Mach.runtimeEvent (m : Mach) (p : Nat) (r : FaultRec) (ts : Option Nat := none) : Mach :=
  match m.runtimeCore p with
  | some c => m.event c r ts
  | none => m

/-! ## Writes held back by a running operation (R230, R243) -/

/-- `[a, a + n)` meets `[b, c)`. -/
def meets (a n b c : Nat) : Bool := a < c && b < a + n

/-- Formats of which a matrix operation reads scales (R228). -/
def scaleGroups (fmt : Nat) : Nat :=
  if fmt = 0x0C ∨ fmt = 0x0D then 12 else if fmt = 0x0E then 16 else if fmt = 0x0F then 24 else 0

/-- The local ranges that a matrix operation reads at this core: (first, length) (R228, R233). -/
def MatOp.ranges (o : MatOp) (leader : Bool) : List (Nat × Nat) :=
  let g := scaleGroups o.sample.fmta.toNat
  (if leader && o.mix = none then (o.a.toNat, 6144) :: (if g = 0 then [] else [(o.sample.scla.toNat, 16 * g)]) else []) ++
  (o.b.toNat, 3072) :: (if g = 0 then [] else [(o.sample.sclb.toNat, 8 * g)])

/-- The leader of a core's cluster row: its live core with the lowest col (R233). -/
def Mach.leaderOf (m : Mach) (c : Nat) : Nat :=
  let (x, y) := posOf c
  (((List.range 16).map fun i => y * 512 + (x / 16 * 16 + i)).find? m.live).getD c

/-- The arithmetic of the operation runs (R230). -/
def MatOp.runs (o : MatOp) : Bool :=
  match o.phase with
  | .running _ _ => true
  | .issued => false

/-- The cores of a mesh core's cluster (R10). -/
def clusterCores (c : Nat) : List Nat :=
  let (x, y) := posOf c
  (List.range 12).flatMap fun j => (List.range 16).map fun i => (y / 12 * 12 + j) * 512 + (x / 16 * 16 + i)

/-- The core that index byte `b` of an `mmix` names, for a leader `c` (R233). -/
def mixCore (c b : Nat) : Nat :=
  let (x, y) := posOf c
  (y / 12 * 12 + b % 16) * 512 + (x / 16 * 16 + b / 16)

/-- The index bytes of an `mmix`. -/
def mixBytes (v : V128) : List Nat := (List.range 16).map fun k => (v.extractLsb' (8 * k) 8).toNat

/-- An A row gathered at core `c` by a running `mmix` of its cluster meets `[a, a + n)` (R230, R233). -/
def Mach.heldRow (m : Mach) (c a n : Nat) : Bool :=
  c < meshCores && (clusterCores c).any fun q => (m.core q).mat.any fun o =>
    o.runs && m.leaderOf q == q &&
    (match o.mix with
     | some v => (mixBytes v).any (fun b => mixCore q b == c) &&
         meets a n o.a.toNat (o.a.toNat + 384 + scaleGroups o.sample.fmta.toNat)
     | none => false)

/-- A running matrix operation holds writes to a byte of `[a, a + n)` of the core back (R230). -/
def Mach.matHeld (m : Mach) (c a n : Nat) : Bool :=
  ((m.core c).mat.any fun o => o.runs && (o.ranges (!o.gang || m.leaderOf c == c)).any fun r => meets a n r.1 (r.1 + r.2)) ||
  m.heldRow c a n

/-- A running matrix or Schur operation of the core holds writes to a byte of `[a, a + n)` back (R230, R243). -/
def Mach.heldRange (m : Mach) (c a n : Nat) : Bool :=
  m.matHeld c a n ||
  (match (m.core c).schur with
   | some s => !s.ended && s.ranges.any fun r => meets a n r.1 (r.1 + r.2)
   | none => false)

/-! ## Ready rings (R94, R95) -/

/-- The area of a ring. -/
def Core.ringBase (k : Core) (b : Bool) : Nat := (if b then k.ringB else k.ringA).toNat

/-- The `n`-th entry pushed onto a ring since launch. -/
def Core.ringEntryAt (k : Core) (b : Bool) (n : Nat) : Word := k.mem64 (k.ringBase b + 8 * (n % 256))

/-- Entries pushed and not taken. -/
def Core.ringLen (k : Core) (b : Bool) : Nat := if b then k.pushedB - k.takenB else k.pushedA - k.takenA

/-- The entries that stand on a ring, oldest first. -/
def Core.standing (k : Core) (b : Bool) : List Word :=
  (List.range (k.ringLen b)).map fun i => k.ringEntryAt b ((if b then k.takenB else k.takenA) + i)

/-- A kind-0 entry finds room: at most 192 on ring A, 256 on ring B (R95). -/
def Core.hasRoom (k : Core) (b : Bool) : Bool :=
  if b then k.ringLen true < 256
  else ((k.standing false).filter (fun e => fld e 63 62 == 0)).length < 192

/-- Append an entry; the write is no store (R94). -/
def Core.rawPush (k : Core) (b : Bool) (e : Word) : Core :=
  if b then { k.poke64 (k.ringBase true + 8 * (k.pushedB % 256)) e with pushedB := k.pushedB + 1 }
  else { k.poke64 (k.ringBase false + 8 * (k.pushedA % 256)) e with pushedA := k.pushedA + 1 }

/-- A kind-0 push: onto its ring, else into the deferred buffer of 16; `none` when both are full (R95). -/
def Core.pushReady (k : Core) (b : Bool) (e : Word) : Option Core :=
  if k.hasRoom b then some (k.rawPush b e)
  else if k.deferred.length < 16 then some { k with deferred := k.deferred ++ [(b, e)] }
  else none

/-- The offset that the next entry of a ring is written to (R94). -/
def Core.nextSlot (k : Core) (b : Bool) : Nat := k.ringBase b + 8 * ((if b then k.pushedB else k.pushedA) % 256)

/-- The ring slot that the next entry of a ring is written to is held back by a running operation (R230). -/
def Mach.slotHeld (m : Mach) (c : Nat) (b : Bool) : Bool := m.heldRange c ((m.core c).nextSlot b) 8

/-- A kind-0 push would write a ring slot that is held back (R95, R230). -/
def Mach.pushHeld (m : Mach) (c : Nat) (b : Bool) : Bool := (m.core c).hasRoom b && m.slotHeld c b

/-- The deferred buffer drained into each ring in arrival order, as far as there is room and the slots at the offsets that `held`
names are not held back (R95, R230). -/
def Core.drainDeferred (k : Core) (held : Nat → Bool) : Core :=
  k.deferred.foldl (fun k be =>
    if k.hasRoom be.1 && !held (k.nextSlot be.1) then k.rawPush be.1 be.2 else { k with deferred := k.deferred ++ [be] }) { k with deferred := [] }

/-! ## Cues (R131, R132) -/

/-- What a decrement arriving at a cue does. -/
inductive CueOut where
  /-- Applied, or refused as an underflow. -/
  | done (m : Mach)
  /-- The push it needs finds ring and buffer full (R95). -/
  | full
  /-- The cue word has an uncorrectable error (R80). -/
  | ecc

/-- One decrement arriving at the cue at offset `c` of core `k` (R132). The event of an underflow names the thread set, the
instruction and the privilege that raised it on that core, where one did (R310). -/
def Mach.decrement (m : Mach) (k c : Nat) (flt : Bool) (sender : Nat) (issuer : Option (Nat × BitVec 14 × Priv) := none) :
    CueOut :=
  let m := m.modCore k (·.correctWord (c / 8))
  let core := m.core k
  let w := core.mem64 c
  if (core.sideAt c).ecc = .double then .ecc
  else if !bit w 39 || fld w 31 0 == 0 || fld w 36 32 != 0 then
    let m := m.modCore k fun q => { q with count := { q.count with underflow := satInc q.count.underflow } }
    .done (m.arrivalEvent k sender issuer { faultOf Cause.cueUnderflow with addr := wd c })
  else
    let n := fld w 31 0 - 1
    let faults := if flt then min (fld w 47 40 + 1) 255 else fld w 47 40
    let new := cueWord (fld w 63 48) faults (n != 0) (bit w 38) (bit w 37 || n == 0) n
    let core' := core.store64 (c / 8 * 8) new
    if n = 0 then
      match core'.pushReady (bit w 38) (ringEntry 0 c (fld w 63 48)) with
      | some q => .done (m.setCore k q)
      | none => .full
    else .done (m.setCore k core')

/-- A decrement of the cue at `off` writes a word, or a ring entry, that a running operation holds back (R230). -/
def Mach.cueHeld (m : Mach) (q off : Nat) : Bool :=
  let w := (m.core q).mem64 off
  m.heldRange q off 8 || (fld w 31 0 == 1 && m.pushHeld q (bit w 38))

/-! ## Deliveries and the send window (R105, R357) -/

/-- Send-window entries of core `c` in use: copies of one `sendc` share one. -/
def Mach.windowUsed (m : Mach) (c : Nat) : Nat :=
  ((m.net.filterMap fun d => if d.src == c then d.win else none).eraseDups).length

/-- An entry of the core's send window is free (R105). -/
def Mach.windowFree (m : Mach) (c : Nat) : Bool := m.windowUsed c < 16

/-- The words, counters, rings and buffers that a delivery reaches, by which order is kept (R105). -/
def Payload.keys (b : Payload) : List (Nat × Nat) :=
  match b with
  | .store cs => (cellWords cs).map fun w => (0, w)
  | .stv off _ _ => [(0, off / 8)]
  | .msg h _ _ => (2, fld h 45 44) :: (if bit h 43 then [(0, fld h 15 0 / 8)] else [])
  | .cue off _ _ => [(0, off / 8)]
  | .inc idx _ => [(1, idx)]
  | .element dir _ _ => [(3, dir)]
  | .far r => (List.range (ceilDiv r.size 8)).map fun i => (4, r.addr.toNat / 8 + i)
  | .move _ => []
  | .card _ _ => []
  | .wake _ _ => []
  | .push _ _ => []
  | .moveFault _ _ => []

/-- A delivery that counts as a store of its party when a fence or a release orders earlier accesses, whatever the scope: it is
performed when its target accepts and applies it, a copy request when it is accepted (R280), and the chains of R358 need
the posted stores that go beyond the scope. Elements pushed to a neighbour, and the requests of jobs and overlay fetches, are
not counted (R285). -/
def Delivery.counts (d : Delivery) : Bool :=
  match d.body with
  | .element _ _ _ => false
  | .card _ _ => false
  | .move v =>
    match v.kind with
    | .copy _ _ _ => true
    | _ => false
  | _ => true

/-- Two deliveries of one sender that must keep their order (R105, R191). -/
def Delivery.conflicts (a b : Delivery) : Bool :=
  a.src == b.src &&
    ((a.dst == b.dst && a.body.keys.any fun k => b.body.keys.contains k) ||
      (a.rel && b.counts && (a.ts == b.ts || a.cid == b.cid)))

/-- Router hops of a delivery's way (R121, R123). -/
def Delivery.hops (d : Delivery) : Nat :=
  match d.cast with
  | some k => k.2
  | none => Machine.hops d.src d.dst

/-- A release store to the sender's own memory, held back until what comes before it is performed (R190, R191). -/
def Delivery.atHome (d : Delivery) : Bool := d.rel && d.src == d.dst

/-- Cycles from the arrival until the answer reaches the sender, by the delivery's own way (R121, R357). -/
def Delivery.answer (d : Delivery) : Nat := if d.atHome then 0 else 4 + d.hops

/-- Cycles from transmission to arrival without contention; a release store to the own memory is performed in the cycle in which
the last acceptance that holds it back arrives (R357, R362). -/
def Delivery.flight (d : Delivery) : Nat :=
  if d.atHome then 0
  else (match d.body with
   | .far _ => 8
   | .move _ => 8
   | .card _ _ => 8
   | _ => 4) + d.hops

/-- Flits of a delivery. DESIGN CHOICE, as the spec gives no size of a flit: a message or a pushed copy is one flit for its header and
one for each 64 bytes; a posted store, an `stv`, a far access and every other packet is one flit, which carries its data (R139, R301;
log entry on injection). -/
def Payload.flits (b : Payload) : Nat :=
  match b with
  | .msg _ _ body => 1 + ceilDiv body.length 64
  | .push _ bytes => 1 + ceilDiv bytes.length 64
  | _ => 1

/-- Flits of partition `part` that have been injected at the router of `src` in this period (R139, R301). -/
def Mach.flitsUsed (m : Mach) (src part : Nat) : Nat :=
  let (x, y) := routerOf src
  Map.get (m.router (y * 512 + x)).used 0 part

/-- Injection at the sender's router is counted for its partition; stagehand and house-core traffic is not budgeted
(R139, R301). -/
def Mach.countFlits (m : Mach) (src part n : Nat) : Mach :=
  if meshCores ≤ src then m
  else
    let (x, y) := routerOf src
    m.modRouter (y * 512 + x) fun r => { r with used := Map.set r.used part (Map.get r.used 0 part + n) }

/-- The position to which a delivery first travels: a multicast, before it has been refused, to the root (R121, R254). -/
def Mach.wayTo (m : Mach) (d : Delivery) : Nat × Nat :=
  match d.cast with
  | some k =>
    if d.refusals = 0 then
      let e := vget (m.part d.part).casts {} k.1
      (e.rx.toNat, e.ry.toNat)
    else addrOf d.dst
  | none => addrOf d.dst

/-- The routers and ports of a delivery's way: over the root for a multicast (R121, R123, R254). -/
def Mach.way (m : Mach) (d : Delivery) : List (Nat × Nat × Nat) :=
  let mid := m.wayTo d
  let first := m.path (routerOf d.src) mid 2048
  if mid == addrOf d.dst then first else first ++ m.path mid (addrOf d.dst) 2048

/-- A delivery on its way requests the port of a router in this cycle: its first flit reaches the i-th router of its way `i`
cycles after its injection (log entry on injection). -/
def Mach.requests_ (m : Mach) (e : Delivery) (r : Nat × Nat) (port : Nat) : Bool :=
  match e.phase with
  | .flying due =>
    (m.way e).zipIdx.any fun s =>
      s.1 == (r.1, r.2, port) && due - e.flight + s.2 ≤ m.clk && m.clk < due - e.flight + s.2 + e.body.flits
  | _ => false

/-- A flit of another partition requests, in this cycle, the output port that the delivery needs at its router: a house core
belongs to none (R12, R301). -/
def Mach.foreignAt (m : Mach) (d : Delivery) : Bool :=
  let r := routerOf d.src
  let port := m.port r (m.wayTo d)
  m.net.any fun e => (e.part != d.part || (meshCores ≤ e.src && e.src < handBase)) && m.requests_ e r port

/-- Flits of the delivery that may enter the mesh in this cycle: all that its router's budget covers, and of the others one in a
cycle in which the port is lent to it (R139, R301, R314). -/
def Mach.flitsOpen (m : Mach) (d : Delivery) : Nat :=
  let inj := (m.part d.part).launch.inj.toNat
  let left := d.body.flits - d.sent
  let used := m.flitsUsed d.src d.part
  if m.injPaused then 0
  else if meshCores ≤ d.src || inj == 0 then left
  else if used < inj then min left (inj - used)
  else if d.flitAt ≤ m.clk && !m.foreignAt d then min left 1
  else 0

/-- The delivery may enter the mesh, or a flit of it. A copy of a multicast enters with the message that leads it (R121). -/
def Mach.injectOpen (m : Mach) (d : Delivery) : Bool :=
  if d.lead then 0 < m.flitsOpen d
  else !(m.net.any fun e => e.src == d.src && e.win == d.win && e.lead && e.phase = .queued)

/-- The delivery with a number. -/
def Mach.delivery (m : Mach) (id : Nat) : Option Delivery := m.net.find? (·.id == id)

/-- The machine with one delivery changed. -/
def Mach.modDelivery (m : Mach) (id : Nat) (f : Delivery → Delivery) : Mach :=
  { m with net := m.net.map fun d => if d.id == id then f d else d }

/-- The links that a delivery passes carry its flits (R314). -/
def Mach.routed (m : Mach) (d : Delivery) : Mach := m.carry (m.way d) d.body.flits

/-- Energy classes in which routers and stagehands work for a partition (R138, R297). -/
def Mach.charge (m : Mach) (q : Nat) (cs : BitVec 6) : Mach := m.modPart q fun p => { p with active := p.active ||| cs }

/-- Energy classes in which a core is active (R138, R297). -/
def Core.charge (k : Core) (cs : BitVec 6) : Core := { k with active := k.active ||| cs }

/-- A copy of a multicast whose member has been reported lost (R120, R254). -/
def Mach.toLost (m : Mach) (d : Delivery) : Bool :=
  d.cast.any fun k => (vget (m.part d.part).casts {} k.1).lostAt.contains d.dst

/-- The delivery's flits enter the mesh, as far as they may; it is on its way once the last has entered. The flits of a multicast
are those of the copy that leads it (R121, R301). A copy to a member that was reported lost before counts as accepted (R254). -/
def Mach.inject (m : Mach) (d : Delivery) : Mach :=
  let n := if d.lead then m.flitsOpen d else 0
  let m := (m.charge d.part 8).countFlits d.src d.part n
  if d.lead && d.sent + n < d.body.flits then
    m.modDelivery d.id fun d => { d with sent := d.sent + n, flitAt := m.clk + 1 }
  else
    let p : Phase := if m.toLost d then .accepting m.clk none else .flying (max m.clk d.sendAt + d.flight)
    let m := m.modDelivery d.id fun d => { d with phase := p, sent := 0 }
    if d.lead then m.routed d else m

/-- The queued copies of the multicast that enter the mesh with a delivery; itself alone, where it is none (R121, R254). -/
def Mach.mates (m : Mach) (d : Delivery) : List Delivery :=
  if d.cast.isNone || d.refusals != 0 then [d]
  else m.net.filter fun e => e.src == d.src && e.win == d.win && e.cast.isSome && e.refusals == 0

/-- Transmit every queued delivery of `src` among these that no earlier unaccepted one holds back: a multicast, which is one
message, when none holds a copy of it back (R105, R121). -/
def transmitFrom (src : Nat) (before : List Delivery) : List Delivery → Mach → Mach
  | [], m => m
  | d :: ds, m =>
    let go := d.src == src && d.phase = .queued && d.after == [] && !before.any (fun e => (m.mates d).any (·.conflicts e)) &&
      m.injectOpen d
    transmitFrom src (before ++ [d]) ds (if go then m.inject d else m)

/-- Transmit what may be transmitted (R105, R301, R314). -/
def Mach.transmit (m : Mach) (src : Nat) : Mach := transmitFrom src [] m.net m

/-- Issue a delivery; it takes the window entry `win`, its own when `own` is set (R105). -/
def Mach.post (m : Mach) (src ts dst : Nat) (body : Payload) (win : Option Nat) (own : Bool := false)
    (rel : Bool := false) (after : List (Nat × Nat) := []) (cast : Option (Nat × Nat) := none) (lead : Bool := true) : Mach :=
  let t := m.tset (.core src ts)
  let d : Delivery :=
    { id := m.nextId, src := src, ts := ts, cid := t.cid, pc := t.pc, priv := t.priv, dst := dst, part := (m.core src).part.toNat,
      body := body, phase := .queued, win := if own then some m.nextId else win, rel := rel, after := after
      cast := cast, lead := lead }
  { m with net := m.net ++ [d], nextId := m.nextId + 1 }.transmit src

/-- The delivery is a wake (R108). -/
def Delivery.isWake (d : Delivery) : Bool :=
  match d.body with
  | .wake _ _ => true
  | _ => false

/-- Issue a delivery of a party without a send window: a stagehand, which sends it after `delay` cycles, and whose packets are held
while injection is paused (R108, R314, R362). -/
def Mach.postHand (m : Mach) (s dst part : Nat) (body : Payload) (delay : Nat := 0) : Mach :=
  let d : Delivery :=
    { id := m.nextId, src := handBase + s, ts := 0, cid := 0, pc := 0, dst := dst, part := part, body := body,
      phase := .queued, win := none, sendAt := m.clk + delay }
  if m.injPaused then { m with net := m.net ++ [d], nextId := m.nextId + 1 }
  else
    (({ m with net := m.net ++ [{ d with phase := .flying (d.sendAt + d.flight) }], nextId := m.nextId + 1 } : Mach).charge
      part 8).routed d

/-- The machine without a delivery, whose flits its partition is charged for; what it held back is transmitted (R138). -/
def Mach.dropDelivery (m : Mach) (d : Delivery) : Mach :=
  let m := { m.charge d.part 8 with net := m.net.filter (·.id != d.id) }
  let m := m.modCore d.dst fun k => { k with hold := k.hold.filter (· != d.id) }
  m.transmit d.src

/-- The address that a lost-packet record names (R311); for a message its header word. -/
def Delivery.target (d : Delivery) : Word :=
  let (x, y) := if handBase ≤ d.dst then handPos (d.dst - handBase) else posOf d.dst
  match d.body with
  | .store cs => meshAddr x y ((cs.head?.map (·.1)).getD 0)
  | .stv off _ _ => meshAddr x y off
  | .cue off _ _ => meshAddr x y off
  | .inc i _ => wd (2 ^ 61 + x * 2 ^ 32 + y * 2 ^ 24 + 4 * i)
  | .msg h _ _ => h
  | .far r => r.addr
  | .move v => v.addr
  | _ => meshAddr x y 0

/-- MSGID of a lost packet, or all ones (R311). -/
def Delivery.msgId (d : Delivery) : Word :=
  match d.body with
  | .msg _ w _ => w &&& 0xFFFFFFFF
  | _ => BitVec.allOnes 64

/-- A record that names the instruction and the privilege by which a delivery was issued (R310). -/
def Delivery.issuerRec (d : Delivery) (cause : Nat) : FaultRec :=
  { faultOf cause with pc := d.pc, priv := BitVec.ofNat 2 d.priv.code }

/-- A delivery to an isolated core is lost: counted and reported at its source for the thread set and the instruction that issued
it, its window entry freed (R107, R310, R314). DESIGN CHOICE: for an element, which names no instruction, the PC is that of
its thread set when the element left its FIFO. -/
def Mach.lose (m : Mach) (d : Delivery) : Mach :=
  let m := m.dropDelivery d
  if handBase ≤ d.src then m
  else
    let m := m.modCore d.src fun k => { k with count := { k.count with lost := satInc k.count.lost } }
    match d.body with
    | .element _ dir _ =>
      m.event d.src { d.issuerRec Cause.lostElement with index := BitVec.ofNat 16 dir, val := 1 } (some d.ts)
    | _ => m.event d.src { d.issuerRec Cause.lostPacket with addr := d.target, data := d.msgId } (some d.ts)

/-- A delivery that stands before an isolated core is lost (R107, R314); a copy of a multicast on its way is delivered (R129). -/
def Mach.lostDue (m : Mach) (id : Nat) : Option Mach :=
  match m.delivery id with
  | none => none
  | some d =>
    let open_ := match d.phase with
      | .queued => true
      | .flying _ => d.cast.isNone
      | .held => true
      | .backoff _ => true
      | _ => false
    if open_ && m.gone.contains d.dst then some (m.lose d) else none

/-! ## Frames to the host (R340, R342) -/

/-- The priority of a frame under priority flow control: 3 for RoCE, 6 for management (R340). -/
def Reply.prio : Reply → Nat
  | .rdma _ _ _ => 3
  | .sent _ _ => 3
  | _ => 6

/-- A port sends frames of a priority: its link is up and the priority is not paused (R340). -/
def Port.sends (p : Port) (prio : Nat) : Bool := p.up && !(prio == 3 && p.pause3) && !(prio == 6 && p.pause6)

/-- A frame leaves by the first port that sends it, which first resolves the address that it sends to; with no such port it waits
(R340). -/
def Mach.send (m : Mach) (r : Reply) : Mach :=
  match [0, 1].find? fun i => (vget m.ports {} i).sends r.prio with
  | none => { m with outbox := m.outbox ++ [r] }
  | some i =>
    let p := vget m.ports {} i
    { m with
      ports := vset m.ports i { p with resolved := true }
      replies := m.replies ++ (if p.resolved then [] else [Reply.solicit i]) ++ [r] }

/-- The frames that wait leave, as far as ports send them. -/
def Mach.sendWaiting (m : Mach) : Mach := m.outbox.foldl Mach.send { m with outbox := [] }

/-! ## Context records and parking (R96, R97) -/

/-- The offset of context record `i`. -/
def Core.recOff (k : Core) (i : Nat) : Nat := k.recs.toNat + 128 * i

/-- Word `j` of context record `i`. -/
def Core.recWord (k : Core) (i j : Nat) : Word := k.mem64 (k.recOff i + 8 * j)

/-- Record `i`. -/
def Core.record (k : Core) (i : Nat) : Rec := vget k.recTab {} i

/-- The core with record `i` changed. -/
def Core.modRec (k : Core) (i : Nat) (f : Rec → Rec) : Core := { k with recTab := vset k.recTab i (f (k.record i)) }

/-- The lowest free record, if any of the 64 is free (R97). DESIGN CHOICE: which free record a park takes the spec leaves
open. -/
def Core.freeRec (k : Core) : Option Nat := (List.range 64).find? fun i => (k.record i).st = .free

/-- Depth of the innermost frame: the deepest display register that is not 0 (R83, R198). -/
def ThreadSet.depth (t : ThreadSet) : Nat := ((List.range 8).reverse.find? fun i => vget t.d 0 i != 0).getD 0

/-- The innermost frame pointer. -/
def ThreadSet.fp (t : ThreadSet) : Word := vget t.d 0 t.depth

/-- Word 0 of a context record (R96). -/
def recWord0 (wait : Nat) (flt : Bool) (t : ThreadSet) (pc : BitVec 14) : Word :=
  BitVec.ofNat 4 wait ++ (0 : BitVec 36) ++ b1 flt ++ BitVec.ofNat 2 t.priv.code ++ t.kfflags ++ b1 t.tc ++ pc

/-- The hardware writes record `i` for the thread set `t`; no version is touched (R96). -/
def Core.writeRec (k : Core) (i wait : Nat) (t : ThreadSet) (pc : BitVec 14) (arg : Word) : Core :=
  let ws : List Word :=
    [recWord0 wait false t pc, t.fp] ++ ([1, 2, 3, 4, 5].map fun n => vget t.x 0 n) ++ [arg] ++ List.replicate 8 0
  k.poke (cellsAt (k.recOff i) (ws.flatMap fun w => leBytes w.toNat 8))

/-- A thread set with nothing to run (R18). -/
def ThreadSet.release (t : ThreadSet) : ThreadSet :=
  { t with busy := false, wait := none, far := .idle, farRec := none, farHdr := none, tag := none, holds := none,
           elapsed := none, notBefore := 0, handler := false, event := false, pend := [], doneJoin := none, dying := none, leaving := false }

/-- The codes of the registers that a context record carries: x1 to x5 and the display, which gives the frame pointer (R96). -/
def savedRegs : List Nat := [1, 2, 3, 4, 5] ++ (List.range 8).map dispCode

/-- Park thread set `t` of core `c` in record `i`: WAIT, ARG and the PC to resume at; the thread set is free (R19, R96). -/
def Mach.parkIn (m : Mach) (c t i wait : Nat) (arg : Word) (pc : BitVec 14) (deadline : Option Nat) : Mach :=
  m.modCore c fun k =>
    let k := savedRegs.foldl (fun k n => k.fixReg t n) k
    let s := k.tset t
    let k := k.writeRec i wait s pc arg
    let k := k.modRec i fun _ =>
      { st := .parked, cid := s.cid, desc := s.desc, deadline := deadline, far := wait == 0, event := s.event,
        handler := s.handler, pend := s.pend }
    let k := { k with count := { k.count with parks := satInc k.count.parks } }
    k.modTs t ThreadSet.release

/-- The words of record `i` are held back by a running operation (R230). -/
def Mach.recHeld (m : Mach) (c i : Nat) : Bool := m.heldRange c ((m.core c).recOff i) 128

/-- Park the instruction's thread set, or raise the park-limit trap when no record is free (R97). The registers that the
record carries are read (R62). -/
def park (wait : Nat) (arg : Word) (pc : BitVec 14) (deadline : Option Nat := none) : Act Unit := do
  let m ← get
  match m.myCore.freeRec with
  | none => trap (faultOf Cause.parkLimit)
  | some i => do
    stallUntil (!m.recHeld m.here i)
    match m.me.badReg savedRegs with
    | some n => trap (regTrap n)
    | none => set (m.parkIn m.here m.tsNo i wait arg pc deadline)

/-- A wake: a parked record becomes woken and its kind-1 entry stands on ring A (R98). -/
def Core.wake (k : Core) (i : Nat) : Core :=
  if (k.record i).st = .parked then
    (k.modRec i fun r => { r with st := .woken, deadline := none }).rawPush false (ringEntry 1 0 (k.recOff i))
  else k

/-- A fault for the wait: words 8 to 15 and FLT, then the kind-2 entry (R98). The record names the parked instruction,
unless another instruction of the codelet is concerned (R310). -/
def Core.faultWake (k : Core) (i : Nat) (r : FaultRec) : Core :=
  if (k.record i).st = .parked then
    let w := k.recWord i 0
    let r := { r with priv := w.extractLsb' 21 2, pc := if r.async then r.pc else w.extractLsb' 0 14 }
    let k := k.poke (cellsAt (k.recOff i + 64) ((r.words.toList).flatMap fun w => leBytes w.toNat 8))
    let k := k.poke64 (k.recOff i) (k.recWord i 0 ||| wd (2 ^ 23))
    (k.modRec i fun r => { r with st := .woken, deadline := none }).rawPush false (ringEntry 2 0 (k.recOff i))
  else k

/-- A fault wake of record `i` cannot be written now (R230). -/
def Mach.wakeHeld (m : Mach) (c i : Nat) : Bool := m.slotHeld c false || m.recHeld c i

/-- An asynchronous fault for the codelet `cid` of core `c`: a trap at the next boundary of the thread set that runs
it, a fault wake when it is parked, in the order of the wakes of its cycle, an event when it has ended (R98, R186). -/
def Mach.deliverFault (m : Mach) (c ts cid : Nat) (r : FaultRec) : Mach :=
  if handBase ≤ c then m
  else
    let k := m.core c
    let r := { r with async := true, time := wd m.clk }
    match (List.range 4).find? fun t => (k.tset t).busy && (k.tset t).cid == cid with
    | some t =>
      if (k.tset t).fol then m.modCore (k.tset t).lead (·.modTs t fun s => { s with pend := s.pend ++ [r.from c] })
      else m.modCore c (·.modTs t fun s => { s with pend := s.pend ++ [r] })
    | none =>
      match (List.range 64).find? fun i => ((k.record i).st = .parked || (k.record i).st = .woken) && (k.record i).cid == cid with
      | some i => m.modCore c (·.modRec i fun q => { q with pend := q.pend ++ [r] })
      | none => m.event c { r with async := false } (some ts)

/-! ## Frames (R83 to R85) -/

/-- The own-memory offset of a frame base, for a frame in this core's memory: space 0x0, or space 0x1 naming the core. -/
def localOff (c : Nat) (f : Word) : Option Nat :=
  if fld f 63 16 = 0 then some (fld f 15 0)
  else if fld f 63 60 = 1 ∧ agentAt (fld f 41 32) (fld f 31 24) = some c then some (fld f 15 0)
  else none

/-- 64-byte blocks that a frame of `size` slots takes (R85). -/
def frameBlocks (size : Nat) : Nat := ceilDiv (16 + 8 * size) 64

/-- The offset of the lowest run of `n` free pool blocks (log entry on frame placement). DESIGN CHOICE: LAST names the last byte of the
pool (R167, R331). -/
def Core.poolFind (k : Core) (n : Nat) : Option Nat :=
  let lo := k.poolFirst.toNat / 64
  let hi := (k.poolLast.toNat + 1) / 64
  if k.poolFirst = 0 ∧ k.poolLast = 0 then none
  else
    ((List.range (hi - lo)).map (lo + ·)).find? (fun b => b + n ≤ hi && (List.range n).all fun i => !k.poolUsed.contains (b + i))
      |>.map (· * 64)

/-- A fresh frame of `size` slots at `off`: two header words, each one store (R84, R85). -/
def Core.makeFrame (k : Core) (c off size depth : Nat) (slink : Word) (refs : Nat) : Core :=
  let (x, y) := posOf c
  let k := (k.store64 off slink).store64 (off + 8) (frameWord refs size true false depth x y)
  { k with frames := off :: k.frames.filter (· != off) }

/-- Allocate a codelet frame in the pool, if it has room (R85). -/
def Core.allocFrame (k : Core) (c size depth : Nat) (slink : Word) : Option (Core × Nat) :=
  match k.poolFind (frameBlocks size) with
  | none => none
  | some off =>
    let k := { k with poolUsed := k.poolUsed ++ (List.range (frameBlocks size)).map (off / 64 + ·) }
    some (k.makeFrame c off size depth slink 0, off)

/-- A frame retires: LIVE clears and its blocks return to the pool (R85). -/
def Core.retireFrame (k : Core) (off : Nat) : Core :=
  let h := k.mem64 (off + 8)
  let n := frameBlocks (fld h 47 32)
  { k with poolUsed := k.poolUsed.filter fun b => !(off / 64 ≤ b && b < off / 64 + n),
           frames := k.frames.filter (· != off) }

/-- `leave` of the frame at `off`: LEFT is set, and LIVE clears in the same store when REFS is 0 (R85); the header word is read
(R80). DESIGN CHOICE: at a kill, which can raise no trap, a header word with an uncorrectable error counts by its stored bits and is
written whole. -/
def Core.leaveFrame (k : Core) (off : Nat) : Core :=
  let k := k.correctWord ((off + 8) / 8)
  let h := k.mem64 (off + 8)
  if fld h 63 48 = 0 then
    (k.retireFrame off).store64 (off + 8) (frameWord 0 (fld h 47 32) false true (fld h 29 27) (fld h 26 17) (fld h 16 9) ||| (h &&& 0x1FF))
  else
    k.store64 (off + 8) (frameWord (fld h 63 48) (fld h 47 32) (bit h 31) true (fld h 29 27) (fld h 26 17) (fld h 16 9) ||| (h &&& 0x1FF))

/-- Leave every codelet frame that the thread set holds, innermost first (R85). -/
def Core.leaveAll (k : Core) (t : Nat) : Core :=
  let s := k.tset t
  let k := [7, 6, 5, 4, 3].foldl (fun k i => if vget s.d 0 i = 0 then k else k.leaveFrame (fld (vget s.d 0 i) 15 0)) k
  k.modTs t fun s => { s with d := [3, 4, 5, 6, 7].foldl (fun d i => vset d i 0) s.d }

/-- The base of the live frame in this core's memory whose header holds offset `a` (R84). -/
def Core.headerOf (k : Core) (a : Nat) : Option Nat := k.frames.find? fun f => f / 8 ≤ a / 8 && a / 8 < f / 8 + 2

/-- A word of a live frame's header in this core's memory (R84). -/
def Core.inHeader (k : Core) (a : Nat) : Bool := (k.headerOf a).isSome

/-- What a record of a protected store to `[a, a + n)` names: the base of a frame whose header it meets, else the address
(R84, R93, R311). -/
def Core.guarded (k : Core) (a n : Nat) : Nat := ((k.headerOf a).or (k.headerOf (a + n - 1))).getD a

/-- The base of the receive ring `n`. -/
def Core.inOff (k : Core) (n : Nat) : Nat := (vget k.inBase 0 n).toNat

/-- A byte of a protected queue area: the ready rings, a receive ring's control words, the record of a parked
context (R93). -/
def Core.inQueueArea (k : Core) (a : Nat) : Bool :=
  (k.ringA.toNat ≤ a && a < k.ringA.toNat + 2048) || (k.ringB.toNat ≤ a && a < k.ringB.toNat + 2048) ||
  (List.range 4).any (fun n => k.inOff n ≤ a && a < k.inOff n + 16) ||
  (List.range 64).any (fun i => ((k.record i).st = .parked || (k.record i).st = .woken) && k.recOff i ≤ a && a < k.recOff i + 128)

/-! ## Joins, killing, trap entry and return (R258, R308, R312) -/

/-- The checks that R250 gives `cue.dec`, by cause code; `none` when they pass, with the target core and offset. -/
def Mach.cueTarget (m : Mach) (c : Nat) (a : Word) : Except Nat (Nat × Nat) :=
  let part := (m.core c).part.toNat
  let sp := fld a 63 60
  if sp = 0 then
    if fld a 59 16 ≠ 0 then .error Cause.address
    else if fld a 2 0 ≠ 0 then .error Cause.alignment
    else .ok (c, fld a 15 0)
  else if sp = 1 then
    if fld a 59 42 ≠ 0 ∨ fld a 23 16 ≠ 0 then .error Cause.address
    else if fld a 2 0 ≠ 0 then .error Cause.alignment
    else
      match meshCore (fld a 41 32) (fld a 31 24) with
      | none => if agentAt (fld a 41 32) (fld a 31 24) = some c then .ok (c, fld a 15 0) else .error Cause.unroutable
      | some q =>
        if q = c then .ok (c, fld a 15 0)
        else if !(m.part part).holds (fld a 41 32) (fld a 31 24) || meshCores ≤ c then .error Cause.partition
        else .ok (q, fld a 15 0)
  else .error Cause.address

/-- Send the join decrement of cue `j`, plain or as a fault; `none` when no window entry is free. A failed check raises
join-refused and sends nothing (R258, R312). -/
def Mach.sendJoin (m : Mach) (c t : Nat) (j : Word) (flt : Bool) : Option Mach :=
  if j = 0 then some m
  else
    match m.cueTarget c j with
    | .error code =>
      let s := (m.core c).tset t
      some (m.event c { faultOf Cause.joinRefused with
                          addr := j, index := BitVec.ofNat 16 code, pc := s.pc, priv := BitVec.ofNat 2 s.priv.code } (some t))
    | .ok (q, off) => if m.windowFree c then some (m.post c t q (.cue off flt (some j)) none true) else none

/-- The join cue of the codelet: slot 0 of its depth-3 frame, as a `done` that has left the frame keeps it (R252, R258). -/
def Core.joinOf (k : Core) (t : Nat) : Word :=
  let f := vget (k.tset t).d 0 3
  (k.tset t).doneJoin.getD (if f = 0 then 0 else k.mem64 (fld f 15 0 + 16))

/-- The followers of the chorus that thread set `t` of core `c` leads, the nearest first (R269). -/
def Mach.followersOf (m : Mach) (c t : Nat) : List Nat :=
  let s := (m.core c).tset t
  let (x, y) := posOf c
  let col := x % 16
  ((List.range 15).flatMap fun d =>
      (if d + 1 ≤ col then [col - (d + 1)] else []) ++ (if col + (d + 1) < 16 then [col + (d + 1)] else [])).filterMap fun i =>
    if bit s.followers i then some (y * 512 + (x / 16 * 16 + i)) else none

/-- Followers of a chorus lead clear FOL and are free (R270, R312). -/
def Mach.freeFollowers (m : Mach) (c t : Nat) : Mach :=
  let m := (m.followersOf c t).foldl (fun m q => m.modCore q (·.modTs t fun f => { f.release with fol := false, lead := 0 })) m
  m.modCore c (·.modTs t fun s => { s with cho := false, followers := 0 })

/-- A record reserved by a far access that is no longer made is freed (R97, R307). -/
def Core.freeReserved (k : Core) (i : Nat) : Core := if (k.record i).st = .reserved then k.modRec i fun _ => {} else k

/-- The reserved record of an answered far access of thread set `t` is freed as the access ends (R196). -/
def Core.endFar (k : Core) (t : Nat) : Core :=
  let s := k.tset t
  match s.far, s.farRec with
  | .answered _, some i => k.freeReserved i
  | _, _ => k

/-- The killing of a member's codelet aborts the gang round that its operation is part of (R235). DEDUCED: before its gang-issue
instruction has arrived a codelet is no part of a round, and the operation of a job goes on when its issuer has ended (R186). -/
def Mach.cutRounds (m : Mach) (c cid : Nat) : Mach :=
  if (m.core c).mat.any fun o => o.gang && o.job.isNone && o.cid == cid then
    { m with rounds := m.rounds.map fun r =>
        if r.arrived.contains c && r.cut.isNone then { r with cut := some (BitVec.ofNat 8 Cause.codeletKilled, c, 0) } else r }
  else m

/-- The Schur operation of thread set `t` is abandoned with its instruction (R307). -/
def Core.dropSchur (k : Core) (t : Nat) : Core := if k.schur.any (·.ts == t) then { k with schur := none } else k

/-- The cores whose thread set `t` performs an instruction with that of core `c`: its own, and those of the followers that it leads
(R23). -/
def Mach.together (m : Mach) (c t : Nat) : List Nat := c :: if ((m.core c).tset t).cho then m.followersOf c t else []

/-- The Schur operations of thread set `t` of core `c`, and of the followers that it leads, are abandoned with their instruction (R23,
R307). -/
def Mach.dropSchur (m : Mach) (c t : Nat) : Mach := (m.together c t).foldl (fun m q => m.modCore q (·.dropSchur t)) m

/-- A Schur operation of thread set `t` of core `c`, or of a follower that it leads, has ended and written its results (R243). -/
def Mach.schurWritten (m : Mach) (c t : Nat) : Bool :=
  (m.together c t).any fun q => (m.core q).schur.any fun o => o.ts == t && o.ended

/-- A running operation holds back the header of a codelet frame that thread set `t` of core `c` holds (R230). -/
def Mach.framesHeld (m : Mach) (c t : Nat) : Bool :=
  let s := (m.core c).tset t
  [7, 6, 5, 4, 3].any fun i => vget s.d 0 i != 0 && m.heldRange c (fld (vget s.d 0 i) 15 0 + 8) 8

/-- The end of a kill: the frames that are still to be left, the fault decrement of the join cue `j`, codelet-killed with its
record `r`, and thread set `t` is free. While the headers of the frames are held back, or the window has no entry for the
decrement, the thread set stays with the kill pending (R95, R230, R312). -/
def Mach.killEnd (m : Mach) (c t : Nat) (j : Word) (r : FaultRec) : Mach :=
  let s := (m.core c).tset t
  let stay (m : Mach) (l : Bool) : Mach :=
    m.modCore c (·.modTs t fun s => { s.release with busy := true, dying := some (r, j), leaving := l })
  if s.leaving && m.framesHeld c t then stay m true
  else
    let m := if s.leaving then m.modCore c (·.leaveAll t) else m
    match m.sendJoin c t j true with
    | none => stay m false
    | some m => (m.event c r (some t)).modCore c (·.modTs t ThreadSet.release)

/-- The record of codelet-killed for a codelet with a descriptor, killed with record `r` (R312). -/
def FaultRec.killed (r : FaultRec) (desc : Word) : FaultRec :=
  { r with cause := BitVec.ofNat 8 Cause.codeletKilled, inner := r.cause, addr := desc, data := r.addr }

/-- Kill the codelet on thread set `t` of core `c`, whose join cue is `j`, with record `r`: its slots, its followers and its
frames go at once (R312). -/
def Mach.killJoin (m : Mach) (c t : Nat) (j : Word) (r : FaultRec) : Mach :=
  let m := m.dropSchur c t
  let m := if ((m.core c).tset t).cho then m.freeFollowers c t else m
  let m := m.cutRounds c ((m.core c).tset t).cid
  let desc := ((m.core c).tset t).desc
  let m := m.modCore c fun k =>
    let k := (k.endFar t).modTs t fun s => { s with sd := Vector.replicate 8 {}, prt := false, leaving := true }
    match (k.tset t).holds with
    | some i => k.modRec i fun _ => {}
    | none => k
  m.killEnd c t j (r.killed (desc.setWidth 64))

/-- The join word of the codelet on thread set `t` read: a single-bit error is corrected and counted (R80, R312). -/
def Core.joinRead (k : Core) (t : Nat) : Core :=
  let f := vget (k.tset t).d 0 3
  if (k.tset t).doneJoin.isSome || f = 0 then k else k.correctWord ((fld f 15 0 + 16) / 8)

/-- Kill the codelet on thread set `t` of core `c` with record `r` (R312). -/
def Mach.kill (m : Mach) (c t : Nat) (r : FaultRec) : Mach :=
  (m.modCore c (·.joinRead t)).killJoin c t ((m.core c).joinOf t) r

/-- Trap entry on thread set `t` of core `c` with record `r`, raised before; kepc.PC becomes `pc` (R308). With
kvec.ENTRY = 0 the codelet is killed. -/
def Mach.enterTrap (m : Mach) (c t : Nat) (r : FaultRec) (pc : BitVec 14) : Mach :=
  let s := (m.core c).tset t
  let r := { r with ts := BitVec.ofNat 2 t, priv := BitVec.ofNat 2 s.priv.code }
  if s.kvec = 0 then m.kill c t r
  else
    (m.dropSchur c t).modCore c fun k =>
      let k := match s.holds with
        | some i => k.modRec i fun _ => {}
        | none => k
      (k.endFar t).modTs t fun s =>
        { s with kfault := r.words, kepcPc := pc, kepcPriv := BitVec.ofNat 2 s.priv.code,
                 priv := if s.priv = .user then .supervisor else s.priv,
                 pc := s.kvec, handler := true, wait := none, far := .idle, farRec := none, farHdr := none, tag := none,
                 holds := none, elapsed := none }

/-- Trap entry with a record raised in this cycle (R308, R310). -/
def Mach.trapEntry (m : Mach) (c t : Nat) (r : FaultRec) (pc : BitVec 14) : Mach :=
  m.enterTrap c t { r with time := wd m.clk } pc

/-- Park thread set `t` of core `c` as `parkIn` does; a register that the record would carry and that cannot be read raises the
register-ECC trap at the waiting instruction (R62). -/
def Mach.parkOrTrap (m : Mach) (c t i wait : Nat) (arg : Word) : Mach :=
  let s := (m.core c).tset t
  match s.badReg savedRegs with
  | some n => m.trapEntry c t { regTrap n with pc := s.pc } s.pc
  | none => m.parkIn c t i wait arg s.pc none

/-- Return from a trap: PC and privilege from kepc (R271, R308). -/
def ThreadSet.trapReturn (t : ThreadSet) : ThreadSet :=
  { t with priv := Priv.ofCode t.kepcPriv.toNat, handler := false }

/-- A trap of a stage program ends it, and its job faults with the trap's cause, address and the program's PC (R209). -/
def Mach.stageFault (m : Mach) (s p : Nat) (cause : Byte) (addr : Word) (pc : Nat) : Mach :=
  match (m.unit s p).cards with
  | [] => m
  | run :: rest =>
    let m := m.modUnit s p fun u => { u with cards := rest, ts := u.ts.release, move := none, answer := none }
    m.modCore run.core fun k =>
      { k with jobs := k.jobs.map fun j =>
          if j.uid == run.job then { j with phase := .faulted cause addr (BitVec.ofNat 32 pc) 0 0 } else j }

/-- A trap taken by an agent: trap entry on a core, the end of the program in a stage program (R209, R308). -/
def Mach.takeTrap (m : Mach) (a : Agent) (r : FaultRec) (pc : BitVec 14) : Mach :=
  match a with
  | .core c t => m.trapEntry c t r pc
  | .stage s p => m.stageFault s p r.cause r.addr r.pc.toNat

/-! ## Instruction memory (R81, R142) -/

/-- The 16-bit instruction word at a byte offset. -/
def imemWord (mem : Memory) (a : Nat) : IWord := BitVec.ofNat 16 (leNat (Memory.bytes mem a 2))

/-- The words from `pc` to the end of its slot, at most as many as the longest instruction (R142, R152). -/
def slotWords (mem : Memory) (pc : Nat) : List IWord :=
  (List.range (min maxWords ((1024 - pc % 1024) / 2))).map fun i => imemWord mem (pc + 2 * i)

/-- A slot's use count (R82): thread sets and parked contexts whose PC lies in it, and thread sets in a trap handler
whose kepc.PC lies in it. -/
def Core.useCount (k : Core) (g : Nat) : Nat :=
  ((List.range 4).filter fun t => (k.tset t).busy && (k.tset t).pc.toNat / 1024 == g).length +
  ((List.range 64).filter fun i => ((k.record i).st = .parked || (k.record i).st = .woken) && fld (k.recWord i 0) 13 10 == g).length +
  ((List.range 4).filter fun t => (k.tset t).busy && (k.tset t).handler && (k.tset t).kepcPc.toNat / 1024 == g).length

/-- Overlay slot `g`. -/
def Core.slot (k : Core) (g : Nat) : Overlay := vget k.seg {} g

/-! ## Free values (log entry on free values) -/

/-- A fresh value that the spec leaves open. -/
def Mach.freeWord (m : Mach) : Word × Mach := (Config.freeWord m.fresh, { m with fresh := m.fresh + 1 })

end Sys2Proof.Machine
end

