-- ==== Sys2Proof/Machine/Operands.lean ====
section
/-! DEFINITION. Operand forms: predicates, ports and stream FIFOs, register reads and writes, addresses with the checks of
R184 and the waits of R185, and the loads and stores over them (03_registers R54 to R58; 05_queues R106; 10_isa_memory). -/

namespace Sys2Proof.Machine

/-! ## Stream elements (R57, R106, R199, R201) -/

/-- Bits of a format (R31); 0 for a reserved code. -/
def fmtBits (n : Nat) : Nat :=
  match n with
  | 0x00 => 8 | 0x01 => 8 | 0x02 => 16 | 0x03 => 16 | 0x04 => 32 | 0x05 => 32 | 0x06 => 64 | 0x07 => 64
  | 0x08 => 64 | 0x09 => 32 | 0x0A => 16 | 0x0B => 16 | 0x0C => 8 | 0x0D => 8 | 0x0E => 6 | 0x0F => 4
  | 0x10 => 1 | 0x11 => 8 | _ => 0

/-- The element total of a stream; `none` for the unbounded kinds (R199). -/
def Core.slotTotal (k : Core) (s : Slot) : Option Nat :=
  if s.kind ≤ 1 then some (s.n0 * s.n1 * s.n2)
  else if s.kind ≤ 3 then some s.n0
  else if s.kind = 4 then
    let ch := vget k.chan {} s.aux
    some ((ch.limit.toNat - ch.base.toNat) / s.esize)
  else none

/-- The local offset of element `n` of an affine stream, exact (R199). -/
def Slot.elemAt (s : Slot) (n : Nat) : Int :=
  let i0 := n % s.n0
  let i1 := n / s.n0 % s.n1
  let i2 := n / (s.n0 * s.n1)
  (s.base : Int) + i0 * s.stride 0 + i1 * s.stride 1 + i2 * s.stride 2

/-- Offset of the first packed value of a compressed object of `n` elements (R201). -/
def valuesOff (n : Nat) : Nat := 8 + 8 * ceilDiv n 64

/-- Bytes `[a, a + n)` of local memory as a number, or the fault that reading them meets (R80, R184). -/
def Core.readElem (k : Core) (a : Int) (n : Nat) : Except (Byte × Word) Nat :=
  let w := wd (a % 2 ^ 64).toNat
  if a < 0 ∨ 65536 < a + n then .error (BitVec.ofNat 8 Cause.address, w)
  else if a.toNat % n ≠ 0 then .error (BitVec.ofNat 8 Cause.alignment, w)
  else
    match k.badRead a.toNat n with
    | some _ => .error (BitVec.ofNat 8 Cause.memoryEcc, w)
    | none => .ok (k.readN a.toNat n)

/-- Bit `j` of the bit string of `[a, …)` in local memory (R37). -/
def Core.bitAt (k : Core) (a j : Nat) : Bool := fld (Memory.byte k.mem (a + j / 8)) (j % 8) (j % 8) == 1

/-- `w` bits at bit position `j` of the bit string that starts at `a` (R37). -/
def Core.bitsAt (k : Core) (a j w : Nat) : Nat := k.readN (a + j / 8) 10 / 2 ^ (j % 8) % 2 ^ w

/-- The element that the stream hardware reads next into an input FIFO, with the slot after it; `none` when there is none
to read yet (R106, R202). -/
def Core.nextElem (k : Core) (s : Slot) : Option (Except (Byte × Word) (V128 × Slot)) :=
  let bump := { s with moved := s.moved + 1 }
  match s.kind with
  | 0 =>
    if s.n0 * s.n1 * s.n2 ≤ s.moved then none
    else
      match k.readElem (s.elemAt s.moved) s.esize with
      | .error e => some (.error e)
      | .ok v => some (.ok (BitVec.ofNat 128 v, bump))
  | 3 =>
    if s.n0 ≤ s.moved then none
    else
      let w := fmtBits s.fmt
      let a := s.base + valuesOff s.n0
      if 65536 ≤ s.base + 8 + s.moved / 8 then some (.error (BitVec.ofNat 8 Cause.address, wd (s.base + 8 + s.moved / 8)))
      else if (k.badRead (s.base + 8 + s.moved / 8) 1).isSome then
        some (.error (BitVec.ofNat 8 Cause.memoryEcc, wd ((s.base + 8 + s.moved / 8) / 8 * 8)))
      else if k.bitAt (s.base + 8) s.moved then
        if 65536 < a + ceilDiv ((s.nnz + 1) * w) 8 then some (.error (BitVec.ofNat 8 Cause.address, wd a))
        else match k.badRead (a + s.nnz * w / 8) (ceilDiv w 8) with
        | some q => some (.error (BitVec.ofNat 8 Cause.memoryEcc, wd (8 * q)))
        | none => some (.ok (BitVec.ofNat 128 (k.bitsAt a (s.nnz * w) w), { bump with nnz := s.nnz + 1 }))
      else some (.ok (0, bump))
  | 4 =>
    let ch := vget k.chan {} s.aux
    let a := ch.base.toNat + s.moved * s.esize
    if a + s.esize ≤ ch.wm.toNat then
      match k.readElem a s.esize with
      | .error e => some (.error e)
      | .ok v => some (.ok (BitVec.ofNat 128 v, bump))
    else none
  | _ => none

/-- The local bytes that the next fill of an input reads, for the waits of R185: an element, or the bit of a compressed object
and the bytes of its next value. -/
def Core.fillRanges (k : Core) (s : Slot) : List (Nat × Nat) :=
  if s.kind = 3 then
    let w := fmtBits s.fmt
    (s.base + 8 + s.moved / 8, 1) ::
      (if k.bitAt (s.base + 8) s.moved then [(s.base + valuesOff s.n0 + s.nnz * w / 8, ceilDiv (s.nnz * w % 8 + w) 8)] else [])
  else if s.kind = 4 then [((vget k.chan {} s.aux).base.toNat + s.moved * s.esize, s.esize)]
  else [((s.elemAt s.moved).toNat, s.esize)]

/-- Single-bit errors that the next fill of an input meets are corrected and counted (R80, R140). -/
def Core.filled (k : Core) (s : Slot) : Core := (k.fillRanges s).foldl (fun k r => k.correct r.1 r.2) k

/-! ## Waits of R185 -/

/-- A footprint word of a job card: (first, last, written), when the card has it (R206). -/
def footprints (card : List Word) : List (Nat × Nat × Bool) :=
  ((card.drop 1).take (fld (card.getD 0 0) 52 50)).map fun w => (fld w 15 0, fld w 31 16, bit w 63)

/-- An unfinished job of the core has a footprint that the access conflicts with (R207). -/
def Core.jobBlocks (k : Core) (a n : Nat) (store : Bool) : Bool :=
  k.jobs.any fun j => (footprints j.card).any fun f => meets a n f.1 (f.2.1 + 1) && (store || f.2.2)

/-- The copy channel in whose unfilled part `[W, L)` the access falls (R137). -/
def Core.aboveMark (k : Core) (a n : Nat) : Option Nat :=
  (List.range 4).find? fun i =>
    let ch := vget k.chan {} i
    meets a n ch.wm.toNat ch.limit.toNat

/-- Elements of a FIFO as the port carries them: zero-extended, of ESIZE bytes (R57). -/
def Slot.clip (s : Slot) (v : V128) : V128 := BitVec.ofNat 128 (v.toNat % 2 ^ (8 * s.esize))

/-- An element of a compressed stream keeps the bits of its format alone (R201). -/
def Slot.clipFmt (s : Slot) (v : V128) : Nat := v.toNat % 2 ^ (fmtBits s.fmt)

/-- Bytes of a compressed object with `n` values (R201, R352). -/
def objectSize (s : Slot) (n : Nat) : Nat := ceilDiv (valuesOff s.n0 + ceilDiv (n * fmtBits s.fmt) 8) 16 * 16

/-- The words that finishing a compressed object after `pos` elements with `nnz` values writes: its header, the bitmap words and
the value words that are not complete, and its padding (R202, R353). -/
def Slot.endWords (s : Slot) (pos nnz : Nat) : List Nat :=
  let v0 := s.base + valuesOff s.n0
  let b0 := s.base + 8 + 8 * (pos / 64)
  let a0 := v0 + 8 * (nnz * fmtBits s.fmt / 64)
  s.base :: ((List.range ((v0 - b0) / 8)).map fun i => b0 + 8 * i) ++
    (List.range ((s.base + objectSize s nnz - a0) / 8)).map fun i => a0 + 8 * i

/-- The words that pushing element POS of a compress-store writes: its bitmap word, the words of a nonzero value, and the end of
the object with the last element (R202). -/
def Slot.pushWords (s : Slot) (nz : Bool) : List Nat :=
  let w := fmtBits s.fmt
  let p := s.pos.toNat
  let v0 := s.base + valuesOff s.n0
  let lo := s.nnz * w / 64
  let hi := (s.nnz * w + w - 1) / 64
  (s.base + 8 + 8 * (p / 64)) :: (if nz then (List.range (hi + 1 - lo)).map fun i => v0 + 8 * (lo + i) else []) ++
    (if p + 1 = s.n0 then s.endWords s.n0 (s.nnz + b2n nz) else [])

/-- The words of the own core that the elements in the FIFO of a store stream write: an affine store's elements, or a compressed
object's bitmap words, value words and end (R106, R185, R202). -/
def Slot.undrainedWords (s : Slot) : List Nat :=
  if s.kind = 1 then
    (List.range s.fifo.length).flatMap fun i =>
      let e := (s.elemAt (s.moved + i)).toNat
      (List.range (ceilDiv (e % 8 + s.esize) 8)).map fun j => e / 8 + j
  else if s.kind = 2 then
    ((s.fifo.foldl (fun (q : Slot × List Nat) v =>
      let nz := s.clipFmt v != 0
      ({ q.1 with pos := q.1.pos + 1, nnz := q.1.nnz + b2n nz }, q.2 ++ q.1.pushWords nz))
      ({ s with pos := BitVec.ofNat 32 s.moved, nnz := s.nnzOut }, [])).2).map (· / 8)
  else []

/-- A bound store stream of the list holds an undrained element for a word of `[a, a + n)` (R106, R185). -/
def undrainedIn (ss : List Slot) (a n : Nat) : Bool :=
  ss.any fun s => s.bnd && s.undrainedWords.any fun w => a / 8 ≤ w && 8 * w < a + n

/-- A store stream of the thread set holds an element for a word of `[a, a + n)` that is not drained (R106, R185). -/
def ThreadSet.undrained (t : ThreadSet) (a n : Nat) : Bool := undrainedIn t.sd.toList a n

/-- The bytes of core `q` that a delivery writes touch a word of `[a, a + n)`. -/
def Delivery.writesWord (d : Delivery) (q a n : Nat) : Bool :=
  d.dst == q &&
  (match d.body with
   | .store cs => cs.any fun c => meets (a / 8 * 8) (n + a % 8) (c.1 / 8 * 8) (c.1 / 8 * 8 + 8)
   | .stv off _ _ => meets (a / 8 * 8) (n + a % 8) (off / 8 * 8) (off / 8 * 8 + 8)
   | .cue off _ _ => meets (a / 8 * 8) (n + a % 8) (off / 8 * 8) (off / 8 * 8 + 8)
   | .msg h _ _ => bit h 43 && meets (a / 8 * 8) (n + a % 8) (fld h 15 0 / 8 * 8) (fld h 15 0 / 8 * 8 + 8)
   | _ => false)

/-- A store or decrement of the party to a word of core `q` is not accepted (R185, R276, R279, R282). -/
def Mach.unaccepted (m : Mach) (c t q a n : Nat) : Bool :=
  let cid := ((m.core c).tset t).cid
  m.net.any fun d => d.src == c && (d.ts == t || d.cid == cid) && d.writesWord q a n

/-- The outcome of the waits of R185. -/
inductive Gate where
  | open_
  | shut
  /-- The access stalls above the watermark of a faulted copy, which wakes it into the copy fault (R137). -/
  | copyFault (r : FaultRec)

/-- The copy-fault record of a channel (R311). -/
def Chan.faultRec (ch : Chan) (i : Nat) : FaultRec :=
  { faultOf Cause.copyFault with
    inner := ((ch.fault.map (·.1)).getD 0), index := BitVec.ofNat 16 i, data := ch.wm.setWidth 64 }

/-- The waits of R185 for an access to `[a, a + n)` of the own core. -/
def Mach.gate (m : Mach) (c t a n : Nat) (store : Bool) : Gate :=
  let k := m.core c
  match k.aboveMark a n with
  | some i =>
    let ch := vget k.chan {} i
    if ch.fault.isSome then .copyFault (ch.faultRec i) else .shut
  | none =>
    if (k.tset t).undrained a n || m.unaccepted c t c a n || k.jobBlocks a n store || (store && m.heldRange c a n) then .shut
    else .open_

/-- Wait until no running operation holds back a write to `[a, a + n)` of the own core (R230, R243). -/
def waitHeld (a n : Nat) : Act Unit := do
  let m ← get
  stallUntil (!m.heldRange m.here a n)

/-- Wait until the slot of the next entry of a ring may be written (R230). -/
def waitPush (ring : Bool) : Act Unit := do
  let m ← get
  stallUntil (!m.pushHeld m.here ring)

/-- Stall until the waits of R185 are over; the kind of the wait. -/
def waitGate (a n : Nat) (store : Bool) (k : WaitKind := .other) : Act Unit := do
  let m ← get
  match m.gate m.here m.tsNo a n store with
  | .open_ => pure ()
  | .shut => throw (.wait k)
  | .copyFault r => trap r

/-! ## Ports (R56, R57) -/

/-- Slot `i` of a thread set. -/
def ThreadSet.slot (t : ThreadSet) (i : Nat) : Slot := vget t.sd {} i

/-- The thread set with slot `i` replaced. -/
def ThreadSet.setSlot (t : ThreadSet) (i : Nat) (s : Slot) : ThreadSet := { t with sd := vset t.sd i s }

/-- The slot that binds the name `n` of the x or v file (R57). -/
def ThreadSet.portOf (t : ThreadSet) (isV : Bool) (n : RegNo) : Option Nat :=
  if n.toNat < 24 then none
  else (List.range 8).find? fun i => (t.slot i).bnd && (t.slot i).isV == isV && (t.slot i).port + 24 == n.toNat

/-- A slot is bound (R22). -/
def ThreadSet.anyBound (t : ThreadSet) : Bool := t.sd.toList.any (·.bnd)

/-- The thread set is held: it has a bound slot, or takes part in a chorus (R22). -/
def ThreadSet.held (t : ThreadSet) : Bool := t.anyBound || t.cho || t.fol

/-- The trap of a port misused (R56, R57, R169, R215). -/
def portTrap : FaultRec := faultOf Cause.illegalOperation

/-- A source name is not an output-bound port (R57). -/
def srcPort (isV : Bool) (n : RegNo) : Act Unit := do
  let t ← me
  match t.portOf isV n with
  | some i => require (!(t.slot i).dir) portTrap
  | none => pure ()

/-- A destination name is not an input-bound port (R57). -/
def dstPort (isV : Bool) (n : RegNo) : Act Unit := do
  let t ← me
  match t.portOf isV n with
  | some i => require (t.slot i).dir portTrap
  | none => pure ()

/-- A name that is both source and destination is not bound (R169, R215). -/
def bothPort (isV : Bool) (n : RegNo) : Act Unit := do
  let t ← me
  match t.portOf isV n with
  | some _ => trap portTrap
  | none => pure ()

/-- No register of a group of width 2 or 4 is bound; the trap names the slot (R56). -/
def groupPort (isV : Bool) (n : RegNo) (w : Nat) : Act Unit := do
  if w = 1 then pure ()
  else
    let t ← me
    match ((List.range w).filterMap fun i => t.portOf isV (n + BitVec.ofNat 5 i)).head? with
    | some i => trap { portTrap with reg := BitVec.ofNat 8 (72 + i), index := BitVec.ofNat 16 i }
    | none => pure ()

/-- The record of a stream fault at slot `i`: POS names the element, and INDEX the slot for the causes to which R311 gives it (R106,
R202, R311). -/
def Slot.faultRec (s : Slot) (i : Nat) (cause : Byte) (addr : Word) : FaultRec :=
  { faultOf 0 with
    cause := cause, addr := addr, pos := s.pos
    index := if cause.toNat = Cause.alignment ∨ cause.toNat = Cause.streamOverrun then BitVec.ofNat 16 i else 0 }

/-- The next element that the hardware may read into an input slot of a thread set, with the slot after it, or the record of the
fault that reading it meets; `none` when there is none to read or the waits of R185 hold (R106, R137, R185). -/
def Mach.fillOne (m : Mach) (c t i : Nat) (s : Slot) : Option (Except FaultRec (V128 × Slot)) :=
  let k := m.core c
  let ch := vget k.chan {} s.aux
  match k.nextElem s with
  | none => if s.kind = 4 ∧ ch.fault.isSome then some (.error (ch.faultRec s.aux)) else none
  | some r =>
    (k.fillRanges s).foldl (fun (o : Option (Except FaultRec (V128 × Slot))) (a : Nat × Nat) =>
      match o with
      | some (.ok v) =>
        match m.gate c t a.1 a.2 false with
        | .shut => none
        | .copyFault f => some (.error { f with pos := s.pos })
        | .open_ => some (.ok v)
      | o => o)
      (some (match r with
             | .ok v => .ok v
             | .error (cz, a) => .error (s.faultRec i cz a)))

/-! ## Neighbours (R107, R124) -/

/-- The logical number of a core in its partition (R13). -/
def Mach.logical (m : Mach) (p c : Nat) : Option Nat := (m.liveCores p).findIdx? (· == c)

/-- The live cores of a partition along the snake ring (R124). -/
def Mach.snake (m : Mach) (p : Nat) : List Nat :=
  let (x0, y0, w, h) := (m.part p).rect
  ((List.range h).flatMap fun j =>
    let row := (List.range w).map fun i => (y0 + j) * 512 + (x0 + i)
    if j % 2 = 0 then row else row.reverse).filter m.live

/-- The core after `c` in a cyclic list. -/
def nextIn (l : List Nat) (c : Nat) : Option Nat :=
  match l.findIdx? (· == c) with
  | none => none
  | some i => l[(i + 1) % l.length]?

/-- The first live core from `c` on in one direction of the mesh, inside the partition; `wrap` goes round its edges. -/
def Mach.meshStep (m : Mach) (p c dir : Nat) (wrap : Bool) : Option Nat :=
  let (x0, y0, w, h) := (m.part p).rect
  let (x, y) := posOf c
  let n := if dir % 2 = 0 then h else w
  let at_ (i : Nat) : Option Nat :=
    let u := x - x0
    let v := y - y0
    if wrap then
      some (match dir with
            | 0 => (y0 + (v + h - i % h) % h) * 512 + x
            | 1 => y * 512 + (x0 + (u + i) % w)
            | 2 => (y0 + (v + i) % h) * 512 + x
            | _ => y * 512 + (x0 + (u + w - i % w) % w))
    else
      match dir with
      | 0 => if i ≤ v then some ((y - i) * 512 + x) else none
      | 1 => if u + i < w then some (y * 512 + (x + i)) else none
      | 2 => if v + i < h then some ((y + i) * 512 + x) else none
      | _ => if i ≤ u then some (y * 512 + (x - i)) else none
  ((List.range n).filterMap fun i => at_ (i + 1)).find? m.live

/-- The neighbour map of core `c`: 0 N, 1 E, 2 S, 3 W (R124). -/
def Mach.neighbour (m : Mach) (c dir : Nat) : Option Nat :=
  let p := (m.core c).part.toNat
  let q := m.part p
  if meshCores ≤ c then none
  else
    match q.stitch.toNat with
    | 0 => m.meshStep p c dir false
    | 1 => if dir = 1 then nextIn (m.snake p) c else if dir = 3 then nextIn (m.snake p).reverse c else none
    | 2 =>
      match m.logical p c with
      | none => none
      | some n =>
        if dir = 0 then (if n = 0 then none else (m.liveCores p)[(n - 1) / 2]?)
        else if dir = 1 then (m.liveCores p)[2 * n + 2]?
        else if dir = 3 then (m.liveCores p)[2 * n + 1]?
        else none
    | _ => m.meshStep p c dir true

/-- The buffer of core `b` that an element pushed by `a` through direction `dir` enters (R107). -/
def Mach.linkBuffer (m : Mach) (a b dir : Nat) : Nat :=
  let opp := (dir + 2) % 4
  if m.neighbour b opp = some a then opp
  else ((List.range 4).find? fun d => m.neighbour b d = some a).getD opp

/-- The link buffer that a neighbour kind names: 0 N, 1 E, 2 S, 3 W (R58, R107). -/
def Slot.linkDir (s : Slot) : Nat := s.kind - 7

/-- The oldest element of a neighbour push slot leaves its FIFO for the neighbour's link buffer, where that has room (R106,
R107). -/
def Mach.passElem (m : Mach) (c t i : Nat) : Option Mach :=
  let k := m.core c
  let s := (k.tset t).slot i
  match s.fifo, m.neighbour c s.linkDir with
  | v :: vs, some b =>
    let d := m.linkBuffer c b s.linkDir
    let coming := (m.net.filter fun e => e.dst == b &&
      (match e.body with
       | .element d' _ _ => d' == d
       | _ => false)).length
    if (vget (m.core b).link [] d).length + coming < 8 then
      some ((m.setCore c (k.modTs t (·.setSlot i { s with fifo := vs }))).post c t b (.element d s.linkDir v) none)
    else none
  | _, _ => none

/-- Remove and return the next element of slot `i` (R5, R57); a neighbour port pops its link buffer (R107). An element at
which the stream stopped is read again, and only its pop raises the fault, at POS (R58, R106). DESIGN CHOICE:
FLT falls when the restarted pop succeeds. -/
def pop (i : Nat) : Act V128 := do
  let t ← me
  let k ← myCore
  let s := t.slot i
  if (k.slotTotal s).any (· ≤ s.pos.toNat) then
    modMe fun t => { t.setSlot i { s with eos := true } with eos := true }
    return 0
  else if 7 ≤ s.kind then
    match vget k.link [] s.linkDir with
    | [] => throw (.wait .other)
    | v :: vs =>
      modMyCore fun k => { k with link := vset k.link s.linkDir vs }
      modMe (·.setSlot i { s with pos := s.pos + 1 })
      return s.clip v
  else
    match s.fifo with
    | v :: vs =>
      modMe (·.setSlot i { s with fifo := vs, pos := s.pos + 1 })
      return v
    | [] =>
      if s.fault.isSome then
        let m ← get
        match m.fillOne m.here m.tsNo i s with
        | some (.ok (v, s')) =>
          modMyCore (·.filled s)
          modMe (·.setSlot i { s' with flt := false, fault := none, pos := s.pos + 1 })
          return v
        | some (.error r) => throw (.streamFault i r)
        | none => throw (.wait .other)
      else throw (.wait .other)

/-- The record of a store of `n` bytes at offset `off` of core `q` that step 4 of R184 refuses, where `ea` is the address used
for `off`: a frame-header record names the frame's base (R311). -/
def Mach.guardRec (m : Mach) (q off n : Nat) (ea : Word) (code : Nat) : FaultRec :=
  { faultOf code with
    addr := if code = Cause.frameHeader then ea - wd off + wd ((m.core q).guarded off n) else ea }

/-- Step 4 of R184 for a store of `n` bytes at own offset `off`. -/
def Core.protectedAt (k : Core) (off n : Nat) : Option Nat :=
  if k.inQueueArea off || k.inQueueArea (off + n - 1) then some Cause.queueArea
  else if k.inHeader off || k.inHeader (off + n - 1) then some Cause.frameHeader
  else none

/-- The first of these words that a stream may not write, with the fault (R84, R93, R184). -/
def Core.wordsFault (k : Core) (ws : List Nat) : Option (Byte × Word) :=
  ws.findSome? fun a =>
    if 65536 < a + 8 then some (BitVec.ofNat 8 Cause.address, wd a)
    else (k.protectedAt a 8).map fun code =>
      (BitVec.ofNat 8 code, wd (if code = Cause.frameHeader then k.guarded a 8 else a))

/-- The fault that pushing element POS meets, if any: alignment, protected area, frame header, overrun (R106, R202). -/
def Core.pushFault (k : Core) (s : Slot) (v : V128) : Option (Byte × Word) :=
  let code (n : Nat) : Byte := BitVec.ofNat 8 n
  if s.kind = 1 then
    let e := s.elemAt s.pos.toNat
    let a := e.toNat
    let w := wd (e % 2 ^ 64).toNat
    if e < 0 ∨ 65536 < e + s.esize then some (code Cause.address, w)
    else if a % s.esize ≠ 0 then some (code Cause.alignment, w)
    else (k.protectedAt a s.esize).map fun n => (code n, if n = Cause.frameHeader then wd (k.guarded a s.esize) else w)
  else if s.kind = 2 then
    let nz := s.clipFmt v != 0
    if nz && s.res < objectSize s (s.nnz + 1) then some (code Cause.streamOverrun, 0) else k.wordsFault (s.pushWords nz)
  else none

/-- The bytes that draining the oldest element of an affine store writes. -/
def Slot.drainCells (s : Slot) : List (Nat × Byte) :=
  match s.fifo with
  | [] => []
  | v :: _ => cellsAt (s.elemAt s.moved).toNat (leBytes v.toNat s.esize)

/-- The fault at which draining an affine store stands still: a word written in part that cannot be read (R80, R203). -/
def Core.drainFault (k : Core) (s : Slot) : Option (Byte × Word) :=
  if s.kind = 1 then (k.badWrite s.drainCells).map fun w => (BitVec.ofNat 8 Cause.memoryEcc, wd (8 * w)) else none

/-- The words that pushing an element writes when it drains (R106, R202). -/
def Slot.elemWords (s : Slot) (v : V128) : List Nat :=
  ({ s with fifo := [v], moved := s.pos.toNat, nnzOut := s.nnz } : Slot).undrainedWords

/-- Another store stream of the thread set holds an undrained element for a word that this element writes: the access waits as R185
states, so the stores of the party to the word keep their order (R279). -/
def ThreadSet.crossed (t : ThreadSet) (i : Nat) (v : V128) : Bool :=
  let others := ((List.range 8).filter (· != i)).map t.slot
  ((t.slot i).elemWords v).any fun w => undrainedIn others (8 * w) 8

/-- Append an element to slot `i` (R5, R57, R106); a compress-store notes kmode.TC (R38). A full FIFO towards a neighbour that has
popped in this cycle gives its oldest element up first (R111). DESIGN CHOICE: FLT falls when the restarted push at POS succeeds. -/
def push (i : Nat) (v : V128) : Act Unit := do
  let t ← me
  let k ← myCore
  let s := t.slot i
  if (k.slotTotal s).any (· ≤ s.pos.toNat) then
    modMe fun t => { t.setSlot i { s with eos := true } with eos := true }
  else
    match (k.pushFault s v).or (k.drainFault s) with
    | some (c, a) => throw (.streamFault i (s.faultRec i c a))
    | none =>
      let m ← get
      let m := if 8 ≤ s.fifo.length && 7 ≤ s.kind then (m.passElem m.here m.tsNo i).getD m else m
      let s := m.me.slot i
      if 8 ≤ s.fifo.length || t.crossed i v then throw (.wait .other)
      else do
        set m
        modMe (·.setSlot i { s with fifo := s.fifo ++ [s.clip v], pos := s.pos + 1, flt := false, fault := none, pushTc := t.tc,
                                    nnz := if s.kind = 2 && s.clipFmt v != 0 then s.nnz + 1 else s.nnz })

/-! ## Registers (R53, R54, R57)

DEDUCED: a write replaces the whole stored word and its check bits, so an error of the word it replaces is gone, as of a memory word
(R80). -/

/-- The scalar register under a name, x0 reading zero. -/
def ThreadSet.xreg (t : ThreadSet) (n : RegNo) : Word := if n = 0 then 0 else vget t.x 0 n.toNat

/-- The thread set with a scalar register written; x0 discards it (R54). -/
def ThreadSet.setX (t : ThreadSet) (n : RegNo) (v : Word) : ThreadSet :=
  if n = 0 then t else { t with x := vset t.x n.toNat v, regErr := t.regErr.erase n.toNat }

/-- The thread set with a vector register written. -/
def ThreadSet.setV (t : ThreadSet) (n : RegNo) (v : V128) : ThreadSet :=
  { t with v := vset t.v n.toNat v, regErr := t.regErr.erase (32 + n.toNat) }

/-- The predicate register, p7 reading all ones (R53). -/
def ThreadSet.preg (t : ThreadSet) (n : Nat) : BitVec 16 := if n = 7 then BitVec.allOnes 16 else vget t.p 0 n

/-- The thread set with a predicate register written; p7 discards it (R54). -/
def ThreadSet.setP (t : ThreadSet) (n : Nat) (v : BitVec 16) : ThreadSet :=
  if n = 7 then t else { t with p := vset t.p n v, regErr := t.regErr.erase (64 + n) }

/-- The thread set with the display register of depth `n` written. -/
def ThreadSet.setD (t : ThreadSet) (n : Nat) (v : Word) : ThreadSet :=
  { t with d := vset t.d n v, regErr := t.regErr.erase (dispCode n) }

/-- X(n) as a source: a pop of a bound name, else the register (R168). -/
def readX (n : RegNo) : Act Word := do
  let t ← me
  match t.portOf false n with
  | some i => return (← pop i).setWidth 64
  | none => do
    checkReg n.toNat
    return t.xreg n

/-- X(n) as the destination: a push of a bound name, else the register (R168). -/
def writeX (n : RegNo) (v : Word) : Act Unit := do
  let t ← me
  match t.portOf false n with
  | some i => push i (v.setWidth 128)
  | none => modMe (·.setX n v)

/-- V(n) as a source. -/
def readV (n : RegNo) : Act V128 := do
  let t ← me
  match t.portOf true n with
  | some i => pop i
  | none => do
    checkReg (32 + n.toNat)
    return vget t.v 0 n.toNat

/-- V(n) as the destination. -/
def writeV (n : RegNo) (v : V128) : Act Unit := do
  let t ← me
  match t.portOf true n with
  | some i => push i v
  | none => modMe (·.setV n v)

/-- The register under a v name before the instruction, for inactive elements; zero under a bound name (R55). -/
def oldV (n : RegNo) : Act V128 := do
  let t ← me
  match t.portOf true n with
  | some _ => return 0
  | none => do
    checkReg (32 + n.toNat)
    return vget t.v 0 n.toNat

/-- Predicate register pn as a source. -/
def readP (n : Nat) : Act (BitVec 16) := do
  checkReg (64 + n)
  return (← me).preg n

/-- Pred: the predicate that governs the instruction (R168). -/
def readPred (a : Args) : Act (BitVec 16) := readP a.p.toNat

/-- Pred[0]: a scalar instruction executes (R55). -/
def predOn (a : Args) : Act Bool := do return (← readPred a).getLsbD 0

/-- Write a scalar result under the predicate: an inactive one pushes zero to a bound name (R55, R169). -/
def writeRes (a : Args) (on : Bool) (v : Word) : Act Unit := do
  if on then writeX a.d v
  else
    match (← me).portOf false a.d with
    | some i => push i 0
    | none => pure ()

/-- The two sources of a t2 scalar form, in their order (R169, R172). -/
def readBin (a : Args) : Act (Word × Word) := do
  if a.short then
    bothPort false a.d
    srcPort false a.s
    let l ← readX a.d
    let r ← readX a.s
    return (l, r)
  else
    srcPort false a.s
    srcPort false a.t
    dstPort false a.d
    let l ← readX a.s
    let r ← readX a.t
    return (l, r)

/-- The source of a form `op xd, xs`. -/
def readUn (a : Args) : Act Word := do
  srcPort false a.s
  dstPort false a.d
  readX a.s

/-! ## Sizes (R148) -/

/-- Bytes of a size variant. -/
def sizeOf (v : BitVec 3) : Nat := 2 ^ (v.toNat % 4)

/-! ## Addresses (R75, R77, R184) -/

/-- How far in the mesh a form reaches with a space-0x1 address (R184). -/
inductive MeshReach where
  | own | cluster | partition
  deriving DecidableEq, Repr

/-- What an address names. -/
inductive Place where
  | own (off : Nat)
  | other (core off : Nat)
  | system
  deriving DecidableEq, Repr

/-- Steps 1 to 3 of R184 for an access of `n` bytes; the cause code of the first failure. -/
def Mach.place (m : Mach) (c : Nat) (priv : Priv) (ea : Word) (n : Nat) (reach : MeshReach) (sys : Bool) : Except Nat Place :=
  let sp := fld ea 63 60
  if sp = 0 then
    if fld ea 59 16 ≠ 0 then .error Cause.address
    else if ea.toNat % n ≠ 0 then .error Cause.alignment
    else .ok (.own (fld ea 15 0))
  else if sp = 1 then
    let x := fld ea 41 32
    let y := fld ea 31 24
    let self := agentAt x y = some c
    if fld ea 59 42 ≠ 0 ∨ fld ea 23 16 ≠ 0 then .error Cause.address
    else if reach = .own ∧ ¬self then .error Cause.address
    else if ea.toNat % n ≠ 0 then .error Cause.alignment
    else if self then .ok (.own (fld ea 15 0))
    else
      match meshCore x y with
      | none => .error Cause.unroutable
      | some q =>
        if !m.live q then .error Cause.unroutable
        else if reach = .cluster ∧ !sameCluster c q then .error Cause.address
        else if reach = .partition ∧ (meshCores ≤ c ∨ !(m.part (m.core c).part.toNat).holds x y) then .error Cause.partition
        else .ok (.other q (fld ea 15 0))
  else if sp = 15 then
    if priv = .user then .error Cause.privilege
    else if !sys then .error Cause.address
    else if ea.toNat % n ≠ 0 then .error Cause.alignment
    else .ok .system
  else .error Cause.address

/-- The checks of R184 for one element: its place, or the trap with the address and the lane. A stage program reaches
its scratch area alone (R210). -/
def checkElem (ea : Word) (n : Nat) (reach : MeshReach) (sys store : Bool) (lane : Nat := 0) : Act Place := do
  let m ← get
  let bad (code : Nat) : FaultRec := { faultOf code with addr := shown ea, lane := BitVec.ofNat 8 lane }
  match m.cur with
  | .stage _ _ =>
    if fld ea 63 14 ≠ 0 then trap (bad Cause.address)
    else if ea.toNat % n ≠ 0 then trap (bad Cause.alignment)
    else return .own (fld ea 15 0)
  | .core c _ =>
    match m.place c m.me.priv ea n reach sys with
    | .error code => trap (bad code)
    | .ok p =>
      match p with
      | .own off =>
        if store then
          match (m.core c).protectedAt off n with
          | some code => trap { m.guardRec c off n ea code with lane := BitVec.ofNat 8 lane }
          | none => return p
        else return p
      | .other q off =>
        if store then
          match (m.core q).protectedAt off n with
          | some code => trap { m.guardRec q off n ea code with lane := BitVec.ofNat 8 lane }
          | none => return p
        else return p
      | .system => return p

/-- ea of a form [xs+imm] (R184). -/
def effAddr (a : Args) : Act Word := do return (← readX a.s) + a.imm

/-! ## Scratch areas (R89, R208, R210) -/

/-- A unit of `[a, a + n)` of the scratch area reads with an uncorrectable error (R89). -/
def StageUnit.badRead (u : StageUnit) (a n : Nat) : Bool := u.badScratch.any fun w => meets a n (64 * w) (64 * w + 64)

/-- A unit that a write to `[a, a + n)` covers in part, and so reads first, has an uncorrectable error (R80, R89). -/
def StageUnit.badWrite (u : StageUnit) (a n : Nat) : Bool :=
  u.badScratch.any fun w => meets a n (64 * w) (64 * w + 64) && (64 * w < a || a + n < 64 * w + 64)

/-- `n` bytes of the scratch area of a stage program (R89). -/
def scratchRead (s p a n : Nat) (ea : Word) : Act (List Byte) := do
  let u := (← get).unit s p
  require (!u.badRead a n) { faultOf Cause.memoryEcc with addr := ea }
  return Memory.bytes u.scratch a n

/-- Bytes written into the scratch area of a stage program; units written whole are good again (R80, R89). -/
def scratchWrite (s p a : Nat) (bs : List Byte) (ea : Word) : Act Unit := do
  require (!((← get).unit s p).badWrite a bs.length) { faultOf Cause.memoryEcc with addr := ea }
  modify fun m => m.modUnit s p fun u =>
    { u with scratch := Memory.pokes u.scratch a bs
             badScratch := u.badScratch.filter fun w => !meets a bs.length (64 * w) (64 * w + 64) }

/-! ## Loads and stores over places -/

/-- Raise the memory-ECC fault where a word of the range cannot be read; correct single-bit errors (R80). -/
def eccRead (q a n : Nat) (ea : Word) : Act Unit := do
  let m ← get
  match (m.core q).badRead a n with
  | some _ => trap { faultOf Cause.memoryEcc with addr := ea }
  | none => modify fun m => m.modCore q (·.correct a n)

/-- While injection pauses, no request of a cluster access enters the mesh; and one to an isolated core finds no route (R314).
DESIGN CHOICE: such an access waits in place, since the spec states no other end for it. -/
def meshOpen (q : Nat) : Act Unit := do
  let m ← get
  stallUntil (!m.injPaused && !m.gone.contains q)

/-- An access to another core's memory waits below the watermark of a copy, and a faulted copy wakes it into the copy fault
(R137). -/
def belowMark (q off n : Nat) : Act Unit := do
  let k := (← get).core q
  match k.aboveMark off n with
  | none => pure ()
  | some i =>
    let ch := vget k.chan {} i
    if ch.fault.isSome then trap (ch.faultRec i) else throw (.wait .other)

/-- `n` bytes at a place, as a number: a local load under the waits of R185, or a cluster load (R77). -/
def loadPlace (p : Place) (n : Nat) (ea : Word) : Act Nat := do
  let m ← get
  match m.cur with
  | .stage s q =>
    match p with
    | .own off => return leNat (← scratchRead s q off n ea)
    | .other _ _ => return 0
    | .system => return 0
  | .core c t =>
    match p with
    | .own off =>
      waitGate off n false
      eccRead c off n ea
      return ((← get).core c).readN off n
    | .other q off =>
      meshOpen q
      stallUntil (!m.unaccepted c t q off n)
      belowMark q off n
      eccRead q off n ea
      return ((← get).core q).readN off n
    | .system => return 0

/-- One store instruction's bytes at own offsets, as one store to each word (R79, R80); a stage program stores a run of bytes into
its scratch area (R210). -/
def storeOwn (cs : List (Nat × Byte)) (ea : Word) : Act Unit := do
  let m ← get
  match m.cur with
  | .stage s q =>
    match cs with
    | [] => pure ()
    | c :: _ => scratchWrite s q c.1 (cs.map (·.2)) ea
  | .core _ _ =>
    match m.myCore.badWrite cs with
    | some _ => trap { faultOf Cause.memoryEcc with addr := ea }
    | none => modMyCore (·.store cs)

/-- A delivery of the instruction, in a send-window entry of its own; stalls while the window is full (R105). -/
def deliver (dst : Nat) (b : Payload) : Act Unit := do
  let m ← get
  match m.cur with
  | .stage s p => set (m.postHand s dst p b)
  | .core c t => do
    stallUntil (m.windowFree c)
    modify fun m => m.post c t dst b none true

/-- Earlier deliveries of the party are accepted (R191, R195, R280, R357, R358). -/
def Mach.quiet (m : Mach) (c t : Nat) : Bool :=
  let cid := ((m.core c).tset t).cid
  !m.net.any fun d => d.src == c && (d.ts == t || d.cid == cid) && d.counts

/-- Wait in place until the waits of R185 are over for each word of a local store. -/
def gateWords (store : Bool) : List Nat → Act Unit
  | [] => pure ()
  | w :: ws => do
    waitGate (8 * w) 8 store
    gateWords store ws

/-- Cells renumbered from offset `off`. -/
def shiftCells (off : Nat) (cs : List (Nat × Byte)) : List (Nat × Byte) := cs.map fun c => (off + c.1, c.2)

/-- Store the bytes `cs`, numbered from a place: one store to each word of the own core, or one posted store in a window
entry (R187, R190). -/
def storePlace (p : Place) (cs : List (Nat × Byte)) (ea : Word) : Act Unit := do
  match p with
  | .own off =>
    match (← get).cur with
    | .stage _ _ => pure ()
    | .core _ _ => gateWords true (cellWords (shiftCells off cs))
    storeOwn (shiftCells off cs) ea
  | .other q off => do
    (cellWords (shiftCells off cs)).forM fun w => belowMark q (8 * w) 8
    deliver q (.store (shiftCells off cs))
  | .system => pure ()

/-- Every element pushed into a store stream of the thread set has been written (R195). -/
def ThreadSet.drained (t : ThreadSet) : Bool :=
  t.sd.toList.all fun s => !s.bnd || !(s.kind == 1 || s.kind == 2) || s.fifo.isEmpty

end Sys2Proof.Machine
end

