-- ==== Sys2Proof/Machine/Issue.lean ====
section
/-! DEFINITION. What stands around every instruction's own effect: completion, precise and asynchronous traps, stalls in
place, and chorus mode (01_machine R15, R23; 09_isa_scalar R171; 13_isa_tasks R269, R270; 16_traps R307, R308). -/

namespace Sys2Proof.Machine

/-- The record of the thread set's resumed context is freed as its first instruction issues (R97). -/
def Mach.unhold (m : Mach) : Mach :=
  match m.cur with
  | .stage _ _ => m
  | .core c t =>
    match ((m.core c).tset t).holds with
    | none => m
    | some i => m.modCore c fun k => (k.modRec i fun _ => {}).modTs t fun s => { s with holds := none }

/-- A thread set after its instruction completed: the next PC, no wait (R15, R153). -/
def ThreadSet.advance (t : ThreadSet) (pc : BitVec 14) (clk : Nat) : ThreadSet :=
  { t with pc := pc, wait := none, elapsed := none, issuedAt := clk }

/-- The machine after the instruction of `a` completed: `a` stands at the next PC. -/
def Mach.complete (m : Mach) (a : Agent) : Mach :=
  match a with
  | .core c t => m.modCore c (·.modTs t fun s => s.advance m.npc m.clk)
  | .stage s p => m.modUnit s p fun u => { u with ts := u.ts.advance m.npc m.clk }

/-- A wait for a version (R133). -/
def WaitKind.isVersion : WaitKind → Bool
  | .version _ _ => true
  | _ => false

/-- The wait a thread set is in: one of the same kind goes on, another begins now, less the cycles a context restore
carried over (R315). The wait for a version counts from the instruction's issue, whatever it has waited for before (R133). -/
def ThreadSet.stall (t : ThreadSet) (k : WaitKind) (clk : Nat) : ThreadSet :=
  { t with wait := some (match t.wait with
                         | some w => if w.kind = k then w else { kind := k, since := if k.isVersion then w.since else clk }
                         | none => { kind := k, since := clk - t.elapsed.getD 0 }),
           elapsed := none }

/-- The agent waits in place (R15, R22). -/
def Mach.stall (m : Mach) (a : Agent) (k : WaitKind) : Mach := m.modTs a fun t => t.stall k m.clk

/-- The outcome of an instruction of the agent `a` alone, from the machine `m0` before it (R307). -/
def conclude (m0 : Mach) (a : Agent) : EStateM.Result Stop Mach Unit → Host.Outcome Mach Fault Refusal
  | .ok _ m => .next (m.complete a)
  | .error e m =>
    let pc := (m0.tset a).pc
    match e with
    | .trap r => .next (m0.takeTrap a { r with pc := pc } pc)
    | .trapKeep r => .next (m.takeTrap a { r with pc := pc } pc)
    | .trapNext r => .next (m0.takeTrap a { r with pc := pc } m0.npc)
    | .streamFault i r =>
      let m1 := m0.modTs a fun t => t.setSlot i { t.slot i with flt := true, fault := some (r.cause, r.addr) }
      .next (m1.takeTrap a { r with pc := pc } pc)
    | .wait k => .next (m0.stall a k)
    | .waitKeep k => .next (m.stall a k)
    | .fault f => .fault f
    | .refused r => .refused r

/-! ## The clock (R70, R349) -/

/-- Units of 1/170,000 ns that kptp gains in a cycle beyond the first 100,000: at most 100 parts per million (R349). -/
def slewStep (slew : Int) : Int := if 10 < slew then 10 else if slew < -10 then -10 else slew

/-- kptp moved on by some units. -/
def Mach.addPtp (m : Mach) (n : Nat) : Mach :=
  { m with ptpNs := m.ptpNs + (m.ptpFrac + n) / 170000, ptpFrac := (m.ptpFrac + n) % 170000 }

/-- kptp over one cycle: held, or moved on with its slew (R70, R349). -/
def Mach.tickPtp (m : Mach) : Mach :=
  if 100000 ≤ m.ptpHold then { m with ptpHold := m.ptpHold - 100000 }
  else
    let d := slewStep m.ptpSlew
    let n := (100000 - (m.ptpHold : Int) + d).toNat
    { m.addPtp n with ptpHold := 0, ptpSlew := m.ptpSlew - d }

/-- The clocks `h` cycles on. -/
def Mach.later (m : Mach) (h : Nat) : Mach := { (List.range h).foldl (fun m _ => m.tickPtp) m with clk := m.clk + h }

/-- The machine with the clocks of `m`. -/
def Mach.atClocks (n m : Mach) : Mach :=
  { n with clk := m.clk, ptpNs := m.ptpNs, ptpFrac := m.ptpFrac, ptpHold := m.ptpHold, ptpSlew := m.ptpSlew }

/-! ## Chorus mode (R23, R171, R269, R270) -/

/-- The members of the chorus that thread set `t` of core `c` leads, the lead first, each with its distance along the row
(R23). -/
def Mach.membersOf (m : Mach) (c t : Nat) : List (Agent × Nat) :=
  (Agent.core c t, 0) :: (m.followersOf c t).map fun q => (Agent.core q t, dist (posOf q).1 (posOf c).1)

/-- A member performs the word that the lead, standing at Next `npc`, has issued: `h` cycles after the lead, at a distance of
`h` cores, when kclk and kptp have moved on (R23, R183). -/
def runMember (sem : Act Unit) (npc : BitVec 14) (ah : Agent × Nat) (m : Mach) : EStateM.Result Stop Mach Unit :=
  match sem.run { m.later ah.2 with cur := ah.1, npc := npc } with
  | .ok u m' => .ok u (m'.atClocks m)
  | .error e m' => .error e (m'.atClocks m)

/-- The first member that traps on the word, the lead first, and else whether some member waits; members that keep part
of what they did keep it. -/
def chorusCheck (sem : Act Unit) (npc : BitVec 14) :
    List (Agent × Nat) → Mach → Option (Agent × Stop) → Mach × Option (Agent × Stop)
  | [], m, w => (m, w)
  | a :: as, m, w =>
    match runMember sem npc a m with
    | .ok _ _ => chorusCheck sem npc as m w
    | .error e m' =>
      match e with
      | .wait _ => chorusCheck sem npc as m (w.or (some (a.1, e)))
      | .waitKeep _ => chorusCheck sem npc as m' (w.or (some (a.1, e)))
      | .trapKeep _ => (m', some (a.1, e))
      | _ => (m, some (a.1, e))

/-- Every member performs the word; the member that could alone and cannot after the others, with what it raises. -/
def chorusRun (sem : Act Unit) (npc : BitVec 14) : List (Agent × Nat) → Mach → Except (Agent × Stop × Mach) Mach
  | [], m => .ok m
  | a :: as, m =>
    match runMember sem npc a m with
    | .ok _ m' => chorusRun sem npc as m'
    | .error e m' => .error (a.1, e, m')

/-- The record that names the member `c` that trapped (R23, R310). -/
def FaultRec.member (r : FaultRec) (a : Agent) : FaultRec :=
  match a with
  | .core c _ => r.from c
  | .stage _ _ => r

/-- The word of a chorus stops at member `a`, which traps or waits: `m0` is the machine before the word, `m1` the one that keeps what
members have done before (R23). -/
def chorusStop (m0 m1 : Mach) (lead a : Agent) (e : Stop) : Host.Outcome Mach Fault Refusal :=
  let pc := (m0.tset lead).pc
  match e with
  | .trap r => .next (m0.takeTrap lead { r.member a with pc := pc } pc)
  | .trapKeep r => .next (m1.takeTrap lead { r.member a with pc := pc } pc)
  | .trapNext r => .next (m0.takeTrap lead { r.member a with pc := pc } m0.npc)
  | .streamFault i r =>
    let m := m0.modTs a fun s => s.setSlot i { s.slot i with flt := true, fault := some (r.cause, r.addr) }
    .next (m.takeTrap lead { r.member a with pc := pc } pc)
  | .wait k => .next (m1.stall lead k)
  | .waitKeep k => .next (m1.stall lead k)
  | .fault f => .fault f
  | .refused r => .refused r

/-- The word of a chorus lead, performed by the lead and its followers (R23). DEDUCED: since a trap or a wait of any member
stops every member at the word, all of them are asked when the lead issues it; what a follower does bears its own cycle. A member that
could alone and cannot after the others stops the word too, and only a trap keeps what they have done: so a gang-abort that the
arrival of one member causes reaches the next (R234, R235). -/
def chorusWord (sem : Act Unit) (m0 : Mach) (c t : Nat) : Host.Outcome Mach Fault Refusal :=
  let lead := Agent.core c t
  let ms := m0.membersOf c t
  let fs := ms.drop 1
  let here (m : Mach) : Mach := { m with cur := m0.cur, npc := m0.npc }
  let (m1, w) := chorusCheck sem m0.npc ms m0 none
  match w with
  | some (a, e) => chorusStop m0 (here m1) lead a e
  | none =>
    match sem.run m0 with
    | .error e _ => chorusStop m0 m0 lead lead e
    | .ok _ m =>
      match chorusRun sem m0.npc fs m with
      | .error (a, .trapKeep r, m') => chorusStop m0 (here m') lead a (.trapKeep r)
      | .error (a, e, _) => chorusStop m0 m0 lead a e
      | .ok m' =>
        let m' := { m' with cur := m0.cur, npc := m.npc, taken := m.taken }
        .next ((fs.foldl (fun m' a => m'.modTs a.1 fun s => { s with pc := m.npc }) m').complete lead)

/-- Perform the instruction whose own effect is `sem` by the agent `cur`: the next state, whatever it traps to or waits
for. -/
def issueMach (sem : Act Unit) (m : Mach) : Host.Outcome Mach Fault Refusal :=
  if m.cur.exists then
    let m0 := m.unhold
    match m.cur with
    | .core c t => if (m.tset m.cur).cho then chorusWord sem m0 c t else conclude m0 m.cur (sem.run m0)
    | .stage _ _ => conclude m0 m.cur (sem.run m0)
  else .fault .noAgent

/-- An outcome over the machine as an outcome over the state; fuses and flash stay as they are. -/
def lift (s : State) : Host.Outcome Mach Fault Refusal → Host.Outcome State Fault Refusal
  | .next m => .next { s with mach := m }
  | .fault f => .fault f
  | .refused r => .refused r

/-- Issue an instruction (R15, R23, R307). -/
def issue (sem : Act Unit) (s : State) : Host.Outcome State Fault Refusal := lift s (issueMach sem s.mach)

/-- An event of the machine: it changes the machine and never fuses or flash. -/
def event (f : Mach → Mach) (s : State) : Host.Outcome State Fault Refusal := .next { s with mach := f s.mach }

end Sys2Proof.Machine
end

