-- ==== Sys2Proof/Machine/Control.lean ====
section
/-! DEFINITION. Control flow, the control registers and the plain system forms (03_registers R63 to R74; 04_memories R78;
09_isa_scalar R178 to R183; 13_isa_tasks R271). -/

namespace Sys2Proof.Machine

/-! ## Branches (R154, R178, R179) -/

/-- The target of a branch of `imm` words from the instruction's start, modulo 16 KiB (R154). -/
def branchTarget (pc : BitVec 14) (imm : Word) : BitVec 14 := pc + (imm <<< 1).setWidth 14

/-- PC := `pc`. -/
def goTo (pc : BitVec 14) : Act Unit := modify fun m => { m with npc := pc, taken := true }

/-- Go to the branch's target where the condition holds, to Next else. -/
def branchIf (c : Bool) (a : Args) : Act Unit := do
  if c then goTo (branchTarget (← me).pc a.imm) else pure ()

/-- A compare-and-branch form: the d field is read first (R169, R178). -/
def semCmpBranch (taken : Word → Word → Bool) (a : Args) : Act Unit := do
  srcPort false a.d
  srcPort false a.s
  let l ← readX a.d
  let r ← readX a.s
  branchIf (taken l r) a

/-- `bz` and `bnz` (R178). -/
def semZeroBranch (taken : Word → Bool) (a : Args) : Act Unit := do
  srcPort false a.d
  let l ← readX a.d
  branchIf (taken l) a

/-- `loop`: the decrement comes before the test (R179). -/
def semLoop (a : Args) : Act Unit := do
  bothPort false a.d
  let n := (← readX a.d) - 1
  writeX a.d n
  branchIf (n != 0) a

/-- The address of Next, as a register value. -/
def nextWord : Act Word := do return (← get).npc.setWidth 64

/-- `jal` (R180). -/
def semJal (a : Args) : Act Unit := do
  let n ← nextWord
  modMe (·.setX 5 n)
  branchIf true a

/-- An indirect jump to `t`; a chorus follower takes no part in it (R171, R180). -/
def jumpTo (t : Word) : Act Unit := do
  if (← me).fol then pure ()
  else do
    require (fld t 63 14 == 0 && !bit t 0) { faultOf Cause.illegalOperation with addr := t }
    goTo (t.setWidth 14)

/-- `jr` (R180). -/
def semJr (a : Args) : Act Unit := do
  srcPort false a.s
  jumpTo (← readX a.s)

/-- `ret` (R180). -/
def semRet (_ : Args) : Act Unit := do jumpTo (← readX 5)

/-- The check of a fenced jump's target slot before it leaves: whether the jump transfers control now (R181). With no record
free it stalls in place, as every fetch from a LOADING slot does (R81, R97). -/
def fenceCheck (t : BitVec 14) : Act Bool := do
  let s ← me
  if s.fol then return true
  else
    let g := t.toNat / 1024
    match ((← myCore).slot g).st with
    | .empty => trap { faultOf Cause.overlayAbsent with addr := t.setWidth 64, index := BitVec.ofNat 16 g }
    | .loading =>
      if s.held || (← myCore).freeRec.isNone then throw (.wait .other)
      else
        park 3 (wd g) s.pc
        return false
    | .valid => return true

/-- `jf`, and `jfl`, which also writes x5 (R181). -/
def semFenced (link : Bool) (a : Args) : Act Unit := do
  let t := branchTarget (← me).pc a.imm
  if ← fenceCheck t then
    if link then do
      let n ← nextWord
      modMe (·.setX 5 n)
    else pure ()
    goTo t
  else pure ()

/-! ## Control registers (R63 to R74, R182, R183) -/

/-- The level below which a register is not read (R63). -/
def kregRead (sel : Nat) : Nat := if sel = 0x0B ∨ sel = 0x0C then 1 else 0

/-- The level below which a register is not written; `none` where no level writes it (R63). -/
def kregWrite (sel : Nat) : Option Nat :=
  if sel ≤ 0x07 then some 0
  else if sel = 0x08 ∨ sel = 0x09 ∨ sel = 0x0B ∨ sel = 0x0C then some 1
  else if 0x20 ≤ sel ∧ sel ≤ 0x27 then some 0
  else none

/-- kaown (R74). -/
def Core.kaown (k : Core) : Word :=
  let busy := (List.range 4).foldl (fun n i => n + b2n (k.mat.any (·.acc == i)) * 2 ^ (8 + i)) 0
  let own := (List.range 4).foldl (fun n i => n + (vget k.owner 0 i).toNat * 2 ^ (2 * i)) 0
  wd (busy + own)

/-- kself (R69). -/
def Core.kself (k : Core) (c t : Nat) : Word :=
  let (x, y) := posOf c
  (0 : BitVec 23) ++ k.log ++ k.part ++ BitVec.ofNat 2 t ++ BitVec.ofNat 8 y ++ BitVec.ofNat 10 x

/-- kptp (R70). -/
def Mach.kptp (m : Mach) : Word := BitVec.ofNat 34 (m.ptpNs / 1000000000) ++ BitVec.ofNat 30 (m.ptpNs % 1000000000)

/-- A position lies in the rectangle of a refill on its way. -/
def refillHolds (r : Nat × Nat × Nat × Nat × Nat) (x y : Nat) : Bool :=
  r.2.1 ≤ x && x ≤ r.2.2.2.1 && r.2.2.1 ≤ y && y ≤ r.2.2.2.2

/-- The phase bit of context `i` as core `c` sees it: a refill on its way clears it outside its rectangle 64 cycles after its
issue (R73, R262). -/
def Partition.phaseAt (p : Partition) (i c clk : Nat) : Bool :=
  (if i = 0 then p.pha else p.phb) &&
    !((vget p.curtain {} i).refills.any fun r => r.1 + 64 ≤ clk && !refillHolds r (posOf c).1 (posOf c).2)

/-- kcurt as core `c` reads it (R73). -/
def Partition.kcurt (p : Partition) (c clk : Nat) : Word :=
  (0 : BitVec 57) ++ b1 (p.phaseAt 1 c clk) ++ b1 (p.phaseAt 0 c clk) ++ p.toe

/-- kenergy (R71). -/
def Partition.kenergy (p : Partition) : Word := b1 p.low ++ p.rem

/-- ktopo (R72). -/
def Partition.ktopo (p : Partition) : Word := (0 : BitVec 42) ++ p.h ++ p.w ++ p.cy0 ++ p.cx0 ++ p.stitch

/-- The value of a control register; for a register of scope P on a house core, which belongs to no partition, a free
value (R63). -/
def Mach.kreg (m : Mach) (sel : Nat) : Word :=
  let t := m.me
  let k := m.myCore
  let p (w : Word) : Word := if m.here < meshCores then w else m.freeWord.1
  match sel with
  | 0x00 => t.kmode
  | 0x01 => t.kfflags.setWidth 64
  | 0x02 => t.kfmta.setWidth 64
  | 0x03 => t.kfmtb.setWidth 64
  | 0x04 => t.kscla.setWidth 64
  | 0x05 => t.ksclb.setWidth 64
  | 0x06 => t.kplanes.setWidth 64
  | 0x07 => t.kgpiv.setWidth 64
  | 0x08 => p ((m.part m.myPart).kcurt m.here m.clk)
  | 0x09 => (0 : BitVec 44) ++ k.fence ++ k.period
  | 0x0A => k.kaown
  | 0x0B => (0 : BitVec 48) ++ t.kepcPriv ++ t.kepcPc
  | 0x0C => t.kvec.setWidth 64
  | 0x0D => k.kself m.here m.tsNo
  | 0x0E => wd m.clk
  | 0x0F => m.kptp
  | 0x10 => p (m.part m.myPart).kenergy
  | 0x11 => p (m.part m.myPart).ktopo
  | n => if n < 0x20 then vget t.kfault 0 (n - 0x18) else vget t.krgn 0 (n - 0x20)

/-- Reading the register used a free value. -/
def kregFree (m : Mach) (sel : Nat) : Mach :=
  if meshCores ≤ m.here ∧ (sel = 0x08 ∨ sel = 0x10 ∨ sel = 0x11) then m.freeWord.2 else m

/-- A record of a privilege or an illegal-operation trap of `kget` and `kput`: its address is the selector (R311). -/
def kregTrap (cause sel : Nat) : FaultRec := { faultOf cause with addr := wd sel }

/-- `kget` (R182). -/
def semKget (a : Args) : Act Unit := do
  dstPort false a.d
  let sel := a.imm.toNat
  let m ← get
  require (kregRead sel ≤ m.me.priv.code) (kregTrap Cause.privilege sel)
  let on ← predOn a
  modify fun m => kregFree m sel
  writeRes a on (m.kreg sel)

/-- The reserved bits of a register, which `kput` may not set (R64, R66 to R78). -/
def kregReserved (sel : Nat) : Word :=
  match sel with
  | 0x00 => ~~~0xFF#64
  | 0x01 => ~~~0x3F#64
  | 0x02 => ~~~0x1F#64
  | 0x03 => ~~~0x1F#64
  | 0x04 => ~~~0xFFFF#64
  | 0x05 => ~~~0xFFFF#64
  | 0x06 => ~~~0xF#64
  | 0x07 => ~~~0xFFFFFFFF#64
  | 0x08 => ~~~0x7F#64
  | 0x09 => ~~~0xFFFFF#64
  | 0x0B => ~~~0xFFFF#64
  | 0x0C => ~~~0x3FFF#64
  | n => if 0x20 ≤ n then 0x1F#64 <<< 54 else 0

/-- The read-only bits of a register, which `kput` may only write as they stand (R64). -/
def kregReadOnly (sel : Nat) : Word :=
  match sel with
  | 0x00 => 0xFC
  | 0x08 => 0x60
  | 0x09 => 0xF0000
  | _ => 0

/-- A value breaks a limit that `kput` checks (R73, R78). -/
def kregLimit (sel : Nat) (w : Word) : Bool :=
  match sel with
  | 0x08 => fld w 4 0 < 8
  | 0x09 => fld w 15 0 < 256
  | n => 0x20 ≤ n && (6 ≤ fld w 61 59 || fld w 17 9 < fld w 8 0)

/-- The RW and W1C fields of the register written (R182). A register of scope P has one home, the partition (R183). -/
def Mach.setKreg (m : Mach) (sel : Nat) (w : Word) : Mach :=
  match sel with
  | 0x00 => m.modMe fun t => { t with tc := bit w 0, eos := t.eos && !bit w 1 }
  | 0x01 => m.modMe fun t => { t with kfflags := t.kfflags &&& ~~~(w.setWidth 6) }
  | 0x02 => m.modMe fun t => { t with kfmta := w.setWidth 5 }
  | 0x03 => m.modMe fun t => { t with kfmtb := w.setWidth 5 }
  | 0x04 => m.modMe fun t => { t with kscla := w.setWidth 16 }
  | 0x05 => m.modMe fun t => { t with ksclb := w.setWidth 16 }
  | 0x06 => m.modMe fun t => { t with kplanes := w.setWidth 4 }
  | 0x07 => m.modMe fun t => { t with kgpiv := w.setWidth 32 }
  | 0x08 => if m.here < meshCores then m.modPart m.myPart fun p => { p with toe := w.setWidth 5 } else m
  | 0x09 => m.modCore m.here fun k => { k with period := w.setWidth 16 }
  | 0x0B => m.modMe fun t => { t with kepcPriv := w.extractLsb' 14 2, kepcPc := w.setWidth 14 &&& ~~~1 }
  | 0x0C => m.modMe fun t => { t with kvec := w.setWidth 14 &&& ~~~1 }
  | n => if 0x20 ≤ n then m.modMe fun t => { t with krgn := vset t.krgn (n - 0x20) w } else m

/-- `kput` (R182). -/
def semKput (a : Args) : Act Unit := do
  srcPort false a.d
  let sel := a.imm.toNat
  let new ← readX a.d
  if ← predOn a then do
    let m ← get
    match kregWrite sel with
    | none => trap (kregTrap Cause.illegalOperation sel)
    | some lvl => do
      require (lvl ≤ m.me.priv.code) (kregTrap Cause.privilege sel)
      if new &&& kregReserved sel != 0 then illegalWord else pure ()
      require ((new ^^^ m.kreg sel) &&& kregReadOnly sel == 0) (kregTrap Cause.illegalOperation sel)
      require (!kregLimit sel new) (kregTrap Cause.illegalOperation sel)
      set (m.setKreg sel new)
  else pure ()

/-! ## System forms (R271) -/

/-- Below supervisor level the form raises the privilege trap (R271). -/
def needSupervisor : Act Unit := do require ((← me).priv != .user) (faultOf Cause.privilege)

/-- Inside a chorus the form raises the illegal-operation trap at the lead (R270). -/
def notInChorus : Act Unit := do require (!(← me).cho) (faultOf Cause.illegalOperation)

/-- `trap n` (R271). -/
def semTrap (a : Args) : Act Unit := throw (.trapNext { faultOf Cause.software with index := a.imm.setWidth 16 })

/-- `eret` (R68, R271). -/
def semEret (_ : Args) : Act Unit := do
  needSupervisor
  notInChorus
  let t ← me
  require (t.kepcPriv != 3) (faultOf Cause.illegalOperation)
  require (t.kepcPriv.toNat ≤ t.priv.code) (faultOf Cause.privilege)
  modMe (·.trapReturn)
  goTo t.kepcPc

/-! ## The instructions -/

/-- `b` (R178). -/
def execB (a : Args) (s : State) : Host.Outcome State Fault Refusal := issue (branchIf true a) s

/-- `beq` (R178). -/
def execBeq (a : Args) (s : State) : Host.Outcome State Fault Refusal := issue (semCmpBranch (fun l r => l == r) a) s

/-- `bne` (R178). -/
def execBne (a : Args) (s : State) : Host.Outcome State Fault Refusal := issue (semCmpBranch (fun l r => l != r) a) s

/-- `blt` (R178). -/
def execBlt (a : Args) (s : State) : Host.Outcome State Fault Refusal := issue (semCmpBranch (fun l r => l.slt r) a) s

/-- `bge` (R178). -/
def execBge (a : Args) (s : State) : Host.Outcome State Fault Refusal := issue (semCmpBranch (fun l r => !l.slt r) a) s

/-- `bltu` (R178). -/
def execBltu (a : Args) (s : State) : Host.Outcome State Fault Refusal := issue (semCmpBranch (fun l r => l.ult r) a) s

/-- `bgeu` (R178). -/
def execBgeu (a : Args) (s : State) : Host.Outcome State Fault Refusal := issue (semCmpBranch (fun l r => !l.ult r) a) s

/-- `bz` (R178). -/
def execBz (a : Args) (s : State) : Host.Outcome State Fault Refusal := issue (semZeroBranch (fun l => l == 0) a) s

/-- `bnz` (R178). -/
def execBnz (a : Args) (s : State) : Host.Outcome State Fault Refusal := issue (semZeroBranch (fun l => l != 0) a) s

/-- `loop` (R179). -/
def execLoop (a : Args) (s : State) : Host.Outcome State Fault Refusal := issue (semLoop a) s

/-- `jal` (R180). -/
def execJal (a : Args) (s : State) : Host.Outcome State Fault Refusal := issue (semJal a) s

/-- `jr` (R180). -/
def execJr (a : Args) (s : State) : Host.Outcome State Fault Refusal := issue (semJr a) s

/-- `ret` (R180). -/
def execRet (a : Args) (s : State) : Host.Outcome State Fault Refusal := issue (semRet a) s

/-- `nop` (R180, R271). -/
def execNop (_ : Args) (s : State) : Host.Outcome State Fault Refusal := issue (pure ()) s

/-- `jf` (R181). -/
def execJf (a : Args) (s : State) : Host.Outcome State Fault Refusal := issue (semFenced false a) s

/-- `jfl` (R181). -/
def execJfl (a : Args) (s : State) : Host.Outcome State Fault Refusal := issue (semFenced true a) s

/-- `kget` (R182, R183). -/
def execKget (a : Args) (s : State) : Host.Outcome State Fault Refusal := issue (semKget a) s

/-- `kput` (R182, R183). -/
def execKput (a : Args) (s : State) : Host.Outcome State Fault Refusal := issue (semKput a) s

/-- `trap n` (R271). -/
def execTrap (a : Args) (s : State) : Host.Outcome State Fault Refusal := issue (semTrap a) s

/-- `eret` (R271). -/
def execEret (a : Args) (s : State) : Host.Outcome State Fault Refusal := issue (semEret a) s

end Sys2Proof.Machine
end

