-- ==== Sys2Proof/Machine/Crypto.lean ====
section
/-! DEFINITION. The cryptographic functions that the spec names by their standards: AES-256 in XTS mode with 64-byte data
units (04_memories R88), SipHash-2-4 (05_queues R109), SHA-512 and HMAC (17_aqlan R326; 18_module R342), and the
verification of ECDSA P-521 signatures (17_aqlan R336, 18_module R350). -/

namespace Sys2Proof.Machine

/-! ## AES-256 (R88) -/

/-- Byte `i` of a table held as one number, entry 0 lowest. -/
def tableByte (t i : Nat) : Nat := t / 2 ^ (8 * i) % 256

/-- The S-box of AES. -/
def aesSbox : Nat :=
  0x16bb54b00f2d99416842e6bf0d89a18cdf2855cee9871e9b948ed9691198f8e19e1dc186b95735610ef6034866b53e708a8bbd4b1f74dde8c6b4a61c2e2578ba08ae7a65eaf4566ca94ed58d6d37c8e779e4959162acd3c25c2406490a3a32e0db0b5ede14b8ee4688902a22dc4f816073195d643d7ea7c41744975fec130ccdd2f3ff1021dab6bcf5389d928f40a351a89f3c507f02f94585334d43fbaaefd0cf584c4a39becb6a5bb1fc20ed00d153842fe329b3d63b52a05a6e1b1a2c830975b227ebe28012079a059618c323c7041531d871f1e5a534ccf73f362693fdb7c072a49cafa2d4adf04759fa7dc982ca76abd7fe2b670130c56f6bf27b777c63

/-- The inverse S-box of AES. -/
def aesInvSbox : Nat :=
  0x7d0c2155631469e126d677ba7e042b17619953833cbbebc8b0f52aae4d3be0a0ef9cc9939f7ae52d0d4ab519a97f51605fec8027591012b131c7078833a8dd1ff45acd78fec0db9a2079d2c64b3e56fc1bbe18aa0e62b76f89c5291d711af1476edf751ce837f9e28535ade72274ac9673e6b4f0cecff297eadc674f4111913a6b8a130103bdafc1020f3fca8f1e2cd00645b3b80558e4f70ad3bc8c00abd890849d8da75746155edab9edfd5048706c92b6655dcc5ca4d41698688664f6f87225d18b6d49a25b76b224d92866a12e084ec3fa420b954cee3d23c2a632947b54cbe9dec444438e3487ff2f9b8239e37cfbd7f3819ea340bf38a53630d56a0952

/-- Multiplication by x in the field of AES. -/
def aesDouble (a : Nat) : Nat := if 128 ≤ a then Nat.xor (2 * a - 256) 0x1b else 2 * a

/-- Multiplication in the field of AES, by the low `n` bits of `b`. -/
def aesMul (a b : Nat) : Nat → Nat
  | 0 => 0
  | n + 1 => Nat.xor (if b % 2 = 1 then a else 0) (aesMul (aesDouble a) (b / 2) n)

/-- Bytewise exclusive or. -/
def xorBytes (x y : List Nat) : List Nat := List.zipWith Nat.xor x y

/-- The key words after the first eight, from the last eight words and the word number. -/
def aesExpand (ws : List (List Nat)) (i rcon : Nat) : Nat → List (List Nat)
  | 0 => ws
  | n + 1 =>
    let prev := ws.getD (i - 1) []
    let back := ws.getD (i - 8) []
    let sub (w : List Nat) : List Nat := w.map (tableByte aesSbox)
    let rot := prev.drop 1 ++ prev.take 1
    let t := if i % 8 = 0 then xorBytes (sub rot) [rcon, 0, 0, 0] else if i % 8 = 4 then sub prev else prev
    aesExpand (ws ++ [xorBytes back t]) (i + 1) (if i % 8 = 0 then aesDouble rcon else rcon) n

/-- Split a list into pieces of four. -/
def fours : Nat → List Nat → List (List Nat)
  | 0, _ => []
  | n + 1, l => l.take 4 :: fours n (l.drop 4)

/-- The fifteen round keys of a 32-byte key. -/
def aesRoundKeys (key : List Nat) : List (List Nat) :=
  let ws := aesExpand (fours 8 key) 8 1 52
  (List.range 15).map fun r => (List.range 4).flatMap fun j => ws.getD (4 * r + j) []

/-- Element `i` of a byte list, 0 outside it. -/
def nth (l : List Nat) (i : Nat) : Nat := l.getD i 0

/-- Rows shifted left by their number, or right. -/
def aesShift (back : Bool) (s : List Nat) : List Nat :=
  (List.range 16).map fun i => nth s (((if back then i / 4 + 4 - i % 4 else i / 4 + i % 4) % 4) * 4 + i % 4)

/-- Columns multiplied by the circulant matrix of the four coefficients. -/
def aesMix (c : List Nat) (s : List Nat) : List Nat :=
  (List.range 16).map fun i =>
    (List.range 4).foldl (fun x j => Nat.xor x (aesMul (nth s (i / 4 * 4 + j)) (nth c ((j + 4 - i % 4) % 4)) 8)) 0

/-- AES-256 encryption of one block. -/
def aesEncrypt (key block : List Nat) : List Nat :=
  let ks := aesRoundKeys key
  let s := (List.range 13).foldl (fun s r =>
    xorBytes (aesMix [2, 3, 1, 1] (aesShift false (s.map (tableByte aesSbox)))) (ks.getD (r + 1) [])) (xorBytes block (ks.getD 0 []))
  xorBytes (aesShift false (s.map (tableByte aesSbox))) (ks.getD 14 [])

/-- AES-256 decryption of one block. -/
def aesDecrypt (key block : List Nat) : List Nat :=
  let ks := aesRoundKeys key
  let s := (List.range 13).foldl (fun s r =>
    aesMix [14, 11, 13, 9] (xorBytes ((aesShift true s).map (tableByte aesInvSbox)) (ks.getD (13 - r) []))) (xorBytes block (ks.getD 14 []))
  xorBytes ((aesShift true s).map (tableByte aesInvSbox)) (ks.getD 0 [])

/-! ## XTS (R88, IEEE 1619) -/

/-- The low `n` bytes of a number, as numbers, lowest first. -/
def natBytes (v : Nat) : Nat → List Nat
  | 0 => []
  | n + 1 => v % 256 :: natBytes (v / 256) n

/-- The number that byte values hold, lowest first. -/
def bytesNat : List Nat → Nat
  | [] => 0
  | b :: bs => b + 256 * bytesNat bs

/-- Multiplication by α in GF(2^128), little-endian. -/
def xtsDouble (t : Nat) : Nat := if 2 ^ 127 ≤ t then Nat.xor (2 * t - 2 ^ 128) 0x87 else 2 * t

/-- One data unit of 64 bytes in XTS mode under a 512-bit key whose low half is the data key, with a 128-bit tweak. -/
def xts (enc : Bool) (key : BitVec 512) (tweak : Nat) (unit : List Byte) : List Byte :=
  let k1 := natBytes key.toNat 32
  let k2 := natBytes (key.toNat / 2 ^ 256) 32
  let t0 := bytesNat (aesEncrypt k2 (natBytes tweak 16))
  let ps := unit.map BitVec.toNat
  ((List.range 4).foldl (fun (acc : List Nat × Nat) j =>
    let tb := natBytes acc.2 16
    let x := xorBytes ((ps.drop (16 * j)).take 16) tb
    let y := xorBytes (if enc then aesEncrypt k1 x else aesDecrypt k1 x) tb
    (acc.1 ++ y, xtsDouble acc.2)) ([], t0)).1.map (BitVec.ofNat 8)

/-- What a unit written under key `old` reads as under key `new` (R88). -/
def reKey (old new : BitVec 512) (tweak : Nat) (unit : List Byte) : List Byte :=
  if old = new then unit else xts false new tweak (xts true old tweak unit)

/-! ## SipHash-2-4 (R109) -/

/-- One round on the four words. -/
def sipRound (v : Word × Word × Word × Word) : Word × Word × Word × Word :=
  let (a, b, c, d) := v
  let a := a + b
  let b := b.rotateLeft 13 ^^^ a
  let a := a.rotateLeft 32
  let c := c + d
  let d := d.rotateLeft 16 ^^^ c
  let a := a + d
  let d := d.rotateLeft 21 ^^^ a
  let c := c + b
  let b := b.rotateLeft 17 ^^^ c
  let c := c.rotateLeft 32
  (a, b, c, d)

/-- SipHash-2-4 of the low `n` bytes of a word, `n` below 8. -/
def sipHash (key : BitVec 128) (msg : Word) (n : Nat) : Word :=
  let k0 := key.setWidth 64
  let k1 := key.extractLsb' 64 64
  let m := zext msg (8 * n) + wd (n * 2 ^ 56)
  let v := (k0 ^^^ 0x736f6d6570736575, k1 ^^^ 0x646f72616e646f6d, k0 ^^^ 0x6c7967656e657261, k1 ^^^ 0x7465646279746573)
  let v := (v.1, v.2.1, v.2.2.1, v.2.2.2 ^^^ m)
  let v := sipRound (sipRound v)
  let v := (v.1 ^^^ m, v.2.1, v.2.2.1 ^^^ 0xff, v.2.2.2)
  let v := sipRound (sipRound (sipRound (sipRound v)))
  v.1 ^^^ v.2.1 ^^^ v.2.2.1 ^^^ v.2.2.2

/-! ## SHA-512 and HMAC -/

/-- The primes below 410: the first 80. -/
def primes80 : List Nat := (List.range 410).filter fun p => 2 ≤ p && (List.range p).all fun d => d < 2 || p % d != 0

/-- The first 64 bits of the fractional part of the `k`-th root of `p`, which is below 2^8: the greatest r with r^k at most
p · 2^(64 k), found bit by bit, modulo 2^64. -/
def rootBits (k p : Nat) : Word :=
  wd (((List.range 72).foldl (fun r i =>
    let c := r + 2 ^ (71 - i)
    if c ^ k ≤ p * 2 ^ (64 * k) then c else r) 0) % 2 ^ 64)

/-- The round constants: from the cube roots of the first 80 primes. -/
def shaConstants : List Word := primes80.map (rootBits 3)

/-- The initial hash value: from the square roots of the first eight primes. -/
def shaInit : List Word := (primes80.take 8).map (rootBits 2)

/-- A word from eight bytes, highest first. -/
def beWord (bs : List Byte) : Word := bs.foldl (fun w b => (w <<< 8) ||| b.setWidth 64) 0

/-- Eight bytes of a word, highest first. -/
def wordBytes (w : Word) : List Byte := (leBytes w.toNat 8).reverse

/-- Split a byte list into `n` words. -/
def beWords : Nat → List Byte → List Word
  | 0, _ => []
  | n + 1, bs => beWord (bs.take 8) :: beWords n (bs.drop 8)

/-- The exclusive or of a word rotated right by each of some distances. -/
def xorRotated (w : Word) (ns : List Nat) : Word := ns.foldl (fun x n => x ^^^ w.rotateRight n) 0

/-- The message schedule grown by `n` words: the newest word stands first. -/
def shaSchedule (ws : List Word) : Nat → List Word
  | 0 => ws
  | n + 1 =>
    let back (j : Nat) : Word := ws.getD (j - 1) 0
    let near := xorRotated (back 2) [19, 61] ^^^ (back 2 >>> 6)
    let far := xorRotated (back 15) [1, 8] ^^^ (back 15 >>> 7)
    shaSchedule ((near + back 7 + far + back 16) :: ws) n

/-- One round on the eight working words with the sum of its constant and its message word: all shift by one place, and two
are new. -/
def shaRound (v : List Word) (kw : Word) : List Word :=
  let e := v.getD 4 0
  let a := v.getD 0 0
  let pick := (v.getD 6 0) ^^^ (e &&& (v.getD 5 0 ^^^ v.getD 6 0))
  let most := (a &&& (v.getD 1 0 ||| v.getD 2 0)) ||| (v.getD 1 0 &&& v.getD 2 0)
  let t := v.getD 7 0 + xorRotated e [14, 18, 41] + pick + kw
  let moved := v.dropLast.set 3 (v.getD 3 0 + t)
  (t + xorRotated a [28, 34, 39] + most) :: moved

/-- One block of 128 bytes. -/
def shaBlock (h : List Word) (bs : List Byte) : List Word :=
  let ws := (shaSchedule (beWords 16 bs).reverse 64).reverse
  List.zipWith (· + ·) h ((List.zipWith (· + ·) shaConstants ws).foldl shaRound h)

/-- `n` blocks. -/
def shaBlocks (h : List Word) : Nat → List Byte → List Word
  | 0, _ => h
  | n + 1, bs => shaBlocks (shaBlock h (bs.take 128)) n (bs.drop 128)

/-- SHA-512. -/
def sha512 (msg : List Byte) : List Byte :=
  let pad := (128 - (msg.length + 17) % 128) % 128
  let bs := msg ++ [0x80] ++ List.replicate pad 0 ++ (leBytes (8 * msg.length) 16).reverse
  (shaBlocks shaInit (bs.length / 128) bs).flatMap wordBytes

/-- HMAC-SHA-512. -/
def hmac512 (key msg : List Byte) : List Byte :=
  let k := if 128 < key.length then sha512 key else key
  let k := k ++ List.replicate (128 - k.length) 0
  sha512 (k.map (· ^^^ 0x5c) ++ sha512 (k.map (· ^^^ 0x36) ++ msg))

/-! ## ECDSA P-521 -/

/-- The field prime. -/
def p521 : Nat := 2 ^ 521 - 1

/-- The order of the base point. -/
def n521 : Nat :=
  0x1fffffffffffffffffffffffffffffffffffffffffffffffffffffffffffffffffa51868783bf2f966b7fcc0148f709a5d03bb5c9b8899c47aebb6fb71e91386409

/-- The curve coefficient b; a is −3. -/
def b521 : Nat :=
  0x51953eb9618e1c9a1f929a21a0b68540eea2da725b99b315f3b8b489918ef109e156193951ec7e937b1652c0bd3bb1bf073573df883d2c34f1ef451fd46b503f00

/-- The base point. -/
def g521 : Option (Nat × Nat) := some
  (0xc6858e06b70404e9cd9e3ecb662395b4429c648139053fb521f828af606b4d3dbaa14b5e77efe75928fe1dc127a2ffa8de3348b3c1856a429bf97e7e31c2e5bd66,
   0x11839296a789a3bc0045c8a5fb42c7d1bd998f54449579b446817afbd17273e662c97ee72995ef42640c550b9013fad0761353c7086a272c24088be94769fd16650)

/-- `a ^ e` modulo `m`, over the low `n` bits of `e`. -/
def powMod (a e m : Nat) : Nat → Nat
  | 0 => 1 % m
  | n + 1 =>
    let r := powMod (a * a % m) (e / 2) m n
    if e % 2 = 1 then a * r % m else r

/-- The inverse modulo a prime below 2^521. -/
def invMod (a m : Nat) : Nat := powMod (a % m) (m - 2) m 521

/-- Difference modulo `m`. -/
def subMod (a b m : Nat) : Nat := (a + m - b % m) % m

/-- The sum of two points; `none` is the point at infinity. -/
def ecAdd : Option (Nat × Nat) → Option (Nat × Nat) → Option (Nat × Nat)
  | none, q => q
  | p, none => p
  | some (x, y), some (u, v) =>
    if x = u ∧ (y + v) % p521 = 0 then none
    else
      let l := if x = u then subMod (3 * x * x) 3 p521 * invMod (2 * y) p521 % p521
               else subMod v y p521 * invMod (subMod u x p521) p521 % p521
      let w := subMod (l * l) (x + u) p521
      some (w, subMod (l * subMod x w p521) y p521)

/-- A multiple of a point, over the low `n` bits of `k`. -/
def ecMul (k : Nat) (p : Option (Nat × Nat)) : Nat → Option (Nat × Nat)
  | 0 => none
  | n + 1 =>
    let r := ecMul (k / 2) (ecAdd p p) n
    if k % 2 = 1 then ecAdd p r else r

/-- The number that bytes hold, highest first. -/
def beNat (bs : List Byte) : Nat := bs.foldl (fun n b => 256 * n + b.toNat) 0

/-- A point from its uncompressed form: 0x04, then x and y in 66 bytes each, highest first. -/
def ecPoint (bs : List Byte) : Option (Nat × Nat) :=
  let x := beNat ((bs.drop 1).take 66)
  let y := beNat ((bs.drop 67).take 66)
  if bs.length = 133 ∧ bs.head? = some 0x04 ∧ x < p521 ∧ y < p521 ∧ y * y % p521 = subMod (x * x * x + b521) (3 * x) p521
  then some (x, y) else none

/-- The ECDSA P-521 signature (r, s) over the SHA-512 digest of a message verifies under a public key. -/
def ecdsaVerify (pub msg : List Byte) (r s : Nat) : Bool :=
  match ecPoint pub with
  | none => false
  | some q =>
    if r = 0 || n521 ≤ r || s = 0 || n521 ≤ s then false
    else
      let w := invMod s n521
      let e := beNat (sha512 msg)
      match ecAdd (ecMul (e * w % n521) g521 521) (ecMul (r * w % n521) (some q) 521) with
      | none => false
      | some (x, _) => x % n521 == r

end Sys2Proof.Machine
end

