-- ==== Sys2Proof/Machine/Tables.lean ====
section
/-! DEFINITION. Far placement windows, page tables, the translation cache, callboard words and system space
(06_tables R113 to R118; 18_module R346 to R348; 22_prog_wings R360, R361). -/

namespace Sys2Proof.Machine

/-! ## Windows (R113) -/

/-- 4 KiB units of a window's block. -/
def Window.units (w : Window) : Nat := 4 ^ w.blk.toNat

/-- Bytes of a window's block. -/
def Window.blkBytes (w : Window) : Nat := 4096 * w.units

/-- The window's first far address, in [59:0]. -/
def Window.start (w : Window) : Nat := w.base.toNat * 65536

/-- The window's length in bytes. -/
def Window.len (w : Window) : Nat := w.size.toNat * 65536

/-- The window holds the address (R113). -/
def Window.holds (w : Window) (a : Nat) : Bool := w.v && w.start ≤ a && a < w.start + w.len

/-- Bytes of the window at each of its stagehands (R113). -/
def Window.share (w : Window) : Nat := ceilDiv w.len w.cnt.toNat

/-- The window has a table at stagehand `sh` (R114). -/
def Window.serves (w : Window) (sh : Nat) : Bool := w.v && w.first.toNat ≤ sh && sh < w.first.toNat + w.cnt.toNat

/-- Window `i` of a partition. -/
def Partition.window (p : Partition) (i : Nat) : Window := vget p.windows {} i

/-- The first window that holds a far address, its home stagehand and the channel offset (R113). -/
def Partition.home (p : Partition) (a : Nat) : Option (Nat × Nat × Nat) :=
  match (List.range 8).find? fun i => (p.window i).holds a with
  | none => none
  | some i =>
    let w := p.window i
    let d := a - w.start
    let b := w.blkBytes
    some (i, w.first.toNat + d / b % w.cnt.toNat, d / (b * w.cnt.toNat) * b + d % b)

/-- Far address div 4 KiB of the first byte of the block that holds `a` in window `i` (R118). -/
def Partition.blockOf (p : Partition) (i a : Nat) : Nat :=
  let w := p.window i
  (w.start + (a - w.start) / w.blkBytes * w.blkBytes) / 4096

/-! ## Page tables (R114, R360) -/

/-- Units of the largest block size among the partition's windows (R360). -/
def Partition.bigBlock (p : Partition) : Nat :=
  p.windows.toList.foldl (fun n w => if w.v then max n w.units else n) 0

/-- Bytes of a partition's page-table area at a stagehand (R347, R360). -/
def Partition.tableArea (p : Partition) : Nat := (p.quota.toNat - p.bigBlock) * 4096

/-- Level-1 entries of a window at each stagehand (R114). -/
def Window.entries (w : Window) : Nat := ceilDiv w.share 2097152

/-- Offset of the level-1 table of window `n` at stagehand `sh`: the tables stand in window order, each at a multiple of
4 KiB (R360). -/
def Partition.level1 (p : Partition) (sh : Nat) : Nat → Nat
  | 0 => 0
  | n + 1 =>
    let w := p.window n
    p.level1 sh n + (if w.serves sh then ceilDiv (8 * w.entries) 4096 * 4096 else 0)

/-- Partition `q`'s key at the stagehand (R126). -/
def Stagehand.keyOf (h : Stagehand) (q : Nat) : BitVec 512 := Map.get h.keys 0 q

/-- The key that unit `u` of a page-table area was last written under (R88). -/
def Stagehand.tableKeyAt (h : Stagehand) (q u : Nat) : BitVec 512 :=
  (Map.find h.tableKey (2 ^ 18 * q + u)).getD (Map.get h.zeroKey 0 q)

/-- The 64-byte unit of a slice at which a partition's page-table area begins at stagehand `s`, which the spec leaves open. -/
def tableBase (s q : Nat) : Nat := Config.stageUnit s q (2 ^ 48)

/-- A 64-byte unit of partition `q`'s page-table area, read under its key (R88). -/
def Stagehand.tableUnit (h : Stagehand) (s q u : Nat) : List Byte :=
  let bs := Memory.bytes (Map.get h.tables [] q) (64 * u) 64
  if h.tableKeyAt q u = h.keyOf q then bs
  else reKey (h.tableKeyAt q u) (h.keyOf q) (2 ^ 127 + s * 2 ^ 34 + tableBase s q + u) bs

/-- The aligned 8-byte word at `a` of partition `q`'s page-table area at stagehand `s`. DESIGN CHOICE: an entry that a TBL not
aligned to 256 bytes names is the word that holds its offset. -/
def Mach.tableWord (m : Mach) (s q a : Nat) : Word :=
  wd (leNat (((m.hand s).tableUnit s q (a / 64)).drop (a % 64 / 8 * 8) |>.take 8))

/-- What a walk finds. -/
inductive Walk where
  | ok (hbm : Nat) (wr : Bool)
  | miss
  /-- A fault, with the code of its cause: a fatal translation, or an entry that reads with an uncorrectable error (R89, R116). -/
  | fatal (cause : Nat)
  deriving DecidableEq, Repr

/-- All of `[page, page + n)` lies in the partition's HBM range (R114, R125). -/
def Partition.ownsPages (p : Partition) (page n : Nat) : Bool :=
  p.hbmbase.toNat ≤ page && page + n ≤ p.hbmbase.toNat + p.hbmpg.toNat

/-- The offsets of the entries that a walk for channel offset `l` of window `w` reads, in an area whose words are `t` (R114). -/
def Partition.walkPath (p : Partition) (t : Nat → Word) (sh w l : Nat) : List Nat :=
  let a := p.level1 sh w + 8 * (l / 2097152)
  let e := t a
  if bit e 63 && !bit e 61 then [a, (fld e 23 0 + 8 * (l / 65536 % 32)) / 8 * 8] else [a]

/-- Walk the tables, whose words are `t`, for channel offset `l` of window `w`: the HBM address of its 64 KiB part (R114, R116).
DESIGN CHOICE: WR of a level-1 entry that points to a level-2 table is ignored, and a TBL not aligned to 256 bytes is used as it
stands. -/
def Partition.walk (p : Partition) (t : Nat → Word) (sh w l : Nat) : Walk :=
  let e := t (p.level1 sh w + 8 * (l / 2097152))
  if !bit e 63 then (if bit e 62 then .fatal Cause.fatalTranslation else .miss)
  else if bit e 61 then
    let f := fld e 23 0
    if 1023 < f || !p.ownsPages (32 * f) 32 then .fatal Cause.fatalTranslation
    else .ok (f * 2097152 + l % 2097152 / 65536 * 65536) (bit e 60)
  else if p.tableArea ≤ fld e 23 0 then .fatal Cause.fatalTranslation
  else
    let e2 := t (fld e 23 0 + 8 * (l / 65536 % 32))
    if !bit e2 63 then (if bit e2 62 then .fatal Cause.fatalTranslation else .miss)
    else if 32767 < fld e2 23 0 || !p.ownsPages (fld e2 23 0) 1 then .fatal Cause.fatalTranslation
    else .ok (fld e2 23 0 * 65536) (bit e2 60)

/-- The unit that holds offset `a` of partition `q`'s page-table area reads with an uncorrectable error (R89). -/
def Stagehand.tableBad (h : Stagehand) (q a : Nat) : Bool := h.badTable.contains (2 ^ 18 * q + a / 64)

/-- What partition `q`'s tables at stagehand `sh` map channel offset `l` of window `w` to; an entry on the way that cannot be read is
a fault (R89). -/
def Mach.walkAt (m : Mach) (sh q w l : Nat) : Walk :=
  let p := m.part q
  if (p.walkPath (m.tableWord sh q) sh w l).any ((m.hand sh).tableBad q) then .fatal Cause.memoryEcc
  else p.walk (m.tableWord sh q) sh w l

/-- Translate channel offset `l`: the HBM address and whether writes are permitted, and the cache after it, least
recently used last (R115). -/
def Mach.translate (m : Mach) (sh q w l : Nat) : Walk × Mach :=
  let h := m.hand sh
  match h.cache.find? fun x => x.part == q && x.win == w && x.page == l / 65536 with
  | some x =>
    (.ok (x.hbm + l % 65536) x.wr,
     m.modHand sh fun h => { h with cache := x :: h.cache.filter fun y => !(y.part == q && y.win == w && y.page == l / 65536) })
  | none =>
    match m.walkAt sh q w l with
    | .ok a wr =>
      (.ok (a + l % 65536) wr,
       m.modHand sh fun h =>
         { h with cache := ({ part := q, win := w, page := l / 65536, hbm := a, wr := wr } :: h.cache).take 4096 })
    | .miss => (.miss, m)
    | .fatal c => (.fatal c, m)

/-- Cycles that the translation of channel offset `l` takes: a hit costs nothing, a walk 30 cycles (R115). -/
def Mach.walkTime (m : Mach) (sh q w l : Nat) : Nat :=
  if (m.hand sh).cache.any fun x => x.part == q && x.win == w && x.page == l / 65536 then 0 else 30

/-- A page-table word written: its unit is read under the partition's key and written back under it (R88). -/
def Stagehand.pokeTable (h : Stagehand) (sh q off : Nat) (v : Word) : Stagehand :=
  let u := off / 64
  let bs := h.tableUnit sh q u
  let new := bs.take (off % 64) ++ leBytes v.toNat 8 ++ bs.drop (off % 64 + 8)
  { h with
    tables := Map.set h.tables q (Memory.pokes (Map.get h.tables [] q) (64 * u) new)
    tableKey := if h.keyOf q = Map.get h.zeroKey 0 q then Map.erase h.tableKey (2 ^ 18 * q + u)
                else Map.set h.tableKey (2 ^ 18 * q + u) (h.keyOf q) }

/-- An XPEND entry after a table write that covers it: its walk succeeds, misses again, or meets FAT = 1 (R89, R116). -/
def Blk.rewalked (b : Blk) (w : Walk) : Blk :=
  match w with
  | .ok _ _ => { b with xpend := false }
  | .miss => b
  | .fatal c => { b with xpend := false, fault := some (BitVec.ofNat 8 c) }

/-- A write of a page-table word: cached translations that it covers are dropped (R115), and XPEND entries that it covers
are walked again, those that meet FAT = 1 to be faulted; a walk that succeeds fills the cache (R112, R116, R361). -/
def Mach.writeTable (m : Mach) (sh q off : Nat) (v : Word) : Mach :=
  let p := m.part q
  let old := m.tableWord sh q
  let m := m.modHand sh fun h => h.pokeTable sh q off v
  let new := m.tableWord sh q
  let covered (b : Blk) : Bool :=
    b.part == q && b.xpend && ((p.walkPath old sh b.win b.off).contains off || (p.walkPath new sh b.win b.off).contains off)
  let again (b : Blk) : Blk := if covered b then b.rewalked (m.walkAt sh q b.win b.off) else b
  let found (b : Blk) : Option Xlat :=
    if covered b then
      match m.walkAt sh q b.win b.off with
      | .ok a wr => some { part := q, win := b.win, page := b.off / 65536, hbm := a, wr := wr }
      | _ => none
    else none
  m.modHand sh fun h =>
    let old := h.cache.filter fun x => !(x.part == q && (p.walkPath old sh x.win (x.page * 65536)).contains off)
    { h with
      cache := (((h.board.map (·.2)) ++ h.dir).filterMap found ++ old).eraseDups.take 4096
      board := h.board.map fun (i, b) => (i, again b), dir := h.dir.map again }

/-! ## Callboard words (R118) -/

/-- The code of a block state. -/
def BlkState.code : BlkState → Nat
  | .absent => 0 | .fetching => 1 | .onStage => 2 | .draining => 3 | .evicting => 4

/-- Word `n` of a callboard entry (R118). -/
def Blk.word (b : Blk) (n : Nat) : Word :=
  match n with
  | 0 => wd (b.st.code * 2 ^ 61 + b2n b.xpend * 2 ^ 60 + b2n b.dirty * 2 ^ 59 + b.part * 2 ^ 55 + b.win * 2 ^ 52 + b.blk)
  | 1 => wd b.first
  | 2 => wd (b.wings.length * 2 ^ 40 + b.pins.length * 2 ^ 24)
  | _ => wd b.last

/-! ## System space (R346 to R348) -/

/-- The module status word, from the fused counter (R348). -/
def Mach.status (m : Mach) (ctr : Nat) : Word :=
  let link := b2n (vget m.ports {} 0).up + 2 * b2n (vget m.ports {} 1).up
  wd (ctr * 2 ^ 32 + m.pgate.toNat * 2 ^ 30 + m.ptp.toNat * 2 ^ 28 + link * 2 ^ 26 + b2n m.fwB * 2 ^ 25 +
    m.fwVersion % 2 ^ 25)

/-- Counter word `n` of a core, in the order of R140. -/
def Counters.word (k : Counters) (n : Nat) : Word :=
  match n with
  | 0 => k.regEcc.setWidth 64
  | 1 => k.memEcc.setWidth 64
  | 2 => k.lost.setWidth 64
  | 3 => k.underflow.setWidth 64
  | 4 => k.refusals.setWidth 64
  | 5 => k.parks.setWidth 64
  | 6 => k.issue
  | 7 => k.idle
  | _ => k.stall

/-- What a system address names for core `c`. -/
inductive SysWord where
  | counter (n : Nat)
  | energy (n : Nat)
  | kenergy
  | board (sh entry word : Nat)
  | table (sh off : Nat)
  | status
  | power
  deriving DecidableEq, Repr

/-- Decode a system address (R346, R347); the cause code where it names nothing. A house core has no partition, so no
word of units 1 and 2 area 1 lies within its units. -/
def Mach.sysWord (m : Mach) (c : Nat) (a : Word) : Except Nat SysWord :=
  let unit := fld a 59 56
  let sh := fld a 48 40
  let area := fld a 39 36
  let off := fld a 23 0
  let p := m.part (m.core c).part.toNat
  let mesh := c < meshCores
  if fld a 55 49 ≠ 0 ∨ fld a 35 24 ≠ 0 ∨ (unit ≠ 2 ∧ (sh ≠ 0 ∨ area ≠ 0)) then .error Cause.address
  else if unit = 0 then (if off ≤ 0x40 then .ok (.counter (off / 8)) else .error Cause.address)
  else if unit = 1 then
    if !mesh then .error Cause.address
    else if off ≤ 0x28 then .ok (.energy (off / 8))
    else if off = 0x30 then .ok .kenergy else .error Cause.address
  else if unit = 2 then
    if 1 < area then .error Cause.address
    else if mesh && !p.hands.contains sh then .error Cause.partition
    else if area = 0 then (if off < 32768 then .ok (.board sh (off / 32) (off % 32 / 8)) else .error Cause.address)
    else if mesh && off < p.tableArea then .ok (.table sh off) else .error Cause.address
  else if unit = 3 then
    if off = 0 then .ok .status else if off = 8 then .ok .power else .error Cause.address
  else .error Cause.address

/-- The value of a system word (R347). -/
def Mach.sysRead (m : Mach) (ctr c : Nat) : SysWord → Word
  | .counter n => (m.core c).seen.word n
  | .energy n => vget (m.part (m.core c).part.toNat).energy 0 n
  | .kenergy => b1 (m.part (m.core c).part.toNat).low ++ (m.part (m.core c).part.toNat).rem
  | .board sh e n =>
    match Map.find (m.hand sh).board e with
    | none => 0
    | some b => if b.part = (m.core c).part.toNat ∨ m.me.priv = .house then b.word n else 0
  | .table sh off => m.tableWord sh (m.core c).part.toNat off
  | .status => m.status ctr
  | .power => wd m.powerMw

/-- Cycles that a system access of core `c` waits in place: 8 and twice the hops to where the unit stands (R346). -/
def Mach.systemWait (m : Mach) (c : Nat) (a : Word) : Nat :=
  match fld a 59 56 with
  | 0 => 8
  | 1 => 8 + 2 * ((m.runtimeCore (m.core c).part.toNat).map (hops c)).getD 0
  | 2 => 8 + 2 * hops c (handBase + fld a 48 40)
  | _ => 8 + 2 * hops c meshCores

/-- The issuing thread set waits in place for a system access, performed when it issues (R346; log entry on latencies). -/
def waitSystem (a : Word) : Act Unit := do
  let m ← get
  modMe fun t => { t with notBefore := m.clk + m.systemWait m.here a }

/-- `ld.d` in system space; the module status word takes the fused counter `ctr` (R346, R347). -/
def sysLoad (ctr : Nat) (a : Word) : Act Word := do
  let m ← get
  match m.sysWord m.here a with
  | .error code => trapAt code a
  | .ok w =>
    match w with
    | .table sh off => require (!(m.hand sh).tableBad m.myPart off) { faultOf Cause.memoryEcc with addr := a }
    | _ => pure ()
    waitSystem a
    return m.sysRead ctr m.here w

/-- `st.d` in system space: only page-table words are written (R346, R347), each of which is a part of a unit that is read first (R80,
R89). -/
def sysStore (a v : Word) : Act Unit := do
  let m ← get
  match m.sysWord m.here a with
  | .error code => trapAt code a
  | .ok w =>
    match w with
    | .table sh off =>
      require (!(m.hand sh).tableBad m.myPart off) { faultOf Cause.memoryEcc with addr := a }
      set (m.writeTable sh (m.core m.here).part.toNat off v)
      waitSystem a
    | _ => trapAt Cause.illegalOperation a

end Sys2Proof.Machine
end

