-- ==== Sys2Proof/Machine/Memory.lean ====
section
/-! DEFINITION. Loads and stores, posted, scoped and versioned accesses, atomics and fences (10_isa_memory R184 to R195;
07_counters R133, R134; 14_ordering R276 to R283). -/

namespace Sys2Proof.Machine

/-! ## Scalar loads and stores (R187, R190, R191) -/

/-- A scalar load of `n` bytes; `ld.d` alone reaches system space, whose status word takes the fused counter (R184, R187). -/
def semLoad (ctr : Option Nat) (n : Nat) (a : Args) : Act Unit := do
  srcPort false a.s
  dstPort false a.d
  let ea ← effAddr a
  if ← predOn a then
    let p ← checkElem ea n .cluster (ctr.isSome && n == 8) false
    if p = .system then
      writeRes a true (← sysLoad (ctr.getD 0) ea)
    else
      writeRes a true (wd (← loadPlace p n ea))
  else writeRes a false 0

/-- The low `n` bytes of a register, numbered from 0. -/
def regCells (v : Word) (n : Nat) : List (Nat × Byte) := cellsAt 0 (leBytes v.toNat n)

/-- The address and the data of a form `[xs+imm], xd`, in that order (R187). -/
def readStore (a : Args) : Act (Word × Word) := do
  srcPort false a.s
  srcPort false a.d
  let ea ← effAddr a
  let v ← readX a.d
  return (ea, v)

/-- A scalar store of `n` bytes (R187, R190). -/
def semStore (reach : MeshReach) (sys : Bool) (n : Nat) (a : Args) : Act Unit := do
  let (ea, v) ← readStore a
  if ← predOn a then
    let p ← checkElem ea n reach (sys && n == 8) true
    if p = .system then sysStore ea v else storePlace p (regCells v n) ea
  else pure ()

/-- The elements of store streams that stand in FIFOs: the slot, and how many it will have moved once they are written. -/
def ThreadSet.pushed (t : ThreadSet) : List (Nat × Nat) :=
  (List.range 8).filterMap fun i =>
    let s := t.slot i
    if s.bnd && (s.kind == 1 || s.kind == 2) && !s.fifo.isEmpty then some (i, s.moved + s.fifo.length) else none

/-- The store streams have written what a release store waits for (R191, R280). -/
def ThreadSet.written (t : ThreadSet) (after : List (Nat × Nat)) : Bool :=
  after.all fun p =>
    let s := t.slot p.1
    !s.bnd || s.fifo.isEmpty || p.2 ≤ s.moved

/-- A release store whose stream elements are written may be transmitted (R191). -/
def Mach.releaseReady (m : Mach) (id : Nat) : Option Mach :=
  match m.delivery id with
  | none => none
  | some d =>
    if d.after != [] && (m.tset (.core d.src d.ts)).written d.after then
      some ((m.modDelivery id fun d => { d with after := [] }).transmit d.src)
    else none

/-- Post a release store that earlier deliveries or stream elements of the party hold back: to the own core outside the send
window (R191). -/
def postRelease (p : Place) (cs : List (Nat × Byte)) : Act Unit := do
  let m ← get
  match p with
  | .own off => set (m.post m.here m.tsNo m.here (.store (shiftCells off cs)) none false true m.me.pushed)
  | .other q off => do
    stallUntil (m.windowFree m.here)
    modify fun m => m.post m.here m.tsNo q (.store (shiftCells off cs)) none true true m.me.pushed
  | .system => pure ()

/-- `st.rel`: performed at once when nothing is outstanding, else once the earlier deliveries are accepted and the elements of
store streams written, whatever the scope; later accesses are not delayed (R191, R280, R358). -/
def semStRel (a : Args) : Act Unit := do
  let (ea, v) ← readStore a
  if ← predOn a then
    let n := sizeOf a.v
    let p ← checkElem ea n .cluster false true
    let m ← get
    if m.quiet m.here m.tsNo && m.me.drained then storePlace p (regCells v n) ea
    else do
      match p with
      | .own off => gateWords true (cellWords (shiftCells off (regCells v n)))
      | .other q off => belowMark q off n
      | .system => pure ()
      postRelease p (regCells v n)
  else pure ()

/-! ## Vector loads and stores (R188 to R190) -/

/-- Registers of a group (R56). -/
def groupWidth (a : Args) : Nat := 2 ^ a.w.toNat

/-- Byte `j` of a vector register. -/
def vbyte (v : V128) (j : Nat) : Byte := v.extractLsb' (8 * j) 8

/-- A vector register from its sixteen bytes. -/
def vecOf (bs : List Byte) : V128 := BitVec.ofNat 128 (leNat bs)

/-- The bytes of `new` under the mask, of `old` elsewhere (R55). -/
def mergeBytes (mask : BitVec 16) (old new : V128) : V128 :=
  vecOf ((List.range 16).map fun j => if mask.getLsbD j then vbyte new j else vbyte old j)

/-- The bytes of a vector register under a mask, numbered from `off`. -/
def maskCells (mask : BitVec 16) (v : V128) (off : Nat) : List (Nat × Byte) :=
  ((List.range 16).filter mask.getLsbD).map fun j => (off + j, vbyte v j)

/-- A place `n` bytes on. -/
def Place.plus (p : Place) (n : Nat) : Place :=
  match p with
  | .own off => .own (off + n)
  | .other q off => .other q (off + n)
  | .system => .system

/-- Load the active bytes of 16 at a place; a word with no active byte is not read (R188). -/
def loadMasked (mask : BitVec 16) (p : Place) (ea : Word) : Act V128 := do
  let lo ← if mask.setWidth 8 = 0 then pure 0 else loadPlace p 8 ea
  let hi ← if mask.extractLsb' 8 8 = 0 then pure 0 else loadPlace (p.plus 8) 8 ea
  return BitVec.ofNat 128 (lo + hi * 2 ^ 64)

/-- Write register `k` of a destination group under the mask; zero bytes where a bound port takes inactive ones (R55). DESIGN CHOICE:
the old destination is read, and its check bits are looked at, even where the mask covers every byte: R215 does not list the form
among those that read it, and the pseudocode of R217 begins with its value. -/
def writeMasked (mask : BitVec 16) (d : RegNo) (v : V128) : Act Unit := do
  writeV d (mergeBytes mask (← oldV d) v)

/-- `vld` (R188). -/
def semVld (a : Args) : Act Unit := do
  let w := groupWidth a
  srcPort false a.s
  groupPort true a.d w
  dstPort true a.d
  let ea ← effAddr a
  let mask ← readPred a
  if mask = 0 then
    (List.range w).forM fun k => writeMasked 0 (a.d + BitVec.ofNat 5 k) 0
  else
    let ps ← (List.range w).mapM fun k => checkElem (ea + wd (16 * k)) 16 .cluster false false k
    let vs ← ps.zipIdx.mapM fun pk => loadMasked mask pk.1 (ea + wd (16 * pk.2))
    vs.zipIdx.forM fun vk => writeMasked mask (a.d + BitVec.ofNat 5 vk.2) vk.1

/-- Store lists of cells, each numbered from its place: the own core's as one store, another core's as one delivery
(R79, R190). -/
def storeParts (parts : List (Place × List (Nat × Byte))) (ea : Word) : Act Unit := do
  let own := parts.flatMap fun pc =>
    match pc.1 with
    | .own off => shiftCells off pc.2
    | _ => []
  let others := (parts.filterMap fun pc =>
    match pc.1 with
    | .other q _ => some q
    | _ => none).eraseDups
  if own = [] then pure () else storePlace (.own 0) own ea
  others.forM fun q =>
    storePlace (.other q 0) (parts.flatMap fun pc =>
      match pc.1 with
      | .other r off => if r = q then shiftCells off pc.2 else []
      | _ => []) ea

/-- `vst` and `pstv`, which has width 1 (R188, R190). -/
def semVst (reach : MeshReach) (a : Args) : Act Unit := do
  let w := groupWidth a
  srcPort false a.s
  groupPort true a.d w
  srcPort true a.d
  let ea ← effAddr a
  let vs ← (List.range w).mapM fun k => readV (a.d + BitVec.ofNat 5 k)
  let mask ← readPred a
  if mask = 0 then pure ()
  else
    let ps ← (List.range w).mapM fun k => checkElem (ea + wd (16 * k)) 16 reach false true k
    storeParts ((ps.zip vs).map fun pv => (pv.1, maskCells mask pv.2 0)) ea

/-- The active lanes of `n` bytes under a mask, by number (R55). -/
def activeLanes (mask : BitVec 16) (n : Nat) : List Nat := (List.range (16 / n)).filter fun k => mask.getLsbD (k * n)

/-- The mask in which whole lanes of `n` bytes are active (R55). -/
def laneMask (mask : BitVec 16) (n : Nat) : BitVec 16 :=
  BitVec.ofNat 16 ((activeLanes mask n).foldl (fun m k => m + (2 ^ n - 1) * 2 ^ (k * n)) 0)

/-- Lane `k` of `n` bytes of a vector register. -/
def laneOf (v : V128) (n k : Nat) : Nat := v.toNat / 2 ^ (8 * n * k) % 2 ^ (8 * n)

/-- The vector with the listed lanes of `n` bytes. -/
def vecLanes (n : Nat) (ls : List (Nat × Nat)) : V128 :=
  BitVec.ofNat 128 (ls.foldl (fun v kx => v + kx.2 * 2 ^ (8 * n * kx.1)) 0)

/-- Check, then load, lanes at their addresses into `vd` (R184, R189). -/
def loadLanes (a : Args) (mask : BitVec 16) (n : Nat) (reach : MeshReach) (addr : Nat → Word) : Act Unit := do
  let ls := activeLanes mask n
  let ps ← ls.mapM fun k => checkElem (addr k) n reach false false k
  let xs ← (ls.zip ps).mapM fun kp => do return (kp.1, ← loadPlace kp.2 n (addr kp.1))
  writeMasked (laneMask mask n) a.d (vecLanes n xs)

/-- Check, then store, lanes at their addresses, ascending (R184, R189). -/
def storeLanes (mask : BitVec 16) (n : Nat) (reach : MeshReach) (v : V128) (addr : Nat → Word) : Act Unit := do
  let ls := activeLanes mask n
  let ps ← ls.mapM fun k => checkElem (addr k) n reach false true k
  storeParts ((ls.zip ps).map fun kp => (kp.2, cellsAt 0 (leBytes (laneOf v n kp.1) n))) (addr (ls.headD 0))

/-- `vlds` (R189). -/
def semVlds (a : Args) : Act Unit := do
  srcPort false a.s
  srcPort false a.t
  dstPort true a.d
  let ea ← effAddr a
  let st ← readX a.t
  let mask ← readPred a
  loadLanes a mask 4 .cluster fun k => ea + wd k * st

/-- `vsts` (R189). DESIGN CHOICE: where `xt` and `vd` name bound ports the d field, here a source, is popped before `rt` (R57
orders rs, rt and the destination). -/
def semVsts (a : Args) : Act Unit := do
  srcPort false a.s
  srcPort true a.d
  srcPort false a.t
  let ea ← effAddr a
  let v ← readV a.d
  let st ← readX a.t
  let mask ← readPred a
  storeLanes mask 4 .cluster v fun k => ea + wd k * st

/-- `vgat` (R189). -/
def semVgat (a : Args) : Act Unit := do
  srcPort false a.s
  srcPort true a.t
  dstPort true a.d
  let n := sizeOf a.v
  let ea ← effAddr a
  let u ← readV a.t
  let mask ← readPred a
  loadLanes a mask n .own fun k => ea + wd (n * laneOf u n k)

/-- `vsct` (R189). DESIGN CHOICE: the d field, here a source, is popped before `rt` (R57 orders rs, rt and the destination). -/
def semVsct (a : Args) : Act Unit := do
  srcPort false a.s
  srcPort true a.d
  srcPort true a.t
  let n := sizeOf a.v
  let ea ← effAddr a
  let v ← readV a.d
  let u ← readV a.t
  let mask ← readPred a
  storeLanes mask n .own v fun k => ea + wd (n * laneOf u n k)

/-! ## Versions (R133, R134, R192, R193) -/

/-- Version `v` satisfies a wait for `n` (R133). -/
def verReached (v n : Byte) : Bool := (v - n).toNat < 128

/-- The own-core offset of a place that names the issuing core. -/
def Place.off (p : Place) : Nat :=
  match p with
  | .own off => off
  | .other _ off => off
  | .system => 0

/-- `ldv`: waits in place for the version; the park after 64 cycles is VERSION_WAIT_PARK (R133, R192). -/
def semLdv (a : Args) : Act Unit := do
  srcPort false a.s
  bothPort false a.t
  dstPort false a.d
  let ea ← effAddr a
  let n := (← readX a.t).setWidth 8
  if ← predOn a then
    let p ← checkElem ea 8 .own false false
    let off := p.off
    waitGate off 8 false (.version off n)
    eccRead (← get).here off 8 ea
    let k ← myCore
    stallUntil (verReached (k.verAt off) n) (.version off n)
    writeX a.d (k.mem64 off)
    writeX a.t ((k.verAt off).setWidth 64)
  else writeRes a false 0

/-- `stv`: always posted, to the own core as well, after the stream elements pushed for the word (R106, R134, R193). DESIGN CHOICE:
the d field, here a source, is popped before `rt` (R57 orders rs, rt and the destination). -/
def semStv (a : Args) : Act Unit := do
  srcPort false a.s
  srcPort false a.d
  srcPort false a.t
  let ea ← effAddr a
  let v ← readX a.d
  let n ← readX a.t
  if ← predOn a then
    let p ← checkElem ea 8 .partition false true
    let m ← get
    match p with
    | .own off => do
      stallUntil (!m.me.undrained off 8)
      belowMark m.here off 8
      deliver m.here (.stv off v (n.setWidth 8))
    | .other q off => do
      belowMark q off 8
      deliver q (.stv off v (n.setWidth 8))
    | .system => pure ()
  else pure ()

/-- The core with the reclaim bit of the word at `off` set, where its version is `n` (R79, R134). -/
def Core.reclaim (k : Core) (off : Nat) (n : Byte) : Core :=
  if k.verAt off = n then k.setSide off { k.sideAt off with rcl := true } else k

/-- The delivery has been applied, and its acceptance is on its way back (R104). -/
def Delivery.applied (d : Delivery) : Bool :=
  match d.phase with
  | .accepting _ _ => true
  | _ => false

/-- Version stores of core `c` to its own word at `off` that are not applied, and the deliveries that wait behind one (R105,
R134). -/
def versionIds (c off : Nat) (stuck : List Delivery) : List Delivery → List Nat
  | [] => stuck.map (·.id)
  | d :: ds =>
    let s := d.src == c &&
      (match d.body with
       | .stv o _ _ => (!d.applied && d.dst == c && o / 8 == off / 8) || stuck.any (d.conflicts ·)
       | _ => stuck.any (d.conflicts ·))
    versionIds c off (if s then stuck ++ [d] else stuck) ds

/-- Every access of the party before its `rcl` of the word at `off` is performed (R283). DEDUCED: a version store to that word
waits for this very `rcl` (R134), so neither it nor what is ordered behind it is waited for. -/
def Mach.quietOwner (m : Mach) (c t off : Nat) : Bool :=
  let cid := ((m.core c).tset t).cid
  let own := versionIds c off [] m.net
  !m.net.any fun d => d.src == c && (d.ts == t || d.cid == cid) && d.counts && !own.contains d.id

/-- `rcl` (R193, R283). -/
def semRcl (a : Args) : Act Unit := do
  let (ea, v) ← readStore a
  if ← predOn a then
    let p ← checkElem ea 8 .own false false
    waitGate p.off 8 false
    let m ← get
    stallUntil (m.quietOwner m.here m.tsNo p.off && m.me.drained)
    eccRead m.here p.off 8 ea
    modMyCore (·.reclaim p.off (v.setWidth 8))
  else pure ()

/-- `ver`: without any wait (R185, R193). -/
def semVer (a : Args) : Act Unit := do
  srcPort false a.s
  dstPort false a.d
  let ea ← effAddr a
  if ← predOn a then
    let p ← checkElem ea 8 .own false false
    eccRead (← get).here p.off 8 ea
    let s := (← myCore).sideAt p.off
    writeRes a true (wd (s.ver.toNat + 256 * b2n s.rcl))
  else writeRes a false 0

/-! ## Atomics and fences (R194, R195) -/

/-- A read-modify-write of `n` bytes at a place by its owner: the old value. `f` gives the new one, `none` for no write. -/
def rmw (p : Place) (n : Nat) (ea : Word) (f : Word → Option Word) : Act Word := do
  let m ← get
  let (q, off) := match p with
    | .own off => (m.here, off)
    | .other q off => (q, off)
    | .system => (m.here, 0)
  if q = m.here then waitGate off n true
  else do
    meshOpen q
    stallUntil (!m.unaccepted m.here m.tsNo q off n)
    stallUntil (!m.heldRange q off n)
    belowMark q off n
  eccRead q off n ea
  let old := wd (((← get).core q).readN off n)
  match f old with
  | none => return old
  | some new => do
    modify fun m => m.modCore q (·.store (cellsAt off (leBytes new.toNat n)))
    return old

/-- Earlier accesses of the party are performed, whatever the scope (R191, R280, R358). -/
def waitQuiet : Act Unit := do
  let m ← get
  stallUntil (m.quiet m.here m.tsNo && m.me.drained) .fence

/-- `amo` with the new value from the old one and the operand at the size (R194). -/
def semAmo (op : Nat → Word → Word → Word) (a : Args) : Act Unit := do
  srcPort false a.s
  srcPort false a.t
  dstPort false a.d
  let ea ← effAddr a
  let b ← readX a.t
  if ← predOn a then
    let n := sizeOf a.v
    let p ← checkElem ea n .cluster false true
    waitQuiet
    let old ← rmw p n ea fun old => some (op n old (zext b (8 * n)))
    writeRes a true old
  else writeRes a false 0

/-- `cas` (R194). -/
def semCas (a : Args) : Act Unit := do
  srcPort false a.s
  bothPort false a.d
  srcPort false a.t
  let ea ← effAddr a
  let e ← readX a.d
  let b ← readX a.t
  if ← predOn a then
    let n := sizeOf a.v
    let p ← checkElem ea n .cluster false true
    waitQuiet
    let old ← rmw p n ea fun old => if old = zext e (8 * n) then some b else none
    writeRes a true old
  else writeRes a false 0

/-- Signed less-than at `n` bytes. -/
def sltAt (n : Nat) (l r : Word) : Bool := (sext l (8 * n)).slt (sext r (8 * n))

/-- The kinds of a fence that wait for earlier stores: .ss, .sl and .all, whose first class holds them (R195), and .ls, before
whose later stores every earlier access is performed (R281). -/
def fenceStores (v : BitVec 3) : Bool := 1 ≤ v.toNat

/-- `fence`: loads are performed as they issue; stores wait for their acceptance, stream elements for their write (R195). -/
def semFence (a : Args) : Act Unit := do
  if fenceStores a.v then waitQuiet else pure ()

/-! ## The instructions -/

/-- `ld.d` (R187). -/
def execLdD (a : Args) (s : State) : Host.Outcome State Fault Refusal := issue (semLoad (some s.perm.ctr) 8 a) s

/-- `ld.w` (R187). -/
def execLdW (a : Args) (s : State) : Host.Outcome State Fault Refusal := issue (semLoad none 4 a) s

/-- `ld.size` of page 1 (R187). -/
def execLdSize (a : Args) (s : State) : Host.Outcome State Fault Refusal :=
  issue (semLoad (some s.perm.ctr) (sizeOf a.v) a) s

/-- `st.d` (R187). -/
def execStD (a : Args) (s : State) : Host.Outcome State Fault Refusal := issue (semStore .cluster true 8 a) s

/-- `st.w` (R187). -/
def execStW (a : Args) (s : State) : Host.Outcome State Fault Refusal := issue (semStore .cluster false 4 a) s

/-- `st.size` of page 1 (R187). -/
def execStSize (a : Args) (s : State) : Host.Outcome State Fault Refusal := issue (semStore .cluster true (sizeOf a.v) a) s

/-- `vld` (R188). -/
def execVld (a : Args) (s : State) : Host.Outcome State Fault Refusal := issue (semVld a) s

/-- `vld` of page 1 (R188). -/
def execVldP1 (a : Args) (s : State) : Host.Outcome State Fault Refusal := issue (semVld a) s

/-- `vst` (R188). -/
def execVst (a : Args) (s : State) : Host.Outcome State Fault Refusal := issue (semVst .cluster a) s

/-- `vst` of page 1 (R188). -/
def execVstP1 (a : Args) (s : State) : Host.Outcome State Fault Refusal := issue (semVst .cluster a) s

/-- `vlds` (R189). -/
def execVlds (a : Args) (s : State) : Host.Outcome State Fault Refusal := issue (semVlds a) s

/-- `vsts` (R189). -/
def execVsts (a : Args) (s : State) : Host.Outcome State Fault Refusal := issue (semVsts a) s

/-- `vgat` (R189). -/
def execVgat (a : Args) (s : State) : Host.Outcome State Fault Refusal := issue (semVgat a) s

/-- `vsct` (R189). -/
def execVsct (a : Args) (s : State) : Host.Outcome State Fault Refusal := issue (semVsct a) s

/-- `pst.d` (R190). -/
def execPstD (a : Args) (s : State) : Host.Outcome State Fault Refusal := issue (semStore .partition false 8 a) s

/-- `pst.size` of page 1 (R190). -/
def execPstSize (a : Args) (s : State) : Host.Outcome State Fault Refusal := issue (semStore .partition false (sizeOf a.v) a) s

/-- `pstv` (R190). -/
def execPstv (a : Args) (s : State) : Host.Outcome State Fault Refusal := issue (semVst .partition a) s

/-- `pstv` of page 1 (R190). -/
def execPstvP1 (a : Args) (s : State) : Host.Outcome State Fault Refusal := issue (semVst .partition a) s

/-- `ld.acq` (R191): every access is performed in program order. -/
def execLdAcq (a : Args) (s : State) : Host.Outcome State Fault Refusal := issue (semLoad none (sizeOf a.v) a) s

/-- `st.rel` (R191). -/
def execStRel (a : Args) (s : State) : Host.Outcome State Fault Refusal := issue (semStRel a) s

/-- `st.s` (R191): one instant for every observer, as every store of the model. -/
def execStS (a : Args) (s : State) : Host.Outcome State Fault Refusal := issue (semStore .cluster false (sizeOf a.v) a) s

/-- `ldv` (R192). -/
def execLdv (a : Args) (s : State) : Host.Outcome State Fault Refusal := issue (semLdv a) s

/-- `stv` (R193). -/
def execStv (a : Args) (s : State) : Host.Outcome State Fault Refusal := issue (semStv a) s

/-- `rcl` (R193). -/
def execRcl (a : Args) (s : State) : Host.Outcome State Fault Refusal := issue (semRcl a) s

/-- `ver` (R193). -/
def execVer (a : Args) (s : State) : Host.Outcome State Fault Refusal := issue (semVer a) s

/-- `amo.add` (R194). -/
def execAmoAdd (a : Args) (s : State) : Host.Outcome State Fault Refusal := issue (semAmo (fun _ x b => x + b) a) s

/-- `amo.and` (R194). -/
def execAmoAnd (a : Args) (s : State) : Host.Outcome State Fault Refusal := issue (semAmo (fun _ x b => x &&& b) a) s

/-- `amo.or` (R194). -/
def execAmoOr (a : Args) (s : State) : Host.Outcome State Fault Refusal := issue (semAmo (fun _ x b => x ||| b) a) s

/-- `amo.xor` (R194). -/
def execAmoXor (a : Args) (s : State) : Host.Outcome State Fault Refusal := issue (semAmo (fun _ x b => x ^^^ b) a) s

/-- `amo.min` (R194). -/
def execAmoMin (a : Args) (s : State) : Host.Outcome State Fault Refusal :=
  issue (semAmo (fun n x b => if sltAt n x b then x else b) a) s

/-- `amo.max` (R194). -/
def execAmoMax (a : Args) (s : State) : Host.Outcome State Fault Refusal :=
  issue (semAmo (fun n x b => if sltAt n x b then b else x) a) s

/-- `amo.minu` (R194). -/
def execAmoMinu (a : Args) (s : State) : Host.Outcome State Fault Refusal :=
  issue (semAmo (fun _ x b => if x.ult b then x else b) a) s

/-- `amo.maxu` (R194). -/
def execAmoMaxu (a : Args) (s : State) : Host.Outcome State Fault Refusal :=
  issue (semAmo (fun _ x b => if x.ult b then b else x) a) s

/-- `amo.swap` (R194). -/
def execAmoSwap (a : Args) (s : State) : Host.Outcome State Fault Refusal := issue (semAmo (fun _ _ b => b) a) s

/-- `cas` (R194). -/
def execCas (a : Args) (s : State) : Host.Outcome State Fault Refusal := issue (semCas a) s

/-- `fence` (R195). -/
def execFence (a : Args) (s : State) : Host.Outcome State Fault Refusal := issue (semFence a) s

end Sys2Proof.Machine
end

