-- ==== Sys2Proof/Machine/Streams.lean ====
section
/-! DEFINITION. Stream bindings, the stream hardware's fills and drains, and neighbour links
(05_queues R106, R107; 06_tables R124; 10_isa_memory R199 to R203; 19_prog_sparse R352 to R354). -/

namespace Sys2Proof.Machine

/-! ## Binding (R199, R200, R202) -/

/-- The width-rounded element size of a compress format (R200); `none` for a format that is not accepted. -/
def compressSize (fmt : Nat) : Option Nat :=
  if fmt ≤ 0x0D ∨ fmt = 0x11 then some (ceilDiv (fmtBits fmt) 8) else none

/-- The zero fields of descriptor words 0 to 3 are zero (R199). -/
def descZeros (w0 w1 w2 w3 : Word) : Bool :=
  fld w0 63 58 == 0 && fld w0 15 14 == 0 && fld w1 63 48 == 0 && fld w2 63 48 == 0 && w3 == 0

/-- The kind allows the direction (R200). -/
def dirAllowed (kind : Nat) (dir : Bool) : Bool :=
  match kind with
  | 0 => !dir | 3 => !dir | 4 => !dir | 6 => !dir
  | 1 => dir | 2 => dir | 5 => dir
  | n => n ≤ 10

/-- The checks of `sbind` on a descriptor, without those of neighbours and headers (R200, R202). -/
def Slot.bindable (s : Slot) (w3 : Word) : Bool :=
  descZeros s.w0 s.w1 s.w2 w3 && s.kind ≤ 10 && dirAllowed s.kind s.dir && [1, 2, 4, 8, 16].contains s.esize &&
  (s.isV || s.esize ≤ 8) &&
  (if s.kind ≤ 1 then s.base % s.esize == 0
   else if s.kind ≤ 3 then s.base % 16 == 0 && compressSize s.fmt == some s.esize
   else true) &&
  (s.kind != 2 || valuesOff s.n0 ≤ s.res)

/-- Thread sets of the core that are held: with a bound slot, or in a chorus from the moment it begins (R22, R269). -/
def Core.heldCount (k : Core) : Nat := ((List.range 4).filter fun t => (k.tset t).held).length

/-- The header of a compressed object agrees with itself and with the descriptor (R202). -/
def headerOk (h : Word) (s : Slot) : Bool :=
  let n := fld h 47 32
  let nnz := fld h 31 16
  let len := ceilDiv (valuesOff n + ceilDiv (nnz * fmtBits (fld h 52 48)) 8) 16 * 16
  fld h 15 0 == len && nnz ≤ n && n == s.n0 && fld h 52 48 == s.fmt

/-- An 8-byte load of the own core by the instruction, under the waits of R185. -/
def loadOwn (off : Nat) : Act Word := do
  return wd (← loadPlace (.own off) 8 (wd off))

/-- The own-core offset of a descriptor, card or record of `n` bytes that must be aligned to `al` (R75, R76). -/
def ownRecord (a : Word) (n al : Nat) : Act Nat := do
  let p ← checkElem a al .own false false
  require (p.off + n ≤ 65536) { faultOf Cause.address with addr := a }
  return p.off

/-- FMT of a compressed stream whose format is not accepted, which the record carries; else zero (R32, R200). -/
def Slot.refusedFmt (s : Slot) : Word := if (s.kind = 2 ∨ s.kind = 3) ∧ compressSize s.fmt = none then wd s.fmt else 0

/-- `sbind` (R200). -/
def semSbind (a : Args) : Act Unit := do
  srcPort false a.s
  let i := a.d.toNat
  let ea ← readX a.s
  let off ← ownRecord ea 32 16
  let w0 ← loadOwn off
  let w1 ← loadOwn (off + 8)
  let w2 ← loadOwn (off + 16)
  let w3 ← loadOwn (off + 24)
  let t ← me
  let m ← get
  let s : Slot := { bnd := true, w0 := w0, w1 := w1, w2 := w2 }
  require (s.bindable w3 && !(t.slot i).bnd && (t.portOf s.isV (BitVec.ofNat 5 (24 + s.port))).isNone &&
    (s.kind < 7 || (m.neighbour m.here s.linkDir).isSome)) { portTrap with addr := ea, data := s.refusedFmt }
  if s.kind = 3 then
    let h ← loadOwn s.base
    require (headerOk h s) { portTrap with addr := wd s.base }
    bind i { s with mism := bit h 53 != t.tc }
  else bind i s
where
  /-- Bind the slot, unless a fourth thread set of the core would be held (R22). -/
  bind (i : Nat) (s : Slot) : Act Unit := do
    let t ← me
    let k ← myCore
    require (t.held || k.heldCount < 3)
      { faultOf Cause.streamBindLimit with index := BitVec.ofNat 16 i }
    modMe fun t => { t.setSlot i s with prt := true }

/-! ## Draining (R106, R202, R353) -/

/-- Nothing holds a stream's write to these words of the own core back: unfilled copies, jobs, matrix operations, and earlier
stores of the party that are not accepted (R137, R185, R207, R230, R279). -/
def Mach.drainGate (m : Mach) (c t : Nat) (ws : List Nat) : Bool :=
  ws.all fun w =>
    ((m.core c).aboveMark (8 * w) 8).isNone && !(m.core c).jobBlocks (8 * w) 8 true && !m.heldRange c (8 * w) 8 &&
    !m.unaccepted c t c (8 * w) 8

/-- Write one 8-byte word of a compressed object. -/
def Core.putWord (k : Core) (a v : Nat) : Core := k.store64 a (wd v)

/-- The words of a compressed object that become complete as element `v` is drained, and the slot after it (R353). -/
def Core.compressOne (k : Core) (s : Slot) (v : V128) : Core × Slot :=
  let w := fmtBits s.fmt
  let x := s.clipFmt v
  let j := s.moved
  let nz := x != 0
  let bits := s.bitWord ||| (if nz then wd (2 ^ (j % 64)) else 0)
  let (k, bits) := if j % 64 = 63 then (k.store64 (s.base + 8 + 8 * (j / 64)) bits, 0) else (k, bits)
  let pos := s.nnzOut * w
  let acc := s.valWord + (if nz then x * 2 ^ (pos % 64) else 0)
  let full := nz && 64 ≤ pos % 64 + w
  let k := if full then k.putWord (s.base + valuesOff s.n0 + 8 * (pos / 64)) acc else k
  (k, { s with moved := j + 1, bitWord := bits, valWord := if full then acc / 2 ^ 64 else acc,
               nnzOut := if nz then s.nnzOut + 1 else s.nnzOut })

/-- The object is finished: its incomplete words, its padding, and its header last (R202, R353). -/
def Core.compressEnd (k : Core) (s : Slot) (tc : Bool) : Core × Slot :=
  let w := fmtBits s.fmt
  let words := ceilDiv s.n0 64
  let k := if s.moved % 64 = 0 then k else k.store64 (s.base + 8 + 8 * (s.moved / 64)) s.bitWord
  let k := (List.range words).foldl (fun k i => if ceilDiv s.moved 64 ≤ i then k.store64 (s.base + 8 + 8 * i) 0 else k) k
  let v0 := s.base + valuesOff s.n0
  let bits := s.nnzOut * w
  let k := if bits % 64 = 0 then k else k.putWord (v0 + 8 * (bits / 64)) s.valWord
  let len := objectSize s s.nnzOut
  let k := (List.range (len / 8)).foldl
    (fun k i => if v0 + 8 * ceilDiv bits 64 ≤ s.base + 8 * i then k.store64 (s.base + 8 * i) 0 else k) k
  let h := len + s.nnzOut * 2 ^ 16 + s.n0 * 2 ^ 32 + s.fmt * 2 ^ 48 + b2n tc * 2 ^ 53
  (k.putWord s.base h, { s with header := true })

/-- The words of local memory that draining the oldest element may write. -/
def Slot.drainWords (s : Slot) : List Nat := ({ s with fifo := s.fifo.take 1 } : Slot).undrainedWords

/-- Drain the oldest element of an output slot of thread set `t` of core `c`, where nothing holds it back: into local
memory, or towards the neighbour (R106, R107). DESIGN CHOICE: FLT falls when the element at which draining stood still is written. -/
def Mach.drainSlot (m : Mach) (c t i : Nat) : Option Mach :=
  let k := m.core c
  let s := (k.tset t).slot i
  match s.fifo with
  | [] => none
  | v :: vs =>
    if !s.bnd then none
    else if s.kind = 1 then
      if !m.drainGate c t s.drainWords then none
      else
        match k.drainFault s with
        | some (cz, a) =>
          if s.flt then none
          else some (m.setCore c (k.modTs t (·.setSlot i { s with flt := true, fault := some (cz, a) })))
        | none =>
          some (m.setCore c (((k.store s.drainCells).charge 4).modTs t
            (·.setSlot i { s with fifo := vs, moved := s.moved + 1, flt := false, fault := none })))
    else if s.kind = 2 then
      if !m.drainGate c t s.drainWords then none
      else
        let (k, s) := k.compressOne { s with fifo := vs } v
        let (k, s) := if s.moved = s.n0 then k.compressEnd s s.pushTc else (k, s)
        some (m.setCore c ((k.charge 4).modTs t (·.setSlot i s)))
    else if 7 ≤ s.kind && s.dir then m.passElem c t i
    else none

/-! ## Filling (R106) -/

/-- The enqueue end that feeds a dequeue end: its thread set and slot, while each names the other (R200). -/
def Core.peerOf (k : Core) (t i : Nat) : Option (Nat × Nat) :=
  let s := (k.tset t).slot i
  let q := (k.tset s.aux).slot s.peer
  if s.kind = 6 ∧ q.bnd ∧ q.kind = 5 ∧ q.aux = t ∧ q.peer = i then some (s.aux, s.peer) else none

/-- Read the next element of an input slot of thread set `t` of core `c` into its FIFO, where nothing holds it back. A fault that
reading it meets stops the filling; FLT rises when a pop reaches the element (R58, R106). -/
def Mach.fillSlot (m : Mach) (c t i : Nat) : Option Mach :=
  let k := m.core c
  let s := (k.tset t).slot i
  if !s.bnd || s.dir || 8 ≤ s.fifo.length || s.fault.isSome then none
  else if s.kind = 6 then
    match k.peerOf t i with
    | none => none
    | some (u, j) =>
      let q := (k.tset u).slot j
      match q.fifo with
      | [] => none
      | v :: vs =>
        some (m.setCore c ((k.modTs u (·.setSlot j { q with fifo := vs })).modTs t
          (·.setSlot i { s with fifo := s.fifo ++ [s.clip v] })))
  else
    match m.fillOne c t i s with
    | none => none
    | some (.ok (v, s')) =>
      let k := (k.fillRanges s).foldl (fun k a => k.correct a.1 a.2) k
      some (m.setCore c ((k.charge 4).modTs t (·.setSlot i { s' with fifo := s.fifo ++ [v] })))
    | some (.error r) => some (m.setCore c (k.modTs t (·.setSlot i { s with fault := some (r.cause, r.addr) })))

/-! ## The remaining stream forms (R203) -/

/-- Clear a slot; kmode.PRT falls when none remains bound (R203). -/
def ThreadSet.unbind (t : ThreadSet) (i : Nat) : ThreadSet :=
  let t := t.setSlot i {}
  { t with prt := t.anyBound }

/-- Close slot `i`. DEDUCED: an element that an uncorrectable word keeps from being written raises the memory-ECC fault that a push
would, and the close restarts when the word is good (R106, R203, R353; log entry on draining). -/
def closeSlot (i : Nat) : Act Unit := do
  let t ← me
  let k ← myCore
  let m ← get
  let s := t.slot i
  require s.bnd portTrap
  match if m.drainGate m.here m.tsNo s.drainWords then k.drainFault s else none with
  | some (cz, a) => throw (.streamFault i (s.faultRec i cz a))
  | none => pure ()
  stallUntil (!s.dir || s.fifo.isEmpty)
  if s.kind = 2 && !s.header && !s.flt then
    match k.wordsFault (s.endWords s.pos.toNat s.nnz) with
    | some (cz, a) => throw (.streamFault i (s.faultRec i cz a))
    | none => pure ()
    stallUntil (m.drainGate m.here m.tsNo ((s.endWords s.pos.toNat s.nnz).map (· / 8)))
    modMyCore fun k => (k.compressEnd s t.tc).1
  else pure ()
  modMe (·.unbind i)

/-- `sclose` (R203). -/
def semSclose (a : Args) : Act Unit := closeSlot a.d.toNat

/-- `sstat` (R58, R203). -/
def semSstat (a : Args) : Act Unit := do
  dstPort false a.d
  let on ← predOn a
  writeRes a on ((← me).slot a.imm.toNat).status

/-- `sseek` (R203). -/
def semSseek (a : Args) : Act Unit := do
  srcPort false a.s
  let i := a.d.toNat
  let n := (← readX a.s).toNat
  let s := (← me).slot i
  let k ← myCore
  require (s.bnd && (s.kind ≤ 1 || s.kind == 4) && n ≤ (k.slotTotal s).getD 0) portTrap
  modMe (·.setSlot i { s with fifo := [], pos := BitVec.ofNat 32 n, moved := n, eos := false, flt := false, fault := none })

/-- `beos` (R203). -/
def semBeos (a : Args) : Act Unit := do
  let t ← me
  if t.eos then goTo t a else pure ()
where
  /-- Take the branch (R154). -/
  goTo (t : ThreadSet) (a : Args) : Act Unit := modify fun m => { m with npc := t.pc + (a.imm <<< 1).setWidth 14, taken := true }

/-! ## The instructions and events -/

/-- `sbind` (R200). -/
def execSbind (a : Args) (s : State) : Host.Outcome State Fault Refusal := issue (semSbind a) s

/-- `sclose` (R203). -/
def execSclose (a : Args) (s : State) : Host.Outcome State Fault Refusal := issue (semSclose a) s

/-- `sstat` (R203). -/
def execSstat (a : Args) (s : State) : Host.Outcome State Fault Refusal := issue (semSstat a) s

/-- `sseek` (R203). -/
def execSseek (a : Args) (s : State) : Host.Outcome State Fault Refusal := issue (semSseek a) s

/-- `beos` (R203). -/
def execBeos (a : Args) (s : State) : Host.Outcome State Fault Refusal := issue (semBeos a) s

/-- `beos` of page 8 (R203). -/
def execBeosP8 (a : Args) (s : State) : Host.Outcome State Fault Refusal := issue (semBeos a) s

/-- STREAM_FILL (R106). -/
def execStreamFill (c t i : Nat) (s : State) : Host.Outcome State Fault Refusal :=
  event (fun m => (m.fillSlot c t i).getD m) s

/-- STREAM_DRAIN (R106). -/
def execStreamDrain (c t i : Nat) (s : State) : Host.Outcome State Fault Refusal :=
  event (fun m => (m.drainSlot c t i).getD m) s

/-- The element of delivery `id` has reached its link buffer, after those sent before it (R107). -/
def Mach.linkArrive (m : Mach) (id : Nat) : Option Mach :=
  match m.delivery id with
  | none => none
  | some d =>
    match d.body with
    | .element dir _ v =>
      match d.phase with
      | .flying due =>
        if due ≤ m.clk then
          some ((m.modCore d.dst fun k => { k with link := vset k.link dir (vget k.link [] dir ++ [v]) }).dropDelivery d)
        else none
      | _ => none
    | _ => none

/-- LINK_ELEMENT_ARRIVAL (R107). -/
def execLinkElementArrival (id : Nat) (s : State) : Host.Outcome State Fault Refusal :=
  event (fun m => (m.linkArrive id).getD m) s

end Sys2Proof.Machine
end

