-- ==== Sys2Proof/Machine/Far.lean ====
section
/-! DEFINITION. Stagehands: encrypted HBM and stage memory, the callboard and stage directory, the choice of quanta, and
far requests with their answers and wakes (04_memories R86 to R90; 05_queues R108, R110; 06_tables R114 to R119;
10_isa_memory R196, R204, R210; 15_scheduler R299, R300; 22_prog_wings R360 to R362). -/

namespace Sys2Proof.Machine

/-! ## HBM and stage memory under keys (R88) -/

/-- The key that a 64-byte unit of the channel was last written under. -/
def Stagehand.unitKeyAt (h : Stagehand) (u : Nat) : BitVec 512 :=
  (Map.find h.unitKey u).getD (Map.get h.pageKey 0 (u / 1024))

/-- A 64-byte unit of the channel, read under partition `q`'s key: what was written where the keys agree, and the
decryption of the other key's encryption where they do not (R88). -/
def Stagehand.readUnit (h : Stagehand) (s q u : Nat) : List Byte :=
  let bs := Memory.bytes h.hbm (64 * u) 64
  if h.unitKeyAt u = h.keyOf q then bs else reKey (h.unitKeyAt u) (h.keyOf q) (s * 2 ^ 34 + u) bs

/-- `n` bytes of the channel from `a`, read under partition `q`'s key. -/
def Stagehand.hbmRead (h : Stagehand) (s q a n : Nat) : List Byte :=
  (((List.range (ceilDiv (a % 64 + n) 64)).flatMap fun i => h.readUnit s q (a / 64 + i)).drop (a % 64)).take n

/-- A unit of `[a, a + n)` that reads with an uncorrectable error (R89). -/
def Stagehand.hbmBad (h : Stagehand) (a n : Nat) : Bool := h.badUnit.any fun u => a / 64 ≤ u && 64 * u < a + n

/-- One unit of the channel written whole under partition `q`'s key. -/
def Stagehand.writeUnit (h : Stagehand) (q u : Nat) (bs : List Byte) : Stagehand :=
  { h with
    hbm := Memory.pokes h.hbm (64 * u) bs
    unitKey := if h.keyOf q = Map.get h.pageKey 0 (u / 1024) then Map.erase h.unitKey u else Map.set h.unitKey u (h.keyOf q)
    badUnit := h.badUnit.filter (· != u) }

/-- The bytes `bs` written into the channel from `a`; a unit written in part keeps its other bytes as they read. -/
def Stagehand.hbmWrite (h : Stagehand) (s q a : Nat) (bs : List Byte) : Stagehand :=
  (List.range (ceilDiv (a % 64 + bs.length) 64)).foldl (fun h i =>
    let u := a / 64 + i
    let old := h.readUnit s q u
    h.writeUnit q u ((List.range 64).map fun j =>
      let p := 64 * u + j
      if a ≤ p then (bs[p - a]?).getD (old.getD j 0) else old.getD j 0)) h

/-- A unit of `[o, o + n)` of the block reads with an uncorrectable error (R89). -/
def Blk.badRead (b : Blk) (o n : Nat) : Bool := b.bad.any fun u => meets o n (64 * u) (64 * u + 64)

/-- A unit that a write to `[o, o + n)` of the block covers in part, and so reads first, has an uncorrectable error (R80, R89). -/
def Blk.badWrite (b : Blk) (o n : Nat) : Bool :=
  b.bad.any fun u => meets o n (64 * u) (64 * u + 64) && (64 * u < o || o + n < 64 * u + 64)

/-- Bytes written to a block on stage; units written whole are good again, and DIRTY is set (R80, R89, R117). -/
def Blk.write (b : Blk) (o : Nat) (bs : List Byte) : Blk :=
  { b with data := Memory.pokes b.data o bs, dirty := true, bad := b.bad.filter fun u => !meets o bs.length (64 * u) (64 * u + 64) }

/-- Bytes of a block on stage, read under the partition's key (R88). -/
def Blk.read (b : Blk) (s : Nat) (key : BitVec 512) (o n : Nat) : List Byte :=
  if b.key = key then Memory.bytes b.data o n
  else
    let u0 := 2 ^ 127 + s * 2 ^ 34 + Config.stageUnit s b.part b.blk
    (((List.range (ceilDiv (o % 64 + n) 64)).flatMap fun i =>
      reKey b.key key (u0 + o / 64 + i) (Memory.bytes b.data (64 * (o / 64 + i)) 64)).drop (o % 64)).take n

/-! ## Entries (R117, R118) -/

/-- The entry is that of block `blk` of partition `q`. -/
def Blk.isFor (b : Blk) (q blk : Nat) : Bool := b.part == q && b.blk == blk

/-- The stage-directory entry of a block. -/
def Stagehand.inDir (h : Stagehand) (q blk : Nat) : Option Blk := h.dir.find? (·.isFor q blk)

/-- The callboard entry of a block. -/
def Stagehand.onBoard (h : Stagehand) (q blk : Nat) : Option (Nat × Blk) := h.board.find? (·.2.isFor q blk)

/-- The stagehand with a directory entry changed. -/
def Stagehand.modDir (h : Stagehand) (q blk : Nat) (f : Blk → Blk) : Stagehand :=
  { h with dir := h.dir.map fun b => if b.isFor q blk then f b else b }

/-- The stagehand with a callboard entry changed. -/
def Stagehand.modBoard (h : Stagehand) (q blk : Nat) (f : Blk → Blk) : Stagehand :=
  { h with board := h.board.map fun ib => (ib.1, if ib.2.isFor q blk then f ib.2 else ib.2) }

/-- The block of a partition on stage or draining, from which requests are served (R117). -/
def Stagehand.served_ (h : Stagehand) (q blk : Nat) : Option Blk :=
  (h.inDir q blk).filter fun b => b.st = .onStage || b.st = .draining

/-- A block that is being evicted (R117). -/
def Stagehand.evicting (h : Stagehand) (q blk : Nat) : Bool := (h.inDir q blk).any (·.st = .evicting)

/-- A wings record counted at an entry: COUNT rises and FIRST is the least kclk (R117). -/
def Blk.park (b : Blk) (w : Wing) : Blk :=
  { b with first := if b.wings = [] then w.kclk else min b.first w.kclk, wings := b.wings ++ [w] }

/-- The lowest free place of the callboard. -/
def Stagehand.freeEntry (h : Stagehand) : Option Nat := (List.range 1024).find? fun i => (Map.find h.board i).isNone

/-- A new entry in ABSENT for the block of `w` at window `win`. -/
def Partition.newEntry (p : Partition) (q win : Nat) (a : Nat) : Blk :=
  let blk := p.blockOf win a
  let l := match p.home a with
    | some (_, _, l) => l
    | none => 0
  let size := (p.window win).blkBytes
  { part := q, win := win, blk := blk, size := size, off := l / size * size }

/-- A wings record for block `blk` of window `win` of partition `q`. -/
def Partition.wingFor (p : Partition) (q win blk : Nat) (v : Wing) : Bool := v.part == q && p.blockOf win (fld v.addr 59 0) == blk

/-- The records on the overflow list for a block, in their order (R118). -/
def Stagehand.overflowOf (h : Stagehand) (p : Partition) (q win blk : Nat) : List Wing := h.overflow.filter (p.wingFor q win blk)

/-- The overflow list without the records for a block. -/
def Stagehand.dropOverflow (h : Stagehand) (p : Partition) (q win blk : Nat) : Stagehand :=
  { h with overflow := h.overflow.filter fun v => !p.wingFor q win blk v }

/-- The oldest overflow record's block takes a free callboard entry, with every overflow record for it, or its records join the
entry that the block has (R118); a park of the same cycle takes the free entry first (R129). -/
def Mach.refill (m : Mach) (s : Nat) : Option Mach :=
  let h := m.hand s
  match h.overflow with
  | [] => none
  | w :: _ =>
    let p := m.part w.part
    match p.home (fld w.addr 59 0) with
    | none => some (m.modHand s fun h => { h with overflow := h.overflow.drop 1 })
    | some (win, _, _) =>
      let e := p.newEntry w.part win (fld w.addr 59 0)
      let all (b : Blk) : Blk := (h.overflowOf p w.part win e.blk).foldl Blk.park b
      let h' := h.dropOverflow p w.part win e.blk
      if (h.inDir w.part e.blk).isSome then some (m.modHand s fun _ => h'.modDir w.part e.blk all)
      else if (h.onBoard w.part e.blk).isSome then some (m.modHand s fun _ => h'.modBoard w.part e.blk all)
      else h.freeEntry.map fun i => m.modHand s fun _ => { h' with board := Map.set h'.board i (all e) }

/-! ## Quota (R86, R360) -/

/-- 4 KiB units of page-table area in use, in an area whose words are `t`: the level-1 tables, and the units that hold a level-2
table (R360). -/
def Partition.tableUnits (p : Partition) (t : Nat → Word) (sh : Nat) : Nat :=
  let l1 := p.level1 sh 8 / 4096
  let l2 := (List.range 8).flatMap fun i =>
    let w := p.window i
    if w.serves sh then
      (List.range w.entries).filterMap fun j =>
        let e := t (p.level1 sh i + 8 * j)
        if bit e 63 && !bit e 61 && fld e 23 0 < p.tableArea then some (fld e 23 0 / 4096) else none
    else []
  l1 + (l2.filter (l1 ≤ ·)).eraseDups.length

/-- The wings records that stand at the stagehand (R108, R117, R118). -/
def Stagehand.wings (h : Stagehand) : List Wing := (h.board.flatMap (·.2.wings)) ++ (h.dir.flatMap (·.wings)) ++ h.overflow

/-- 64-byte wings records of partition `q` that stand in its quota. -/
def Stagehand.wingsHeld (h : Stagehand) (q : Nat) : Nat := (h.wings.filter fun w => w.part == q && !w.reserve).length

/-- Quota units of partition `q` in use at the stagehand: page tables, blocks on stage and being fetched, and wings records of 64
bytes (R86, R90, R360). -/
def Mach.quotaUsed (m : Mach) (s q : Nat) : Nat :=
  let h := m.hand s
  (m.part q).tableUnits (m.tableWord s q) s +
  ((h.dir.filter (·.part == q)).map (·.size / 4096)).sum +
  (((h.board.map (·.2)).filter fun b => b.part == q && b.st = .fetching && !b.waits).map (·.size / 4096)).sum +
  ceilDiv (h.wingsHeld q) 64

/-- Room for `units` more within the quota (R119). -/
def Mach.hasQuota (m : Mach) (s q units : Nat) : Bool := m.quotaUsed s q + units ≤ (m.part q).quota.toNat

/-- One more wings record finds room in its partition's quota (R86). -/
def Mach.wingRoom (m : Mach) (s q : Nat) : Bool := (m.hand s).wingsHeld q % 64 != 0 || m.hasQuota s q 1

/-- Room for `units` more once the partition's wings records stand in the reserve, if they find room there. DEDUCED: room for one block
of the largest size always remains (R360), and a record that finds no room in the quota stands in the reserve (R86): so
records give way to a fetch that could otherwise never start. DESIGN CHOICE: no park is refused and the room always remains, so records
past the 1,024 of the reserve stand there too, and count in no quota. -/
def Mach.roomBeside (m : Mach) (s q units : Nat) : Bool :=
  m.quotaUsed s q - ceilDiv ((m.hand s).wingsHeld q) 64 + units ≤ (m.part q).quota.toNat

/-- The wings records of partition `q` move into the reserve (R86, R360). -/
def Stagehand.giveWay (h : Stagehand) (q : Nat) : Stagehand :=
  let f (w : Wing) : Wing := if w.part == q then { w with reserve := true } else w
  let g (b : Blk) : Blk := { b with wings := b.wings.map f }
  { h with board := h.board.map fun (i, b) => (i, g b), dir := h.dir.map g, overflow := h.overflow.map f }

/-- A park on a block that is neither on stage nor draining: a free entry also takes the records that the overflow list holds for the
block, which are older (R117, R118, R129). A record that finds no room in the quota stands in the reserve (R86). -/
def Mach.parkFar (m : Mach) (s win : Nat) (w : Wing) : Mach :=
  let p := m.part w.part
  let blk := p.blockOf win (fld w.addr 59 0)
  let w := { w with reserve := !m.wingRoom s w.part }
  m.modHand s fun h =>
    if (h.inDir w.part blk).isSome then h.modDir w.part blk (·.park w)
    else if (h.onBoard w.part blk).isSome then h.modBoard w.part blk (·.park w)
    else
      match h.freeEntry with
      | some i =>
        let e := (h.overflowOf p w.part win blk).foldl Blk.park (p.newEntry w.part win (fld w.addr 59 0))
        { h.dropOverflow p w.part win blk with board := Map.set h.board i (e.park w) }
      | none => { h with overflow := h.overflow ++ [w] }

/-! ## Evictions (R117, R119) -/

/-- An evicted block's entry leaves the directory: with waiters it goes to the callboard, or its records to the overflow
list (R117). -/
def Mach.evicted (m : Mach) (s : Nat) (b : Blk) : Mach :=
  let m := m.modHand s fun h => { h with dir := h.dir.filter fun e => !e.isFor b.part b.blk }
  if b.wings = [] then m
  else
    m.modHand s fun h =>
      match h.freeEntry with
      | some i =>
        let e : Blk :=
          { part := b.part, win := b.win, blk := b.blk, size := b.size, off := b.off, first := b.first, wings := b.wings, last := b.last }
        { h with board := Map.set h.board i e }
      | none => { h with overflow := h.overflow ++ b.wings }

/-- Start the eviction of a block: at once where it is clean, else its write-back begins (R117). -/
def Mach.evict (m : Mach) (s : Nat) (b : Blk) : Mach :=
  if b.dirty then
    m.modHand s fun h => h.modDir b.part b.blk fun e => { e with st := .evicting, quanta := ceilDiv e.size 4096, due := none }
  else m.evicted s b

/-- Blocks under POL = 1 that are on stage with no waiter and no pin are evicted at once (R117). -/
def Mach.settle (m : Mach) (s : Nat) : Mach :=
  ((m.hand s).dir.filter fun b =>
    b.st = .onStage && b.wings = [] && b.pins = [] && ((m.part b.part).window b.win).pol).foldl (fun m b => m.evict s b) m

/-- The block that R119 evicts: on stage, without waiters and pins, of least LAST. DESIGN CHOICE: of several, the one that has been
longest in the directory, since the rule names none. -/
def Stagehand.evictable (h : Stagehand) (q : Nat) : Option Blk :=
  (h.dir.filter fun b => b.part == q && b.st = .onStage && b.wings = [] && b.pins = []).foldl (fun o b =>
    match o with
    | none => some b
    | some c => if b.last < c.last then some b else o) none

/-! ## Moves: copies, gathers, segments, RoCE parts and stage programs (R204, R206, R209, R210) -/

/-- The move writes far memory. -/
def Move.isWrite (v : Move) : Bool :=
  match v.kind with
  | .rdmaWrite _ _ => true
  | .stage _ d => d.isSome
  | _ => false

/-- The far address of the move in [59:0]. -/
def Move.at_ (v : Move) : Nat := fld v.addr 59 0

/-- The block in which the move's next byte lies. -/
def Mach.moveBlk (m : Mach) (v : Move) : Nat := (m.part v.part).blockOf v.win v.at_

/-- Bytes of the next piece: at most 4 KiB, within one unit (R299). -/
def Move.piece (v : Move) : Nat := min v.len (4096 - v.off % 4096)

/-- The move after its next `n` bytes. -/
def Move.advance (v : Move) (n : Nat) : Move :=
  { v with
    addr := v.addr + wd n, off := v.off + n, len := v.len - n, xpend := false
    kind := match v.kind with
      | .copy c ch d => .copy c ch (d + n)
      | .gather c j e d => .gather c j e (d + n)
      | .fetch c sl d => .fetch c sl d
      | .rdmaRead x a => .rdmaRead x (a + n)
      | .rdmaWrite x d => .rdmaWrite x (d.drop n)
      | .stage p d => .stage p (d.map (·.drop n)) }

/-- The bytes that a write move stores next. -/
def Move.bytes (v : Move) (n : Nat) : List Byte :=
  match v.kind with
  | .rdmaWrite _ d => d.take n
  | .stage _ (some d) => d.take n
  | _ => []

/-- The core to which a move's bytes go. -/
def Move.core (v : Move) : Option Nat :=
  match v.kind with
  | .copy c _ _ => some c
  | .gather c _ _ _ => some c
  | .fetch c _ _ => some c
  | _ => none

/-- The request is a part of RoCE exchange `x`. -/
def Move.ofRdma (v : Move) (x : Nat) : Bool :=
  match v.kind with
  | .rdmaRead y _ => x == y
  | .rdmaWrite y _ => x == y
  | _ => false

/-- A RoCE exchange that has failed, or whose last part is served, is answered; the failed one's other parts fall (R341). -/
def Mach.endRdma (m : Mach) (r : Rdma) : Mach :=
  let m := { m with rdma := m.rdma.filter (·.xid != r.xid) }.send
    (Reply.rdma r.xid (!r.failed) (if r.failed || r.write then [] else Memory.bytes r.data 0 r.len))
  if r.failed then { m with hands := m.hands.map fun sh => (sh.1, { sh.2 with requests := sh.2.requests.filter fun v => !v.ofRdma r.xid }) }
  else m

/-- A RoCE exchange changed. -/
def Mach.modRdma (m : Mach) (x : Nat) (f : Rdma → Rdma) : Mach :=
  match m.rdma.find? (·.xid == x) with
  | none => m
  | some r =>
    let r := f r
    if r.failed || r.left == 0 then m.endRdma r else { m with rdma := m.rdma.map fun q => if q.xid == x then r else q }

/-- Replace or remove a request of the stagehand. -/
def Mach.putMove (m : Mach) (s : Nat) (v : Move) : Mach :=
  m.modHand s fun h =>
    { h with requests := if v.len = 0 then h.requests.filter (·.id != v.id)
                         else h.requests.map fun r => if r.id == v.id then v else r }

/-- The bytes of a read piece go to the move's owner after `delay` cycles. -/
def Mach.giveMove (m : Mach) (s : Nat) (v : Move) (bs : List Byte) (delay : Nat) : Mach :=
  match v.kind with
  | .rdmaRead x a => m.modRdma x fun r => { r with data := Memory.pokes r.data a bs, left := r.left - bs.length }
  | .rdmaWrite x _ => m.modRdma x fun r => { r with left := r.left - v.piece }
  | .stage p d =>
    m.modUnit s p fun u =>
      { u with
        ts := { u.ts with notBefore := m.clk + delay }
        answer := match d, u.answer with
          | some _, _ => some (.served [])
          | none, some (.served old) => some (.served (old ++ bs))
          | none, _ => some (.served bs) }
  | _ =>
    match v.core with
    | some c => m.postHand s c v.part (.push v bs) delay
    | none => m

/-- A move ends in a fault (R186, R210, R213, R341). -/
def Mach.failMove (m : Mach) (s : Nat) (v : Move) (cause : Nat) : Mach :=
  let m := m.putMove s { v with len := 0 }
  match v.kind with
  | .rdmaRead x _ => m.modRdma x fun r => { r with left := r.left - v.len, failed := true }
  | .rdmaWrite x _ => m.modRdma x fun r => { r with left := r.left - v.len, failed := true }
  | .stage p _ => m.modUnit s p fun u => { u with answer := some (.fault (BitVec.ofNat 8 cause) (farAddr v.addr)) }
  | _ =>
    match v.core with
    | some c => m.postHand s c v.part (.moveFault v (BitVec.ofNat 8 cause))
    | none => m

/-- The miss event of a translation (R116). -/
def Mach.missEvent (m : Mach) (s q : Nat) (addr : Word) : Mach :=
  m.runtimeEvent q { faultOf Cause.translationMiss with addr := farAddr addr, index := BitVec.ofNat 16 s }

/-- A request whose translation meets V = 0 with FAT = 0 stays pending; the miss event is sent once (R116). -/
def Mach.moveMisses (m : Mach) (s : Nat) (v : Move) : Mach :=
  if v.xpend then m else (m.putMove s { v with xpend := true }).missEvent s v.part v.addr

/-- Channel time of `c` cycles is counted in the partition's USED, and its energy class 4 is charged (R138, R139). -/
def Mach.use (m : Mach) (s q c : Nat) : Mach :=
  (m.modHand s fun h => { h with used := if c = 0 then h.used else Map.set h.used q (Map.get h.used 0 q + c) }).charge q 16

/-- A transfer of `n` bytes, and the walk of `walk` cycles before it, hold the channel and are charged to the partition
(R115, R299). -/
def Mach.channel (m : Mach) (s q n walk : Nat) : Mach :=
  let c := ceilDiv (n * 87) 4096 + walk
  (m.modHand s fun h => { h with chanFree := m.clk + c }).use s q c

/-- One piece of a move served from its block on stage. A write sets DIRTY; its walk is charged, it faults where the mapping has
WR = 0 or is fatal, and waits on a miss (R89, R114, R116, R117, R299). -/
def Mach.pieceStage (m : Mach) (s : Nat) (v : Move) (b : Blk) : Mach :=
  let n := v.piece
  let o := v.at_ - 4096 * b.blk
  if v.isWrite then
    let walk := m.walkTime s v.part v.win v.off
    match m.translate s v.part v.win v.off with
    | (.miss, m) => (m.use s v.part (if v.xpend then 0 else walk)).moveMisses s v
    | (.fatal c, m) => (m.use s v.part walk).failMove s v c
    | (.ok _ false, m) => (m.use s v.part walk).failMove s v Cause.farWrite
    | (.ok _ true, m) =>
      let m := m.use s v.part walk
      if b.badWrite o n then m.failMove s v Cause.memoryEcc
      else
        let m := m.modHand s fun h => h.modDir v.part b.blk (·.write o (v.bytes n))
        (m.giveMove s v [] 0).putMove s (v.advance n)
  else if b.badRead o n then (m.use s v.part 0).failMove s v Cause.memoryEcc
  else ((m.use s v.part 0).giveMove s v (b.read s ((m.hand s).keyOf v.part) o n) 0).putMove s (v.advance n)

/-- The mapping of a request is not known to miss (R116). -/
def Mach.moveMapped (m : Mach) (s : Nat) (v : Move) : Bool := !v.xpend || m.walkAt s v.part v.win v.off != .miss

/-- Pieces served from stage memory, as long as the next one's block is there and, for a write, its mapping does not miss. -/
def Mach.serveMove (m : Mach) (s id : Nat) : Nat → Mach
  | 0 => m
  | n + 1 =>
    match (m.hand s).requests.find? (·.id == id) with
    | none => m
    | some v =>
      if v.isWrite && !m.moveMapped s v then m
      else
        match (m.hand s).served_ v.part (m.moveBlk v) with
        | none => m
        | some b => (m.pieceStage s v b).serveMove s id n

/-- Every request whose block is on stage is served from it; served data on stage uses no channel time (R299). -/
def Mach.serveMoves (m : Mach) (s : Nat) : Mach :=
  ((m.hand s).requests.map (·.id)).foldl (fun m id => m.serveMove s id 40) m

/-- A request that its block on stage can serve now. -/
def Mach.moveOnStage (m : Mach) (s : Nat) : Bool :=
  (m.hand s).requests.any fun v => ((m.hand s).served_ v.part (m.moveBlk v)).isSome && (!v.isWrite || m.moveMapped s v)

/-- The next piece of a move directly in HBM: whether a quantum was served (R204, R210, R299). -/
def Mach.pieceHbm (m : Mach) (s : Nat) (v : Move) : Bool × Mach :=
  let n := v.piece
  let walk := m.walkTime s v.part v.win v.off
  match m.translate s v.part v.win v.off with
  | (.miss, m) => (false, if v.xpend then m else (m.channel s v.part 0 walk).moveMisses s v)
  | (.fatal c, m) => (false, (m.channel s v.part 0 walk).failMove s v c)
  | (.ok a wr, m) =>
    let h := m.hand s
    if v.isWrite then
      if !wr then (false, (m.channel s v.part 0 walk).failMove s v Cause.farWrite)
      else if h.badUnit.any (fun u => a / 64 ≤ u && 64 * u < a + n && (64 * u < a || a + n < 64 * u + 64)) then
        (true, (m.channel s v.part n walk).failMove s v Cause.memoryEcc)
      else
        let m := (m.channel s v.part n walk).modHand s fun h => h.hbmWrite s v.part a (v.bytes n)
        (true, (m.giveMove s v [] (ceilDiv (n * 87) 4096 + walk)).putMove s (v.advance n))
    else if h.hbmBad a n then (true, (m.channel s v.part n walk).failMove s v Cause.memoryEcc)
    else
      let m := m.channel s v.part n walk
      (true, (m.giveMove s v (h.hbmRead s v.part a n) (ceilDiv (n * 87) 4096 + walk)).putMove s (v.advance n))

/-- A request that the channel can serve now: its block is neither on stage nor being written back, and its mapping is
not known to miss (R116, R204). -/
def Mach.moveReady (m : Mach) (s : Nat) (v : Move) : Bool :=
  let h := m.hand s
  !h.evicting v.part (m.moveBlk v) && (h.served_ v.part (m.moveBlk v)).isNone && m.moveMapped s v

/-! ## The choice of quanta (R119, R299, R300) -/

/-- The classes of work (R299). -/
inductive Class where
  | fetch | copy | storer | evict
  deriving DecidableEq, Repr

/-- The class cycle (R300). -/
def classCycle : List Class := [.fetch, .fetch, .fetch, .fetch, .copy, .copy, .storer, .evict]

/-- The candidates of R119 of partition `q`. -/
def Mach.candidates (m : Mach) (s q : Nat) : List Blk :=
  let h := m.hand s
  (h.board.map (·.2)).filter fun b =>
    b.part == q && b.st = .absent && b.wings != [] && !b.xpend && b.fault.isNone &&
    (m.hasQuota s q (b.size / 4096) || (h.evictable q).isSome || m.roomBeside s q (b.size / 4096))

/-- `a` goes before `b` by least FIRST, then least block. -/
def Blk.older (a b : Blk) : Bool := a.first < b.first || (a.first == b.first && a.blk < b.blk)

/-- The first of a list by an order. -/
def best {α : Type} (lt : α → α → Bool) : List α → Option α
  | [] => none
  | a :: as =>
    match best lt as with
    | none => some a
    | some b => if lt b a then some b else some a

/-- The pick of R119. -/
def Mach.pick (m : Mach) (s q : Nat) : Option Blk :=
  let cand := m.candidates s q
  let old := cand.filter fun b => 2 ^ (m.part q).strv.toNat < m.clk - b.first
  match best Blk.older old with
  | some b => some b
  | none =>
    best (fun a b => b.wings.length < a.wings.length || (a.wings.length == b.wings.length && a.older b)) cand

/-- The block of partition `q` in a transfer of the class with quanta left. -/
def Mach.underWay (m : Mach) (s q : Nat) (c : Class) : Option Blk :=
  let h := m.hand s
  let ev (pol : Bool) := h.dir.find? fun b =>
    b.part == q && b.st = .evicting && b.quanta != 0 && ((m.part q).window b.win).pol == pol
  match c with
  | .fetch => (ev false).or ((h.board.map (·.2)).find? fun b => b.part == q && b.st = .fetching && b.quanta != 0)
  | .evict => ev true
  | _ => none

/-- The entry of partition `q` that R119 has chosen and that waits for room. -/
def Mach.waitingPick (m : Mach) (s q : Nat) : Option Blk := ((m.hand s).board.map (·.2)).find? fun b => b.part == q && b.waits

/-- The chosen entry can go on: there is room for it, or another block can be evicted for it. -/
def Mach.pickGoes (m : Mach) (s : Nat) (b : Blk) : Bool :=
  m.hasQuota s b.part (b.size / 4096) ||
    (!((m.hand s).dir.any fun e => e.part == b.part && e.st = .evicting) &&
      (((m.hand s).evictable b.part).isSome || m.roomBeside s b.part (b.size / 4096)))

/-- The class has pending work for partition `q` (R300). -/
def Mach.pending (m : Mach) (s q : Nat) (c : Class) : Bool :=
  match c with
  | .fetch =>
    (m.underWay s q .fetch).isSome ||
      (match m.waitingPick s q with
       | some b => m.pickGoes s b
       | none => m.candidates s q != [])
  | .copy => (m.hand s).requests.any fun v => v.part == q && !v.isWrite && m.moveReady s v
  | .storer => (m.hand s).requests.any fun v => v.part == q && v.isWrite && m.moveReady s v
  | .evict => (m.underWay s q .evict).isSome

/-- Partitions with pending work, ascending (R300). -/
def Mach.workers (m : Mach) (s : Nat) : List Nat := (List.range 16).filter fun q => classCycle.any (m.pending s q)

/-- BUDGET of a partition: 0 while it does not run (R139, R304). -/
def Partition.budget (p : Partition) : Nat := if p.st = .running then p.share.toNat else 0

/-- The partition that R300 serves next. -/
def Mach.nextPart (m : Mach) (s : Nat) : Option Nat :=
  let h := m.hand s
  let used q := Map.get h.used 0 q
  let work := m.workers s
  let floor := work.filter fun q => !h.served.contains q
  let own := work.filter fun q => used q < (m.part q).budget
  match floor with
  | q :: _ => some q
  | [] =>
    match best (fun a b => used a * 65536 / (m.part a).budget < used b * 65536 / (m.part b).budget) own with
    | some q => some q
    | none => best (fun a b => used a < used b) work

/-- One quantum of a transfer under way, after a walk of `walk` cycles: its last one ends it (R115, R299). -/
def Mach.quantum (m : Mach) (s : Nat) (b : Blk) (walk : Nat := 0) : Mach :=
  let m := m.channel s b.part 4096 walk
  let f (e : Blk) : Blk := { e with quanta := e.quanta - 1, due := if e.quanta = 1 then some (m.hand s).chanFree else none }
  m.modHand s fun h => (h.modDir b.part b.blk f).modBoard b.part b.blk fun e => if e.st = .fetching then f e else e

/-- Start the fetch of an entry: its walk, and its first quantum; whether a quantum was served (R116, R117, R299). A walk that misses
leaves it in FETCHING to its end (R361). -/
def Mach.startFetch (m : Mach) (s : Nat) (b : Blk) : Bool × Mach :=
  let walk := m.walkTime s b.part b.win b.off
  match m.translate s b.part b.win b.off with
  | (.miss, m) =>
    (false, (m.channel s b.part 0 walk).modHand s fun h => h.modBoard b.part b.blk fun e =>
      { e with st := .fetching, waits := false, misses := true, due := some (m.clk + walk) })
  | (.fatal c, m) =>
    (false, (m.channel s b.part 0 walk).modHand s fun h => h.modBoard b.part b.blk fun e =>
      { e with st := .fetching, waits := false, fault := some (BitVec.ofNat 8 c), due := some (m.clk + walk) })
  | (.ok a _, m) =>
    let bad := (m.hand s).hbmBad a b.size
    (true, (m.modHand s fun h => h.modBoard b.part b.blk fun e =>
      { e with st := .fetching, waits := false, hbm := a, quanta := ceilDiv e.size 4096,
               fault := if bad then some (BitVec.ofNat 8 Cause.memoryEcc) else none }).quantum s b walk)

/-- Evict until the chosen entry has room, then fetch it; a write-back that must come first takes the quantum, and the entry waits
for it in FETCHING. Whether a quantum was served (R117, R119). -/
def Mach.fetchPick (m : Mach) (s : Nat) (b : Blk) : Nat → Bool × Mach
  | 0 => (false, m)
  | n + 1 =>
    if m.hasQuota s b.part (b.size / 4096) then m.startFetch s b
    else
      match (m.hand s).evictable b.part with
      | none => if m.roomBeside s b.part (b.size / 4096) then (m.modHand s (·.giveWay b.part)).startFetch s b else (false, m)
      | some v => if v.dirty then (true, (m.evict s v).quantum s v) else (m.evict s v).fetchPick s b n

/-- The entry that R119 chooses enters FETCHING, and waits until its fetch has room (R117, R119). -/
def Mach.choosePick (m : Mach) (s : Nat) (b : Blk) : Bool × Mach :=
  let m := m.modHand s fun h => h.modBoard b.part b.blk fun e => { e with st := .fetching, waits := true }
  m.fetchPick s b 4096

/-- Serve one quantum of a class for a partition; whether there was one to serve. -/
def Mach.serveClass (m : Mach) (s q : Nat) (c : Class) : Bool × Mach :=
  match m.underWay s q c with
  | some b => (true, m.quantum s b)
  | none =>
    match c with
    | .fetch =>
      match m.waitingPick s q with
      | some b => m.fetchPick s b 4096
      | none =>
        match m.pick s q with
        | some b => m.choosePick s b
        | none => (false, m)
    | .evict => (false, m)
    | _ =>
      match (m.hand s).requests.find? fun v => v.part == q && v.isWrite == (c == .storer) && m.moveReady s v with
      | some v => m.pieceHbm s v
      | none => (false, m)

/-- QUANTUM_CHOICE: the channel is free and has work. A partition has been served, and its place in the class cycle moves on, when
a quantum has started (R300). -/
def Mach.quantumChoice (m : Mach) (s : Nat) : Option Mach :=
  if m.clk < (m.hand s).chanFree then none
  else
    match m.nextPart s with
    | none => none
    | some q =>
      let at_ := Map.get (m.hand s).place 0 q
      match (List.range 8).find? fun i => ((classCycle[(at_ + i) % 8]?).map (m.pending s q)).getD false with
      | none => none
      | some i =>
        let c := (classCycle[(at_ + i) % 8]?).getD .fetch
        let (quantum, m) := m.serveClass s q c
        some (if quantum then
            m.modHand s fun h =>
              { h with place := Map.set h.place q ((at_ + i + 1) % 8),
                       served := if h.served.contains q then h.served else q :: h.served }
          else m)

/-! ## Ends of transfers (R89, R108, R117) -/

/-- The record of a far fault (R311). -/
def farFault (cause : Byte) (addr : Word) : FaultRec := { cause := cause, addr := farAddr addr }

/-- Cycles until a stagehand may send its next wake (R362). -/
def Mach.wakeWait (m : Mach) (s : Nat) : Nat := (m.hand s).wakeAt - m.clk

/-- Wakes for records in their order, one a cycle of the stagehand, after those that it has still to send (R108, R362). -/
def Mach.sendWakes (m : Mach) (s : Nat) (fault : Wing → Option FaultRec) (ws : List Wing) : Mach :=
  let n := m.wakeWait s
  (ws.zipIdx.foldl (fun m wi => m.postHand s wi.1.who.core wi.1.part (.wake wi.1.who (fault wi.1)) (n + wi.2)) m).modHand s
    fun h => { h with wakeAt := m.clk + n + ws.length }

/-- The entry of a transfer whose last quantum has ended. -/
def Mach.ended (m : Mach) (b : Blk) : Bool := b.due.any (· ≤ m.clk)

/-- FETCH_COMPLETE: the block is on stage and drains; its waiters are woken, writers into a read-only mapping into the
far-write fault (R98, R114, R117). -/
def Mach.fetchComplete (m : Mach) (s q blk : Nat) : Option Mach :=
  match (m.hand s).onBoard q blk with
  | none => none
  | some (i, b) =>
    if b.st = .fetching && b.fault.isNone && !b.misses && m.ended b then
      let h := m.hand s
      let wr := match m.walkAt s q b.win b.off with
        | .ok _ wr => wr
        | _ => true
      let n := m.wakeWait s
      let pins := b.wings.zipIdx.map fun wi => ({ who := some wi.1.who, expires := m.clk + n + wi.2 + 65536 } : Pin)
      let e : Blk :=
        { b with st := .draining, wings := [], pins := pins, first := 0, key := h.keyOf q,
                 data := (Memory.pokes [] 0 (h.hbmRead s q b.hbm b.size)), due := some (m.clk + n + (b.wings.length - 1)) }
      let m := m.modHand s fun h => { h with board := Map.erase h.board i, dir := h.dir ++ [e] }
      let m := m.sendWakes s (fun w => if w.write && !wr then some (farFault (BitVec.ofNat 8 Cause.farWrite) w.addr) else none) b.wings
      some (m.serveMoves s)
    else none

/-- The walk of a fetch has ended in V = 0 with FAT = 0: the entry is ABSENT again with XPEND set, and the miss is reported (R116,
R361). DEDUCED: where a write has changed the table during the walk, it is ABSENT without XPEND. -/
def Mach.walkMissed (m : Mach) (s q blk : Nat) : Option Mach :=
  match (m.hand s).onBoard q blk with
  | none => none
  | some (_, b) =>
    if b.misses && m.ended b then
      let again := m.walkAt s q b.win b.off != .miss
      let m := m.modHand s fun h => h.modBoard q blk fun e => { e with st := .absent, misses := false, due := none, xpend := !again }
      some (if again then m else m.missEvent s q ((b.wings.head?.map (·.addr)).getD 0))
    else none

/-- FETCH_FAULT: every waiter is woken into the fault and the entry is freed (R89, R116). -/
def Mach.fetchFault (m : Mach) (s q blk : Nat) : Option Mach :=
  match (m.hand s).onBoard q blk with
  | none => none
  | some (i, b) =>
    match b.fault with
    | none => none
    | some f =>
      if b.st = .absent || m.ended b then
        let m := m.modHand s fun h => { h with board := Map.erase h.board i }
        some (m.sendWakes s (fun w => some (farFault f w.addr)) b.wings)
      else none

/-- Writers that waited at a block on stage for a translation: once their mapping is walked again with success they are woken, and
the block drains; a fatal one wakes them into the fault, and one without WR into the far-write fault (R114, R116, R117). -/
def Mach.writersWake (m : Mach) (s q blk : Nat) : Option Mach :=
  match (m.hand s).inDir q blk with
  | none => none
  | some b =>
    if b.st = .onStage && !b.xpend && b.wings != [] then
      let n := m.wakeWait s
      let wr := match m.walkAt s q b.win b.off with
        | .ok _ wr => wr
        | _ => true
      let fault (w : Wing) : Option FaultRec :=
        match b.fault with
        | some f => some (farFault f w.addr)
        | none => if w.write && !wr then some (farFault (BitVec.ofNat 8 Cause.farWrite) w.addr) else none
      let pins := b.wings.zipIdx.map fun wi => ({ who := some wi.1.who, expires := m.clk + n + wi.2 + 65536 } : Pin)
      let m := m.modHand s fun h => h.modDir q blk fun e =>
        { e with st := .draining, wings := [], first := 0, fault := none, pins := if b.fault.isNone then e.pins ++ pins else e.pins
                 due := some (m.clk + n + (b.wings.length - 1)) }
      some (m.sendWakes s fault b.wings)
    else none

/-- DRAIN_END: the last wake is sent (R117). -/
def Mach.drainEnd (m : Mach) (s q blk : Nat) : Option Mach :=
  match (m.hand s).inDir q blk with
  | none => none
  | some b =>
    if b.st = .draining && m.ended b then
      some ((m.modHand s fun h => h.modDir q blk fun e => { e with st := .onStage, last := m.clk, due := none }).settle s)
    else none

/-- WRITEBACK_DONE: the block's bytes stand in HBM and it is ABSENT (R117). DESIGN CHOICE: a unit that cannot be read on stage cannot
be read in HBM afterwards. -/
def Mach.writebackDone (m : Mach) (s q blk : Nat) : Option Mach :=
  match (m.hand s).inDir q blk with
  | none => none
  | some b =>
    if b.st = .evicting && m.ended b then
      let m := m.modHand s fun h =>
        let h := h.hbmWrite s q b.hbm (b.read s (h.keyOf q) 0 b.size)
        { h with badUnit := h.badUnit ++ b.bad.map (b.hbm / 64 + ·) }
      some (m.evicted s b)
    else none

/-- PIN_TIMEOUT: pins whose 65,536 cycles are over fall; the cycles of a suspension do not count (R117, R304). -/
def Mach.pinTimeout (m : Mach) (s q blk : Nat) : Option Mach :=
  match (m.hand s).inDir q blk with
  | none => none
  | some b =>
    if (m.part q).st = .running && b.pins.any (·.expires ≤ m.clk) then
      some ((m.modHand s fun h => h.modDir q blk fun e => { e with pins := e.pins.filter (m.clk < ·.expires) }).settle s)
    else none

/-! ## Far requests (R110, R125, R196) -/

/-- The answer to a request that is not served: absent, with its wings record appended where it names a waiter (R108, R196). -/
def Mach.answerAbsent (m : Mach) (s : Nat) (r : FarReq) : FarAns × Mach :=
  match r.tgt with
  | none => (.notRecorded, m)
  | some w => (.absent, m.parkFar s r.win { addr := r.addr, kclk := r.kclk, who := w, part := r.part, write := r.data.isSome })

/-- A request served at a block on stage: the answer, DIRTY, and the pin that its tag releases (R89, R114, R117). A write whose
translation misses parks at the block, which sets XPEND, and one whose translation is fatal faults (R116). -/
def Mach.serveFar (m : Mach) (s : Nat) (r : FarReq) (b : Blk) : FarAns × Mach :=
  let m := m.charge r.part 16
  let o := fld r.addr 59 0 - 4096 * b.blk
  let ecc : FarAns := .fault (BitVec.ofNat 8 Cause.memoryEcc) (farAddr r.addr)
  let unpin (e : Blk) : Blk :=
    match r.tag with
    | none => e
    | some w => { e with pins := e.pins.eraseP (·.who == some w) }
  match r.data with
  | none =>
    if b.badRead o r.size then (ecc, m)
    else (.served (b.read s ((m.hand s).keyOf r.part) o r.size), (m.modHand s fun h => h.modDir r.part b.blk unpin).settle s)
  | some bs =>
    match m.translate s r.part r.win r.off with
    | (.ok _ false, m) => (.fault (BitVec.ofNat 8 Cause.farWrite) (farAddr r.addr), m)
    | (.fatal c, m) => (.fault (BitVec.ofNat 8 c) (farAddr r.addr), m)
    | (.miss, m) =>
      let (a, m) := m.answerAbsent s r
      if a = .absent && !b.xpend then
        (a, (m.modHand s fun h => h.modDir r.part b.blk fun e => { e with xpend := true }).missEvent s r.part r.addr)
      else (a, m)
    | (.ok _ true, m) =>
      if b.badWrite o bs.length then (ecc, m)
      else (.served [], (m.modHand s fun h => h.modDir r.part b.blk fun e => (unpin e).write o bs).settle s)

/-- The stagehand's answer to a far request (R196). -/
def Mach.answerFar (m : Mach) (s : Nat) (r : FarReq) : FarAns × Mach :=
  let blk := (m.part r.part).blockOf r.win (fld r.addr 59 0)
  match (m.hand s).served_ r.part blk with
  | some b => m.serveFar s r b
  | none => m.answerAbsent s r

/-- A delivery discarded at a stagehand or core of a partition in ZEROING, counted per source (R125, R272). -/
def Mach.discard (m : Mach) (d : Delivery) : Mach :=
  (m.modPart d.part fun p => { p with report := Map.set p.report d.src (Map.get p.report 0 d.src + 1) }).dropDelivery d

/-- A card of a job arrives: the stage program waits in its partition's order (R208, R209). -/
def Mach.takeCard (m : Mach) (s q c uid : Nat) : Mach :=
  match (m.core c).jobs.find? (·.uid == uid) with
  | none => m
  | some j =>
    let w5 := j.card.getD 5 0
    m.modUnit s q fun u =>
      { u with cards := u.cards ++ [{ core := c, job := uid, dst := w5.extractLsb' 32 16, len := w5.extractLsb' 48 16,
                                      entry := w5.extractLsb' 16 12, arg0 := j.card.getD 6 0, arg1 := j.card.getD 7 0,
                                      started := m.clk }] }

/-- Requests and cards that the stagehand holds (R110). -/
def Stagehand.queued (h : Stagehand) : Nat := h.requests.length + (h.units.map fun u => u.2.cards.length).sum

/-- A stagehand has a place for another request (R110). -/
def Mach.handRoom (m : Mach) (s : Nat) : Bool := (m.hand s).queued < 256

/-- A request queued, and served at once where its block is on stage. -/
def Mach.enqueueMove (m : Mach) (s : Nat) (v : Move) : Mach :=
  (m.modHand s fun h => { h with requests := h.requests ++ [v] }).serveMoves s

/-- The oldest RoCE part that waits at the port for a place at stagehand `s` is queued (R110, R341). -/
def Mach.rdmaQueue (m : Mach) (s : Nat) : Option Mach :=
  match m.rdma.find? fun r => r.todo.any (·.1 == s) with
  | none => none
  | some r =>
    match r.todo.find? (·.1 == s) with
    | none => none
    | some (_, v) =>
      if m.handRoom s then
        let m : Mach := { m with rdma := m.rdma.map fun q => if q.xid == r.xid then { q with todo := q.todo.filter (·.2.id != v.id) } else q }
        some (m.enqueueMove s v)
      else none

/-- FAR_REQUEST: a delivery arrives at its stagehand (R110, R125, R196, R362). -/
def Mach.farRequest (m : Mach) (id : Nat) : Option Mach :=
  match m.delivery id with
  | none => none
  | some d =>
    match d.phase with
    | .flying due =>
      if due ≤ m.clk ∧ handBase ≤ d.dst then
        let s := d.dst - handBase
        let h := hops d.src d.dst
        if (m.part d.part).st = .zeroing then some (m.discard d)
        else
          match d.body with
          | .far r =>
            if 256 ≤ (m.hand s).queued then some (m.modDelivery id fun d => { d with phase := .refusing (m.clk + 4 + h) }) else
            let walk := if r.data.isSome ∧ ((m.hand s).served_ r.part ((m.part r.part).blockOf r.win (fld r.addr 59 0))).isSome
              then m.walkTime s r.part r.win r.off else 0
            let (a, m) := m.answerFar s r
            some (m.modDelivery id fun d => { d with phase := .answering (m.clk + 16 + h + walk) a })
          | .move v =>
            if 256 ≤ (m.hand s).queued then some (m.modDelivery id fun d => { d with phase := .refusing (m.clk + 4 + h) })
            else some ((m.modDelivery id fun d => { d with phase := .accepting (m.clk + 4 + h) none }).enqueueMove s v)
          | .card c uid =>
            if 256 ≤ (m.hand s).queued then some (m.modDelivery id fun d => { d with phase := .refusing (m.clk + 4 + h) })
            else some ((m.modDelivery id fun d => { d with phase := .accepting (m.clk + 4 + h) none }).takeCard s d.part c uid)
          | _ => none
      else none
    | _ => none

/-- FAR_ANSWER: the answer reaches the issuer, which parks, stalls until its wake, or completes (R196). -/
def Mach.farAnswer (m : Mach) (id : Nat) : Option Mach :=
  match m.delivery id with
  | none => none
  | some d =>
    match d.body, d.phase with
    | .far r, .answering due a =>
      if due ≤ m.clk && !(a == .absent && r.tgt.any fun w => !w.stall && m.recHeld d.src w.idx) then
        let t := (m.core d.src).tset r.ts
        let m := m.dropDelivery d
        let asked := match t.far with
          | .asked i => i == id
          | _ => false
        if asked then
          match a, r.tgt with
          | .absent, some w =>
            if w.stall then some (m.modCore d.src (·.modTs r.ts fun s => { s with far := .stalled, wait := none }))
            else some (m.parkOrTrap d.src r.ts w.idx 0 r.addr)
          | a, _ => some (m.modCore d.src (·.modTs r.ts fun s => { s with far := .answered a }))
        else
          match a, r.tgt with
          | .absent, _ => some m
          | _, some w => some (if w.stall then m else m.modCore d.src (·.freeReserved w.idx))
          | _, none => some m
      else none
    | _, _ => none

/-- A far access of the same waiter whose answer is still on its way: the wake is applied after it (R196). -/
def Mach.answerComing (m : Mach) (w : Waiter) : Bool :=
  m.net.any fun d =>
    match d.body with
    | .far r => r.tgt == some w && (match d.phase with
                                    | .answering _ .absent => true
                                    | _ => false)
    | _ => false

/-- A far wake or fault wake applied at its core (R98, R108). -/
def Mach.wakePacket (m : Mach) (id : Nat) (fault : Bool) : Option Mach :=
  match m.delivery id with
  | none => none
  | some d =>
    match d.body, d.phase with
    | .wake w f, .flying due =>
      if due ≤ m.clk && f.isSome == fault && !m.answerComing w && (w.stall || !m.wakeHeld w.core w.idx) then
        let m := m.dropDelivery d
        if w.stall then
          let t := (m.core w.core).tset w.idx
          if t.far = .stalled then
            some (m.modCore w.core (·.modTs w.idx fun s =>
              match f with
              | none => { s with far := .idle, farHdr := none, tag := some w }
              | some r => { s with far := .answered (.fault r.cause r.addr) }))
          else some m
        else
          let k := m.core w.core
          if (k.record w.idx).st = .reserved then some (m.modCore w.core (·.freeReserved w.idx))
          else
            match f with
            | none => some (m.modCore w.core (·.wake w.idx))
            | some r => some (m.modCore w.core (·.faultWake w.idx { r with time := wd m.clk }))
      else none
    | _, _ => none

/-! ## The events -/

/-- QUANTUM_CHOICE (R300). -/
def execQuantumChoice (sh : Nat) (s : State) : Host.Outcome State Fault Refusal := event (fun m => (m.quantumChoice sh).getD m) s

/-- FETCH_COMPLETE (R117). -/
def execFetchComplete (sh part blk : Nat) (s : State) : Host.Outcome State Fault Refusal :=
  event (fun m => (m.fetchComplete sh part blk).getD m) s

/-- FETCH_FAULT: a fetch ends in a fault, or its walk in a miss (R89, R116, R361). -/
def execFetchFault (sh part blk : Nat) (s : State) : Host.Outcome State Fault Refusal :=
  event (fun m => (m.fetchFault sh part blk <|> m.walkMissed sh part blk).getD m) s

/-- DRAIN_END (R117). -/
def execDrainEnd (sh part blk : Nat) (s : State) : Host.Outcome State Fault Refusal :=
  event (fun m => (m.drainEnd sh part blk).getD m) s

/-- WRITEBACK_DONE (R117). -/
def execWritebackDone (sh part blk : Nat) (s : State) : Host.Outcome State Fault Refusal :=
  event (fun m => (m.writebackDone sh part blk).getD m) s

/-- PIN_TIMEOUT (R117). -/
def execPinTimeout (sh part blk : Nat) (s : State) : Host.Outcome State Fault Refusal :=
  event (fun m => (m.pinTimeout sh part blk).getD m) s

/-- FAR_REQUEST (R196). -/
def execFarRequest (id : Nat) (s : State) : Host.Outcome State Fault Refusal := event (fun m => (m.farRequest id).getD m) s

/-- FAR_ANSWER (R196). -/
def execFarAnswer (id : Nat) (s : State) : Host.Outcome State Fault Refusal := event (fun m => (m.farAnswer id).getD m) s

/-- SYS_PAGE_TABLE_WRITE: the store of a core into system space, performed at its stagehand (R114, R115, R347). -/
def execSysPageTableWrite (addr data : Word) (s : State) : Host.Outcome State Fault Refusal := issue (sysStore addr data) s

end Sys2Proof.Machine
end

