-- ==== Sys2Proof/Machine/Frames.lean ====
section
/-! DEFINITION. Far accesses, frame slots and the display (04_memories R83 to R87; 10_isa_memory R196 to R198, R210). -/

namespace Sys2Proof.Machine

/-! ## Far accesses (R196, R210) -/

/-- Bytes of far space that meet the header of the partition's launch frame, which is live as long as the partition runs
(R83, R84). -/
def Partition.inFarHeader (p : Partition) (ea : Word) (n : Nat) : Bool :=
  isFar p.launch.d0 && meets (fld ea 59 0) n (fld p.launch.d0 59 0) (fld p.launch.d0 59 0 + 16)

/-- A far store into the header of the launch frame raises the frame-header fault (R84, R311). -/
def headerGuard (ea : Word) (n : Nat) (store : Bool) : Act Unit := do
  let m ← get
  let p := m.part m.myPart
  require (!(store && p.inFarHeader ea n)) { faultOf Cause.frameHeader with addr := farAddr p.launch.d0 }

/-- The checks of R184 for a far access, and its home: window, stagehand and channel offset (R87, R113). A house core
belongs to no partition, so no window covers its addresses. -/
def checkFar (ea : Word) (n : Nat) (store : Bool) : Act (Nat × Nat × Nat) := do
  let m ← get
  if fld ea 63 60 = 15 ∧ m.me.priv = .user then trapAt Cause.privilege ea
  else if !isFar ea then trapAt Cause.address ea
  else if ea.toNat % n ≠ 0 then trapAt Cause.alignment (farAddr ea)
  else
    let house := match m.cur with
      | .core c _ => decide (meshCores ≤ c)
      | .stage _ _ => false
    match if house then none else (m.part m.myPart).home (fld ea 59 0) with
    | none => trapAt Cause.farPlacement (farAddr ea)
    | some h => do
      headerGuard ea n store
      return h

/-- The far access under way has its answer: the bytes of one that was served, whose record is freed (R196). -/
def farTake : Act (Option (List Byte)) := do
  let t ← me
  match t.far with
  | .idle => return none
  | .asked _ => throw (.wait .other)
  | .stalled => throw (.wait .other)
  | .answered a =>
    match a with
    | .served bs => do
      modMyCore fun k => match t.farRec with
        | some i => k.freeReserved i
        | none => k
      modMe fun t => { t with far := .idle, farRec := none }
      return some bs
    | .absent => throw (.wait .other)
    | .notRecorded => trap (faultOf Cause.parkLimit)
    | .fault c addr => trap { faultOf 0 with cause := c, addr := addr }

/-- Whom a wings record of this access names: the stalled thread set, a reserved context record, or no one (R22, R97,
R196). -/
def Mach.farWaiter (m : Mach) : Option Waiter :=
  let t := m.me
  if t.anyBound || t.cho || t.fol then some { core := m.here, idx := m.tsNo, stall := true }
  else m.myCore.freeRec.map fun i => { core := m.here, idx := i, stall := false }

/-- The machine with the request of the thread set on its way and its record reserved; the tag of a wake goes with it
(R117, R196). DESIGN CHOICE: `kclk of the park` in a wings record (R108, R117) is the cycle in which the request issues: the
stagehand writes the record before the context parks at its answer. -/
def Mach.sendFar (m : Mach) (ea : Word) (n : Nat) (h : Nat × Nat × Nat) (data : Option (List Byte)) : Mach :=
  let c := m.here
  let t := m.tsNo
  let w := m.farWaiter
  let r : FarReq :=
    { addr := ea, win := h.1, off := h.2.2, size := n, data := data, core := c, ts := t, tgt := w, tag := m.me.tag,
      part := m.myPart, kclk := m.clk }
  let i := match w with
    | some w => if w.stall then none else some w.idx
    | none => none
  let m' := m.modCore c fun k =>
    (match i with
     | some i => k.modRec i fun q => { q with st := .reserved }
     | none => k).modTs t fun s => { s with far := .asked m.nextId, farRec := i, tag := none }
  m'.post c t (handBase + h.2.1) (.far r) none true

/-- A far access of a core from the machine `m0`, in which nothing is popped: it is sent, or its answer is taken. -/
def farCore (m0 : Mach) (ea : Word) (n : Nat) (data : Option (List Byte)) : Act (List Byte) := do
  let h ← checkFar ea n data.isSome
  match ← farTake with
  | some bs => return bs
  | none => do
    stallUntil (m0.windowFree m0.here)
    set (m0.sendFar ea n h data)
    throw (.waitKeep .other)

/-- A move of a stage program: sent once its stagehand has a place for it, or its end awaited (R110, R210, R211). -/
def stageMove (m0 : Mach) (s p : Nat) (ea : Word) (n : Nat) (h : Nat × Nat × Nat) (data : Option (List Byte)) :
    Act (List Byte) := do
  let u := m0.unit s p
  match u.move with
  | none => do
    let v : Move := { id := m0.nextId, part := p, kind := .stage p data, addr := ea, win := h.1, off := h.2.2, len := n }
    let m := { m0 with nextId := m0.nextId + 1 }
    let m := m.modUnit s p fun u => { u with move := some v.id, answer := none }
    stallUntil (m0.handRoom s)
    set (m.enqueueMove s v)
    throw (.waitKeep .other)
  | some id =>
    match u.answer with
    | some (.fault c addr) => trap { faultOf 0 with cause := c, addr := addr }
    | some (.served bs) => do
      stallUntil (!(m0.hand s).requests.any (·.id == id))
      modify fun m => m.modUnit s p fun u => { u with move := none, answer := none }
      return bs
    | _ => throw (.wait .other)

/-- A far access of `n` bytes; one of a stage program must be homed at its stagehand (R196, R210). -/
def farAccess (m0 : Mach) (ea : Word) (n : Nat) (data : Option (List Byte)) : Act (List Byte) := do
  match m0.cur with
  | .core _ _ => farCore m0 ea n data
  | .stage s p => do
    let h ← checkFar ea n data.isSome
    require (h.2.1 == s) { faultOf Cause.farPlacement with addr := farAddr ea }
    stageMove m0 s p ea n h data

/-- `ldfar` (R196). -/
def semLdfar (a : Args) : Act Unit := do
  let m0 ← get
  srcPort false a.s
  dstPort false a.d
  let ea ← effAddr a
  if ← predOn a then
    let bs ← farAccess m0 ea (sizeOf a.v) none
    writeRes a true (wd (leNat bs))
  else writeRes a false 0

/-- `stfar` (R196). -/
def semStfar (a : Args) : Act Unit := do
  let m0 ← get
  let (ea, v) ← readStore a
  if ← predOn a then
    let _ ← farAccess m0 ea (sizeOf a.v) (some (leBytes v.toNat (sizeOf a.v)))
    pure ()
  else pure ()

/-- A vector destination of a form that predicate bit 0 governs whole: an inactive one pushes zero to a bound name
(R55). -/
def writeVRes (a : Args) (on : Bool) (v : V128) : Act Unit := do
  if on then writeV a.d v
  else
    match (← me).portOf true a.d with
    | some i => push i 0
    | none => pure ()

/-- `vldfar` (R196). -/
def semVldfar (a : Args) : Act Unit := do
  let m0 ← get
  srcPort false a.s
  dstPort true a.d
  let ea ← effAddr a
  if ← predOn a then
    let bs ← farAccess m0 ea 16 none
    writeVRes a true (vecOf bs)
  else writeVRes a false 0

/-! ## Frame slots (R83, R84, R197) -/

/-- A record that names a frame and a slot (R311). -/
def frameTrap (cause : Nat) (f : Word) (s : Nat) : FaultRec := { faultOf cause with addr := shown f, index := BitVec.ofNat 16 s }

/-- The checks of R197 on header word 1. -/
def checkSlot (f : Word) (hdr : Word) (s last : Nat) : Act Unit := do
  require (bit hdr 31) (frameTrap Cause.frameRetired f s)
  require (last < fld hdr 47 32) (frameTrap Cause.frameBounds f s)

/-- The place of a frame access of depth 1 to 7, after the checks of R197: the header is read where the frame stands. -/
def slotPlace (f : Word) (s n : Nat) (store : Bool) : Act Place := do
  let hp ← checkElem (f + 8) 8 .cluster false false
  let hdr := wd (← loadPlace hp 8 (f + 8))
  checkSlot f hdr s (s + n / 8 - 1)
  checkElem (f + wd (16 + 8 * s)) n .cluster false store

/-- A slot access at depth 0: the header by a first far access, the slot by a second one (R197). -/
def slotFar (m0 : Mach) (f : Word) (s n : Nat) (data : Option (List Byte)) : Act (List Byte) := do
  let t ← me
  let ea := f + wd (16 + 8 * s)
  match t.farHdr with
  | some _ => do
    let bs ← farAccess m0 ea n data
    modMe fun t => { t with farHdr := none }
    return bs
  | none => do
    let bs ← farAccess m0 (f + 8) 8 none
    let hdr := wd (leNat bs)
    checkSlot f hdr s (s + n / 8 - 1)
    let free (k : Core) : Core := match t.farRec with
      | some i => k.freeReserved i
      | none => k
    let m1 := (m0.modCore m0.here free).modMe fun t => { t with far := .idle, farRec := none, farHdr := some hdr }
    set m1
    let h ← checkFar ea n data.isSome
    if m1.windowFree m1.here then set (m1.sendFar ea n h data) else pure ()
    throw (.waitKeep .other)

/-- The slot and the depth that a frame operand names, and the frame at that depth (R158, R197). -/
def frameOf (a : Args) : Act (Word × Nat × Nat) := do
  let depth := fld a.imm 2 0
  let s := (a.imm >>> 3).toNat
  checkReg (dispCode depth)
  let f := vget (← me).d 0 depth
  require (f != 0) (frameTrap Cause.illegalOperation f 0)
  return (f, depth, s)

/-- A vector form names an even slot; the record carries the misaligned address, and no slot (R76, R197, R311). -/
def evenSlot (f : Word) (s n : Nat) : Act Unit :=
  require (n == 8 || s % 2 == 0) { faultOf Cause.alignment with addr := shown (f + wd (16 + 8 * s)) }

/-- The `n` bytes of a frame slot (R197). -/
def loadSlot (m0 : Mach) (a : Args) (n : Nat) : Act Nat := do
  let (f, depth, s) ← frameOf a
  evenSlot f s n
  if depth = 0 then return leNat (← slotFar m0 f s n none)
  else
    let p ← slotPlace f s n false
    if n = 8 then loadPlace p 8 (f + wd (16 + 8 * s))
    else
      let lo ← loadPlace p 8 (f + wd (16 + 8 * s))
      let hi ← loadPlace (p.plus 8) 8 (f + wd (24 + 8 * s))
      return lo + hi * 2 ^ 64

/-- A strong store of `n` bytes into a frame slot, at the scope of its depth (R83, R197). -/
def storeSlot (m0 : Mach) (a : Args) (n v : Nat) : Act Unit := do
  let (f, depth, s) ← frameOf a
  evenSlot f s n
  if depth = 0 then
    let _ ← slotFar m0 f s n (some (leBytes v n))
    pure ()
  else
    let p ← slotPlace f s n true
    storePlace p (cellsAt 0 (leBytes v n)) (f + wd (16 + 8 * s))

/-- `ldfr` (R197). -/
def semLdfr (a : Args) : Act Unit := do
  let m0 ← get
  dstPort false a.d
  if ← predOn a then writeRes a true (wd (← loadSlot m0 a 8)) else writeRes a false 0

/-- `stfr` (R197). -/
def semStfr (a : Args) : Act Unit := do
  let m0 ← get
  srcPort false a.d
  let v ← readX a.d
  if ← predOn a then storeSlot m0 a 8 v.toNat else pure ()

/-- `vldfr` (R197). -/
def semVldfr (a : Args) : Act Unit := do
  let m0 ← get
  dstPort true a.d
  if ← predOn a then writeVRes a true (BitVec.ofNat 128 (← loadSlot m0 a 16)) else writeVRes a false 0

/-- `vstfr` (R197). -/
def semVstfr (a : Args) : Act Unit := do
  let m0 ← get
  srcPort true a.d
  let v ← readV a.d
  if ← predOn a then storeSlot m0 a 16 v.toNat else pure ()

/-! ## The display (R85, R198) -/

/-- The display is read (R62). -/
def readDisplay : Act Unit := (List.range 8).forM fun i => checkReg (dispCode i)

/-- `enter` (R85, R198). -/
def semEnter (a : Args) : Act Unit := do
  readDisplay
  let size := a.imm.toNat
  let t ← me
  let k ← myCore
  let m ← get
  require (size != 0 && size ≤ 65535) (frameTrap Cause.illegalOperation t.fp 0)
  require (t.depth < 7) (frameTrap Cause.frameDepth t.fp 0)
  match k.allocFrame m.here size (t.depth + 1) t.fp with
  | none => trap (frameTrap Cause.framePool t.fp 0)
  | some (k, off) => do
    waitHeld off 16
    modMyCore fun _ => k
    modMe fun t => t.setD (t.depth + 1) (wd off)

/-- `leave` (R85, R198). -/
def semLeave (_ : Args) : Act Unit := do
  readDisplay
  let t ← me
  require (3 < t.depth) (frameTrap Cause.frameDepth t.fp 0)
  waitHeld (fld t.fp 15 0 + 8) 8
  eccRead (← get).here (fld t.fp 15 0 + 8) 8 t.fp
  modMyCore (·.leaveFrame (fld t.fp 15 0))
  modMe fun t => t.setD t.depth 0

/-- `dmov` (R198). -/
def semDmov (a : Args) : Act Unit := do
  dstPort false a.d
  checkReg (dispCode a.imm.toNat)
  writeX a.d (vget (← me).d 0 a.imm.toNat)

/-- One reference added to or removed from the frame whose header word 1 stands at `off` (R85). -/
def Core.countRef (k : Core) (off : Nat) (up : Bool) : Core :=
  let h := k.mem64 (off + 8)
  let refs := if up then fld h 63 48 + 1 else fld h 63 48 - 1
  let gone := refs == 0 && bit h 30
  let k := if gone then k.retireFrame off else k
  k.store64 (off + 8) (frameWord refs (fld h 47 32) (!gone) (bit h 30) (fld h 29 27) (fld h 26 17) (fld h 16 9) ||| (h &&& 0x1FF))

/-- `frref` and `frrel` (R85, R198). -/
def semRef (up : Bool) (a : Args) : Act Unit := do
  srcPort false a.s
  let f ← readX a.s
  require (!isFar f) (frameTrap Cause.illegalOperation (farAddr f) 0)
  let p ← checkElem f 8 .cluster false false
  require (p.off + 16 ≤ 65536) { faultOf Cause.address with addr := f }
  let m ← get
  let (q, off) := match p with
    | .other q off => (q, off)
    | p => (m.here, p.off)
  if q = m.here then waitGate (off + 8) 8 true
  else do
    meshOpen q
    stallUntil (!m.heldRange q (off + 8) 8)
  eccRead q (off + 8) 8 f
  let hdr := ((← get).core q).mem64 (off + 8)
  require (bit hdr 31) (frameTrap Cause.frameRetired f 0)
  require (if up then fld hdr 63 48 != 65535 else fld hdr 63 48 != 0) (frameTrap Cause.frameCount f 0)
  modify fun m => m.modCore q (·.countRef off up)

/-! ## The instructions -/

/-- `ldfar` (R196). -/
def execLdfar (a : Args) (s : State) : Host.Outcome State Fault Refusal := issue (semLdfar a) s

/-- `stfar` (R196). -/
def execStfar (a : Args) (s : State) : Host.Outcome State Fault Refusal := issue (semStfar a) s

/-- `vldfar` (R196). -/
def execVldfar (a : Args) (s : State) : Host.Outcome State Fault Refusal := issue (semVldfar a) s

/-- `ldfr` (R197). -/
def execLdfr (a : Args) (s : State) : Host.Outcome State Fault Refusal := issue (semLdfr a) s

/-- `stfr` (R197). -/
def execStfr (a : Args) (s : State) : Host.Outcome State Fault Refusal := issue (semStfr a) s

/-- `ldfr` of page 8 (R197). -/
def execLdfrP8 (a : Args) (s : State) : Host.Outcome State Fault Refusal := issue (semLdfr a) s

/-- `stfr` of page 8 (R197). -/
def execStfrP8 (a : Args) (s : State) : Host.Outcome State Fault Refusal := issue (semStfr a) s

/-- `vldfr` (R197). -/
def execVldfr (a : Args) (s : State) : Host.Outcome State Fault Refusal := issue (semVldfr a) s

/-- `vstfr` (R197). -/
def execVstfr (a : Args) (s : State) : Host.Outcome State Fault Refusal := issue (semVstfr a) s

/-- `enter` (R198). -/
def execEnter (a : Args) (s : State) : Host.Outcome State Fault Refusal := issue (semEnter a) s

/-- `leave` (R198). -/
def execLeave (a : Args) (s : State) : Host.Outcome State Fault Refusal := issue (semLeave a) s

/-- `dmov` (R198). -/
def execDmov (a : Args) (s : State) : Host.Outcome State Fault Refusal := issue (semDmov a) s

/-- `frref` (R198). -/
def execFrref (a : Args) (s : State) : Host.Outcome State Fault Refusal := issue (semRef true a) s

/-- `frrel` (R198). -/
def execFrrel (a : Args) (s : State) : Host.Outcome State Fault Refusal := issue (semRef false a) s

end Sys2Proof.Machine
end

