-- ==== Sys2Proof/Machine/Flags.lean ====
section
/-! DEFINITION. The float exception flags of kfflags and how an instruction sets them (02_numbers R42). -/

namespace Sys2Proof.Machine

/-- Flags in the layout of kfflags: NS, NV, DZ, OF, UF, NX from bit 5 down (R42). -/
abbrev FFlags := BitVec 6

/-- Inexact. -/
def flagNX : FFlags := 0x01
/-- Underflow, tiny and inexact. -/
def flagUF : FFlags := 0x02
/-- Overflow. -/
def flagOF : FFlags := 0x04
/-- Division of a finite nonzero value by zero. -/
def flagDZ : FFlags := 0x08
/-- Invalid operation. -/
def flagNV : FFlags := 0x10
/-- A NaN or Inf was replaced by a finite value in a narrow target. -/
def flagNS : FFlags := 0x20

/-- `f` where the condition holds. -/
def flagIf (b : Bool) (f : FFlags) : FFlags := if b then f else 0

/-- The OR of the flags of several lanes (R46). -/
def orFlags (fs : List FFlags) : FFlags := fs.foldl (· ||| ·) 0

/-- The flags of an instruction join kfflags with its result (R42). -/
def raiseFlags (f : FFlags) : Act Unit := modMe fun t => { t with kfflags := t.kfflags ||| f }

end Sys2Proof.Machine
end

