-- ==== Sys2Proof/Machine/Num.lean ====
section
/-! DEFINITION. Number formats, rounding, float operations and conversions, on bit patterns as numbers
(02_numbers R31 to R51; 11_isa_vector R222 to R225). Values are computed exactly and rounded once. -/

namespace Sys2Proof.Machine

/-! ## Formats (R31, R34, R35) -/

/-- A float format: exponent and fraction widths, bias, and whether its top exponent code is read as R36 states. -/
structure FloatFmt where
  eb : Nat
  fb : Nat
  bias : Nat
  narrow : Bool
  deriving DecidableEq, Repr

/-- binary64. -/
def fmtF64 : FloatFmt := { eb := 11, fb := 52, bias := 1023, narrow := false }
/-- binary32. -/
def fmtF32 : FloatFmt := { eb := 8, fb := 23, bias := 127, narrow := false }
/-- binary16. -/
def fmtF16 : FloatFmt := { eb := 5, fb := 10, bias := 15, narrow := false }
/-- Brain float. -/
def fmtBf16 : FloatFmt := { eb := 8, fb := 7, bias := 127, narrow := false }
/-- Narrow float 1-4-3. -/
def fmtF8a : FloatFmt := { eb := 4, fb := 3, bias := 7, narrow := true }
/-- Narrow float 1-5-2. -/
def fmtF8b : FloatFmt := { eb := 5, fb := 2, bias := 15, narrow := true }
/-- Narrow float 1-3-2. -/
def fmtF6 : FloatFmt := { eb := 3, fb := 2, bias := 3, narrow := true }
/-- Narrow float 1-2-1. -/
def fmtF4 : FloatFmt := { eb := 2, fb := 1, bias := 1, narrow := true }

/-- The float format of a code (R31). -/
def floatFmt (code : Nat) : Option FloatFmt :=
  match code with
  | 0x08 => some fmtF64 | 0x09 => some fmtF32 | 0x0A => some fmtF16 | 0x0B => some fmtBf16
  | 0x0C => some fmtF8a | 0x0D => some fmtF8b | 0x0E => some fmtF6 | 0x0F => some fmtF4
  | _ => none

/-- Width in bits. -/
def FloatFmt.width (f : FloatFmt) : Nat := 1 + f.eb + f.fb

/-- The top exponent code. -/
def FloatFmt.top (f : FloatFmt) : Nat := 2 ^ f.eb - 1

/-- Under TC = 0 the format has no NaN and no Inf: f4 (R36). -/
def FloatFmt.allFinite (f : FloatFmt) (tc : Bool) : Bool := f.narrow && f.fb == 1 && !tc

/-- The exponent of the subnormal quantum. -/
def FloatFmt.qmin (f : FloatFmt) : Int := 1 - (f.bias : Int) - f.fb

/-- A bit pattern from sign, exponent field and fraction. -/
def FloatFmt.pack (f : FloatFmt) (neg : Bool) (e m : Nat) : Nat := b2n neg * 2 ^ (f.eb + f.fb) + e * 2 ^ f.fb + m

/-- The pattern of the largest finite value without its sign (R34 to R36). -/
def FloatFmt.maxFinite (f : FloatFmt) (tc : Bool) : Nat :=
  if f.allFinite tc then f.pack false f.top (2 ^ f.fb - 1)
  else if f.narrow && !tc then f.pack false f.top (2 ^ f.fb - 2)
  else f.pack false (f.top - 1) (2 ^ f.fb - 1)

/-- A value: a NaN with its sign, whether it signals, and its payload in the top bits of 64 below the quiet bit; an
infinity; or the finite value (−1)^neg × m × 2^e. -/
inductive FVal where
  | nan (neg sig : Bool) (payload : Nat)
  | inf (neg : Bool)
  | fin (neg : Bool) (m : Nat) (e : Int)
  deriving DecidableEq, Repr

/-- Read a bit pattern under a top-code reading (R34 to R36). -/
def FloatFmt.read (f : FloatFmt) (tc : Bool) (x : Nat) : FVal :=
  let neg := x / 2 ^ (f.eb + f.fb) % 2 == 1
  let e := x / 2 ^ f.fb % 2 ^ f.eb
  let m := x % 2 ^ f.fb
  let finite : FVal := if e = 0 then .fin neg m f.qmin else .fin neg (2 ^ f.fb + m) (f.qmin + e - 1)
  if e ≠ f.top then finite
  else if f.narrow then
    if tc then (if m = 0 then .inf neg else .nan neg false 0)
    else if m = 2 ^ f.fb - 1 && !f.allFinite tc then .nan neg false 0 else finite
  else if m = 0 then .inf neg
  else .nan neg (m < 2 ^ (f.fb - 1)) (m % 2 ^ (f.fb - 1) * 2 ^ (64 - (f.fb - 1)))

/-- The default NaN (R34); of a narrow format, the NaN code of positive sign. -/
def FloatFmt.defaultNan (f : FloatFmt) : Nat :=
  f.pack false f.top (if f.narrow then 2 ^ f.fb - 1 else 2 ^ (f.fb - 1))

/-- A NaN written quiet, with its sign and the payload bits that fit (R44, R47); of a narrow format, its NaN code (R36). -/
def FloatFmt.quiet (f : FloatFmt) (neg : Bool) (payload : Nat) : Nat :=
  f.pack neg f.top (if f.narrow then 2 ^ f.fb - 1 else 2 ^ (f.fb - 1) + payload / 2 ^ (64 - (f.fb - 1)))

/-- An infinity. -/
def FloatFmt.infinity (f : FloatFmt) (neg : Bool) : Nat := f.pack neg f.top 0

/-! ## Rounding (R41) -/

/-- Bits of a number: 0 for 0. -/
def bitLen (n : Nat) : Nat := if n = 0 then 0 else Nat.log2 n + 1

/-- Round up the magnitude `keep + rem / 2^s`, where `sticky` says that something below is dropped. -/
def roundsUp (mode : Nat) (neg : Bool) (keep rem s : Nat) (sticky : Bool) : Bool :=
  let half := 2 ^ s
  let twice := 2 * rem
  let inexact := rem != 0 || sticky
  match mode with
  | 0 => half < twice || (half == twice && (sticky || keep % 2 == 1))
  | 1 => false
  | 2 => inexact && !neg
  | 3 => inexact && neg
  | _ => half ≤ twice && s != 0

/-- Divide by 2^s, rounding by the mode: the result and whether it is inexact. -/
def shiftRound (mode : Nat) (neg : Bool) (m s : Nat) (sticky : Bool) : Nat × Bool :=
  let keep := m / 2 ^ s
  let rem := m % 2 ^ s
  (if roundsUp mode neg keep rem s sticky then keep + 1 else keep, rem != 0 || sticky)

/-- The result of an overflow by mode: infinite or the largest finite value (R43). -/
def overflowsToInf (mode : Nat) (neg : Bool) : Bool :=
  match mode with
  | 1 => false
  | 2 => !neg
  | 3 => neg
  | _ => true

/-- Round the nonzero magnitude `m × 2^e` (a little more where `sticky`) into a format: the pattern and the flags
(R41, R43). -/
def FloatFmt.round (f : FloatFmt) (tc : Bool) (mode : Nat) (neg : Bool) (m : Nat) (e : Int) (sticky : Bool) : Nat × FFlags :=
  let p := f.fb + 1
  let q := max (e + bitLen m - p) f.qmin
  let (k, inexact) := if q ≤ e then (m * 2 ^ (e - q).toNat, sticky) else shiftRound mode neg m (q - e).toNat sticky
  let (k, q) := if k = 2 ^ p then (2 ^ (p - 1), q + 1) else (k, q)
  let tiny := k < 2 ^ (p - 1)
  let mag := if tiny then k else f.pack false (q - f.qmin + 1).toNat (k - 2 ^ (p - 1))
  if !tiny && f.maxFinite tc < mag then
    let r := if (f.narrow && !tc) || !overflowsToInf mode neg then f.maxFinite tc else f.infinity false
    (f.pack neg 0 0 + r, flagOF ||| flagNX)
  else (f.pack neg 0 0 + mag, flagIf (tiny && inexact) flagUF ||| flagIf inexact flagNX)

/-! ## Exact sums -/

/-- An exact signed number m × 2^e. -/
structure Exact where
  m : Int
  e : Int
  deriving DecidableEq, Repr

/-- The exact value of a finite number. -/
def exactOf (neg : Bool) (m : Nat) (e : Int) : Exact := { m := if neg then -(m : Int) else m, e := e }

/-- The exact sum. -/
def Exact.add (a b : Exact) : Exact :=
  let e := min a.e b.e
  { m := a.m * 2 ^ (a.e - e).toNat + b.m * 2 ^ (b.e - e).toNat, e := e }

/-- The exact product. -/
def Exact.mul (a b : Exact) : Exact := { m := a.m * b.m, e := a.e + b.e }

/-- The exact sum of a list. -/
def exactSum (xs : List Exact) : Exact := xs.foldl Exact.add { m := 0, e := 0 }

/-- An exact number rounded into a format; zero with the sign given (R41). -/
def FloatFmt.ofExact (f : FloatFmt) (tc : Bool) (mode : Nat) (x : Exact) (zeroNeg : Bool) : Nat × FFlags :=
  if x.m = 0 then (f.pack zeroNeg 0 0, 0) else f.round tc mode (x.m < 0) x.m.natAbs x.e false

/-! ## NaN and invalid operations (R47) -/

/-- The value is a NaN. -/
def FVal.isNan : FVal → Bool
  | .nan _ _ _ => true
  | _ => false

/-- The value is a signalling NaN. -/
def FVal.signals : FVal → Bool
  | .nan _ s _ => s
  | _ => false

/-- The value is an infinity. -/
def FVal.isInf : FVal → Bool
  | .inf _ => true
  | _ => false

/-- The value is a zero. -/
def FVal.isZero : FVal → Bool
  | .fin _ m _ => m == 0
  | _ => false

/-- The sign. -/
def FVal.neg : FVal → Bool
  | .nan n _ _ => n
  | .inf n => n
  | .fin n _ _ => n

/-- The value with its sign inverted. -/
def FVal.negate : FVal → FVal
  | .nan n s p => .nan (!n) s p
  | .inf n => .inf (!n)
  | .fin n m e => .fin (!n) m e

/-- The exact value of a finite number; zero for the others. -/
def FVal.exact : FVal → Exact
  | .fin n m e => exactOf n m e
  | _ => { m := 0, e := 0 }

/-- The first NaN among the operands, quieted, with NV where one signals (R47). DESIGN CHOICE: the payload of an f16 or bf16 lane stands
in the top fraction bits of an f32 result, where R44 puts it in a conversion. -/
def FloatFmt.firstNan (f : FloatFmt) (xs : List FVal) : Option (Nat × FFlags) :=
  match xs.find? FVal.isNan with
  | some (.nan n _ p) => some (f.quiet n p, flagIf (xs.any FVal.signals) flagNV)
  | _ => none

/-- The default NaN with NV (R47). -/
def FloatFmt.invalid (f : FloatFmt) : Nat × FFlags := (f.defaultNan, flagNV)

/-- The product of two values that are no NaN; `none` where it is 0 × ∞. -/
def mulVal (a b : FVal) : Option FVal :=
  match a, b with
  | .fin n m e, .fin n' m' e' => some (.fin (n != n') (m * m') (e + e'))
  | a, b => if a.isZero || b.isZero then none else some (.inf (a.neg != b.neg))

/-! ## Element operations of IEEE formats (R46, R47, R222) -/

/-- The sum of two values that are no NaN. -/
def FloatFmt.addVal (f : FloatFmt) (mode : Nat) (a b : FVal) : Nat × FFlags :=
  if a.isInf && b.isInf && a.neg != b.neg then f.invalid
  else if a.isInf then (f.infinity a.neg, 0)
  else if b.isInf then (f.infinity b.neg, 0)
  else
    let z := if a.isZero && b.isZero && a.neg == b.neg then a.neg else mode == 3
    f.ofExact false mode (a.exact.add b.exact) z

/-- a + b. -/
def FloatFmt.add (f : FloatFmt) (mode : Nat) (x y : Nat) : Nat × FFlags :=
  let a := f.read false x
  let b := f.read false y
  (f.firstNan [a, b]).getD (f.addVal mode a b)

/-- a − b. -/
def FloatFmt.sub (f : FloatFmt) (mode : Nat) (x y : Nat) : Nat × FFlags :=
  let a := f.read false x
  let b := f.read false y
  (f.firstNan [a, b]).getD (f.addVal mode a b.negate)

/-- A value that is no NaN, rounded into the format. -/
def FloatFmt.ofVal (f : FloatFmt) (mode : Nat) (v : FVal) : Nat × FFlags :=
  match v with
  | .nan n _ p => (f.quiet n p, 0)
  | .inf n => (f.infinity n, 0)
  | .fin n m e => f.ofExact false mode (exactOf n m e) n

/-- a × b. -/
def FloatFmt.mul (f : FloatFmt) (mode : Nat) (x y : Nat) : Nat × FFlags :=
  let a := f.read false x
  let b := f.read false y
  (f.firstNan [a, b]).getD
    (match mulVal a b with
     | none => f.invalid
     | some v => f.ofVal mode v)

/-- a × b + c, or a × b − c, rounded once. -/
def FloatFmt.fma (f : FloatFmt) (minus : Bool) (mode : Nat) (x y z : Nat) : Nat × FFlags :=
  let a := f.read false x
  let b := f.read false y
  let c := f.read false z
  match f.firstNan [a, b, c] with
  | some (r, fl) =>
    let bad := !a.isNan && !b.isNan && (mulVal a b).isNone
    (r, fl ||| flagIf bad flagNV)
  | none =>
    match mulVal a b with
    | none => f.invalid
    | some v => f.addVal mode v (if minus then c.negate else c)

/-- a < b of two values that are no NaN, −0 equal to +0. -/
def ltVal (a b : FVal) : Bool :=
  match a, b with
  | .inf n, .inf n' => n && !n'
  | .inf n, _ => n
  | _, .inf n' => !n'
  | a, b => (a.exact.add { m := -b.exact.m, e := b.exact.e }).m < 0

/-- a below b where −0 is below +0 (R46). -/
def below (a b : FVal) : Bool := ltVal a b || (a.isZero && b.isZero && a.neg && !b.neg)

/-- The lesser or the greater (R46). -/
def FloatFmt.pick (f : FloatFmt) (greater : Bool) (x y : Nat) : Nat × FFlags :=
  let a := f.read false x
  let b := f.read false y
  (f.firstNan [a, b]).getD (if below b a != greater then y else x, 0)

/-- a with its sign cleared or inverted; a NaN quieted with its sign unchanged (R222). -/
def FloatFmt.signOp (f : FloatFmt) (inv : Bool) (x : Nat) : Nat × FFlags :=
  let a := f.read false x
  (f.firstNan [a]).getD (f.pack (inv && !a.neg) 0 0 + x % 2 ^ (f.eb + f.fb), 0)

/-- a ÷ b (R222). -/
def FloatFmt.div (f : FloatFmt) (mode : Nat) (x y : Nat) : Nat × FFlags :=
  let a := f.read false x
  let b := f.read false y
  let s := a.neg != b.neg
  (f.firstNan [a, b]).getD
    (match a, b with
     | .inf _, .inf _ => f.invalid
     | .inf _, _ => (f.infinity s, 0)
     | _, .inf _ => (f.pack s 0 0, 0)
     | .fin _ m e, .fin _ m' e' =>
       if m' = 0 then (if m = 0 then f.invalid else (f.infinity s, flagDZ))
       else if m = 0 then (f.pack s 0 0, 0)
       else
         let k := f.fb + 4 + bitLen m'
         let n := m * 2 ^ k
         f.round false mode s (n / m') (e - e' - k) (n % m' != 0)
     | _, _ => f.invalid)

/-- The integer square root of `v`, built from bit `n − 1` of the root down. -/
def isqrtFrom (v : Nat) : Nat → Nat → Nat
  | 0, r => r
  | n + 1, r => isqrtFrom v n (if (r + 2 ^ n) * (r + 2 ^ n) ≤ v then r + 2 ^ n else r)

/-- √a (R222). -/
def FloatFmt.sqrt (f : FloatFmt) (mode : Nat) (x : Nat) : Nat × FFlags :=
  let a := f.read false x
  (f.firstNan [a]).getD
    (match a with
     | .inf n => if n then f.invalid else (x, 0)
     | .fin n m e =>
       if m = 0 then (x, 0)
       else if n then f.invalid
       else
         let k0 := 2 * f.fb + 8
         let k := if (e - k0) % 2 = 0 then k0 else k0 + 1
         let v := m * 2 ^ k
         let r := isqrtFrom v ((bitLen v + 1) / 2) 0
         f.round false mode false r ((e - k) / 2) (r * r != v)
     | _ => f.invalid)

/-- Sums of values into the format `d` (R48, R224): NaN and infinity rules, then one rounding; `invalid` says that a
product was 0 × ∞. -/
def FloatFmt.sum (d : FloatFmt) (mode : Nat) (invalid : Bool) (xs : List FVal) : Nat × FFlags :=
  if invalid || (xs.any (fun v => v.isInf && v.neg) && xs.any fun v => v.isInf && !v.neg) then d.invalid
  else
    match xs.find? FVal.isInf with
    | some v => (d.infinity v.neg, 0)
    | none => d.ofExact false mode (exactSum (xs.map FVal.exact)) (mode == 3 || xs.all FVal.neg)

/-- `vred.sum` over lanes in format `f` with the accumulator in `d` (R224). -/
def reduceSum (f d : FloatFmt) (mode : Nat) (lanes : List Nat) (acc : Nat) : Nat × FFlags :=
  let xs := lanes.map (f.read false) ++ [d.read false acc]
  (d.firstNan xs).getD (d.sum mode false xs)

/-- `vdot` over lane pairs in format `f` with the accumulator in `d` (R224). -/
def dotSum (f d : FloatFmt) (mode : Nat) (lanes : List (Nat × Nat)) (acc : Nat) : Nat × FFlags :=
  let ps := lanes.map fun xy => (f.read false xy.1, f.read false xy.2)
  let c := d.read false acc
  (d.firstNan (ps.flatMap (fun ab => [ab.1, ab.2]) ++ [c])).getD
    (let vs := ps.map fun ab => mulVal ab.1 ab.2
     d.sum mode (vs.any Option.isNone) (vs.filterMap id ++ [c]))

/-- `vred.max` and `vred.min`: the accumulator last (R224). -/
def reducePick (f : FloatFmt) (greater : Bool) (lanes : List Nat) (acc : Nat) : Nat × FFlags :=
  let xs := (lanes ++ [acc]).map (f.read false)
  (f.firstNan xs).getD
    (lanes.foldl (fun b x => if below (f.read false x) (f.read false b) != greater && f.read false x != f.read false b
                              then x else b) acc, 0)

/-- A float comparison by condition code: eq, ne, lt, le, un (R223). -/
def FloatFmt.compare (f : FloatFmt) (cond : Nat) (x y : Nat) : Bool × FFlags :=
  let a := f.read false x
  let b := f.read false y
  if a.isNan || b.isNan then
    (cond == 1 || cond == 4, flagIf (a.signals || b.signals || cond == 2 || cond == 3) flagNV)
  else
    let lt := ltVal a b
    let gt := ltVal b a
    (match cond with
     | 0 => !lt && !gt
     | 1 => lt || gt
     | 2 => lt
     | 3 => !gt
     | _ => false, 0)

/-! ## Conversions (R43 to R45, R225) -/

/-- What a `vcvt` operand holds (R31). -/
inductive NumKind where
  | int (signed : Bool) (w : Nat)
  | flt (f : FloatFmt)
  | scale
  deriving DecidableEq, Repr

/-- The kind of a `vcvt` operand's format code (R31). -/
def numKind (code : Nat) : NumKind :=
  match floatFmt code with
  | some f => .flt f
  | none => if code = 0x11 then .scale else .int (code % 2 == 0) (8 * 2 ^ (code / 2))

/-- An integer from its bits. -/
def intOf (signed : Bool) (w x : Nat) : Int :=
  if signed && 2 ^ (w - 1) ≤ x then (x : Int) - 2 ^ w else x

/-- The bits of an integer. -/
def bitsOfInt (w : Nat) (n : Int) : Nat := (n % 2 ^ w).toNat

/-- The least and greatest integers of a kind. -/
def intRange (signed : Bool) (w : Nat) : Int × Int :=
  if signed then (-(2 ^ (w - 1)), 2 ^ (w - 1) - 1) else (0, 2 ^ w - 1)

/-- An integer clamped to a kind. -/
def clampInt (signed : Bool) (w : Nat) (n : Int) : Int :=
  let (lo, hi) := intRange signed w
  max lo (min hi n)

/-- The value of a source element (R36, R39). -/
def NumKind.read (k : NumKind) (tc : Bool) (x : Nat) : FVal :=
  match k with
  | .int s w => let n := intOf s w x; .fin (n < 0) n.natAbs 0
  | .flt f => f.read tc x
  | .scale => if x = 255 then .nan false false 0 else .fin false 1 ((x : Int) - 127)

/-- A value into a float format (R43, R44). -/
def FloatFmt.convert (f : FloatFmt) (tc : Bool) (mode : Nat) (v : FVal) : Nat × FFlags :=
  match v with
  | .nan n s p =>
    if f.allFinite tc then (0, flagNV ||| flagNS) else (f.quiet n p, flagIf s flagNV)
  | .inf n =>
    if f.narrow && !tc then (f.pack n 0 0 + f.maxFinite tc, flagNS) else (f.infinity n, 0)
  | .fin n m e => f.ofExact tc mode (exactOf n m e) n

/-- A value into an integer (R45). -/
def convertInt (signed : Bool) (w mode : Nat) (v : FVal) : Nat × FFlags :=
  let (lo, hi) := intRange signed w
  match v with
  | .nan _ _ _ => (0, flagNV)
  | .inf n => (bitsOfInt w (if n then lo else hi), flagNV)
  | .fin n m e =>
    let (k, inexact) := if 0 ≤ e then (m * 2 ^ e.toNat, false) else shiftRound mode n m (-e).toNat false
    let r : Int := if n then -(k : Int) else k
    if r < lo ∨ hi < r then (bitsOfInt w (if r < lo then lo else hi), flagNV)
    else (bitsOfInt w r, flagIf inexact flagNX)

/-- A value into a scale exponent (R45). -/
def convertScale (v : FVal) : Nat × FFlags :=
  match v with
  | .nan _ _ _ => (255, flagNV)
  | .inf _ => (255, flagNV)
  | .fin _ m e =>
    if m = 0 then (0, 0)
    else
      let g := e + bitLen m - 1
      let c := max 0 (min 254 (g + 127))
      (c.toNat, flagIf (!(c - 127 = g && m == 2 ^ (bitLen m - 1))) flagNX)

/-- One element of `vcvt` (R43 to R45): a wider integer extends by the source's kind, a narrower one saturates. DESIGN CHOICE:
between two integers of one width and different sign, which is neither, the model saturates. -/
def convertElem (src tgt : NumKind) (tc : Bool) (mode x : Nat) : Nat × FFlags :=
  match src, tgt with
  | .int s w, .int s' w' => (bitsOfInt w' (if w < w' then intOf s w x else clampInt s' w' (intOf s w x)), 0)
  | .scale, .scale => (x, 0)
  | _, .int s w => convertInt s w mode (src.read tc x)
  | _, .flt f => f.convert tc mode (src.read tc x)
  | _, .scale => convertScale (src.read tc x)

end Sys2Proof.Machine
end

