-- ==== Sys2Proof/Machine/Matrix.lean ====
section
/-! DEFINITION. The matrix unit: solo and gang operations, accumulators, rehearsals, and the events of an operation's life
(02_numbers R49 to R52; 12_isa_matrix R228 to R240). -/

namespace Sys2Proof.Machine

/-! ## Formats, times and sums (R49 to R52, R231) -/

/-- K and the group size of an accepted pair of formats (R49). -/
def MatSample.pair (s : MatSample) : Option (Nat × Nat) :=
  let a := s.fmta.toNat
  let b := s.fmtb.toNat
  let f8 (n : Nat) : Bool := n == 0x0C || n == 0x0D
  let f16 (n : Nat) : Bool := n == 0x0A || n == 0x0B
  if f8 a && f8 b then some (384, 32)
  else if a = 0x0E ∧ b = 0x0E then some (512, 32)
  else if a = 0x0F ∧ b = 0x0F then some (768, 32)
  else if f16 a && f16 b then some (192, 16)
  else if a = 0x00 ∧ b = 0x10 then some (384, 32)
  else none

/-- K and the group size of an accepted sample: the pair of its formats, and a plane count from 2 to 8, whatever the pair
(R49, R229). -/
def MatSample.spec (s : MatSample) : Option (Nat × Nat) :=
  if 2 ≤ s.planes.toNat ∧ s.planes.toNat ≤ 8 then s.pair else none

/-- The operands are i8 and bit planes. -/
def MatSample.planar (s : MatSample) : Bool := s.fmta == 0x00

/-- The control register whose value R49 does not accept, by its `kput` number, and that value: kfmta where no pair has it first,
kfmtb where the pair is not accepted, else kplanes. DESIGN CHOICE: the spec says that the record carries the code and the
register, and not in which fields, nor which register where several are refused (R32). -/
def MatSample.misfit (s : MatSample) : Nat × Nat :=
  if !(s.fmta == 0x00 || (0x0A ≤ s.fmta && s.fmta ≤ 0x0F)) then (2, s.fmta.toNat)
  else if s.pair.isNone then (3, s.fmtb.toNat)
  else (6, s.planes.toNat)

/-- Sub-arrays not fenced. -/
def Core.healthy (k : Core) : Nat := ((List.range 4).filter fun i => !bit k.fence i).length

/-- Cycles of the arithmetic with `n` sub-arrays (R231). DESIGN CHOICE: 0 with none, of an operation issued before a rehearsal fences the
last sub-array. -/
def MatSample.cycles (s : MatSample) (n : Nat) : Nat :=
  if s.planar then ceilDiv (49152 * s.planes.toNat) (1024 * n)
  else if s.fmta = 0x0E then ceilDiv 65536 (128 * n)
  else if s.fmta = 0x0F then (if n = 4 then 96 else ceilDiv 98304 (128 * n))
  else if s.fmta = 0x0A ∨ s.fmta = 0x0B then ceilDiv 24576 (64 * n)
  else ceilDiv 49152 (128 * n)

/-- The elements of a row or column as values (R37). -/
def rowVals (fmt : Nat) (tc : Bool) (k : Nat) (bs : List Byte) : List FVal :=
  match floatFmt fmt with
  | none => []
  | some f =>
    let v := leNat bs
    (List.range k).map fun j => f.read tc (v / 2 ^ (f.width * j) % 2 ^ f.width)

/-- The elements of an i8 row (R33). -/
def byteInts (bs : List Byte) : List Int := bs.map (·.toInt)

/-- The elements of a bp column read by its first `p` planes, at the magnitude of eight (R40, R52). -/
def planeInts (p : Nat) (bs : List Byte) : List Int :=
  let v := leNat bs
  (List.range 384).map fun j =>
    let q := (List.range p).foldl (fun n k => 2 * n + v / 2 ^ (384 * k + j) % 2) 0
    intOf true p q * 2 ^ (8 - p)

/-- A list cut into groups of `g`. -/
def groupsOf {α : Type} (g : Nat) (xs : List α) : Nat → List (List α)
  | 0 => []
  | n + 1 => xs.take g :: groupsOf g (xs.drop g) n

/-- The default NaN of f32. -/
def nan32 : Nat := 0x7FC00000

/-- One group added to an f32 accumulator element (R50, R51). -/
def groupStep (c : Nat) (ab : List (FVal × FVal)) (sa sb : Nat) : Nat :=
  let cv := fmtF32.read false c
  let prods := ab.map fun p => if p.1.isNan || p.2.isNan then none else mulVal p.1 p.2
  if cv.isNan || sa == 255 || sb == 255 || prods.any (·.isNone) then nan32
  else
    let ps := prods.filterMap id
    match ps.filter FVal.isInf with
    | [] =>
      let s := exactSum (ps.map FVal.exact)
      if s.m = 0 || cv.isInf then c
      else (fmtF32.ofExact false 0 (cv.exact.add { s with e := s.e + sa + sb - 254 }) false).1
    | i :: is => if is.any (·.neg != i.neg) || (cv.isInf && cv.neg != i.neg) then nan32 else fmtF32.infinity i.neg

/-- An A row or a B column, cut into groups, with its scales. -/
structure Line where
  vals : List (List FVal)
  ints : List (List Int)
  scales : List Nat

/-- A row of 384 bytes and its scale bytes under a sample (R228). -/
def MatSample.line (s : MatSample) (isB : Bool) (k g : Nat) (row scales : List Byte) : Line :=
  let fmt := (if isB then s.fmtb else s.fmta).toNat
  if s.planar then
    { vals := [], scales := [],
      ints := groupsOf g (if isB then planeInts s.planes.toNat row else byteInts row) (k / g) }
  else
    { vals := groupsOf g (rowVals fmt s.tc k row) (k / g), ints := []
      scales := if scaleGroups fmt = 0 then List.replicate (k / g) 127 else scales.map (·.toNat) }

/-- One accumulator element over a row and a column (R50, R52). -/
def elemOf (planar : Bool) (c : BitVec 32) (a b : Line) : BitVec 32 :=
  if planar then
    (a.ints.zip b.ints).foldl (fun c ab => c + BitVec.ofInt 32 ((ab.1.zip ab.2).map fun p => p.1 * p.2).sum) c
  else
    BitVec.ofNat 32 (((a.vals.zip b.vals).zip (a.scales.zip b.scales)).foldl
      (fun c x => groupStep c (x.1.1.zip x.1.2) x.2.1 x.2.2) c.toNat)

/-- The tile that an operation gives: element (i, j) at 8 i + j (R228). -/
def tileOf (planar : Bool) (acc : Vector (BitVec 32) 128) (as bs : List Line) : List (BitVec 32) :=
  (as.zipIdx).flatMap fun ai => (bs.zipIdx).map fun bj => elemOf planar (vget acc 0 (8 * ai.2 + bj.2)) ai.1 bj.1

/-! ## Issue (R229, R233, R234) -/

/-- The registers that a matrix operation samples. -/
def ThreadSet.matSample (t : ThreadSet) : MatSample :=
  { fmta := t.kfmta, fmtb := t.kfmtb, scla := t.kscla, sclb := t.ksclb, planes := t.kplanes, tc := t.tc }

/-- An operation into the accumulator is in flight (R61). -/
def Core.accBusy (k : Core) (n : Nat) : Bool := k.mat.any (·.acc == n)

/-- The checks of R229 in their order; `leads` says that the A or ROW range is checked as well (R234). DESIGN CHOICE: ROW must be a
multiple of 16 as A must, of which R229 and R234 say nothing. -/
def MatOp.check (o : MatOp) (leads : Bool) (fence : BitVec 4) : Option FaultRec :=
  let g := scaleGroups o.sample.fmta.toNat
  let a := o.a.toNat
  let b := o.b.toNat
  let fits : List (Nat × Nat) :=
    (if leads then [(a, if o.mix.isSome then 384 + g else 6144)] else []) ++ [(b, 3072)] ++
    (if leads && o.mix.isNone then [(o.sample.scla.toNat, 16 * g)] else []) ++ [(o.sample.sclb.toNat, 8 * g)]
  if leads && a % 16 != 0 then some { faultOf Cause.alignment with addr := wd a }
  else if b % 16 ≠ 0 then some { faultOf Cause.alignment with addr := wd b }
  else
    match fits.find? fun r => 65536 < r.1 + r.2 with
    | some r => some { faultOf Cause.address with addr := wd r.1 }
    | none =>
      if o.sample.spec.isNone then
        some { faultOf Cause.illegalOperation with addr := wd o.sample.misfit.1, data := wd o.sample.misfit.2 }
      else if fence = 0xF then some { faultOf Cause.matrixFenced with data := 0xF }
      else none

/-- The operation is issued: it waits in the unit's list, owns its accumulator, and counts as started (R61, R229, R239). -/
def Mach.addMat (m : Mach) (c : Nat) (o : MatOp) : Mach :=
  let m' := { m with nextCid := m.nextCid + 1 }
  m'.modCore c fun k =>
    { k with mat := k.mat ++ [{ o with uid := m.nextCid }], owner := vset k.owner o.acc (BitVec.ofNat 2 o.ts), sinceReh := k.sinceReh + 1 }

/-- The cluster row, or the pair of rows, that a core's gang spans: its number and its first column (R233). -/
def rowOf (c : Nat) (pair : Bool) : Nat × Nat :=
  let (x, y) := posOf c
  let x0 := if pair then x / 32 * 32 else x / 16 * 16
  (y * 32 + x0 / 16, x0)

/-- The members of a gang: the live cores of a row of `posOf` number `row` (R233). -/
def Mach.members (m : Mach) (row : Nat) (pair : Bool) : List Nat :=
  let x0 := row % 32 * 16
  ((List.range (if pair then 32 else 16)).map fun i => row / 32 * 512 + (x0 + i)).filter m.live

/-- The open round of a row. -/
def Mach.round (m : Mach) (row : Nat) (pair : Bool) : Option Round := m.rounds.find? fun r => r.row == row && r.pair == pair

/-- A round changed. -/
def Mach.modRound (m : Mach) (row : Nat) (pair : Bool) (f : Round → Round) : Mach :=
  { m with rounds := m.rounds.map fun r => if r.row == row && r.pair == pair then f r else r }

/-- A round whose abort is noted; it is opened where none was open. The first cause stands, and an operation that runs goes on
(R235). -/
def Mach.cutRound (m : Mach) (row : Nat) (pair : Bool) (cause : Byte) (c : Nat) (lane : Byte) : Mach :=
  match m.round row pair with
  | none => { m with rounds := m.rounds ++ [{ row := row, pair := pair, first := m.clk, arrived := [], cut := some (cause, c, lane) }] }
  | some _ => m.modRound row pair fun r => if r.live || r.cut.isSome then r else { r with cut := some (cause, c, lane) }

/-- The pair of a core's clusters lies in its partition (R233). -/
def Mach.pairOk (m : Mach) (c : Nat) (pair : Bool) : Bool :=
  let (x, y) := posOf c
  c < meshCores && (!pair || ((m.part (m.core c).part.toNat).holds (x / 32 * 32) y &&
    (m.part (m.core c).part.toNat).holds (x / 32 * 32 + 16) y))

/-- A trap at the gang-issue instruction of core `c` cuts the round of its gang, where the core has one (R233, R235). -/
def Mach.cutAt (m : Mach) (c : Nat) (pair : Bool) (cause : Byte) : Mach :=
  if m.pairOk c pair then m.cutRound (rowOf c pair).1 pair cause c 0 else m

/-- A trap of a gang-issue instruction whose operands could not be read, and whose PAIR is therefore not known, cuts the rounds
that are open at its core. DESIGN CHOICE: where none is open, it cuts the round of its cluster row (R235). -/
def Mach.cutUnread (m : Mach) (c : Nat) (cause : Byte) : Mach :=
  match [false, true].filter fun pair => (m.round (rowOf c pair).1 pair).any (!·.live) with
  | [] => m.cutAt c false cause
  | ps => ps.foldl (fun m pair => m.cutAt c pair cause) m

/-- The rows of the other PAIR value that share a core with a row (R234). -/
def rivals (row : Nat) (pair : Bool) : List (Nat × Bool) :=
  if pair then [(row, false), (row + 1, false)] else [(row / 2 * 2, true)]

/-- A member arrives at the barrier with its operation; an open round of the other PAIR value, and its own, are cut
(R234). -/
def Mach.arrive (m : Mach) (c : Nat) (o : MatOp) : Mach :=
  let (row, _) := rowOf c o.pair
  let m := m.addMat c o
  let m := match m.round row o.pair with
    | none => { m with rounds := m.rounds ++ [{ row := row, pair := o.pair, first := m.clk, arrived := [c] }] }
    | some _ => m.modRound row o.pair fun r => { r with arrived := r.arrived ++ [c] }
  let open_ := (rivals row o.pair).filter fun rp => (m.round rp.1 rp.2).any fun r => !r.live
  let mis : Byte := BitVec.ofNat 8 Cause.gangMismatch
  if open_ = [] then m
  else (open_.foldl (fun m rp => m.cutRound rp.1 rp.2 mis c 0) m).cutRound row o.pair mis c 0

/-- The record of gang-abort for a cause, the member `c` and a lane (R235, R311). -/
def abortRec (cut : Byte × Nat × Byte) : FaultRec :=
  { faultOf Cause.gangAbort with inner := cut.1, lane := cut.2.2 }.from cut.2.1

/-- The gang trap that core `c` receives in place of its next gang-issue instruction, with the machine in which it has received it:
one that it is owed, or the abort of a round that is cut and at which it has not arrived (R234, R235, R240). -/
def Mach.gangDebt (m : Mach) (c : Nat) : Option (FaultRec × Mach) :=
  match (m.core c).gangOwed with
  | some r => some (r, m.modCore c fun k => { k with gangOwed := none })
  | none =>
    [false, true].findSome? fun pair =>
      let row := (rowOf c pair).1
      (m.round row pair).bind fun r =>
        if !(m.members row pair).contains c || r.arrived.contains c then none
        else r.cut.map fun cut => (abortRec cut, m.modRound row pair fun r => { r with arrived := r.arrived ++ [c] })

/-- A gang-issue instruction or job at its issue: the trap it raises, with the machine after it, or its arrival. `bad` is an operand
with a bit that must be zero, `named` the one with PAIR; the record names the one that is not as R233 says (R7, R233 to R235). -/
def Mach.gangIssue (m : Mach) (c : Nat) (o : MatOp) (bad : Option Word) (named : Word) : Except (FaultRec × Mach) Mach :=
  match m.gangDebt c with
  | some r => .error r
  | none =>
    let leads := m.leaderOf c == c
    let o := if leads then o else { o with a := 0, mix := none }
    let fault :=
      match bad.or (if m.pairOk c o.pair then none else some named) with
      | some w => some { faultOf Cause.illegalOperation with addr := w }
      | none => o.check leads (m.core c).fence
    match fault with
    | some r => .error (r, m.cutAt c o.pair r.cause)
    | none => .ok (m.arrive c o)

/-- A gang-issue instruction must wait, whatever its operands: its accumulator is busy, or its core has arrived at a round or
takes part in a running gang operation (R61, R234). -/
def Mach.gangWaits (m : Mach) (c acc : Nat) : Bool := (m.core c).accBusy acc || (m.core c).mat.any (·.gang)

/-- A gang-issue instruction must wait: as `gangWaits`, or for the operation of its row that runs (R61, R234). -/
def Mach.gangBusy (m : Mach) (c acc : Nat) (pair : Bool) : Bool :=
  m.gangWaits c acc || (m.round (rowOf c pair).1 pair).any (·.live)

/-- The operation of an instruction of the current thread set. -/
def Mach.matOp (m : Mach) (acc : Nat) (gang pair : Bool) (mix : Option V128) (a b : Nat) : MatOp :=
  let t := m.me
  { acc := acc, gang := gang, pair := pair, mix := mix, a := BitVec.ofNat 16 a, b := BitVec.ofNat 16 b,
    sample := t.matSample, ts := m.tsNo, cid := t.cid, pc := t.pc, priv := t.priv }

/-- The accumulator that a field names. -/
def accNo (r : RegNo) : Nat := r.toNat % 4

/-- `mma` (R232). -/
def semMma (x : Args) : Act Unit := do
  srcPort false x.s
  srcPort false x.t
  let n := accNo x.d
  stallUntil !((← myCore).accBusy n)
  let a ← readX x.s
  let b ← readX x.t
  require (fld a 63 16 == 0) { faultOf Cause.illegalOperation with addr := a }
  require (fld b 63 16 == 0) { faultOf Cause.illegalOperation with addr := b }
  let m ← get
  let o := m.matOp n false false none (fld a 15 0) (fld b 15 0)
  match o.check true m.myCore.fence with
  | some r => trap r
  | none => set (m.addMat m.here o)

/-- A gang-issue instruction's end: arrival, or a trap whose abort of the round stays (R235). -/
def gangEnd (m0 : Mach) (o : MatOp) (bad : Option Word) (named : Word) : Act Unit := do
  let m ← get
  match m.gangIssue m.here o bad named with
  | .ok m' => set m'
  | .error (r, _) => do
    match m0.gangIssue m0.here o bad named with
    | .error (_, m') => set m'
    | .ok _ => pure ()
    throw (.trapKeep r)

/-- The operands of a gang-issue instruction; a trap that reading them raises is a trap of the instruction at issue (R235). -/
def gangRead {α : Type} (rd : Act α) : Act α := do
  let m0 ← get
  tryCatch rd fun e =>
    match e with
    | .trap r => do
      set (m0.cutUnread m0.here r.cause)
      throw (.trapKeep r)
    | .streamFault i r => do
      set ((m0.cutUnread m0.here r.cause).modMe fun t => t.setSlot i { t.slot i with flt := true, fault := some (r.cause, r.addr) })
      throw (.trapKeep r)
    | e => throw e

/-- What comes before the operands of a gang-issue instruction: its waits, and the gang trap that its core receives in place of any
effect (R61, R234, R235, R240). -/
def gangGate (acc : Nat) : Act Unit := do
  let m ← get
  stallUntil !(m.gangWaits m.here acc)
  match m.gangDebt m.here with
  | none => pure ()
  | some (r, m') => do
    set m'
    throw (.trapKeep r)

/-- The first of these operands with a bit that must be zero. -/
def badOperand (ws : List (Word × Bool)) : Option Word := (ws.find? (·.2)).map (·.1)

/-- `mmag` (R233). -/
def semMmag (x : Args) : Act Unit := do
  gangGate (accNo x.d)
  let m0 ← get
  let (a, b) ← gangRead do
    srcPort false x.s
    srcPort false x.t
    let a ← readX x.s
    let b ← readX x.t
    return (a, b)
  let m ← get
  let pair := bit a 16
  stallUntil !(m.gangBusy m.here (accNo x.d) pair)
  gangEnd m0 (m.matOp (accNo x.d) true pair none (fld a 15 0) (fld b 15 0))
    (badOperand [(a, fld a 63 17 != 0), (b, fld b 63 16 != 0)]) a

/-- `mmix` (R233). -/
def semMmix (x : Args) : Act Unit := do
  gangGate (accNo x.d)
  let m0 ← get
  let (v, b) ← gangRead do
    srcPort true x.s
    srcPort false x.t
    let v ← readV x.s
    let b ← readX x.t
    return (v, b)
  let m ← get
  let pair := bit b 32
  stallUntil !(m.gangBusy m.here (accNo x.d) pair)
  gangEnd m0 (m.matOp (accNo x.d) true pair (some v) (fld b 31 16) (fld b 15 0)) (badOperand [(b, fld b 63 33 != 0)]) b

/-! ## The start of an operation (R230, R239) -/

/-- Where the A rows of an operation stand: core, row offset, scale offset (R233). -/
def MatOp.rows (o : MatOp) (c : Nat) : List (Nat × Nat × Nat) :=
  let g := scaleGroups o.sample.fmta.toNat
  match o.mix with
  | none => (List.range 16).map fun i => (c, o.a.toNat + 384 * i, o.sample.scla.toNat + g * i)
  | some v => (mixBytes v).map fun b => (mixCore c b, o.a.toNat, o.a.toNat + 384)

/-- The ranges that reading rows and columns takes: core, first, length. -/
def MatOp.sources (o : MatOp) (c : Nat) (rows : List (Nat × Nat × Nat)) : List (Nat × Nat × Nat) :=
  let g := scaleGroups o.sample.fmta.toNat
  (rows.flatMap fun r => (r.1, r.2.1, 384) :: (if g = 0 then [] else [(r.1, r.2.2, g)])) ++
  ((c, o.b.toNat, 3072) :: (if g = 0 then [] else [(c, o.sample.sclb.toNat, 8 * g)]))

/-- The ranges of which the arithmetic reads a byte: of a bp column, its first p planes alone (R40, R228). -/
def MatOp.reads (o : MatOp) (c : Nat) (rows : List (Nat × Nat × Nat)) : List (Nat × Nat × Nat) :=
  if o.sample.planar then
    (rows.map fun r => (r.1, r.2.1, 384)) ++ (List.range 8).map fun j => (c, o.b.toNat + 384 * j, 48 * o.sample.planes.toNat)
  else o.sources c rows

/-- The number by which an operation is later than a job: that of its own job, or its own (R230, R236). -/
def MatOp.rank (o : MatOp) : Nat := o.job.getD o.uid

/-- No earlier job writes into, and no copy has still to fill, a range at its core (R230). -/
def Mach.rangeReady (m : Mach) (o : MatOp) (r : Nat × Nat × Nat) : Bool :=
  let k := m.core r.1
  (k.aboveMark r.2.1 r.2.2).isNone &&
  !k.jobs.any fun j => j.uid < o.rank && (footprints j.card).any fun f => f.2.2 && meets r.2.1 r.2.2 f.1 (f.2.1 + 1)

/-- The unit of a core is free to begin: no operation runs and no rehearsal. -/
def Mach.unitFree (m : Mach) (c : Nat) : Bool := !(m.core c).mat.any (·.runs) && (m.core c).rehEnd ≤ m.clk

/-- A rehearsal is due before the core's operation `o`: a period of operations started before it (R239). -/
def Core.rehDue (k : Core) (o : MatOp) : Bool := k.period.toNat + (k.mat.filter fun p => o.uid ≤ p.uid).length ≤ k.sinceReh

/-- A rehearsal: failing sub-arrays are fenced and reported; the fixed patterns' products stand in the shadows; the count goes on
with the operations that have not begun. The events of an `mreh` name its issuer (R239, R310). -/
def Mach.rehearse (m : Mach) (c : Nat) (ts : Option Nat := none) (pc : BitVec 14 := 0) (priv : Priv := .user) : Mach :=
  let k := m.core c
  let new := k.failing &&& ~~~k.fence
  let sh : Vector (Vector (BitVec 32) 128) 4 :=
    Vector.ofFn fun i => Vector.ofFn fun j => (Config.freeWord (m.fresh + 128 * i.val + j.val)).setWidth 32
  let m := { m with fresh := m.fresh + 512 }
  let m := m.modCore c fun k =>
    { k.charge 1 with sinceReh := (k.mat.filter (!·.runs)).length, rehEnd := m.clk + 24, shadow := sh, fence := k.fence ||| new }
  (List.range 4).foldl (fun m i =>
    if bit new i then
      m.event c { faultOf Cause.rehearsalFence with index := BitVec.ofNat 16 i, pc := pc, priv := BitVec.ofNat 2 priv.code } ts
    else m) m

/-- An uncorrectable error in a range. -/
def Mach.badSource (m : Mach) (rs : List (Nat × Nat × Nat)) : Option (Nat × Nat × Nat) :=
  rs.find? fun r => ((m.core r.1).badRead r.2.1 r.2.2).isSome

/-- The tile of core `c`'s operation over the rows given; a failing sub-array that is not fenced gives wrong results,
which the spec does not state (R239). -/
def Mach.tile (m : Mach) (c : Nat) (o : MatOp) (rows : List (Nat × Nat × Nat)) : List (BitVec 32) × Mach :=
  let k := m.core c
  if k.failing &&& ~~~k.fence = 0 then
    match o.sample.spec with
    | none => ([], m)
    | some (n, g) =>
      let ng := n / g
      let as := rows.map fun r =>
        o.sample.line false n g (Memory.bytes (m.core r.1).mem r.2.1 384) (Memory.bytes (m.core r.1).mem r.2.2 ng)
      let bs := (List.range 8).map fun j =>
        o.sample.line true n g (Memory.bytes k.mem (o.b.toNat + 384 * j) 384) (Memory.bytes k.mem (o.sample.sclb.toNat + ng * j) ng)
      (tileOf o.sample.planar (vget k.acc (Vector.replicate 128 0) o.acc) as bs, m)
  else ((List.range 128).map fun i => (Config.freeWord (m.fresh + i)).setWidth 32, { m with fresh := m.fresh + 128 })

/-- The operation `o` of core `c` begins and ends at cycle `done`: the accumulator goes to its shadow (R61, R230). -/
def Mach.beginOp (m : Mach) (c : Nat) (o : MatOp) (rows : List (Nat × Nat × Nat)) (done : Nat) : Mach :=
  let (t, m) := m.tile c o rows
  let m := (o.reads c rows).foldl (fun m r => m.modCore r.1 (·.correct r.2.1 r.2.2)) m
  m.modCore c fun k =>
    { k.charge 1 with
      shadow := vset k.shadow o.acc (vget k.acc (Vector.replicate 128 0) o.acc)
      mat := k.mat.map fun p => if p.uid == o.uid then { p with phase := .running done t } else p }

/-- A job ends in the fault that its operation has met; the record of a job fault has no place for kreh.FENCE (R186, R311). -/
def Job.failed (j : Job) (r : FaultRec) : Job :=
  { j with phase := .faulted r.cause r.addr 0 0 (if r.cause.toNat = Cause.matrixFenced then 0 else r.data) }

/-- The operation leaves the unit; a fault goes to its issuer, or to its job (R186, R236). -/
def Mach.endMat (m : Mach) (c : Nat) (o : MatOp) (fault : Option FaultRec) : Mach :=
  let m := m.modCore c fun k =>
    { k with
      mat := k.mat.filter (·.uid != o.uid)
      acc := if fault.isSome && (k.mat.any fun p => p.uid == o.uid && p.runs) then
               vset k.acc o.acc (vget k.shadow (Vector.replicate 128 0) o.acc) else k.acc }
  match fault, o.job with
  | none, none => m
  | none, some j => m.modCore c fun k =>
      { k with jobs := k.jobs.map fun q => if q.uid == j then { q with phase := .running (some m.clk) } else q }
  | some r, none => m.deliverFault c o.ts o.cid { r with pc := o.pc, priv := BitVec.ofNat 2 o.priv.code }
  | some r, some j => m.modCore c fun k =>
      { k with jobs := k.jobs.map fun q => if q.uid == j then q.failed r else q }

/-! ## The order of beginning (R230, R231) -/

/-- The gang operation of a member. -/
def Mach.gangOp (m : Mach) (c : Nat) : Option MatOp := (m.core c).mat.find? (·.gang)

/-- The leaders of a gang, the west one first (R233). -/
def Mach.leaders (m : Mach) (row : Nat) (pair : Bool) : List Nat := (m.members row pair).filter fun c => m.leaderOf c == c

/-- The A rows that the leaders supply: all 16 of one, or the first and the last 8 of two (R233). DESIGN CHOICE: a paired gang in
which a whole row of one cluster is fused off has one leader, for which R233 gives no rows beyond its own eight: it supplies
all 16. -/
def Mach.gangRows (m : Mach) (row : Nat) (pair : Bool) : List (Nat × Nat × Nat) :=
  let rs := (m.leaders row pair).map fun c => ((m.gangOp c).map (·.rows c)).getD []
  match rs with
  | [w, e] => w.take 8 ++ e.drop 8
  | r :: _ => r
  | [] => []

/-- The A rows that member `c` supplies to the gang's operation (R233). -/
def Mach.supplied (m : Mach) (row : Nat) (pair : Bool) (c : Nat) : List (Nat × Nat × Nat) :=
  let rs := m.gangRows row pair
  match m.leaders row pair with
  | [w, e] => if c = w then rs.take 8 else if c = e then rs.drop 8 else []
  | _ => if m.leaderOf c = c then rs else []

/-- Every member of a round has arrived, and the ranges that each one reads are ready: its columns, and the rows that it
supplies (R230, R234). -/
def Mach.gangReady (m : Mach) (r : Round) : Bool :=
  let ms := m.members r.row r.pair
  !r.live && r.cut.isNone && ms.all r.arrived.contains &&
    ms.all fun c => (m.gangOp c).all fun o => (o.sources c (m.supplied r.row r.pair c)).all (m.rangeReady o)

/-- The cycle in which an operation of core `c` became ready to begin; `none` when it is not ready (R230). -/
def Mach.readyFrom (m : Mach) (c : Nat) (o : MatOp) : Option Nat :=
  if o.runs then none
  else if o.gang then
    match m.round (rowOf c o.pair).1 o.pair with
    | none => none
    | some r => if m.gangReady r then some (r.ready.getD m.clk) else none
  else if (o.sources c (o.rows c)).all (m.rangeReady o) then some (o.ready.getD m.clk)
  else none

/-- The operation that begins next at core `c`: of those that are ready, the one that became so first, and of two the one that
issued first (R231). -/
def Mach.nextMat (m : Mach) (c : Nat) : Option MatOp :=
  ((m.core c).mat.foldl (fun (b : Option (Nat × MatOp)) o =>
    match m.readyFrom c o with
    | none => b
    | some t => if b.any (·.1 ≤ t) then b else some (t, o)) none).map (·.2)

/-- Operations and rounds that are ready note the cycle in which they first were (R231). -/
def Mach.noteReady (m : Mach) : Mach :=
  { m with
    cores := m.cores.map fun ck =>
      if ck.2.mat = [] then ck
      else (ck.1, { ck.2 with mat := ck.2.mat.map fun o => if o.gang then o else { o with ready := o.ready.or (m.readyFrom ck.1 o) } })
    rounds := m.rounds.map fun r => if m.gangReady r then { r with ready := r.ready.or (some m.clk) } else r }

/-- MATRIX_BEGIN: the next operation of the core begins, a solo one, or a rehearsal that is due before it (R231, R239). -/
def Mach.matrixBegin (m : Mach) (c : Nat) : Option Mach :=
  let k := m.core c
  if !m.unitFree c then none
  else
    match m.nextMat c with
    | none => none
    | some o =>
      if o.gang then none
      else if k.rehDue o then some (m.rehearse c)
      else
        match m.badSource (o.reads c (o.rows c)) with
        | some r =>
          let w := ((m.core r.1).badRead r.2.1 r.2.2).getD 0
          some (m.endMat c o (some { faultOf Cause.memoryEcc with addr := wd (8 * w) }))
        | none => some (m.beginOp c o (o.rows c) (m.clk + o.sample.cycles k.healthy))

/-- MATRIX_COMPLETE: the accumulator holds its result (R231, R236). -/
def Mach.matrixComplete (m : Mach) (c : Nat) : Option Mach :=
  match (m.core c).mat.find? fun o => match o.phase with
    | .running d _ => decide (d ≤ m.clk)
    | .issued => false with
  | none => none
  | some o =>
    match o.phase with
    | .issued => none
    | .running _ t =>
      let m := m.modCore c fun k =>
        { k with acc := vset k.acc o.acc (Vector.ofFn fun i => (t[i.val]?).getD 0) }
      let m := m.endMat c o none
      if o.gang then
        let (row, _) := rowOf c o.pair
        let m := m.modRound row o.pair fun r => { r with arrived := r.arrived.filter (· != c) }
        some { m with rounds := m.rounds.filter fun r => !(r.live && r.arrived == []) }
      else some m

/-! ## Gang rounds (R24, R234, R235) -/

/-- The members that have arrived, as a mask by position (R233, R311). -/
def arrivedMask (row : Nat) (arrived : List Nat) : Word :=
  wd (arrived.foldl (fun n c => n + 2 ^ ((posOf c).1 - row % 32 * 16)) 0)

/-- A round closes: arrived members receive the record now, the others at their next gang-issue instruction, one whose trap has
closed it among them (R24, R234, R235). -/
def Mach.closeRound (m : Mach) (r : Round) (f : FaultRec) : Mach :=
  let m := { m with rounds := m.rounds.filter fun q => !(q.row == r.row && q.pair == r.pair) }
  (m.members r.row r.pair).foldl (fun m c =>
    match if r.arrived.contains c then m.gangOp c else none with
    | some o => m.endMat c o (some f)
    | none => if r.arrived.contains c then m else m.modCore c fun k => { k with gangOwed := some f }) m

/-- GANG_ABORT: every member receives the gang-abort trap (R235). -/
def Mach.gangAbort (m : Mach) (row : Nat) (pair : Bool) : Option Mach :=
  match m.round row pair with
  | none => none
  | some r =>
    r.cut.map fun cut => m.closeRound r (abortRec cut)

/-- GANG_TIMEOUT: not every member has arrived 65,536 cycles after the first; cycles of a suspension do not count
(R24, R304). -/
def Mach.gangTimeout (m : Mach) (row : Nat) (pair : Bool) : Option Mach :=
  match m.round row pair with
  | none => none
  | some r =>
    let ms := m.members row pair
    let runs : Bool := (r.arrived.head?.map fun c => decide ((m.part (m.core c).part.toNat).st = .running)).getD true
    if !r.live && r.cut.isNone && runs && !(ms.all r.arrived.contains) && r.first + 65536 ≤ m.clk then
      some (m.closeRound r { faultOf Cause.gangTimeout with mask := arrivedMask row r.arrived })
    else none

/-- What aborts a round whose barrier is complete: a sample that differs from the leader's, or an index that names no
core (R234, R235). -/
def Mach.gangFlaw (m : Mach) (row : Nat) (pair : Bool) : Option (Byte × Nat × Byte) :=
  let ms := m.members row pair
  let ref := ((m.leaders row pair).head?.bind m.gangOp).map (·.sample)
  let key (s : MatSample) := (s.fmta, s.fmtb, s.planes, s.tc)
  match ms.find? fun c => (m.gangOp c).map (key ·.sample) != ref.map key with
  | some c => some (BitVec.ofNat 8 Cause.gangMismatch, c, 0)
  | none =>
    ((m.leaders row pair).filterMap fun c =>
      match (m.gangOp c).bind (·.mix) with
      | none => none
      | some v =>
        ((mixBytes v).zipIdx.find? fun bk => 12 ≤ bk.1 % 16 || !m.live (mixCore c bk.1)).map fun bk =>
          (BitVec.ofNat 8 Cause.gangIndex, c, BitVec.ofNat 8 bk.2)).head?

/-- GANG_BARRIER_COMPLETE: every member has arrived; the operation begins at every member, after due rehearsals, once
it is the next at each of them, or the round is cut. An uncorrectable error in an operand read names the member whose read it
is: the leader, for a row that it supplies (R231, R234, R235, R239). -/
def Mach.gangBarrier (m : Mach) (row : Nat) (pair : Bool) : Option Mach :=
  match m.round row pair with
  | none => none
  | some r =>
    let ms := m.members row pair
    if r.live || r.cut.isSome || !(ms.all r.arrived.contains) then none
    else
      match m.gangFlaw row pair with
      | some (f, c, l) => some (m.cutRound row pair f c l)
      | none =>
        let rows := m.gangRows row pair
        let ops := ms.filterMap fun c => (m.gangOp c).map fun o => (c, o)
        if !(ms.all fun c => m.unitFree c && (m.nextMat c).any (·.gang)) then none
        else
          match ops.filter fun co => (m.core co.1).rehDue co.2 with
          | c :: cs => some ((c :: cs).foldl (fun m co => m.rehearse co.1) m)
          | [] =>
            match ops.find? fun co => (m.badSource (co.2.reads co.1 (m.supplied row pair co.1))).isSome with
            | some co => some (m.cutRound row pair (BitVec.ofNat 8 Cause.memoryEcc) co.1 0)
            | none =>
              let n := (ops.map fun co => co.2.sample.cycles (m.core co.1).healthy).foldl max 0
              let m' := ops.foldl (fun m co => m.beginOp co.1 co.2 rows (m.clk + n + 14)) m
              some (m'.modRound row pair fun r => { r with live := true })

/-! ## Accumulator access (R237 to R239) -/

/-- The accumulator is not busy (R61). -/
def waitAcc (n : Nat) : Act Unit := do stallUntil !((← myCore).accBusy n)

/-- The thread set owns the accumulator (R61). -/
def needOwner (n : Nat) : Act Unit := do
  let m ← get
  require ((vget m.myCore.owner 0 n).toNat == m.tsNo) { faultOf Cause.accumulatorOwner with reg := BitVec.ofNat 8 (80 + n) }

/-- `macz` (R237). -/
def semMacz (x : Args) : Act Unit := do
  let n := accNo x.d
  waitAcc n
  let t := (← get).tsNo
  modMyCore fun k => { k with acc := vset k.acc n (Vector.replicate 128 0), owner := vset k.owner n (BitVec.ofNat 2 t) }

/-- An i32 element under the bp scales (R52, R237). -/
def bpScaled (c : BitVec 32) (sa sb : Nat) : BitVec 32 :=
  if sa = 255 ∨ sb = 255 then BitVec.ofNat 32 nan32
  else BitVec.ofNat 32 (fmtF32.ofExact false 0 { m := c.toInt, e := (sa : Int) + sb - 254 } false).1

/-- `macr` (R237). -/
def semMacr (x : Args) : Act Unit := do
  dstPort true x.d
  let n := accNo x.s
  waitAcc n
  needOwner n
  let t ← me
  let k ← myCore
  let i := fld x.imm 4 1
  let j0 := 4 * fld x.imm 0 0
  let cvt := bit x.imm 5
  let c (j : Nat) : BitVec 32 := vget (vget k.acc (Vector.replicate 128 0) n) 0 (8 * i + j0 + j)
  if cvt then do
    require (t.kscla.toNat + 16 ≤ 65536) { faultOf Cause.address with addr := t.kscla.setWidth 64 }
    require (t.ksclb.toNat + 8 ≤ 65536) { faultOf Cause.address with addr := t.ksclb.setWidth 64 }
    let sa ← loadPlace (.own (t.kscla.toNat + i)) 1 (wd (t.kscla.toNat + i))
    let sb ← (List.range 4).mapM fun j => loadPlace (.own (t.ksclb.toNat + j0 + j)) 1 (wd (t.ksclb.toNat + j0 + j))
    writeV x.d (vecLanes 4 (sb.zipIdx.map fun sj => (sj.2, (bpScaled (c sj.2) sa sj.1).toNat)))
  else writeV x.d (vecLanes 4 ((List.range 4).map fun j => (j, (c j).toNat)))

/-- `macw` (R237). -/
def semMacw (x : Args) : Act Unit := do
  srcPort true x.s
  let n := accNo x.d
  waitAcc n
  let v ← readV x.s
  let t := (← get).tsNo
  let at_ := 8 * fld x.imm 4 1 + 4 * fld x.imm 0 0
  modMyCore fun k =>
    let a := (List.range 4).foldl (fun a j => vset a (at_ + j) (v.extractLsb' (32 * j) 32)) (vget k.acc (Vector.replicate 128 0) n)
    { k with acc := vset k.acc n a, owner := vset k.owner n (BitVec.ofNat 2 t) }

/-- `macst` (R237). -/
def semMacst (x : Args) : Act Unit := do
  srcPort false x.s
  let n := accNo x.d
  waitAcc n
  let ea ← effAddr x
  needOwner n
  let ps ← (List.range 32).mapM fun i => checkElem (ea + wd (16 * i)) 16 .own false true
  let a := vget (← myCore).acc (Vector.replicate 128 0) n
  storePlace (.own (ps.headD (.own 0)).off) (cellsAt 0 (a.toList.flatMap fun e => leBytes e.toNat 4)) ea

/-- `mwait` (R238). -/
def semMwait (x : Args) : Act Unit := waitAcc (accNo x.d)

/-- `mreh` (R239). -/
def semMreh (_ : Args) : Act Unit := do
  let m ← get
  stallUntil (m.myCore.mat == [] && m.myCore.rehEnd ≤ m.clk)
  set (m.rehearse m.here (some m.tsNo) m.me.pc m.me.priv)
  modMe fun t => { t with notBefore := m.clk + 24 }

/-! ## The instructions and events -/

/-- `mma` (R232). -/
def execMma (a : Args) (s : State) : Host.Outcome State Fault Refusal := issue (semMma a) s

/-- `mmag` (R233). -/
def execMmag (a : Args) (s : State) : Host.Outcome State Fault Refusal := issue (semMmag a) s

/-- `mmix` (R233). -/
def execMmix (a : Args) (s : State) : Host.Outcome State Fault Refusal := issue (semMmix a) s

/-- `macz` (R237). -/
def execMacz (a : Args) (s : State) : Host.Outcome State Fault Refusal := issue (semMacz a) s

/-- `macr` (R237). -/
def execMacr (a : Args) (s : State) : Host.Outcome State Fault Refusal := issue (semMacr a) s

/-- `macw` (R237). -/
def execMacw (a : Args) (s : State) : Host.Outcome State Fault Refusal := issue (semMacw a) s

/-- `macst` (R237). -/
def execMacst (a : Args) (s : State) : Host.Outcome State Fault Refusal := issue (semMacst a) s

/-- `mwait` (R238). -/
def execMwait (a : Args) (s : State) : Host.Outcome State Fault Refusal := issue (semMwait a) s

/-- `mreh` (R239). -/
def execMreh (a : Args) (s : State) : Host.Outcome State Fault Refusal := issue (semMreh a) s

/-- MATRIX_BEGIN (R230). -/
def execMatrixBegin (core : Nat) (s : State) : Host.Outcome State Fault Refusal := event (fun m => (m.matrixBegin core).getD m) s

/-- MATRIX_COMPLETE (R231). -/
def execMatrixComplete (core : Nat) (s : State) : Host.Outcome State Fault Refusal :=
  event (fun m => (m.matrixComplete core).getD m) s

/-- GANG_BARRIER_COMPLETE (R234). -/
def execGangBarrierComplete (row : Nat) (pair : Bool) (s : State) : Host.Outcome State Fault Refusal :=
  event (fun m => (m.gangBarrier row pair).getD m) s

/-- GANG_TIMEOUT (R24). -/
def execGangTimeout (row : Nat) (pair : Bool) (s : State) : Host.Outcome State Fault Refusal :=
  event (fun m => (m.gangTimeout row pair).getD m) s

/-- GANG_ABORT (R235). -/
def execGangAbort (row : Nat) (pair : Bool) (s : State) : Host.Outcome State Fault Refusal :=
  event (fun m => (m.gangAbort row pair).getD m) s

end Sys2Proof.Machine
end

