-- ==== Sys2Proof/Machine/Copies.lean ====
section
/-! DEFINITION. Copies into channels, engine jobs, cast collectives and overlay fetches (07_counters R136, R137;
10_isa_memory R186, R204 to R207, R213; 12_isa_matrix R236; 13_isa_tasks R266; 15_scheduler R297; 23_prog_bcast R364). -/

namespace Sys2Proof.Machine

/-- A mailbox counter raised by `n` modulo 2^32 (R135, R136). -/
def Core.bump (k : Core) (i : Nat) (n : BitVec 32) : Core := { k with mb := vset k.mb i (vget k.mb 0 i + n) }

/-- The core's engine and units start new work: its partition runs; a house core's always do (R304, R315). -/
def Mach.coreRuns (m : Mach) (c : Nat) : Bool :=
  meshCores ≤ c || ((m.core c).placed && (m.part (m.core c).part.toNat).st = .running)

/-- The core is a member of an open gang round, which a pre-emption waits for (R24, R234). -/
def Mach.inGang (m : Mach) (c : Nat) : Bool := c < meshCores && m.rounds.any fun r => (m.members r.row r.pair).contains c

/-- The core takes entries and starts jobs: it runs and is not being stopped (R303, R315). -/
def Mach.coreStarts (m : Mach) (c : Nat) : Bool :=
  m.coreRuns c && (meshCores ≤ c || !(m.part (m.core c).part.toNat).stopping)

/-- The core's thread sets issue: it runs, and is not being stopped or is a member of an open gang round (R24, R303, R315). -/
def Mach.coreTakes (m : Mach) (c : Nat) : Bool := m.coreStarts c || (m.coreRuns c && m.inGang c)

/-- The partition through whose windows a core reaches far space; a house core has none (R113). -/
def Mach.farPart (m : Mach) (c : Nat) : Option Partition :=
  if meshCores ≤ c then none else some (m.part (m.core c).part.toNat)

/-! ## Copies (R137, R204, R205) -/

/-- One block's part of a far range: address in [59:0], length, window, stagehand and channel offset. -/
structure FarPart where
  addr : Nat
  len : Nat
  win : Nat
  hand : Nat
  off : Nat
  deriving DecidableEq, Repr

/-- The parts of the far range of `n` bytes at `a`, block by block; `none` where no window holds one (R113, R204). -/
def Partition.parts (p : Partition) : Nat → Nat → Nat → Option (List FarPart)
  | 0, _, n => if n = 0 then some [] else none
  | f + 1, a, n =>
    if n = 0 then some []
    else
      match p.home a with
      | none => none
      | some (w, s, l) =>
        let e := min (p.blockOf w a * 4096 + (p.window w).blkBytes) ((p.window w).start + (p.window w).len)
        let k := min n (e - a)
        (p.parts f (a + k) (n - k)).map ({ addr := a, len := k, win := w, hand := s, off := l } :: ·)

/-- A far address from its bits [59:0]. -/
def farWord (a : Nat) : Word := wd (2 ^ 62 + a)

/-- A core's request that a stagehand move `len` bytes, in a window entry of its own (R105). -/
def Mach.postMove (m : Mach) (c t : Nat) (kind : MoveKind) (p : FarPart) : Mach :=
  let v : Move :=
    { id := m.nextId, part := (m.core c).part.toNat, kind := kind, addr := farWord p.addr, win := p.win, off := p.off, len := p.len }
  { m with nextId := m.nextId + 1 }.post c t (handBase + p.hand) (.move v) none true

/-- Channel `i` of a core. -/
def Core.channel (k : Core) (i : Nat) : Chan := vget k.chan {} i

/-- The core with a channel changed. -/
def Core.modChan (k : Core) (i : Nat) (f : Chan → Chan) : Core := { k with chan := vset k.chan i (f (k.channel i)) }

/-- The requests of a copy, in order, as far as the send window has entries (R204). -/
def Mach.sendParts (m : Mach) (c t ch base src : Nat) (ps : List FarPart) : Mach :=
  ps.foldl (fun m p =>
    if m.windowFree c && src + (((m.core c).channel ch).limit.toNat - base - ((m.core c).channel ch).todo) == p.addr then
      (m.postMove c t (.copy c ch (base + (p.addr - src))) p).modCore c (·.modChan ch fun q => { q with todo := q.todo - p.len })
    else m) m

/-- `cpy` (R204). -/
def semCpy (a : Args) : Act Unit := do
  let m0 ← get
  srcPort false a.s
  srcPort false a.t
  srcPort false a.d
  let src ← readX a.s
  let o ← readX a.t
  let d ← readX a.d
  let i := fld d 1 0
  let base := fld d 31 16
  let limit := fld d 47 32
  require (fld d 15 2 == 0 && fld d 63 48 == 0 && fld o 63 7 == 0 && base % 16 == 0 && limit % 16 == 0 && base < limit &&
    fld src 3 0 == 0 && isFar src) { faultOf Cause.illegalOperation with addr := shown src }
  let t ← me
  let at_ := fld src 59 0
  match (m0.farPart m0.here).bind fun p => p.parts 20 at_ (limit - base) with
  | none => trapAt Cause.farPlacement (farAddr src)
  | some ps => do
    let ch := m0.myCore.channel i
    let own := ch.busy && ch.todo != 0 && ch.cid == t.cid && ch.ts == m0.tsNo && ch.pc == t.pc
    stallUntil (!ch.busy || own)
    let new : Chan :=
      { base := BitVec.ofNat 16 base, limit := BitVec.ofNat 16 limit, wm := BitVec.ofNat 16 base, busy := true,
        todo := limit - base, left := limit - base, cv := bit o 6, cnt := BitVec.ofNat 6 (fld o 5 0), ts := m0.tsNo,
        cid := t.cid, pc := t.pc, priv := t.priv }
    let run (m : Mach) : Mach :=
      (if own then m else m.modCore m.here (·.modChan i fun _ => new)).sendParts m.here m.tsNo i base at_ ps
    let m := run (← get)
    if (m.myCore.channel i).todo = 0 then set m
    else do
      set (run m0)
      throw (.waitKeep .other)

/-- `wmk` (R205). -/
def semWmk (a : Args) : Act Unit := do
  dstPort false a.d
  let ch := (← myCore).channel (a.imm.toNat % 4)
  writeX a.d (wd (ch.wm.toNat + ch.base.toNat * 2 ^ 16 + ch.limit.toNat * 2 ^ 32 + b2n ch.busy * 2 ^ 48 + b2n ch.flt * 2 ^ 49))

/-- The watermark after the run at it, if any, with the runs that remain: at most `n` runs are joined. -/
def raiseMark (w : Nat) (runs : List (Nat × Nat)) : Nat → Nat × List (Nat × Nat)
  | 0 => (w, runs)
  | n + 1 =>
    match runs.find? fun r => r.1 ≤ w && w < r.2 with
    | none => (w, runs)
    | some r => raiseMark r.2 (runs.filter (· != r)) n

/-- Bytes `[a, a + n)` of a channel are filled: W rises unless a fault has stopped it; the copy ends with its last byte
(R137). -/
def Chan.fill (ch : Chan) (a n : Nat) : Chan :=
  let left := ch.left - n
  let ch := { ch with left := left, busy := left != 0 || ch.todo != 0 }
  if ch.flt then ch
  else
    let (w, rs) := raiseMark ch.wm.toNat (ch.filled ++ [(a, a + n)]) (ch.filled.length + 1)
    { ch with wm := BitVec.ofNat 16 w, filled := rs }

/-! ## Jobs: their records (R206) -/

/-- The machine with a job changed. -/
def Mach.modJob (m : Mach) (c uid : Nat) (f : Job → Job) : Mach :=
  m.modCore c fun k => { k with jobs := k.jobs.map fun j => if j.uid == uid then f j else j }

/-- KIND of a job (R206). -/
def Job.kind (j : Job) : Nat := fld (j.card.getD 0 0) 63 60

/-- Word `n` of the card. -/
def Job.word (j : Job) (n : Nat) : Word := j.card.getD n 0

/-- A job that stops in a fault. -/
def Job.stop (j : Job) (inner : Nat) (addr : Word) (pos : Nat := 0) : Job :=
  { j with phase := .faulted (BitVec.ofNat 8 inner) addr (BitVec.ofNat 32 pos) 0 0 }

/-- NEL of a gather card's word 6. -/
def gatherCount (w6 : Word) : Nat := fld w6 38 32

/-- The element size of a gather card's word 6. -/
def gatherSize (w6 : Word) : Nat := if bit w6 39 then 16 else 8

/-- Element `e` of a mask. -/
def maskBit (w : Word) (e : Nat) : Bool := bit w e

/-- A far gather whose elements have all been skipped, completed or faulted ends (R206). -/
def Job.settle (j : Job) (clk : Nat) : Job :=
  let done := j.complete ||| j.bad ||| j.word 7
  if (List.range (gatherCount (j.word 6))).all (maskBit done) then
    match j.flaw with
    | none => { j with phase := .running (some clk) }
    | some (e, c, a) => { j with phase := .faulted c a (BitVec.ofNat 32 e) 0 0 }
  else j

/-- Element `e` of a far gather has faulted; the faulting element of least number is reported (R206, R311). -/
def Job.elemFault (j : Job) (e : Nat) (c : Byte) (a : Word) (clk : Nat) : Job :=
  let flaw := match j.flaw with
    | none => (e, c, a)
    | some f => if e < f.1 then (e, c, a) else f
  { j with bad := j.bad ||| wd (2 ^ e), issued := j.issued ||| wd (2 ^ e), flaw := some flaw }.settle clk

/-! ## Pushes and faults of moves (R137, R186, R206) -/

/-- A fault found at the target (R250). -/
def backFault (code : Nat) (addr : Word) : Option FaultRec := some { faultOf code with addr := addr }

/-- The protected area that a store's bytes meet at their target (R84, R93). -/
def Core.protectedCells (k : Core) (cs : List (Nat × Byte)) : Option FaultRec :=
  match cs.find? fun c => k.inQueueArea c.1 with
  | some c => backFault Cause.queueArea (wd c.1)
  | none =>
    match cs.findSome? fun c => k.headerOf c.1 with
    | some f => backFault Cause.frameHeader (wd f)
    | none => none

/-- A part of a copy that faults: W stops, and the issuer is told of the first fault (R137, R186, R204). -/
def Mach.failCopy (m : Mach) (c i len : Nat) (cause : Byte) (addr : Word) : Mach :=
  let ch := (m.core c).channel i
  let first := !ch.flt
  let new : Chan :=
    { ch with left := ch.left - len, busy := ch.left - len != 0 || ch.todo != 0, flt := true,
              fault := if first then some (cause, addr) else ch.fault }
  let m := m.modCore c (·.modChan i fun _ => new)
  if first then m.deliverFault c ch.ts ch.cid { new.faultRec i with pc := ch.pc, priv := BitVec.ofNat 2 ch.priv.code } else m

/-- COPY_PUSH: bytes of a copy or of a gather arrive and are written as a store (R79, R137, R206); one into a protected area or a
live frame header is not written, and its copy or element faults (R84, R93, R186). -/
def Mach.copyPush (m : Mach) (id : Nat) : Option Mach :=
  match m.delivery id with
  | none => none
  | some d =>
    match d.body, d.phase with
    | .push v bs, .flying due =>
      if m.clk < due then none
      else
        match v.kind with
        | .copy c i dst =>
          if m.heldRange c dst bs.length then none
          else
          match (m.core c).protectedCells (cellsAt dst bs) with
          | some r => some ((m.dropDelivery d).failCopy c i bs.length r.cause r.addr)
          | none =>
            let k := (((m.core c).store (cellsAt dst bs)).charge 4).modChan i (·.fill dst bs.length)
            let ch := k.channel i
            let k := if ch.cv && ch.wm == ch.limit then k.bump ch.cnt.toNat 1 else k
            some ((m.dropDelivery d).modCore c fun q => { k with hold := q.hold.filter (· != id) })
        | .gather c uid e dst =>
          if m.heldRange c dst bs.length then none
          else
          match (m.core c).protectedCells (cellsAt dst bs) with
          | some r => some ((m.dropDelivery d).modJob c uid fun j => j.elemFault e r.cause r.addr m.clk)
          | none =>
            let m := (m.dropDelivery d).modCore c fun k => (k.store (cellsAt dst bs)).charge 4
            some (m.modJob c uid fun j =>
              let j := { j with complete := j.complete ||| (if bs.length = v.len then wd (2 ^ e) else 0) }
              j.settle m.clk)
        | _ => none
    | _, _ => none

/-- COPY_FAULT: a part of a copy, or an element of a gather, has faulted: W stops and the issuer of the copy is told
(R137, R186, R204). -/
def Mach.copyFault (m : Mach) (id : Nat) : Option Mach :=
  match m.delivery id with
  | none => none
  | some d =>
    match d.body, d.phase with
    | .moveFault v inner, .flying due =>
      if m.clk < due then none
      else
        match v.kind with
        | .copy c i _ => some ((m.dropDelivery d).failCopy c i v.len inner (farAddr v.addr))
        | .gather c uid e _ => some ((m.dropDelivery d).modJob c uid fun j => j.elemFault e inner (farAddr v.addr) m.clk)
        | _ => none
    | _, _ => none

/-! ## `job` and `jwait` (R206, R207, R209, R236, R266) -/

/-- The bytes `[a, e)` lie in the footprints that `p` admits. -/
def covered (fps : List (Nat × Nat × Bool)) (p : Bool → Bool) (e : Nat) : Nat → Nat → Bool
  | _, 0 => false
  | a, n + 1 =>
    if e ≤ a then true
    else
      match (fps.filter fun f => p f.2.2 && f.1 ≤ a && a ≤ f.2.1).map (·.2.1) with
      | [] => false
      | x :: xs => covered fps p e ((x :: xs).foldl max 0 + 1) n

/-- A footprint covers a byte whatever it is, as written only, or as read only. -/
def anyFp (_ : Bool) : Bool := true
def writtenFp (w : Bool) : Bool := w
def readFp (w : Bool) : Bool := !w

/-- The range of `n` bytes at `a` is covered. -/
def covers (card : List Word) (p : Bool → Bool) (a n : Nat) : Bool := a + n ≤ 65536 && covered (footprints card) p (a + n) a 5

/-- The parts of a card that every KIND shares (R206). -/
def cardOk (card : List Word) : Bool :=
  let w0 := card.getD 0 0
  let nfp := fld w0 52 50
  fld w0 63 60 ≤ 4 && 1 ≤ nfp && nfp ≤ 4 && fld w0 49 0 == 0 &&
  ((List.range 4).all fun i =>
    let w := card.getD (i + 1) 0
    if i < nfp then fld w 62 32 == 0 && fld w 15 0 ≤ fld w 31 16 else w == 0)

/-- Cast `n` of a partition. -/
def Partition.cast (p : Partition) (n : Nat) : Cast := vget p.casts {} n

/-- The gang-issue operation of a KIND 2 card (R236). -/
def jobOp (j : Job) : MatOp :=
  let w5 := j.word 5
  { acc := fld w5 1 0, gang := bit w5 3, pair := bit w5 4,
    mix := if bit w5 2 then some (j.word 7 ++ j.word 6) else none,
    a := w5.extractLsb' 16 16, b := w5.extractLsb' 32 16, sample := j.sample, ts := j.ts, cid := j.cid, pc := j.pc, priv := j.priv,
    job := some j.uid }

/-- The ranges that a KIND 2 card's footprints must cover (R236). -/
def MatOp.needs (o : MatOp) (leads : Bool) : List (Nat × Nat) :=
  let g := scaleGroups o.sample.fmta.toNat
  (o.b.toNat, 3072) :: (if g = 0 then [] else [(o.sample.sclb.toNat, 8 * g)]) ++
  (if o.mix.isSome then [] else
    (o.a.toNat, 6144) :: (if g = 0 || !leads then [] else [(o.sample.scla.toNat, 16 * g)]))

/-- The parameters of a card are as its KIND asks, alignment apart (R206, R209, R236, R266). DESIGN CHOICE: the bits that words 5 to
7 of a KIND 0 card and [63:40] of word 6 of a KIND 1 card leave unused, which R206 does not call zero, must be zero. -/
def Mach.kindOk (m : Mach) (c : Nat) (j : Job) : Bool :=
  let w5 := j.word 5
  let w6 := j.word 6
  let w7 := j.word 7
  let p := m.part (m.core c).part.toNat
  match j.kind with
  | 0 =>
    let len := fld w5 47 32
    fld w5 63 48 == 0 && w6 == 0 && w7 == 0 && len % 8 == 0 && 8 ≤ len &&
    covers j.card anyFp (fld w5 15 0) len && covers j.card writtenFp (fld w5 31 16) len
  | 1 =>
    let n := gatherCount w6
    fld w6 63 40 == 0 && 1 ≤ n && n ≤ 64 &&
    covers j.card readFp (fld w6 15 0) (4 * n) && covers j.card writtenFp (fld w6 31 16) (gatherSize w6 * n)
  | 2 =>
    let o := jobOp j
    fld w5 15 5 == 0 && fld w5 63 48 == 0 && (o.mix.isSome || (w6 == 0 && w7 == 0)) &&
    (o.gang || (o.mix.isNone && !o.pair)) && (o.needs (!o.gang || m.leaderOf c == c)).all fun r => covers j.card anyFp r.1 r.2
  | 3 =>
    let n := 8 * (fld w5 52 48 + 1)
    let k := p.cast (fld w5 7 0)
    fld w5 15 11 == 0 && fld w5 63 53 == 0 && w6 == 0 && w7 == 0 && c < meshCores && k.v && k.members.contains c &&
    covers j.card anyFp (fld w5 31 16) n && covers j.card writtenFp (fld w5 47 32) n
  | _ =>
    let len := fld w5 63 48
    let dst := fld w5 47 32
    fld w5 15 9 == 0 && fld w5 31 28 == 0 && len % 16 == 0 && 16 ≤ len && c < meshCores && p.hands.contains (fld w5 8 0) &&
    (m.unit (fld w5 8 0) (m.core c).part.toNat).codeLen != 0 && !bit w5 16 &&
    (covers j.card writtenFp dst len || covers j.card readFp dst len)

/-- The misaligned offset or address of a card, if any (R75, R76, R206). -/
def Job.misaligned (j : Job) : Option Word :=
  let w5 := j.word 5
  let w6 := j.word 6
  let list : List (Nat × Nat) := match j.kind with
    | 0 => [(fld w5 15 0, 8), (fld w5 31 16, 8)]
    | 1 => [(fld w5 63 0, gatherSize w6), (fld w6 15 0, 4), (fld w6 31 16, gatherSize w6)]
    | 3 => [(fld w5 31 16, 8), (fld w5 47 32, 8)]
    | _ => []
  (list.find? fun x => x.1 % x.2 != 0).map fun x => shown (wd x.1)

/-- The stores that the party has issued into the footprints are performed (R207). -/
def Mach.cardClear (m : Mach) (c t : Nat) (card : List Word) : Bool :=
  (footprints card).all fun f =>
    !((m.core c).tset t).undrained f.1 (f.2.1 + 1 - f.1) && !m.unaccepted c t c f.1 (f.2.1 + 1 - f.1)

/-- `job` (R207). -/
def semJob (a : Args) : Act Unit := do
  srcPort false a.s
  dstPort false a.d
  let x ← readX a.s
  let off ← ownRecord x 64 64
  let card ← (List.range 8).mapM fun i => loadOwn (off + 8 * i)
  let m ← get
  let t ← me
  let k := m.myCore
  let j : Job :=
    { uid := m.nextCid, num := k.jobNo, off := BitVec.ofNat 16 off, card := card, ts := m.tsNo, cid := t.cid, pc := t.pc,
      priv := t.priv, sample := t.matSample }
  require (cardOk card && m.kindOk m.here j) { faultOf Cause.illegalOperation with addr := x }
  match j.misaligned with
  | some w => trapAt Cause.alignment w
  | none => do
    stallUntil (k.jobs.length < 16)
    stallUntil (m.cardClear m.here m.tsNo card)
    let cast := fld (j.word 5) 7 0
    let n := Map.get k.rounds 0 cast
    let j := { j with round := n }
    let rounds := if j.kind = 3 then Map.set k.rounds cast (n + 1) else k.rounds
    set { m with nextCid := m.nextCid + 1 }
    modMyCore fun k => { k with jobs := k.jobs ++ [j], jobNo := k.jobNo + 1, rounds := rounds }
    writeX a.d (j.num.setWidth 64)

/-- `jwait` (R207). -/
def semJwait (a : Args) : Act Unit := do
  srcPort false a.s
  let n := fld (← readX a.s) 15 0
  stallUntil (!(← myCore).jobs.any (·.num.toNat == n))

/-! ## Collectives (R121, R266, R364) -/

/-- Members of a cast that are not lost. -/
def Cast.live (c : Cast) : List Nat := c.members.filter fun q => !c.lostAt.contains q

/-- The root of a cast. -/
def Cast.root (c : Cast) : Option Nat := meshCore c.rx.toNat c.ry.toNat

/-- One f32 addition of a collective: RNE, no flag, the default NaN (R46, R266). -/
def castAdd32 (a b : Nat) : Nat :=
  let r := (fmtF32.add 0 a b).1
  if (fmtF32.read false r).isNan then nan32 else r

/-- Two elements combined (R266). -/
def castElem (op : Nat) (a b : Word) : Word :=
  match op with
  | 0 => a + b
  | 1 => wd (castAdd32 (fld a 31 0) (fld b 31 0) + castAdd32 (fld a 63 32) (fld b 63 32) * 2 ^ 32)
  | 2 => if b.slt a then a else b
  | 3 => if a.slt b then a else b
  | 4 => a &&& b
  | 5 => a ||| b
  | 6 => a ^^^ b
  | _ => a

/-- Two contributions combined element by element. -/
def castMerge (op : Nat) : Option (List Word) → Option (List Word) → Option (List Word)
  | none, b => b
  | a, none => a
  | some a, some b => some (List.zipWith (castElem op) a b)

/-- The value that the tree below router (x, y) combines: the local member first, then the children N, E, S, W. -/
def Mach.combine (m : Mach) (n op : Nat) (vals : Map (List Word)) : Nat → Nat → Nat → Option (List Word)
  | 0, _, _ => none
  | f + 1, x, y =>
    let e := m.treeAt n (y * 512 + x)
    let sub (i u v : Nat) : Option (List Word) := if bit e i then m.combine n op vals f u v else none
    [sub 9 x (y - 1), sub 10 (x + 1) y, sub 11 x (y + 1), sub 12 (x - 1) y].foldl (castMerge op) (Map.find vals (y * 512 + x))

/-- A job joins its round (R266). -/
def Mach.joinRound (m : Mach) (c : Nat) (j : Job) : Mach :=
  let w5 := j.word 5
  let n := fld w5 7 0
  let op := fld w5 10 8
  let nel := fld w5 52 48 + 1
  let q := (m.core c).part.toNat
  let root := ((m.part q).cast n).root == some c
  let src := fld w5 31 16
  let reads := op != 7 || root
  match if reads then (m.core c).badRead src (8 * nel) else none with
  | some w => m.modJob c j.uid fun j => j.stop Cause.memoryEcc (wd (8 * w))
  | none =>
    let m := if reads then m.modCore c (·.correct src (8 * nel)) else m
    let vals := if reads then (List.range nel).map fun i => (m.core c).mem64 (src + 8 * i) else List.replicate nel 0
    let part : Contribution := { core := c, job := j.uid, op := op, src := vals, num := j.num, ts := j.ts, cid := j.cid, pc := j.pc, priv := j.priv }
    let m := m.modJob c j.uid fun j => { j with phase := .running none }
    let join (r : CastRound) : CastRound :=
      { r with
        parts := r.parts ++ [part], joined := r.joined ++ [c], form := r.form.or (some (op, nel))
        first := if root then r.first.or (some m.clk) else r.first
        value := if root && op == 7 then some vals else r.value
        fault := r.fault.or (if r.form.any (· != (op, nel)) then some (BitVec.ofNat 8 Cause.illegalOperation, 0) else none) }
    m.modPart q fun p =>
      if p.rounds.any fun r => r.cast == n && r.n == j.round then
        { p with rounds := p.rounds.map fun r => if r.cast == n && r.n == j.round then join r else r }
      else { p with rounds := p.rounds ++ [join { cast := n, n := j.round }] }

/-- Every live member has joined the round. -/
def Partition.allJoined (p : Partition) (r : CastRound) : Bool := (p.cast r.cast).live.all r.joined.contains

/-- A round has something to give: a fault, or a result, once every live member has joined; or it is over. -/
def Partition.roundDue (p : Partition) (r : CastRound) : Bool :=
  if r.fault.isSome then r.parts != [] || p.allJoined r else p.allJoined r && (r.value.isSome || r.form.any (·.1 != 7))

/-- CAST_ROUND_COMPLETE: the result goes to every contributor, or the round's fault does (R266, R364). DESIGN CHOICE: a result is
given once every live member has joined, with OP 7 too, since nothing is written at any DST in a round whose cards disagree or
that times out; while a member is missing, R266's bound for OP 7 from the root's start is then not kept. -/
def Mach.castRound (m : Mach) (q n : Nat) : Option Mach :=
  let p := m.part q
  match p.rounds.find? fun r => r.cast == n && p.roundDue r with
  | none => none
  | some r =>
    let k := p.cast n
    let same (s : CastRound) : Bool := s.cast == r.cast && s.n == r.n
    let ends (m : Mach) : Mach := m.modPart q fun p =>
      { p with rounds := if p.allJoined r then p.rounds.filter (!same ·)
                         else p.rounds.map fun s => if same s then { s with parts := [] } else s }
    match r.fault with
    | some (inner, val) =>
      let fail (m : Mach) (x : Contribution) : Mach :=
        m.modJob x.core x.job fun j => { j with phase := .faulted inner 0 0 (BitVec.ofNat 32 val) 0 }
      some (ends (r.parts.foldl fail m))
    | none =>
      let root := k.root.getD 0
      let op := (r.form.map (·.1)).getD 0
      let vals := r.parts.foldl (fun (v : Map (List Word)) x => Map.set v x.core x.src) []
      let res := match r.value with
        | some v => v
        | none => (m.combine n op vals 1024 k.rx.toNat k.ry.toNat).getD []
      let give (m : Mach) (x : Contribution) : Mach :=
        m.modJob x.core x.job fun j => { j with result := res, phase := .running (some (m.clk + 4 + hops root x.core)) }
      some (ends (r.parts.foldl give m))

/-- COLLECTIVE_TIMEOUT: 2^20 cycles after the root's contribution a member is still missing (R266). -/
def Mach.collectiveTimeout (m : Mach) (q n : Nat) : Option Mach :=
  let p := m.part q
  match p.rounds.find? fun r =>
      r.cast == n && r.fault.isNone && !p.allJoined r && r.first.any fun f => f + 2 ^ 20 ≤ m.clk with
  | none => none
  | some r =>
    let missing := ((p.cast n).live.filter (!r.joined.contains ·)).length
    some (m.modPart q fun p =>
      { p with rounds := p.rounds.map fun s =>
          if s.cast == r.cast && s.n == r.n then { s with fault := some (BitVec.ofNat 8 Cause.collectiveTimeout, missing) } else s })

/-! ## The engine scheduler (R207, R297) -/

/-- Two jobs have overlapping footprints of which one is written (R207). -/
def Job.clash (i j : Job) : Bool :=
  (footprints i.card).any fun f => (footprints j.card).any fun g =>
    (f.2.2 || g.2.2) && meets f.1 (f.2.1 + 1 - f.1) g.1 (g.2.1 + 1)

/-- A queued job may start after the jobs `before` (R207, R297). -/
def Mach.jobReady (m : Mach) (c : Nat) (before : List Job) (j : Job) : Bool :=
  j.phase = .queued && !before.any (·.clash j) &&
  (match j.kind with
   | 2 =>
     let o := jobOp j
     if o.gang then !m.gangBusy c o.acc o.pair else !(m.core c).accBusy o.acc
   | 4 => m.windowFree c
   | _ => true)

/-- The first job of the list that may start. -/
def Mach.pickJob (m : Mach) (c : Nat) : List Job → List Job → Option Job
  | _, [] => none
  | before, j :: js => if m.jobReady c before j then some j else m.pickJob c (before ++ [j]) js

/-- Issue element `e` of a far gather (R206). -/
def Mach.gatherElem (m : Mach) (c : Nat) (j : Job) (e : Nat) : Mach :=
  let w6 := j.word 6
  let size := gatherSize w6
  let idx := fld w6 15 0 + 4 * e
  let stop (code : Nat) (a : Word) : Mach := m.modJob c j.uid fun j => j.elemFault e (BitVec.ofNat 8 code) a m.clk
  match (m.core c).badRead idx 4 with
  | some w => stop Cause.memoryEcc (wd (8 * w))
  | none =>
    let m := m.modCore c (·.correct idx 4)
    let ea := j.word 5 + wd ((m.core c).readN idx 4 * size)
    if !isFar ea then stop Cause.address ea
    else
      match (m.farPart c).bind fun p => p.home (fld ea 59 0) with
      | none => stop Cause.farPlacement (farAddr ea)
      | some (w, s, l) =>
        (m.postMove c j.ts (.gather c j.uid e (fld w6 31 16 + size * e))
          { addr := fld ea 59 0, len := size, win := w, hand := s, off := l }).modJob c j.uid
          fun j => { j with issued := j.issued ||| wd (2 ^ e) }

/-- An element of a running far gather that is neither skipped nor issued. -/
def Job.nextElem (j : Job) : Option Nat :=
  if j.kind = 1 && j.phase = .running none then
    (List.range (gatherCount (j.word 6))).find? fun e => !maskBit (j.issued ||| j.word 7) e
  else none

/-- The energy class of a job of each KIND, as a bit of the class flags (R297). -/
def Job.class_ (j : Job) : BitVec 6 :=
  match j.kind with
  | 0 => 4
  | 2 => 1
  | 3 => 8
  | _ => 16

/-- Start a job that may start (R297). -/
def Mach.startJob (m : Mach) (c : Nat) (j : Job) : Mach :=
  let m := m.modCore c (·.charge j.class_)
  match j.kind with
  | 0 => m.modJob c j.uid fun q => { q with phase := .running (some (m.clk + fld (j.word 5) 47 32 / 8)) }
  | 1 => m.modJob c j.uid fun q => { q with phase := .running none }.settle m.clk
  | 2 =>
    let m' := m.modJob c j.uid fun q => { q with phase := .running none }
    let o := jobOp j
    if o.gang then
      match m'.gangIssue c o none (j.word 5) with
      | .ok m => m
      | .error (r, m) => m.modJob c j.uid fun q => q.failed r
    else
      match o.check true (m'.core c).fence with
      | some r => m'.modJob c j.uid fun q => q.failed r
      | none => m'.addMat c o
  | 3 => m.joinRound c j
  | _ =>
    (m.modJob c j.uid fun q => { q with phase := .running none }).post c j.ts (handBase + fld (j.word 5) 8 0) (.card c j.uid) none true

/-- JOB_START: the first queued job that may start, while fewer than four run; or the next element of a running far
gather, when the send window has an entry for it (R105, R206, R297). -/
def Mach.jobStart (m : Mach) (c uid : Nat) : Option Mach :=
  let k := m.core c
  match k.jobs.find? (·.uid == uid) with
  | none => none
  | some j =>
    if !(m.coreStarts c || (m.coreTakes c && j.kind == 2 && (jobOp j).gang)) then none
    else
      match j.nextElem with
      | some e => if m.windowFree c then some (m.gatherElem c j e) else none
      | none =>
        if (m.pickJob c [] k.jobs).any (·.uid == uid) && (k.jobs.filter (·.phase != .queued)).length < 4 then some (m.startJob c j)
        else none

/-- The bytes that a job writes at its end: where, and what, or the word that cannot be read. -/
def Core.jobWrites (k : Core) (j : Job) : Except Nat (Nat × List Byte) :=
  let w5 := j.word 5
  match j.kind with
  | 0 =>
    match k.badRead (fld w5 15 0) (fld w5 47 32) with
    | some w => .error w
    | none => .ok (fld w5 31 16, Memory.bytes k.mem (fld w5 15 0) (fld w5 47 32))
  | 3 => .ok (fld w5 47 32, j.result.flatMap fun w => leBytes w.toNat 8)
  | _ => .ok (0, [])

/-- JOB_COMPLETE: the last write is applied, then the counter rises and the job leaves the queue (R136, R206). A job that would write
a protected area or a live frame header faults (R84, R93). -/
def Mach.jobComplete (m : Mach) (c uid : Nat) : Option Mach :=
  match (m.core c).jobs.find? (·.uid == uid) with
  | none => none
  | some j =>
    match j.phase with
    | .running (some d) =>
      if m.clk < d then none
      else
        match (m.core c).jobWrites j with
        | .error w => some (m.modJob c uid fun j => j.stop Cause.memoryEcc (wd (8 * w)))
        | .ok (a, bs) =>
          if m.heldRange c a bs.length then none
          else
          match (m.core c).protectedCells (cellsAt a bs) with
          | some r => some (m.modJob c uid fun j => j.stop r.cause.toNat r.addr)
          | none =>
            some (m.modCore c fun k =>
              let k := if j.kind = 0 then k.correct (fld (j.word 5) 15 0) bs.length else k
              let k := k.store (cellsAt a bs)
              let k := if bit (j.word 0) 59 then k.bump (fld (j.word 0) 58 53) 1 else k
              { k with jobs := k.jobs.filter (·.uid != uid) })
    | _ => none

/-- JOB_FAULT: the fault goes to the issuer, and no counter rises (R186, R206). -/
def Mach.jobFault (m : Mach) (c uid : Nat) : Option Mach :=
  match (m.core c).jobs.find? (·.uid == uid) with
  | none => none
  | some j =>
    match j.phase with
    | .faulted inner addr pos val data =>
      let r : FaultRec :=
        { faultOf Cause.jobFault with
          inner := inner, index := j.num, addr := addr, pos := pos, val := val, data := data, pc := j.pc
          priv := BitVec.ofNat 2 j.priv.code
          mask := if j.kind = 1 then j.complete ||| j.word 7 else 0 }
      some ((m.modCore c fun k => { k with jobs := k.jobs.filter (·.uid != uid) }).deliverFault c j.ts j.cid r)
    | _ => none

/-! ## Overlay fetches (R81, R82, R127, R213) -/

/-- The core with an overlay slot changed. -/
def Core.modSlot (k : Core) (g : Nat) (f : Overlay → Overlay) : Core := { k with seg := vset k.seg g (f (k.slot g)) }

/-- A request of an overlay fetch; far placement fails it (R213). -/
def Mach.fetchPart (m : Mach) (c t g : Nat) (dir : Bool) (ea : Word) (n : Nat) : Mach :=
  match if isFar ea then (m.farPart c).bind fun p => p.home (fld ea 59 0) else none with
  | none => m.modCore c (·.modSlot g fun o => { o with st := .empty, flt := true, cause := 3 })
  | some (w, s, l) => m.postMove c t (.fetch c g dir) { addr := fld ea 59 0, len := n, win := w, hand := s, off := l }

/-- `cfetch` (R213). -/
def semCfetch (a : Args) : Act Unit := do
  srcPort false a.s
  let g := a.d.toNat % 16
  let x ← readX a.s
  let m ← get
  let k := m.myCore
  require (m.me.pc.toNat / 1024 != g) { faultOf Cause.illegalOperation with addr := x }
  require (k.useCount g == 0) { faultOf Cause.overlayBusy with index := BitVec.ofNat 16 g }
  require (fld x 63 12 == 0) { faultOf Cause.illegalOperation with addr := x }
  stallUntil ((k.slot g).st != .loading)
  stallUntil (m.windowFree m.here)
  let m := m.modCore m.here (·.modSlot g fun _ => { st := .loading, seg := x.setWidth 16 })
  set (m.fetchPart m.here m.tsNo g true (k.segDir + x * 16) 16)

/-- `cstat` (R213). -/
def semCstat (a : Args) : Act Unit := do
  dstPort false a.d
  let k ← myCore
  let g := a.imm.toNat % 16
  let o := k.slot g
  let st := match o.st with
    | .empty => 0
    | .loading => 1
    | .valid => 2
  writeX a.d (wd (st + b2n o.flt * 4 + k.useCount g * 2 ^ 8 + o.seg.toNat * 2 ^ 16 + o.cause.toNat * 2 ^ 40))

/-- Bytes of the segment come into the slot, after those that have come, zeros into the rest of it; the `last` of them make it
VALID (R127, R213). -/
def Core.fillSlot (k : Core) (g : Nat) (bs : List Byte) (last : Bool) : Core :=
  let n := (k.slot g).got
  { (k.modSlot g fun o => { o with st := if last then .valid else .loading, flt := false, cause := 0, got := n + bs.length }) with
    imem := Memory.pokes (if n = 0 then Memory.clear k.imem (1024 * g) 1024 else k.imem) (1024 * g + n) (bs.take (1024 - n))
    imemEcc := k.imemEcc.filter fun e => e.1 / 128 != g }

/-- OVERLAY_FETCH_DONE: the directory entry has come and its segment is asked for, the segment has come, or the fetch has
failed (R82, R127, R213). DESIGN CHOICE: of a directory entry whose LEN is not an even number from 2 to 1,024 the value nearest in
2 to 1,024 is taken, and SEGID and the zero fields are not read, since R127 gives no response to an entry that is not as it
says. -/
def Mach.overlayDone (m : Mach) (c g : Nat) : Option Mach :=
  let mine (v : Move) : Bool := match v.kind with
    | .fetch q h _ => q == c && h == g
    | _ => false
  match m.net.find? fun d =>
      (match d.body, d.phase with
       | .push v _, .flying due => mine v && due ≤ m.clk
       | .moveFault v _, .flying due => mine v && due ≤ m.clk
       | _, _ => false) with
  | none => none
  | some d =>
    match d.body with
    | .push v bs =>
      match v.kind with
      | .fetch _ _ true =>
        if m.windowFree c then
          let len := max 2 (min 1024 (fld (wd (leNat (bs.drop 8))) 42 32))
          some ((m.dropDelivery d).fetchPart c 0 g false (wd (leNat (bs.take 8))) len)
        else none
      | _ => some ((m.dropDelivery d).modCore c (·.fillSlot g bs (bs.length == v.len)))
    | .moveFault _ inner =>
      some ((m.dropDelivery d).modCore c (·.modSlot g fun o =>
        { o with st := .empty, flt := true, cause := if inner = BitVec.ofNat 8 Cause.memoryEcc then 2 else 1 }))
    | _ => none

/-! ## The instructions and events -/

/-- `cpy` (R204). -/
def execCpy (a : Args) (s : State) : Host.Outcome State Fault Refusal := issue (semCpy a) s

/-- `wmk` (R205). -/
def execWmk (a : Args) (s : State) : Host.Outcome State Fault Refusal := issue (semWmk a) s

/-- `job` (R207). -/
def execJob (a : Args) (s : State) : Host.Outcome State Fault Refusal := issue (semJob a) s

/-- `jwait` (R207). -/
def execJwait (a : Args) (s : State) : Host.Outcome State Fault Refusal := issue (semJwait a) s

/-- `cfetch` (R213). -/
def execCfetch (a : Args) (s : State) : Host.Outcome State Fault Refusal := issue (semCfetch a) s

/-- `cstat` (R213). -/
def execCstat (a : Args) (s : State) : Host.Outcome State Fault Refusal := issue (semCstat a) s

/-- COPY_PUSH (R137). -/
def execCopyPush (id : Nat) (s : State) : Host.Outcome State Fault Refusal := event (fun m => (m.copyPush id).getD m) s

/-- COPY_FAULT (R137). -/
def execCopyFault (id : Nat) (s : State) : Host.Outcome State Fault Refusal := event (fun m => (m.copyFault id).getD m) s

/-- JOB_START (R297). -/
def execJobStart (core job : Nat) (s : State) : Host.Outcome State Fault Refusal :=
  event (fun m => (m.jobStart core job).getD m) s

/-- JOB_COMPLETE (R136). -/
def execJobComplete (core job : Nat) (s : State) : Host.Outcome State Fault Refusal :=
  event (fun m => (m.jobComplete core job).getD m) s

/-- JOB_FAULT (R186). -/
def execJobFault (core job : Nat) (s : State) : Host.Outcome State Fault Refusal :=
  event (fun m => (m.jobFault core job).getD m) s

/-- CAST_ROUND_COMPLETE (R266). -/
def execCastRoundComplete (part cast : Nat) (s : State) : Host.Outcome State Fault Refusal :=
  event (fun m => (m.castRound part cast).getD m) s

/-- COLLECTIVE_TIMEOUT (R266). -/
def execCollectiveTimeout (part cast : Nat) (s : State) : Host.Outcome State Fault Refusal :=
  event (fun m => (m.collectiveTimeout part cast).getD m) s

/-- OVERLAY_FETCH_DONE (R213). -/
def execOverlayFetchDone (core slot : Nat) (s : State) : Host.Outcome State Fault Refusal :=
  event (fun m => (m.overlayDone core slot).getD m) s

end Sys2Proof.Machine
end

