-- ==== Sys2Proof/Machine/Stage.lean ====
section
/-! DEFINITION. Stage programs: the forms that no core accepts, the start of a program, its end and its time limit
(10_isa_memory R208 to R212). -/

namespace Sys2Proof.Machine

/-! ## Programs (R208, R209) -/

/-- The registers with which a card's program starts (R209). -/
def StageRun.regs (r : StageRun) : Vector Word 32 :=
  let (x, y) := posOf r.core
  let v : List Word := [0, r.arg0, r.arg1, r.dst.setWidth 64, r.len.setWidth 64, wd (x + 1024 * y)]
  Vector.ofFn fun i => v.getD i.val 0

/-- The program of the first waiting card starts (R208, R209). -/
def Mach.stageBegin (m : Mach) (s p : Nat) : Mach :=
  let u := m.unit s p
  match u.cards with
  | [] => m
  | r :: rest =>
    if u.ts.busy then m
    else
      m.modUnit s p fun u =>
        { u with cards := { r with started := m.clk } :: rest, move := none, answer := none,
                 ts := { busy := true, x := r.regs, pc := r.entry.setWidth 14 } }

/-- The program of a unit ends; its job, if it has no fault, completes (R209). -/
def Mach.stageEnd (m : Mach) (s p : Nat) : Mach :=
  match (m.unit s p).cards with
  | [] => m
  | r :: rest =>
    (m.modUnit s p fun u => { u with cards := rest, ts := u.ts.release, move := none, answer := none }).modJob r.core r.job
      fun j => { j with phase := .running (some m.clk) }

/-- The requests of a partition's program leave the stagehand. -/
def Stagehand.dropStage (h : Stagehand) (p : Nat) : Stagehand :=
  { h with requests := h.requests.filter fun v => match v.kind with
      | .stage q _ => q != p
      | _ => true }

/-- STAGE_TIMEOUT: a program that still runs 2^24 cycles after its start is stopped (R209). -/
def Mach.stageTimeout (m : Mach) (s p : Nat) : Option Mach :=
  let u := m.unit s p
  match u.cards with
  | [] => none
  | r :: _ =>
    if u.ts.busy && (m.part p).st == .running && r.started + 2 ^ 24 ≤ m.clk then
      some ((m.modHand s fun h => h.dropStage p).stageFault s p (BitVec.ofNat 8 Cause.stageTimeout) 0 u.ts.pc.toNat)
    else none

/-! ## Tiles (R40, R212) -/

/-- A row of i8 elements as eight planes of 48 bytes, the most significant first (R40). -/
def toPlanes (row : List Byte) : List Byte :=
  (List.range 384).map fun i =>
    BitVec.ofNat 8 (((List.range 8).map fun b => b2n (bit (row.getD (i % 48 * 8 + b) 0) (7 - i / 48)) * 2 ^ b).sum)

/-- Planes back as a row of i8 elements. -/
def ofPlanes (row : List Byte) : List Byte :=
  (List.range 384).map fun j =>
    BitVec.ofNat 8 (((List.range 8).map fun k => b2n (bit (row.getD (48 * k + j / 8) 0) (j % 8)) * 2 ^ (7 - k)).sum)

/-- Rows of 384 bytes, each changed. -/
def mapRows (f : List Byte → List Byte) (bs : List Byte) : Nat → List Byte
  | 0 => []
  | n + 1 => f (bs.take 384) ++ mapRows f (bs.drop 384) n

/-- The card of the running program. -/
def stageCard : Act (Nat × Nat × StageRun) := do
  let m ← get
  match m.cur with
  | .core _ _ => illegalWord
  | .stage s p =>
    match (m.unit s p).cards with
    | [] => illegalWord
    | r :: _ => return (s, p, r)

/-- The rows and the layout that `tile.put` and `tile.get` name, with the checks of R212. -/
def tileArgs (r : StageRun) (loc scratch o : Word) : Act (Nat × Bool) := do
  let n := fld o 4 0
  let bad (a : Word) : FaultRec := { faultOf Cause.illegalOperation with addr := a }
  require (1 ≤ n && n ≤ 16 && fld o 7 5 == 0 && fld o 63 9 == 0) (bad o)
  require (r.dst.toNat ≤ loc.toNat && loc.toNat + 384 * n ≤ r.dst.toNat + r.len.toNat && fld loc 3 0 == 0) (bad loc)
  require (scratch.toNat + 384 * n ≤ 0x4000 && fld scratch 3 0 == 0) (bad scratch)
  return (n, bit o 8)

/-- The bytes of a job's tile written, outside protected areas: a word counts one store per job (R79, R212). -/
def Mach.tileStore (m : Mach) (r : StageRun) (cs : List (Nat × Byte)) : Mach :=
  let k := m.core r.core
  let old := (((k.jobs.find? (·.uid == r.job)).map (·.written)).getD [])
  let again (c : Nat × Byte) : Bool := old.contains (c.1 / 8) && (k.sideAt c.1).ecc != .double
  let m := m.modCore r.core fun k => (k.poke (cs.filter again)).store (cs.filter (!again ·))
  m.modJob r.core r.job fun j => { j with written := (old ++ cellWords cs).eraseDups }

/-- The program waits while the transfer runs: the mesh latency and 64 bytes a cycle (R212, R357). -/
def stageWait (s p core n : Nat) : Act Unit :=
  modify fun m => m.modUnit s p fun u => { u with ts := { u.ts with notBefore := m.clk + 4 + hops (handBase + s) core + 6 * n } }

/-- `tile.put` (R212). DEDUCED: the protection of queue areas and live frame headers, of which R84 and R93 speak for stores by any
instruction, holds for the writes of this one, before any byte moves. -/
def semTilePut (a : Args) : Act Unit := do
  let (s, p, r) ← stageCard
  let loc ← readX a.d
  let scr ← readX a.s
  let (n, planes) ← tileArgs r loc scr (← readX a.t)
  let m ← get
  stallUntil (!m.heldRange r.core loc.toNat (384 * n))
  let bs ← scratchRead s p scr.toNat (384 * n) scr
  let cells := cellsAt loc.toNat (mapRows (if planes then toPlanes else id) bs n)
  match (m.core r.core).protectedCells cells with
  | some f => trap f
  | none => pure ()
  set (m.tileStore r cells)
  stageWait s p r.core n

/-- `tile.get` (R212). -/
def semTileGet (a : Args) : Act Unit := do
  let (s, p, r) ← stageCard
  let scr ← readX a.d
  let loc ← readX a.s
  let (n, planes) ← tileArgs r loc scr (← readX a.t)
  eccRead r.core loc.toNat (384 * n) loc
  let m ← get
  let rows := mapRows (if planes then ofPlanes else id) (Memory.bytes (m.core r.core).mem loc.toNat (384 * n)) n
  scratchWrite s p scr.toNat rows scr
  stageWait s p r.core n

/-! ## Fills and drains (R211) -/

/-- The checks of R211: the window, stagehand and channel offset of the far range. DESIGN CHOICE: an address outside spaces 0x4 to
0x7 raises the address fault (R184), since R211 names no fault for it but that of a range in no window. -/
def fillArgs (s p : Nat) (far scr n : Word) : Act (Nat × Nat × Nat) := do
  require (fld n 3 0 == 0 && 16 ≤ n.toNat && n.toNat ≤ 16384) { faultOf Cause.illegalOperation with addr := n }
  require (fld far 3 0 == 0) { faultOf Cause.alignment with addr := shown far }
  require (fld scr 3 0 == 0) { faultOf Cause.alignment with addr := scr }
  require (scr.toNat + n.toNat ≤ 0x4000) { faultOf Cause.address with addr := scr }
  require (isFar far) { faultOf Cause.address with addr := far }
  let bad : FaultRec := { faultOf Cause.farPlacement with addr := farAddr far }
  match ((← get).part p).parts 20 (fld far 59 0) n.toNat with
  | none => trap bad
  | some [] => trap bad
  | some (q :: qs) => do
    require ((q :: qs).all fun r => r.hand == s && r.win == q.win) bad
    return (q.win, q.hand, q.off)

/-- `sfill` (R211). -/
def semSfill (a : Args) : Act Unit := do
  let m0 ← get
  let (s, p, _) ← stageCard
  let scr ← readX a.d
  let far ← readX a.s
  let n ← readX a.t
  let h ← fillArgs s p far scr n
  require (!(m0.unit s p).badWrite scr.toNat n.toNat) { faultOf Cause.memoryEcc with addr := scr }
  let bs ← stageMove m0 s p far n.toNat h none
  scratchWrite s p scr.toNat bs scr

/-- `sdrain` (R211). -/
def semSdrain (a : Args) : Act Unit := do
  let m0 ← get
  let (s, p, _) ← stageCard
  let far ← readX a.d
  let scr ← readX a.s
  let n ← readX a.t
  let h ← fillArgs s p far scr n
  headerGuard far n.toNat true
  let bs ← scratchRead s p scr.toNat n.toNat scr
  let _ ← stageMove m0 s p far n.toNat h (some bs)
  pure ()

/-! ## The instructions and the event -/

/-- `tile.put` (R212). -/
def execTilePut (a : Args) (s : State) : Host.Outcome State Fault Refusal := issue (semTilePut a) s

/-- `tile.get` (R212). -/
def execTileGet (a : Args) (s : State) : Host.Outcome State Fault Refusal := issue (semTileGet a) s

/-- `sfill` (R211). -/
def execSfill (a : Args) (s : State) : Host.Outcome State Fault Refusal := issue (semSfill a) s

/-- `sdrain` (R211). -/
def execSdrain (a : Args) (s : State) : Host.Outcome State Fault Refusal := issue (semSdrain a) s

/-- STAGE_TIMEOUT (R209). -/
def execStageTimeout (sh part : Nat) (s : State) : Host.Outcome State Fault Refusal :=
  event (fun m => (m.stageTimeout sh part).getD m) s

end Sys2Proof.Machine
end

