-- ==== Sys2Proof/Machine/Net.lean ====
section
/-! DEFINITION. Deliveries at their targets, acceptances and refusals, wakes, and the ends of waits (05_queues R98 to R105;
07_counters R132 to R135; 10_isa_memory R186, R190; 13_isa_tasks R250, R258 to R261; 21_prog_fence R357). -/

namespace Sys2Proof.Machine

/-! ## Receive rings (R99, R101) -/

/-- TAIL of receive ring `n`. -/
def Core.ringTail (k : Core) (n : Nat) : Nat := (Memory.byte k.mem (k.inOff n)).toNat

/-- HEAD of receive ring `n`. -/
def Core.ringHead (k : Core) (n : Nat) : Nat := (Memory.byte k.mem (k.inOff n + 8)).toNat

/-- Slots of receive ring `n`. -/
def Core.ringSlots (k : Core) (n : Nat) : Nat := (vget k.inSlots 0 n).toNat

/-- The place after `i` in receive ring `n`. -/
def Core.ringNext (k : Core) (n i : Nat) : Nat := (i + 1) % k.ringSlots n

/-- The ring is full. -/
def Core.ringFull (k : Core) (n : Nat) : Bool := k.ringNext n (k.ringTail n) == k.ringHead n

/-- The offset of slot `j` of receive ring `n`. -/
def Core.slotOff (k : Core) (n j : Nat) : Nat := k.inOff n + 16 + 144 * j

/-- TAIL moves on by one store to its word, which is read; one that cannot be read is left as it is (R80). -/
def Core.pushTail (k : Core) (n : Nat) : Core :=
  if (k.sideAt (k.inOff n)).ecc = .double then k
  else k.store64 (k.inOff n) (wd (k.ringSlots n * 256 + k.ringNext n (k.ringTail n)))

/-- HEAD moves on by one store to its word (R103). -/
def Core.popHead (k : Core) (n : Nat) : Core := k.store64 (k.inOff n + 8) (wd (k.ringNext n (k.ringHead n)))

/-- The bytes `cs` stored, words that cannot be read left as they are; the first such word (R80). -/
def Core.storeGood (k : Core) (cs : List (Nat × Byte)) : Core × Option Nat :=
  let bad := (cellWords cs).filter fun w => (k.sideAt (8 * w)).ecc = .double && !wholeWord cs w
  (k.store (cs.filter fun c => !bad.contains (c.1 / 8)), bad.head?)

/-! ## What a delivery does at its target (R104, R105, R250) -/

/-- How a delivery is received. -/
inductive Receipt where
  /-- Applied, with a fault found at the target for its issuer, if any. -/
  | applied (m : Mach) (fault : Option FaultRec)
  /-- It can be neither applied nor refused (R104). -/
  | hold
  | refuse
  /-- Not examined yet (R230, R243). -/
  | wait

/-- The memory-ECC fault of a word. -/
def eccBack (w : Option Nat) : Option FaultRec := w.bind fun w => backFault Cause.memoryEcc (wd (8 * w))

/-- A fault found at the target names the address by which the issuer reaches it: in space 0x1 where the target is another core
(R75, R311). -/
def Delivery.back (d : Delivery) (r : FaultRec) : FaultRec :=
  if r.cause.toNat = Cause.unroutable ∨ r.cause.toNat = Cause.copyFault ∨ d.dst = d.src then r
  else { r with addr := meshAddr (posOf d.dst).1 (posOf d.dst).2 (fld r.addr 15 0) }

/-- What an access of a thread set to these words of core `q` meets above the watermark of a copy: it waits until W has passed, and a
faulted copy answers it with the copy fault (R137). -/
def Core.markMeets (k : Core) (ws : List Nat) : Option (Option FaultRec) :=
  (ws.findSome? fun w => k.aboveMark (8 * w) 8).map fun i =>
    let ch := vget k.chan {} i
    if ch.fault.isSome then some (ch.faultRec i) else none

/-- A posted store at its target (R137, R190). -/
def Mach.takeStore (m : Mach) (q : Nat) (cs : List (Nat × Byte)) : Receipt :=
  let k := m.core q
  match k.protectedCells cs with
  | some r => .applied m (some r)
  | none =>
    match k.markMeets (cellWords cs) with
    | some none => .wait
    | some f => .applied m f
    | none =>
      if (cellWords cs).any fun w => m.heldRange q (8 * w) 8 then .wait
      else
        let (k', bad) := k.storeGood cs
        .applied (m.setCore q k') (eccBack bad)

/-- A `stv` at its target (R134, R137). -/
def Mach.takeStv (m : Mach) (q off : Nat) (v : Word) (n : Byte) : Receipt :=
  let k := m.core q
  match k.protectedCells [(off, 0)] with
  | some r => .applied m (some r)
  | none =>
    match k.markMeets [off / 8] with
    | some none => .wait
    | some f => .applied m f
    | none =>
      if m.heldRange q off 8 then .wait
      else if (k.sideAt off).ecc = .double then .applied m (eccBack (some (off / 8)))
      else if k.verAt off = n - 1 && (k.sideAt off).rcl then
        .applied (m.setCore q ((k.correctWord (off / 8)).store64 off v)) none
      else .hold

/-- Who has caused, on the target core itself, what a delivery does there (R310). -/
def Delivery.issuer (d : Delivery) : Option (Nat × BitVec 14 × Priv) := if d.src = d.dst then some (d.ts, d.pc, d.priv) else none

/-- A cue decrement at its target, which is a store to its word (R84, R93, R95, R132). -/
def Mach.takeCue (m : Mach) (q off : Nat) (flt : Bool) (src : Nat) (issuer : Option (Nat × BitVec 14 × Priv)) : Receipt :=
  if ((m.core q).protectedCells [(off, 0)]).isSome then .applied m ((m.core q).protectedCells [(off, 0)])
  else
    match (m.core q).markMeets [off / 8] with
    | some none => .wait
    | some f => .applied m f
    | none =>
      if m.cueHeld q off then .wait
      else
        match m.decrement q off flt src issuer with
        | .done m => .applied m none
        | .full => .refuse
        | .ecc => .applied m (eccBack (some (off / 8)))

/-- A message appended to its ring, its cue decremented, in the order of R101; the first word that could not be read or
written. The control words are read (R80, R99). DESIGN CHOICE: where TAIL cannot be read, the message goes to the slot that its
stored bits name, and TAIL stays as it is. -/
def Mach.append (m : Mach) (q src : Nat) (issuer : Option (Nat × BitVec 14 × Priv)) (h w1 : Word) (body : List Byte) :
    Mach × Option Nat :=
  let n := fld h 45 44
  let k := (m.core q).correct ((m.core q).inOff n) 16
  let at_ := k.slotOff n (k.ringTail n)
  let mism := bit h 39 && bit h 38 != (k.tset k.supTs).tc
  let h' := if mism then h ||| wd (2 ^ 37) else h
  let (k', bad) := k.storeGood (cellsAt at_ (leBytes h'.toNat 8 ++ leBytes w1.toNat 8 ++ body))
  let bad := (k.badRead (k.inOff n) 16).or bad
  let m := m.setCore q (k'.pushTail n)
  let (m, bad) :=
    if bit h 43 then
      match m.decrement q (fld h 15 0) false src issuer with
      | .done m => (m, bad)
      | .full => (m, bad)
      | .ecc => (m, bad.or (some (fld h 15 0 / 8)))
    else (m, bad)
  let ev : FaultRec := { faultOf Cause.formatMismatch with index := BitVec.ofNat 16 n, addr := wd at_ }
  (if mism then m.arrivalEvent q src issuer ev else m, bad)

/-- A message at its target (R101, R102, R253). DESIGN CHOICE: one whose cue lies in a protected area (R84, R93) is answered
with that fault, and nothing of it is appended. -/
def Mach.takeMsg (m : Mach) (q src : Nat) (issuer : Option (Nat × BitVec 14 × Priv)) (h w1 : Word) (body : List Byte) : Receipt :=
  let k := m.core q
  let n := fld h 45 44
  let full := match (if bit h 43 then m.decrement q (fld h 15 0) false src else .done m) with
    | .full => true
    | _ => false
  let bar := if bit h 43 then k.protectedCells [(fld h 15 0, 0)] else none
  if bar.isSome then .applied m bar
  else if m.heldRange q (k.slotOff n (k.ringTail n)) (16 + body.length) || m.heldRange q (k.inOff n) 8 ||
    (bit h 43 && m.cueHeld q (fld h 15 0)) then .wait
  else if k.ringFull n then .hold
  else if full then .refuse
  else
    let (m, bad) := m.append q src issuer h w1 body
    .applied m (eccBack bad)

/-- The delivery examined at its target core: a fused-off core answers with the unroutable-address fault (R13). DESIGN CHOICE:
the record's ADDR is the target address that a lost-packet record would name (R311), for a message its header word. -/
def Mach.receive (m : Mach) (d : Delivery) : Receipt :=
  if d.dst < meshCores && !m.live d.dst then
    .applied m (backFault Cause.unroutable d.target)
  else
    match d.body with
    | .store cs => m.takeStore d.dst cs
    | .stv off v n => m.takeStv d.dst off v n
    | .cue off flt _ => m.takeCue d.dst off flt d.src d.issuer
    | .msg h w1 body => m.takeMsg d.dst d.src d.issuer h w1 body
    | .inc i n => .applied (m.modCore d.dst (·.bump i n)) none
    | _ => .wait

/-- A delivery that stands before its target, on its arrival or in the holding buffer (R104). -/
def Delivery.standing (d : Delivery) (clk : Nat) : Bool :=
  d.dst < handBase &&
  (match d.phase with
   | .flying due => due ≤ clk
   | .held => true
   | _ => false)

/-- A delivery arrives, or is examined again in the holding buffer: it is applied and its acceptance goes back, it is
held, or, at the end of its cycle, it is refused (R104, R105, R111, R125). A copy that was in flight when its member was reported
lost is delivered (R129, R275). DESIGN CHOICE: a held message whose ring has freed but whose cue R95 would refuse stays held. -/
def Mach.arriveAt (m : Mach) (late : Bool) (kind : Payload → Bool) (id : Nat) : Option Mach :=
  match m.delivery id with
  | none => none
  | some d =>
    if !(d.standing m.clk && kind d.body) then none
    else if (m.part d.part).st = .zeroing then some (m.discard d)
    else
      let k := m.core d.dst
      let back := m.clk + d.answer
      let refuse : Option Mach := if late then some (m.modDelivery id fun d => { d with phase := .refusing back }) else none
      let park : Option Mach :=
        if d.phase = .held then none
        else if k.hold.length < 8 then
          some ((m.modDelivery id fun d => { d with phase := .held }).modCore d.dst fun k => { k with hold := k.hold ++ [id] })
        else refuse
      let behind := (k.hold.takeWhile (· != id)).any fun i => (m.delivery i).any (·.conflicts d)
      match m.receive d with
      | .wait => none
      | r =>
        if behind then park
        else
        match r with
        | .applied m' f =>
          some ((m'.modDelivery id fun d => { d with phase := .accepting back (f.map d.back) }).modCore d.dst fun k =>
            { k.charge 4 with hold := k.hold.filter (· != id) })
        | .hold => park
        | .refuse => if d.phase = .held then none else refuse
        | .wait => none

/-- The oldest held delivery of core `c` whose condition now holds is applied (R104). -/
def Mach.heldDue (m : Mach) (c : Nat) : Option Mach := (m.core c).hold.findSome? (m.arriveAt false fun _ => true)

/-- A refusal of a delivery of `src`, counted there (R140). -/
def Mach.countRefusal (m : Mach) (src : Nat) : Mach :=
  if handBase ≤ src then m else m.modCore src fun k => { k with count := { k.count with refusals := satInc k.count.refusals } }

/-- DELIVERY_ACCEPTED: the acceptance reaches the sender; a fault found at the target goes to the issuer, that of a join as the
join-refused event, with the fault's code in INDEX (R105, R186, R258, R311). R311 gives INDEX the failed check's code 0x04 to 0x07;
DESIGN CHOICE: a join that its target refuses with another fault carries that fault's code. A fault of a core that is fused
off is a refusal of its delivery, and counts as one (R13, R140). -/
def Mach.accepted (m : Mach) (id : Nat) : Option Mach :=
  match m.delivery id with
  | none => none
  | some d =>
    match d.phase with
    | .accepting due f =>
      if m.clk < due then none
      else
        let m := m.dropDelivery d
        let m := if f.isSome && d.dst < meshCores && !m.live d.dst then m.countRefusal d.src else m
        match f, d.body with
        | none, _ => some m
        | some r, .cue _ _ (some j) =>
          some (m.event d.src { d.issuerRec Cause.joinRefused with addr := j, index := r.cause.setWidth 16 } (some d.ts))
        | some r, _ => some (m.deliverFault d.src d.ts d.cid { r with pc := d.pc, priv := BitVec.ofNat 2 d.priv.code })
    | _ => none

/-- DELIVERY_REFUSED: the refusal reaches the sender, which waits 64 cycles, twice as long after each further refusal, at
most 4,096 (R105, R140). -/
def Mach.refused (m : Mach) (id : Nat) : Option Mach :=
  match m.delivery id with
  | none => none
  | some d =>
    match d.phase with
    | .refusing due =>
      if m.clk < due then none
      else
        let m := m.modDelivery id fun d =>
          { d with phase := .backoff (m.clk + min 4096 (64 * 2 ^ d.refusals)), refusals := d.refusals + 1 }
        some (m.countRefusal d.src)
    | _ => none

/-- RETRANSMIT: the wait after a refusal is over (R105), and its router lets the delivery in (R301, R314); a copy of a multicast
goes to its member alone, as a unicast (R254). -/
def Mach.retransmit (m : Mach) (id : Nat) : Option Mach :=
  match m.delivery id with
  | none => none
  | some d =>
    match d.phase with
    | .backoff due =>
      if m.clk < due then none
      else if m.toLost d then some (m.dropDelivery d)
      else
        let d := { d with cast := d.cast.map fun k => (k.1, hops d.src d.dst) }
        if m.injectOpen d then some ((m.modDelivery id fun _ => d).inject d) else none
    | _ => none

/-! ## Local wakes (R98, R111, R259) -/

/-- The event that the operand of `park` names holds (R259). -/
def Core.eventHolds (k : Core) (e : Word) : Bool :=
  match fld e 63 62 with
  | 1 => verReached (k.verAt (fld e 15 0)) (e.extractLsb' 16 8)
  | 2 => k.ringHead (fld e 25 24) != k.ringTail (fld e 25 24)
  | _ => false

/-- The event that a parked record's WAIT names has come (R96, R98). -/
def Core.waitOver (k : Core) (i : Nat) : Bool :=
  let arg := k.recWord i 7
  (k.record i).st == .parked &&
  (match fld (k.recWord i 0) 63 60 with
   | 1 => verReached (k.verAt (fld arg 15 0)) (arg.extractLsb' 16 8)
   | 2 => k.eventHolds arg
   | 3 => (k.slot (fld arg 3 0)).st == .valid
   | _ => false)

/-- The fault of a wait for an overlay slot whose fetch has failed (R81, R98). -/
def Core.waitFault (k : Core) (i : Nat) : Option FaultRec :=
  let g := fld (k.recWord i 7) 3 0
  if (k.record i).st == .parked && fld (k.recWord i 0) 63 60 == 3 && (k.slot g).st == .empty then
    some { faultOf Cause.overlayAbsent with
             addr := wd (fld (k.recWord i 0) 13 0), index := BitVec.ofNat 16 g }
  else none

/-- CONTEXT_WAKE: a far wake arrives, or the event of a local wait holds (R98, R108). -/
def Mach.contextWake (m : Mach) : WakeFor → Option Mach
  | .packet id => m.wakePacket id false
  | .record c i => if (m.core c).waitOver i && !m.slotHeld c false then some (m.modCore c (·.wake i)) else none

/-- FAULT_WAKE: a far fault arrives, a fault of the parked codelet's copy or job could not be written before, or a local wait cannot
end (R98, R108, R186). -/
def Mach.faultWakeEv (m : Mach) : WakeFor → Option Mach
  | .packet id => m.wakePacket id true
  | .record c i =>
    if m.wakeHeld c i then none
    else
      match (m.core c).record i with
      | { st := .parked, pend := r :: rs, .. } =>
        some (m.modCore c fun k => (k.modRec i fun q => { q with pend := rs }).faultWake i r)
      | _ => ((m.core c).waitFault i).map fun r => m.modCore c (·.faultWake i { r with time := wd m.clk })

/-! ## Ends of waits in place (R133, R135, R259) -/

/-- The wait of a thread set that its partition's running lets count. -/
def Mach.waitOf (m : Mach) (c t : Nat) : Option Waiting := if m.coreRuns c then ((m.core c).tset t).wait else none

/-- VERSION_WAIT_PARK: a versioned load or `rwait` unsatisfied 64 cycles after its issue parks, or traps at the record
limit (R97, R133). -/
def Mach.versionPark (m : Mach) (c t : Nat) : Option Mach :=
  let k := m.core c
  let s := k.tset t
  match m.waitOf c t with
  | none => none
  | some w =>
    match w.kind with
    | .version off n =>
      if w.since + 64 ≤ m.clk && !s.held && !verReached (k.verAt off) n then
        match k.freeRec with
        | none => some (m.trapEntry c t { faultOf Cause.parkLimit with pc := s.pc } s.pc)
        | some i => if m.recHeld c i then none else some (m.parkOrTrap c t i 1 (wd (n.toNat * 2 ^ 16 + off)))
      else none
    | _ => none

/-- PARK_TIMEOUT: the time-out of a `park` ends (R259). -/
def Mach.parkTimeout (m : Mach) (c i : Nat) : Option Mach :=
  let r := (m.core c).record i
  if m.coreRuns c && r.st == .parked && r.deadline.any (· ≤ m.clk) && !m.slotHeld c false then some (m.modCore c (·.wake i)) else none

/-- The counter has reached the target (R135). -/
def counterReached (v target : BitVec 32) : Bool := (v - target).toNat < 2 ^ 31

/-- MAILBOX_TIMEOUT: the time-out of an `mbwait` ends; in a chorus the record names the first member that waits (R135,
R261). -/
def Mach.mailboxTimeout (m : Mach) (c t : Nat) : Option Mach :=
  match m.waitOf c t with
  | none => none
  | some w =>
    match w.kind with
    | .counter i target limit =>
      let s := (m.core c).tset t
      let q := ((c :: m.followersOf c t).find? fun q => !counterReached (vget (m.core q).mb 0 i) target).getD c
      let v := vget (m.core q).mb 0 i
      if w.since + limit ≤ m.clk && !counterReached v target then
        let r : FaultRec :=
          { faultOf Cause.mailboxTimeout with index := BitVec.ofNat 16 i, val := target, data := v.setWidth 64, pc := s.pc }
        some (m.trapEntry c t (if s.cho then r.from q else r) s.pc)
      else none
    | _ => none

/-! ## The events -/

/-- CUE_DEC_ARRIVAL (R132). -/
def execCueDecArrival (id : Nat) (s : State) : Host.Outcome State Fault Refusal :=
  event (fun m => (m.arriveAt true (fun | .cue _ _ _ => true | _ => false) id).getD m) s

/-- MESSAGE_APPEND (R101). -/
def execMessageAppend (id : Nat) (s : State) : Host.Outcome State Fault Refusal :=
  event (fun m => (m.arriveAt true (fun | .msg _ _ _ => true | _ => false) id).getD m) s

/-- POSTED_STORE_ARRIVAL (R190). -/
def execPostedStoreArrival (id : Nat) (s : State) : Host.Outcome State Fault Refusal :=
  event (fun m => (m.arriveAt true (fun | .store _ => true | _ => false) id).getD m) s

/-- STV_ARRIVAL (R134). -/
def execStvArrival (id : Nat) (s : State) : Host.Outcome State Fault Refusal :=
  event (fun m => (m.arriveAt true (fun | .stv _ _ _ => true | _ => false) id).getD m) s

/-- MAILBOX_INCREMENT (R135). -/
def execMailboxIncrement (id : Nat) (s : State) : Host.Outcome State Fault Refusal :=
  event (fun m => (m.arriveAt true (fun | .inc _ _ => true | _ => false) id).getD m) s

/-- DELIVERY_ACCEPTED (R105). -/
def execDeliveryAccepted (id : Nat) (s : State) : Host.Outcome State Fault Refusal := event (fun m => (m.accepted id).getD m) s

/-- DELIVERY_REFUSED (R105). -/
def execDeliveryRefused (id : Nat) (s : State) : Host.Outcome State Fault Refusal := event (fun m => (m.refused id).getD m) s

/-- RETRANSMIT (R105). -/
def execRetransmit (id : Nat) (s : State) : Host.Outcome State Fault Refusal := event (fun m => (m.retransmit id).getD m) s

/-- CONTEXT_WAKE (R98). -/
def execContextWake (w : WakeFor) (s : State) : Host.Outcome State Fault Refusal := event (fun m => (m.contextWake w).getD m) s

/-- FAULT_WAKE (R98). -/
def execFaultWake (w : WakeFor) (s : State) : Host.Outcome State Fault Refusal := event (fun m => (m.faultWakeEv w).getD m) s

/-- VERSION_WAIT_PARK (R133). -/
def execVersionWaitPark (core ts : Nat) (s : State) : Host.Outcome State Fault Refusal :=
  event (fun m => (m.versionPark core ts).getD m) s

/-- PARK_TIMEOUT (R259). -/
def execParkTimeout (core record : Nat) (s : State) : Host.Outcome State Fault Refusal :=
  event (fun m => (m.parkTimeout core record).getD m) s

/-- MAILBOX_TIMEOUT (R135). -/
def execMailboxTimeout (core ts : Nat) (s : State) : Host.Outcome State Fault Refusal :=
  event (fun m => (m.mailboxTimeout core ts).getD m) s

end Sys2Proof.Machine
end

