-- ==== Sys2Proof/Machine/Tasks.lean ====
section
/-! DEFINITION. Messages, cues, parks, receive rings, mailbox counters, and the ends of codelets and cores (05_queues R100,
R103; 07_counters R131, R132, R135; 13_isa_tasks R250 to R261, R271). -/

namespace Sys2Proof.Machine

/-! ## Active messages (R100, R253, R254) -/

/-- The checks on a header and its payload offset that `send` and `sendc` share (R253). -/
def checkMessage (h p : Word) (limit : Nat) : Act Unit := do
  let len := fld h 36 29
  require (!bit h 37 && !bit h 38 && fld h 28 16 == 0 && len ≤ 128 && fld p 63 16 == 0 && (bit h 43 || fld h 15 0 == 0))
    { faultOf Cause.illegalOperation with addr := h }
  require (!bit h 43 || fld h 2 0 == 0) { faultOf Cause.alignment with addr := wd (fld h 15 0) }
  require (len == 0 || fld p 2 0 == 0) { faultOf Cause.alignment with addr := p }
  require (len == 0 || p.toNat + len ≤ limit) { faultOf Cause.address with addr := p }

/-- The payload as it stands, after the waits of R185 (R100). -/
def readPayload (p n : Nat) : Act (List Byte) := do
  let m ← get
  match m.cur with
  | .stage s q => if n = 0 then return [] else scratchRead s q p n (wd p)
  | .core c _ =>
    if n = 0 then return []
    else do
      gateWords false ((List.range (ceilDiv n 8)).map (p / 8 + ·))
      eccRead c p n (wd p)
      return Memory.bytes (← myCore).mem p n

/-- The header as it travels: TCB is the sender's top-code bit (R100). -/
def sentHeader (h : Word) (tc : Bool) : Word := if tc then h ||| wd (2 ^ 38) else h

/-- Header word 1 of the sender at (x, y) (R100). -/
def headerWord1 (x y n : Nat) : Word := wd (x * 2 ^ 54 + y * 2 ^ 46 + n)

/-- The message number of a core, which then rises (R100). -/
def takeMsgNo : Act (BitVec 32) := do
  let n := (← myCore).msgNo
  modMyCore fun k => { k with msgNo := k.msgNo + 1 }
  return n

/-- A target core at (x, y): in the mesh and in the partition (R253). -/
def Mach.target (m : Mach) (x y : Nat) : Except Nat Nat :=
  let house := match m.cur with
    | .core c _ => decide (meshCores ≤ c)
    | .stage _ _ => false
  match meshCore x y with
  | none => .error Cause.unroutable
  | some q => if house || !(m.part m.myPart).holds x y then .error Cause.partition else .ok q

/-- The copies of a multicast of cast `n` from core `c`: each member that the tree reaches and is not lost, with the router hops of
its way over the root (R121, R254). -/
def Cast.copies (k : Cast) (m : Mach) (n c : Nat) : List (Nat × Nat) :=
  let root := k.ry.toNat * 512 + k.rx.toNat
  ((m.fanOut n root).filter fun qh => !k.lostAt.contains qh.1).map fun qh => (qh.1, hops c root + qh.2)

/-- `send` (R253). A stage program's message carries no number of a core; the spec states none. -/
def semSend (a : Args) : Act Unit := do
  srcPort false a.d
  srcPort false a.s
  let h ← readX a.d
  let p ← readX a.s
  let m ← get
  checkMessage h p (match m.cur with
    | .core _ _ => 65536
    | .stage _ _ => 0x4000)
  match m.target (fld h 63 54) (fld h 53 46) with
  | .error code => trapAt code h
  | .ok q =>
    match m.cur with
    | .core c t => do
      stallUntil (m.windowFree c)
      let body ← readPayload (fld p 15 0) (fld h 36 29)
      let n ← takeMsgNo
      let (x, y) := posOf c
      modify fun m => m.post c t q (.msg (sentHeader h m.me.tc) (headerWord1 x y n.toNat) body) none true
    | .stage s r => do
      let body ← readPayload (fld p 15 0) (fld h 36 29)
      let (w, m') := (← get).freeWord
      let (x, y) := handPos s
      set (m'.postHand s q r (.msg (sentHeader h m.me.tc) (headerWord1 x y (fld w 31 0)) body))

/-- `sendc`: the message travels to the root and fans out by the tree; a copy to a lost member is discarded (R121, R254). -/
def semSendc (a : Args) : Act Unit := do
  srcPort false a.d
  srcPort false a.s
  let h ← readX a.d
  let p ← readX a.s
  let m ← get
  let c := m.here
  let cast := (m.part m.myPart).cast a.imm.toNat
  checkMessage h p 65536
  require (fld h 63 46 == 0) { faultOf Cause.illegalOperation with addr := h }
  require (c < meshCores && cast.v) { faultOf Cause.illegalOperation with addr := h }
  stallUntil (m.windowFree c)
  let body ← readPayload (fld p 15 0) (fld h 36 29)
  let n ← takeMsgNo
  let (x, y) := posOf c
  modify fun m =>
    let copies := cast.copies m a.imm.toNat c
    copies.foldl (fun m' qh =>
      m'.post c m.tsNo qh.1 (.msg (sentHeader h m.me.tc) (headerWord1 x y n.toNat) body) (some m.nextId)
        (cast := some (a.imm.toNat, qh.2)) (lead := (copies.head?.map (·.1)) == some qh.1)) m

/-! ## Cues (R131, R132, R250, R255, R256) -/

/-- The ready-overflow trap (R95). -/
def overflowTrap {α : Type} (a : Word) : Act α := trapAt Cause.readyOverflow a

/-- `cue.dec` (R255). -/
def semCueDec (a : Args) : Act Unit := do
  srcPort false a.s
  let ea ← readX a.s
  let m ← get
  match m.cur with
  | .stage s p =>
    if fld ea 63 60 ≠ 1 ∨ fld ea 59 42 ≠ 0 ∨ fld ea 23 16 ≠ 0 then trapAt Cause.address (shown ea)
    else if fld ea 2 0 ≠ 0 then trapAt Cause.alignment (shown ea)
    else
      match m.target (fld ea 41 32) (fld ea 31 24) with
      | .error code => trapAt code (shown ea)
      | .ok q => set (m.postHand s q p (.cue (fld ea 15 0) false none))
  | .core c _ =>
    match m.cueTarget c ea with
    | .error code => trapAt code (shown ea)
    | .ok (q, off) =>
      if q = c then do
        let _ ← checkElem ea 8 .own false true
        waitGate off 8 true
        let m ← get
        stallUntil (!m.cueHeld c off)
        match m.decrement c off false c (some (m.tsNo, m.me.pc, m.me.priv)) with
        | .done m => set m
        | .full => overflowTrap ea
        | .ecc => trapAt Cause.memoryEcc ea
      else deliver q (.cue off false none)

/-- The address and the operand of a form on the own core's cue (R256). -/
def cueOperands (a : Args) (zero : Word) : Act (Word × Word × Nat) := do
  srcPort false a.d
  srcPort false a.s
  let ea ← readX a.d
  let v ← readX a.s
  let p ← checkElem ea 8 .own false true
  require (v &&& zero == 0) { faultOf Cause.illegalOperation with addr := ea }
  waitGate p.off 8 true
  return (ea, v, p.off)

/-- `cue.arm` (R132, R256). -/
def semCueArm (a : Args) : Act Unit := do
  let (ea, v, off) ← cueOperands a 0x0000FFBF00000000
  let n := fld v 31 0
  let ring := bit v 38
  let k := (← myCore).store64 off (cueWord (fld v 63 48) 0 (n != 0) ring (n == 0) n)
  if n = 0 then do
    waitPush ring
    match k.pushReady ring (ringEntry 0 off (fld v 63 48)) with
    | some k => modMyCore fun _ => k
    | none => overflowTrap ea
  else modMyCore fun _ => k

/-- `cue.bind` (R256). -/
def semCueBind (a : Args) : Act Unit := do
  let (ea, v, off) ← cueOperands a 0x0000FFBFFFFFFFFF
  eccRead (← get).here off 8 ea
  let keep : Word := 0x0000FFBFFFFFFFFF
  modMyCore fun k => k.store64 off ((k.mem64 off &&& keep) ||| (v &&& ~~~keep))

/-- `cue.stat` (R256). -/
def semCueStat (a : Args) : Act Unit := do
  srcPort false a.s
  dstPort false a.d
  let ea ← readX a.s
  let p ← checkElem ea 8 .cluster false false
  writeX a.d (wd (← loadPlace p 8 ea))

/-- `ready` (R257). -/
def semReady (a : Args) : Act Unit := do
  srcPort false a.s
  let v ← readX a.s
  require (fld v 63 17 == 0) { faultOf Cause.illegalOperation with addr := v }
  require (fld v 3 0 == 0) { faultOf Cause.alignment with addr := wd (fld v 15 0) }
  waitPush (bit v 16)
  match (← myCore).pushReady (bit v 16) (ringEntry 0 0 (fld v 15 0)) with
  | some k => modMyCore fun _ => k
  | none => overflowTrap (wd (fld v 15 0))

/-! ## `park` (R259) -/

/-- Cycles of a `park` operand's time-out; `none` where it has none. -/
def parkLimit (e : Word) : Option Nat := if fld e 59 40 = 0 then none else some (fld e 59 40 * 256)

/-- The words that tell whether the event of `park` holds are read (R80, R259). -/
def parkReads (e : Word) : Act Unit := do
  let m ← get
  match fld e 63 62 with
  | 1 => eccRead m.here (fld e 15 0) 8 (wd (fld e 15 0))
  | 2 => eccRead m.here (m.myCore.inOff (fld e 25 24)) 16 (wd (m.myCore.inOff (fld e 25 24)))
  | _ => pure ()

/-- `park` (R259). -/
def semPark (a : Args) : Act Unit := do
  srcPort false a.s
  let e ← readX a.s
  let kind := fld e 63 62
  require (kind != 3 && fld e 61 60 == 0 && fld e 39 26 == 0 && (kind != 0 || fld e 59 40 != 0))
    { faultOf Cause.illegalOperation with addr := e }
  require (kind != 1 || fld e 2 0 == 0) { faultOf Cause.alignment with addr := wd (fld e 15 0) }
  let t ← me
  let m ← get
  require (!t.cho && !t.fol) { faultOf Cause.illegalOperation with addr := e }
  parkReads e
  if (← get).myCore.eventHolds e then pure ()
  else if t.anyBound then
    let timeUp := match t.wait, parkLimit e with
      | some w, some n => w.kind == .event e && w.since + n ≤ m.clk
      | _, _ => false
    stallUntil timeUp (.event e)
  else park 2 e m.npc ((parkLimit e).map (m.clk + ·))

/-! ## Receive rings (R103, R260) -/

/-- The offset of slot HEAD of ring `n`, or 0 (R260). -/
def Core.headSlot (k : Core) (n : Nat) : Nat := if k.ringHead n = k.ringTail n then 0 else k.slotOff n (k.ringHead n)

/-- The control words of receive ring `n` are read (R80, R99). -/
def readRing (n : Nat) : Act Unit := do
  let m ← get
  eccRead m.here (m.myCore.inOff n) 16 (wd (m.myCore.inOff n))

/-- `rpoll` (R260). -/
def semRpoll (a : Args) : Act Unit := do
  dstPort false a.d
  let n := a.imm.toNat % 4
  readRing n
  writeX a.d (wd ((← myCore).headSlot n))

/-- `rwait` (R260). -/
def semRwait (a : Args) : Act Unit := do
  dstPort false a.d
  let n := a.imm.toNat % 4
  readRing n
  let k ← myCore
  stallUntil (k.headSlot n != 0) (.version (k.inOff n) (k.verAt (k.inOff n) + 1))
  writeX a.d (wd (k.headSlot n))

/-- `rpop` (R103, R260). -/
def semRpop (a : Args) : Act Unit := do
  let n := a.imm.toNat % 4
  readRing n
  let k ← myCore
  require (k.headSlot n != 0) (faultOf Cause.illegalOperation)
  waitHeld (k.inOff n + 8) 8
  modMyCore (·.popHead n)

/-! ## Mailbox counters (R75, R135, R250, R261) -/

/-- How far a counter form reaches: its core and index, or the cause of the first failed check (R250). -/
def Mach.counterAt (m : Mach) (ea : Word) (reach : MeshReach) : Except Nat (Nat × Nat) :=
  let x := fld ea 41 32
  let y := fld ea 31 24
  let self := match m.cur with
    | .core c _ => agentAt x y == some c
    | .stage _ _ => false
  if fld ea 63 60 ≠ 2 ∨ fld ea 59 42 ≠ 0 ∨ fld ea 23 8 ≠ 0 then .error Cause.address
  else if reach = .own && !self then .error Cause.address
  else if fld ea 1 0 ≠ 0 then .error Cause.alignment
  else if self then .ok (m.here, fld ea 7 2)
  else
    match meshCore x y with
    | none => .error Cause.unroutable
    | some q =>
      match reach with
      | .partition =>
        match m.target x y with
        | .error code => .error code
        | .ok q => .ok (q, fld ea 7 2)
      | _ =>
        if !m.live q then .error Cause.unroutable
        else if !sameCluster m.here q then .error Cause.address
        else .ok (q, fld ea 7 2)

/-- `mbinc` (R135, R261). -/
def semMbinc (a : Args) : Act Unit := do
  srcPort false a.d
  srcPort false a.s
  let ea ← readX a.d
  let n := (← readX a.s).setWidth 32
  let m ← get
  match m.counterAt ea .partition with
  | .error code => trapAt code (shown ea)
  | .ok (q, i) => if q = m.here then modMyCore (·.bump i n) else deliver q (.inc i n)

/-- Cycles of an `mbwait` time-out (R135). -/
def mailboxLimit (n : Nat) : Nat := if n = 0 then 2 ^ 20 else n

/-- `mbwait` (R261). -/
def semMbwait (a : Args) : Act Unit := do
  srcPort false a.d
  srcPort false a.s
  srcPort false a.t
  let ea ← readX a.d
  let target ← readX a.s
  let limit ← readX a.t
  match (← get).counterAt ea .own with
  | .error code => trapAt code (shown ea)
  | .ok (_, i) => do
    require (fld target 63 32 == 0) { faultOf Cause.illegalOperation with addr := ea }
    require (fld limit 63 32 == 0) { faultOf Cause.illegalOperation with addr := ea }
    stallUntil (counterReached (vget (← myCore).mb 0 i) (target.setWidth 32))
      (.counter i (target.setWidth 32) (mailboxLimit limit.toNat))

/-- `mbget` (R261). -/
def semMbget (a : Args) : Act Unit := do
  srcPort false a.s
  dstPort false a.d
  let ea ← readX a.s
  let m ← get
  match m.counterAt ea .cluster with
  | .error code => trapAt code (shown ea)
  | .ok (q, i) => writeX a.d ((vget (m.core q).mb 0 i).setWidth 64)

/-! ## `done` and `halt` (R120, R258, R271) -/

/-- Close a slot; a stall keeps what stands before it. -/
def closeKept (i : Nat) : Act Unit :=
  tryCatch (closeSlot i) fun e =>
    match e with
    | .wait k => throw (.waitKeep k)
    | e => throw e

/-- Close every bound slot, ascending (R258). -/
def closeAll : List Nat → Act Unit
  | [] => pure ()
  | i :: is => do
    if ((← me).slot i).bnd then closeKept i else pure ()
    closeAll is

/-- The frames that thread set `t` holds are left, and its join cue is kept until its decrement is sent: slot 0 of the depth-3
frame, read before any leave (R252, R258). A word or a display register read that has an uncorrectable error traps (R62, R80). -/
def leaveFrames (c t : Nat) : Act Word := do
  let s ← me
  match s.doneJoin with
  | some j => return j
  | none => do
    [3, 4, 5, 6, 7].forM fun i => checkReg (dispCode i)
    let held := ([7, 6, 5, 4, 3].map fun i => vget s.d 0 i).filter (· != 0)
    held.forM fun f => waitHeld (fld f 15 0 + 8) 8
    held.forM fun f => eccRead c (fld f 15 0 + 8) 8 f
    let f := vget s.d 0 3
    if f != 0 then eccRead c (fld f 15 0 + 16) 8 (f + 16) else pure ()
    let j := ((← get).core c).joinOf t
    modify fun m => m.modCore c fun k => (k.leaveAll t).modTs t fun s => { s with doneJoin := some j }
    return j

/-- `done`: what it has closed and left stays so while it stalls for output or for a send-window entry (R209, R258). -/
def semDone (_ : Args) : Act Unit := do
  notInChorus
  let m0 ← get
  match m0.cur with
  | .stage s p => set (m0.stageEnd s p)
  | .core c t => do
    closeAll (List.range 8)
    let j ← leaveFrames c t
    match (← get).sendJoin c t j false with
    | none => throw (.waitKeep .other)
    | some m => set (m.modCore c (·.modTs t ThreadSet.release))

/-- The member-lost record (R120, R311). -/
def lostRecord (n c : Nat) : FaultRec := { faultOf Cause.memberLost with index := BitVec.ofNat 16 n }.from c

/-- The delivery has not been applied at its target. -/
def Delivery.unapplied (d : Delivery) : Bool :=
  match d.phase with
  | .accepting _ _ => false
  | _ => true

/-- The copies for member `d` of those multicasts of cast `n` that are in flight to member `c` (R129). -/
def Mach.castCopies (m : Mach) (q n c d : Nat) : List Nat :=
  let ofCast (e : Delivery) : Bool := e.part == q && e.cast.any (·.1 == n)
  let flies (e : Delivery) : Bool := match e.phase with
    | .flying _ => true
    | _ => false
  ((m.net.filter fun e => ofCast e && e.dst == d && e.unapplied &&
    m.net.any fun f => ofCast f && f.dst == c && f.src == e.src && f.win == e.win && flies f).map (·.id))

/-- A core is lost to its casts: LOST rises and every other member is told, after the multicasts that are in flight to it (R120,
R129). -/
def Mach.loseMember (m : Mach) (c : Nat) : Mach :=
  let q := (m.core c).part.toNat
  (List.range 256).foldl (fun m n =>
    let k := (m.part q).cast n
    if k.v && k.members.contains c && !k.lostAt.contains c then
      let m := m.modPart q fun p =>
        { p with casts := vset p.casts n { k with lost := k.lost + 1, lostAt := k.lostAt ++ [c] } }
      (k.members.filter (· != c)).foldl (fun m d =>
        match m.castCopies q n c d with
        | [] => m.event d (lostRecord n c)
        | after => m.modPart q fun p => { p with lostEvents := p.lostEvents ++ [{ cast := n, lost := c, told := d, after := after }] }) m
    else m) m

/-- The multicasts that a member-lost event follows have come to the member that is told (R129, R275). -/
def Mach.memberTold (m : Mach) (q : Nat) : Option Mach :=
  match (m.part q).lostEvents.find? fun e => !(m.net.any fun d => e.after.contains d.id && d.unapplied) with
  | none => none
  | some e =>
    some ((m.modPart q fun p => { p with lostEvents := p.lostEvents.erase e }).event e.told (lostRecord e.cast e.lost))

/-- `halt` (R271): core-halted names the instruction and the thread set that halts the core (R310). A house core belongs to no
partition, so no runtime core is told. -/
def semHalt (_ : Args) : Act Unit := do
  needSupervisor
  notInChorus
  let m ← get
  let c := m.here
  let m := m.modCore c fun k => { k with halted := true }
  set (if meshCores ≤ c then m
       else (m.runtimeEvent (m.core c).part.toNat
        ({ faultOf Cause.coreHalted with pc := m.me.pc, priv := BitVec.ofNat 2 m.me.priv.code }.from c) (some m.tsNo)).loseMember c)

/-! ## The instructions -/

/-- `send` of page 0 (R253). -/
def execSend (a : Args) (s : State) : Host.Outcome State Fault Refusal := issue (semSend a) s

/-- `send` of page 7 (R253). -/
def execSendP7 (a : Args) (s : State) : Host.Outcome State Fault Refusal := issue (semSend a) s

/-- `sendc` (R254). -/
def execSendc (a : Args) (s : State) : Host.Outcome State Fault Refusal := issue (semSendc a) s

/-- `cue.dec` of page 0 (R255). -/
def execCueDec (a : Args) (s : State) : Host.Outcome State Fault Refusal := issue (semCueDec a) s

/-- `cue.dec` of page 7 (R255). -/
def execCueDecP7 (a : Args) (s : State) : Host.Outcome State Fault Refusal := issue (semCueDec a) s

/-- `cue.arm` (R256). -/
def execCueArm (a : Args) (s : State) : Host.Outcome State Fault Refusal := issue (semCueArm a) s

/-- `cue.bind` (R256). -/
def execCueBind (a : Args) (s : State) : Host.Outcome State Fault Refusal := issue (semCueBind a) s

/-- `cue.stat` (R256). -/
def execCueStat (a : Args) (s : State) : Host.Outcome State Fault Refusal := issue (semCueStat a) s

/-- `ready` (R257). -/
def execReady (a : Args) (s : State) : Host.Outcome State Fault Refusal := issue (semReady a) s

/-- `park` (R259). -/
def execPark (a : Args) (s : State) : Host.Outcome State Fault Refusal := issue (semPark a) s

/-- `rpoll` (R260). -/
def execRpoll (a : Args) (s : State) : Host.Outcome State Fault Refusal := issue (semRpoll a) s

/-- `rwait` (R260). -/
def execRwait (a : Args) (s : State) : Host.Outcome State Fault Refusal := issue (semRwait a) s

/-- `rpop` (R103). -/
def execRpop (a : Args) (s : State) : Host.Outcome State Fault Refusal := issue (semRpop a) s

/-- `mbinc` (R261). -/
def execMbinc (a : Args) (s : State) : Host.Outcome State Fault Refusal := issue (semMbinc a) s

/-- `mbwait` (R261). -/
def execMbwait (a : Args) (s : State) : Host.Outcome State Fault Refusal := issue (semMbwait a) s

/-- `mbget` (R261). -/
def execMbget (a : Args) (s : State) : Host.Outcome State Fault Refusal := issue (semMbget a) s

/-- `done` (R258). -/
def execDone (a : Args) (s : State) : Host.Outcome State Fault Refusal := issue (semDone a) s

/-- `halt` (R271). -/
def execHalt (a : Args) (s : State) : Host.Outcome State Fault Refusal := issue (semHalt a) s

end Sys2Proof.Machine
end

