-- ==== Sys2Proof/Machine/Sync.lean ====
section
/-! DEFINITION. Curtains, casts, capability queues and chorus mode (01_machine R22, R23, R26; 05_queues R109; 06_tables R120;
13_isa_tasks R262 to R265, R267 to R270). -/

namespace Sys2Proof.Machine

/-! ## Curtains (R26, R73, R262 to R264) -/

/-- Curtain context `i` of a partition. -/
def Partition.ctx (p : Partition) (i : Nat) : Curtain := vget p.curtain {} i

/-- The machine with a curtain context changed. -/
def Mach.modCtx (m : Mach) (q i : Nat) (f : Curtain → Curtain) : Mach :=
  m.modPart q fun p => { p with curtain := vset p.curtain i (f (p.ctx i)) }

/-- Width and height of the context's rectangle. -/
def Curtain.size (k : Curtain) : Nat × Nat := (k.x1 + 1 - k.x0, k.y1 + 1 - k.y0)

/-- Cycles of a release or a refill over a rectangle of width `w` and height `h` (R26, R262). -/
def curtainCycles (w h : Nat) : Nat := 6 + ceilDiv (w + h) 8

/-- Cycles of a release over the rectangle (R26). -/
def Curtain.delay (k : Curtain) : Nat := curtainCycles k.size.1 k.size.2

/-- A position lies in the context's rectangle. -/
def Curtain.inside (k : Curtain) (x y : Nat) : Bool := k.filled && k.x0 ≤ x && x ≤ k.x1 && k.y0 ≤ y && y ≤ k.y1

/-- The members of a curtain that are not fused off, in row-major order (R262). -/
def Mach.curtainMembers (m : Mach) (k : Curtain) : List Nat := (rectCores k.x0 k.y0 k.size.1 k.size.2).filter m.live

/-- Members that have neither arrived nor been excused, in row-major order. -/
def Mach.curtainMissing (m : Mach) (k : Curtain) : List Nat :=
  (m.curtainMembers k).filter fun c => !k.arrived.contains c && !k.excused.contains c

/-- The wait of thread set `t` of core `c`; a follower's is its lead's (R23). -/
def Mach.waitAt (m : Mach) (c t : Nat) : Option Waiting :=
  let s := (m.core c).tset t
  if s.fol then ((m.core s.lead).tset t).wait else s.wait

/-- A thread set of a member, other than the one excepted, is still in the fence of its `curtain.arr` of the present phase
(R263). -/
def Mach.curtainFence (m : Mach) (q i : Nat) (but : Option (Nat × Nat)) : Bool :=
  let k := (m.part q).ctx i
  (m.curtainMembers k).any fun c => !k.excused.contains c && (List.range 4).any fun t =>
    but != some (c, t) && (m.waitAt c t).any (·.kind == .arriving i k.phase)

/-- The release comes when no member is missing (R26, R263); the wires carry it whatever else happens. DEDUCED: a thread set that has
issued `curtain.arr` in the phase and is in its fence has not arrived, so no release passes it (R287); a member that is excused
counts as arrived whatever its thread sets do (R264). -/
def Mach.curtainSettle (m : Mach) (q i : Nat) (but : Option (Nat × Nat) := none) : Mach :=
  let k := (m.part q).ctx i
  if k.release.isNone && m.curtainMissing k == [] && !m.curtainFence q i but then
    m.modCtx q i fun k => { k with release := some (m.clk + k.delay) }
  else m

/-- The phase bit of a context (R73). -/
def Partition.setPhase (p : Partition) (i : Nat) (b : Bool) : Partition := if i = 0 then { p with pha := b } else { p with phb := b }

/-- `curtain` (R262, R359): the refill is on its way until it has reached every core of the rectangle. -/
def semCurtain (a : Args) : Act Unit := do
  needSupervisor
  srcPort false a.s
  let i := a.d.toNat % 2
  let v ← readX a.s
  let m ← get
  let q := m.myPart
  let p := m.part q
  let (x0, y0, x1, y1) := (fld v 9 0, fld v 17 10, fld v 27 18, fld v 35 28)
  require (m.here < meshCores && fld v 63 36 == 0 && x0 ≤ x1 && y0 ≤ y1 && p.holds x0 y0 && p.holds x1 y1 &&
    (p.ctx i).arrived == []) { faultOf Cause.illegalOperation with addr := v }
  set (m.modCtx q i fun k => { k with refills := k.refills ++ [(m.clk, x0, y0, x1, y1)] })
  modMe fun t => { t with notBefore := m.clk + curtainCycles (x1 + 1 - x0) (y1 + 1 - y0) }

/-- The cycle in which a refill reaches the cores of its rectangle (R262). -/
def refillDue (r : Nat × Nat × Nat × Nat × Nat) : Nat :=
  r.1 + curtainCycles (r.2.2.2.1 + 1 - r.2.1) (r.2.2.2.2 + 1 - r.2.2.1)

/-- A refill takes effect: the rectangle, no arrival and no excuse, the phase bit 0 (R262). What then waits for the phase that it
ends arrives in the new one. -/
def Mach.curtainRefill (m : Mach) (q i : Nat) : Option Mach :=
  let k := (m.part q).ctx i
  match k.refills.find? fun r => refillDue r ≤ m.clk with
  | none => none
  | some r =>
    let m := m.modCtx q i fun k =>
      { filled := true, x0 := r.2.1, y0 := r.2.2.1, x1 := r.2.2.2.1, y1 := r.2.2.2.2, phase := k.phase + 1,
        timedOut := k.timedOut ++ [(k.phase, faultOf Cause.illegalOperation, [])], refills := k.refills.erase r }
    some (m.modPart q fun p => p.setPhase i false)

/-- Where the `curtain.arr` of this thread set stands: the phase it was issued in, and whether its member has arrived. A
follower's wait is its lead's (R23, R263). -/
def Mach.curtainWait (m : Mach) (i : Nat) : Option (Nat × Bool) :=
  match m.waitAt m.here m.tsNo with
  | none => none
  | some w =>
    match w.kind with
    | .arriving j n => if j = i then some (n, false) else none
    | .curtain j n => if j = i then some (n, true) else none
    | _ => none

/-- The context with a core arrived; the first arrival of a phase samples the time-out (R65, R263). -/
def Curtain.arrive (k : Curtain) (c clk : Nat) (toe : BitVec 5) : Curtain :=
  if k.arrived.contains c then k
  else { k with arrived := k.arrived ++ [c], first := k.first.or (some clk), toe := if k.first.isNone then toe else k.toe }

/-- The member of core `c` arrives in the present phase and waits for its end. -/
def curtainEnter (q i c : Nat) : Act Unit := do
  let m ← get
  require (((m.part q).ctx i).inside (posOf c).1 (posOf c).2) (faultOf Cause.illegalOperation)
  set ((m.modCtx q i (·.arrive c m.clk (m.part q).toe)).curtainSettle q i (some (c, m.tsNo)))
  throw (.waitKeep (.curtain i ((m.part q).ctx i).phase))

/-- `curtain.arr` (R263): a refill ends its phase, and it arrives in the new one. Its phase is the one it was issued in: a release of
that phase while it is still in its fence is its own, and so is a time-out, for a core that had arrived by another thread set
(R287). -/
def semCurtainArr (a : Args) : Act Unit := do
  let i := a.d.toNat % 2
  let m ← get
  let c := m.here
  let q := m.myPart
  let k := (m.part q).ctx i
  let (x, y) := posOf c
  match m.curtainWait i with
  | some (n, there) =>
    if there && n == k.phase then throw (.wait (.curtain i n))
    else if !there && !(m.quiet c m.tsNo && m.me.drained) then throw (.wait (.arriving i n))
    else if n == k.phase then curtainEnter q i c
    else
      match k.timedOut.find? (·.1 == n) with
      | some (_, r, cs) =>
        if r.cause.toNat = Cause.curtainTimeout && (there || cs.contains c) then trap r else curtainEnter q i c
      | none => pure ()
  | none => do
    require (c < meshCores && k.inside x y) (faultOf Cause.illegalOperation)
    if m.quiet c m.tsNo && m.me.drained then curtainEnter q i c else throw (.wait (.arriving i k.phase))

/-- `curtain.excuse` (R264). -/
def semCurtainExcuse (a : Args) : Act Unit := do
  needSupervisor
  srcPort false a.s
  let i := a.d.toNat % 2
  let v ← readX a.s
  let m ← get
  let q := m.myPart
  let x := fld v 9 0
  let y := fld v 17 10
  require (m.here < meshCores && fld v 63 18 == 0 && ((m.part q).ctx i).inside x y)
    { faultOf Cause.illegalOperation with addr := v }
  let excuse (k : Curtain) : Curtain := { k with excused := (y * 512 + x) :: k.excused.filter (· != y * 512 + x) }
  set ((m.modCtx q i excuse).curtainSettle q i)

/-- CURTAIN_RELEASE: the phase bit flips and the phase ends (R26, R263). A release that finds a thread set of a member still in its
fence comes anew, counted from that one's arrival (R287). -/
def Mach.curtainRelease (m : Mach) (q i : Nat) : Option Mach :=
  let k := (m.part q).ctx i
  if k.release.any (· ≤ m.clk) then
    if m.curtainFence q i none then some (m.modCtx q i fun k => { k with release := none })
    else
      let m := m.modCtx q i fun k => { k with arrived := [], first := none, release := none, phase := k.phase + 1 }
      some (m.modPart q fun p => p.setPhase i (!(if i = 0 then p.pha else p.phb)))
  else if k.first.isSome && k.release.isNone && m.curtainMissing k == [] && !m.curtainFence q i none then
    some (m.curtainSettle q i)
  else none

/-- A mask of the bands of `n` places into which the numbers fall (R263). -/
def bandMask (n : Nat) (xs : List Nat) : Word := xs.foldl (fun w x => w ||| wd (2 ^ (x / n))) 0

/-- The curtain-timeout record (R263, R311). -/
def Mach.curtainRecord (m : Mach) (i : Nat) (k : Curtain) : FaultRec :=
  let miss := m.curtainMissing k
  let (w, h) := k.size
  ({ faultOf Cause.curtainTimeout with
      index := BitVec.ofNat 16 i, val := BitVec.ofNat 32 miss.length
      mask := bandMask (ceilDiv h 64) (miss.map fun c => (posOf c).2 - k.y0)
      mask2 := bandMask (ceilDiv w 64) (miss.map fun c => (posOf c).1 - k.x0) }).from (miss.headD 0)

/-- CURTAIN_TIMEOUT: 2^TOE cycles after the first arrival a member is missing; those that arrived trap (R263, R304). -/
def Mach.curtainTimeout (m : Mach) (q i : Nat) : Option Mach :=
  let p := m.part q
  let k := p.ctx i
  if p.st == .running && k.release.isNone && m.curtainMissing k != [] && k.first.any (· + 2 ^ k.toe.toNat ≤ m.clk) then
    some (m.modCtx q i fun k =>
      { k with arrived := [], first := none, phase := k.phase + 1
               timedOut := k.timedOut ++ [(k.phase, m.curtainRecord i k, k.arrived)] })
  else none

/-! ## Casts (R120, R265) -/

/-- `castq` (R265). -/
def semCastq (a : Args) : Act Unit := do
  dstPort false a.d
  let m ← get
  match vget m.myCore.casts none (a.imm.toNat % 4) with
  | none => writeX a.d 0
  | some n => do
    let c := (m.part m.myPart).cast n.toNat
    writeX a.d (wd (2 ^ 63 + n.toNat * 2 ^ 52 + c.rx.toNat * 2 ^ 42 + c.ry.toNat * 2 ^ 34 + c.count.toNat * 2 ^ 17 + c.lost.toNat))

/-! ## Capability queues (R109, R267, R268) -/

/-- The cluster that a handle or descriptor names lies in the partition; its number. -/
def Mach.queueCluster (m : Mach) (v : Word) : Option Nat :=
  let cx := fld v 31 27
  let cy := fld v 26 23
  let p := m.part m.myPart
  if m.here < meshCores && p.holds (cx * 16) (cy * 12) then some (cy * 32 + cx) else none

/-- Cycles that a queue operation takes: 8 and twice the hops to the controller's router (R267, R268). -/
def Mach.queueWait (m : Mach) (n : Nat) : Nat := 8 + 2 * hops m.here (n / 32 * 12 * 512 + n % 32 * 16)

/-- Cluster `n`. -/
def Mach.cluster (m : Mach) (n : Nat) : Cluster := Map.get m.clusters {} n

/-- CHECK of a handle: SipHash-2-4 of its bits [47:0] under the cluster's queue key (R109). -/
def Cluster.check (k : Cluster) (v : Word) : Nat := fld (sipHash k.key v 6) 15 0

/-- A handle passes CHECK, GEN and PART for the partition (R109). -/
def Cluster.honours (k : Cluster) (q : Nat) (v : Word) : Bool :=
  fld v 63 48 == k.check v && fld v 47 32 == (Map.get k.queues {} (fld v 5 0)).gen.toNat && fld v 19 16 == q

/-- The record of a refused handle (R311). -/
def handleTrap (cause : Nat) (v : Word) : FaultRec := { faultOf cause with addr := v }

/-- `qmint` (R267): a descriptor that names a cluster outside the partition breaks a must of the entry (R7). -/
def semQmint (a : Args) : Act Unit := do
  srcPort false a.s
  srcPort false a.t
  dstPort false a.d
  let v ← readX a.s
  let parent ← readX a.t
  let m ← get
  require (fld v 7 6 == 0 && fld v 22 11 == 0 && fld v 63 32 == 0) (handleTrap Cause.illegalOperation v)
  require (parent != 0 || m.me.priv != .user) (handleTrap Cause.privilege v)
  match m.queueCluster v with
  | none => trap (handleTrap Cause.illegalOperation v)
  | some n => do
    let k := m.cluster n
    require (parent == 0 || (k.honours m.myPart parent && fld parent 31 23 == fld v 31 23 && fld parent 5 0 == fld v 5 0 &&
      (parent &&& v &&& 0x700) == (v &&& 0x700))) (handleTrap Cause.capability parent)
    let g := (Map.get k.queues {} (fld v 5 0)).gen
    let w := wd (g.toNat * 2 ^ 32 + m.myPart * 2 ^ 16 + v.toNat)
    writeX a.d (w + wd (k.check w * 2 ^ 48))
    modMe fun t => { t with notBefore := m.clk + m.queueWait n }

/-- The cluster and queue of a handle with the right of bit `r`, or the trap (R109, R268). -/
def checkHandle (v : Word) (r : Nat) : Act (Nat × CapQueue) := do
  let m ← get
  match m.queueCluster v with
  | none => trap (handleTrap Cause.partition v)
  | some n => do
    let k := m.cluster n
    require (k.honours m.myPart v && bit v r) (handleTrap Cause.capability v)
    return (n, Map.get k.queues {} (fld v 5 0))

/-- A queue of a cluster replaced, and the wait for its controller. -/
def setQueue (n i : Nat) (f : CapQueue) : Act Unit := do
  modify fun m =>
    { m with clusters := Map.set m.clusters n { m.cluster n with queues := Map.set (m.cluster n).queues i f } }
  modify fun m => m.modMe fun t => { t with notBefore := m.clk + m.queueWait n }

/-- `qenq` (R268). -/
def semQenq (a : Args) : Act Unit := do
  srcPort false a.s
  srcPort false a.t
  dstPort false a.d
  let v ← readX a.s
  let w ← readX a.t
  require (w != 0) (handleTrap Cause.illegalOperation v)
  let (n, q) ← checkHandle v 8
  if q.entries.length < 64 then do
    setQueue n (fld v 5 0) { q with entries := q.entries ++ [w] }
    writeX a.d 0
  else do
    setQueue n (fld v 5 0) q
    writeX a.d 1

/-- `qdeq`, from the tail, and `qsteal`, from the head (R268). -/
def semQtake (r : Nat) (tail : Bool) (a : Args) : Act Unit := do
  srcPort false a.s
  dstPort false a.d
  let v ← readX a.s
  let (n, q) ← checkHandle v r
  let (w, es) := if tail then (q.entries.getLastD 0, q.entries.dropLast) else (q.entries.headD 0, q.entries.drop 1)
  setQueue n (fld v 5 0) { q with entries := es }
  writeX a.d w

/-! ## Chorus mode (R22, R23, R269, R270) -/

/-- The cores of a chorus mask in the lead's cluster row (R269). -/
def chorusCores (c : Nat) (mask : Word) : List Nat :=
  let (x, y) := posOf c
  ((List.range 16).filter fun i => bit mask i).map fun i => y * 512 + (x / 16 * 16 + i)

/-- Thread set `t` takes part in a chorus, or waits as a lead to begin one. -/
def ThreadSet.choral (t : ThreadSet) : Bool :=
  t.cho || t.fol ||
  (match t.wait with
   | some w => (match w.kind with
                | .chorus _ => true
                | _ => false)
   | none => false)

/-- Held thread sets of a core other than `t`: a thread set takes part in a chorus from the moment it begins (R22, R269). -/
def Core.heldBut (k : Core) (t : Nat) : Nat := ((List.range 4).filter fun u => u != t && (k.tset u).held).length

/-- The chorus-busy trap that names a core (R269). -/
def chorusBusy (q : Nat) : FaultRec := ({ faultOf Cause.chorusBusy with }).from q

/-- The lead and its followers begin (R23, R269). -/
def Mach.chorusBegin (m : Mach) (c t : Nat) (mask : Word) : Mach :=
  let lead := (m.core c).tset t
  let m := (chorusCores c mask).foldl (fun m q =>
    let id := m.nextCid
    { m with nextCid := m.nextCid + 1 }.modCore q (·.modTs t fun s =>
      { s with busy := true, fol := true, lead := c, priv := lead.priv, cid := id, desc := lead.desc, pc := m.npc, wait := none })) m
  m.modCore c (·.modTs t fun s => { s with cho := true, followers := mask.setWidth 16 })

/-- `chorus` (R269). -/
def semChorus (a : Args) : Act Unit := do
  notInChorus
  srcPort false a.s
  let v ← readX a.s
  let m ← get
  let c := m.here
  let t := m.tsNo
  let fs := chorusCores c v
  require (c < meshCores && fld v 63 16 == 0 && v != 0 && !fs.contains c && fs.all m.live)
    { faultOf Cause.illegalOperation with addr := v }
  match fs.find? fun q => ((m.core q).tset t).choral with
  | some q => trap (chorusBusy q)
  | none =>
    match (c :: fs).find? fun q => 3 ≤ (m.core q).heldBut t with
    | some q => trap (chorusBusy q)
    | none => do
      stallUntil (fs.all fun q => !((m.core q).tset t).busy && !((m.core q).tset t).anyBound) (.chorus (v.setWidth 16))
      set (m.chorusBegin c t v)

/-- `chorus.end`, by the lead and by each follower (R270): a follower takes nothing before the cycle in which it issues the word
itself (R23). -/
def semChorusEnd (_ : Args) : Act Unit := do
  let clk := (← get).clk
  if (← me).fol then modMe fun t => { t.release with fol := false, lead := 0, notBefore := clk }
  else modMe fun t => { t with cho := false, followers := 0 }

/-- CHORUS_WAIT_TIMEOUT: a lead has waited longer than 65,536 cycles; the first follower that is not free is named
(R269). -/
def Mach.chorusTimeout (m : Mach) (c t : Nat) : Option Mach :=
  match m.waitOf c t with
  | none => none
  | some w =>
    match w.kind with
    | .chorus mask =>
      if w.since + 65536 < m.clk && (chorusCores c (mask.setWidth 64)).any fun q => ((m.core q).tset t).busy || ((m.core q).tset t).anyBound then
        let s := (m.core c).tset t
        let q := ((chorusCores c (mask.setWidth 64)).find? fun q => ((m.core q).tset t).busy || ((m.core q).tset t).anyBound).getD c
        some (m.trapEntry c t { chorusBusy q with pc := s.pc } s.pc)
      else none
    | _ => none

/-! ## The instructions and events -/

/-- `curtain` (R262). -/
def execCurtain (a : Args) (s : State) : Host.Outcome State Fault Refusal := issue (semCurtain a) s

/-- `curtain.arr` (R263). -/
def execCurtainArr (a : Args) (s : State) : Host.Outcome State Fault Refusal := issue (semCurtainArr a) s

/-- `curtain.excuse` (R264). -/
def execCurtainExcuse (a : Args) (s : State) : Host.Outcome State Fault Refusal := issue (semCurtainExcuse a) s

/-- `castq` (R265). -/
def execCastq (a : Args) (s : State) : Host.Outcome State Fault Refusal := issue (semCastq a) s

/-- `qmint` (R267). -/
def execQmint (a : Args) (s : State) : Host.Outcome State Fault Refusal := issue (semQmint a) s

/-- `qenq` (R268). -/
def execQenq (a : Args) (s : State) : Host.Outcome State Fault Refusal := issue (semQenq a) s

/-- `qdeq` (R268). -/
def execQdeq (a : Args) (s : State) : Host.Outcome State Fault Refusal := issue (semQtake 9 true a) s

/-- `qsteal` (R268). -/
def execQsteal (a : Args) (s : State) : Host.Outcome State Fault Refusal := issue (semQtake 10 false a) s

/-- `chorus` (R269). -/
def execChorus (a : Args) (s : State) : Host.Outcome State Fault Refusal := issue (semChorus a) s

/-- `chorus.end` (R270). -/
def execChorusEnd (a : Args) (s : State) : Host.Outcome State Fault Refusal := issue (semChorusEnd a) s

/-- CURTAIN_RELEASE (R263). -/
def execCurtainRelease (part ctx : Nat) (s : State) : Host.Outcome State Fault Refusal :=
  event (fun m => (m.curtainRelease part ctx).getD m) s

/-- CURTAIN_TIMEOUT (R263). -/
def execCurtainTimeout (part ctx : Nat) (s : State) : Host.Outcome State Fault Refusal :=
  event (fun m => (m.curtainTimeout part ctx).getD m) s

/-- CHORUS_WAIT_TIMEOUT (R269). -/
def execChorusWaitTimeout (core ts : Nat) (s : State) : Host.Outcome State Fault Refusal :=
  event (fun m => (m.chorusTimeout core ts).getD m) s

end Sys2Proof.Machine
end

