-- ==== Sys2Proof/Machine/Take.lean ====
section
/-! DEFINITION. Taking entries from the ready rings, resuming contexts, taking events, and asynchronous traps (01_machine R18
to R21; 03_registers R59; 05_queues R94 to R97; 13_isa_tasks R252; 15_scheduler R296; 16_traps R307, R308, R313). -/

namespace Sys2Proof.Machine

/-! ## Who takes, and from where (R18, R269, R296, R313) -/

/-- A lead waits in `chorus` for thread set `t` of core `c` (R269). -/
def Mach.claimed (m : Mach) (c t : Nat) : Bool :=
  c < meshCores &&
  (let (x, y) := posOf c
   (List.range 16).any fun i =>
     match ((m.core (y * 512 + (x / 16 * 16 + i))).tset t).wait with
     | some w => (match w.kind with
                  | .chorus mask => bit mask (x % 16)
                  | _ => false)
     | none => false)

/-- The frame of an event's handler fits in the pool, or no handler exists (R313). -/
def Core.eventFits (k : Core) : Bool := (k.tset k.supTs).kvec == 0 || (k.poolFind (frameBlocks 8)).isSome

/-- The thread set is free and may take an entry or an event. -/
def Mach.mayTake (m : Mach) (c t : Nat) : Bool :=
  let k := m.core c
  m.coreStarts c && !k.halted && !(k.tset t).busy && !(k.tset t).fol && (k.tset t).notBefore ≤ m.clk && !m.claimed c t

/-- The thread set takes a ring entry now: the supervisor thread set takes its events first (R313). -/
def Mach.mayTakeEntry (m : Mach) (c t : Nat) : Bool :=
  let k := m.core c
  m.mayTake c t && !(t == k.supTs && k.events != [] && k.eventFits)

/-- The ring of the next pick: true for ring B (R18). -/
def Core.pickRing (k : Core) : Option Bool :=
  if k.ringLen false ≠ 0 then (if k.ringLen true ≠ 0 && 7 ≤ k.sevens then some true else some false)
  else if k.ringLen true ≠ 0 then some true
  else none

/-- The entry that the next pick takes. -/
def Core.nextEntry (k : Core) : Option (Bool × Word) :=
  k.pickRing.map fun b => (b, k.ringEntryAt b (if b then k.takenB else k.takenA))

/-- The offset of the entry that the next pick takes from a ring (R94). -/
def Core.entryOff (k : Core) (b : Bool) : Nat := k.ringBase b + 8 * ((if b then k.takenB else k.takenA) % 256)

/-- The core after a pick, whose entry is read (R80); the deferred buffer drains into the ring slots that are not held back (R18, R95,
R230). -/
def Core.takeEntry (k : Core) (b : Bool) (held : Nat → Bool) : Core :=
  let k := k.correct (k.entryOff b) 8
  let k := if b then { k with takenB := k.takenB + 1, sevens := 0 } else { k with takenA := k.takenA + 1, sevens := k.sevens + 1 }
  k.drainDeferred held

/-- The ring slot at offset `a` of core `c` is held back (R230). -/
def Mach.entryHeld (m : Mach) (c a : Nat) : Bool := m.heldRange c a 8

/-- Deferred pushes that were held back find room (R95, R230). -/
def Mach.deferredDue (m : Mach) (c : Nat) : Option Mach :=
  let k := m.core c
  if k.deferred.any fun e => k.hasRoom e.1 && !m.slotHeld c e.1 then some (m.setCore c (k.drainDeferred (m.entryHeld c))) else none

/-! ## Codelets (R59, R252, R296) -/

/-- The level at which a core's codelets start (R29, R59). -/
def codeletLevel (c : Nat) (k : Core) : Priv := if meshCores ≤ c then .house else if k.uprivSup then .supervisor else .user

/-- What taking the descriptor at `off` finds: the two words, or the fault that kills the codelet (R76, R252). -/
def Core.descriptor (k : Core) (off : Nat) : Except FaultRec (Word × Word) :=
  let a := wd off
  if off % 16 ≠ 0 then .error { faultOf Cause.alignment with addr := a }
  else if (k.badRead off 16).isSome then .error { faultOf Cause.memoryEcc with addr := a }
  else
    let w := k.mem64 off
    if fld w 63 32 ≠ 0 ∨ fld w 15 14 ≠ 0 ∨ fld w 31 16 = 0 ∨ bit w 0 then .error { faultOf Cause.illegalOperation with addr := a }
    else .ok (w, k.mem64 (off + 8))

/-- The thread set as a codelet starts on it; its display names the chain that ends in the fresh frame (R59). -/
def ThreadSet.codelet (t : ThreadSet) (k : Core) (pc : BitVec 14) (x1 x2 frame : Word) (priv : Priv) (desc cid : Nat) : ThreadSet :=
  let t := t.release
  { t with
    busy := true, pc := pc, x := vset (vset t.x 1 x1) 2 x2, eos := false, priv := priv, desc := BitVec.ofNat 16 desc, cid := cid
    d := #v[vget k.bases 0 0, vget k.bases 0 1, vget k.bases 0 2, frame, 0, 0, 0, 0]
    regErr := ([1, 2] ++ (List.range 8).map dispCode).foldl Map.erase t.regErr }

/-- SLINK of a fresh codelet frame: the core frame, else the cluster frame (R85). -/
def Core.outer (k : Core) : Word := if vget k.bases 0 2 != 0 then vget k.bases 0 2 else vget k.bases 0 1

/-- The codelet of a descriptor that cannot be used, or whose frame does not fit, is killed before it starts: its join cue
is handled, codelet-killed is raised, and thread set `t`, its registers as they were, is free once the decrement is sent
(R95, R296, R308, R312). DESIGN CHOICE: of a descriptor that cannot be read the stored bits of JOIN name the cue. -/
def Mach.killEntry (m : Mach) (c t desc : Nat) (pc : BitVec 14) (join : Word) (r : FaultRec) : Mach :=
  let level := codeletLevel c (m.core c)
  m.killEnd c t join { r.killed (wd desc) with priv := BitVec.ofNat 2 level.code, pc := pc }

/-- CODELET_START: a free thread set takes a KIND 0 entry (R18, R59, R85, R252, R296). DESIGN CHOICE: an entry that cannot be read
(R80) names no descriptor; it is taken, and codelet-killed with the memory-ECC fault at the entry's offset is raised for it. -/
def Mach.codeletStart (m : Mach) (c t : Nat) : Option Mach :=
  let k := m.core c
  if !m.mayTakeEntry c t then none
  else
    match k.nextEntry with
    | none => none
    | some (b, e) =>
      let cid := m.nextCid
      let start (k' : Core) : Mach := { m with nextCid := cid + 1 }.setCore c (k'.takeEntry b (m.entryHeld c))
      if (k.badRead (k.entryOff b) 8).isSome then
        some ((start k).killEntry c t 0 0 0 { faultOf Cause.memoryEcc with addr := wd (k.entryOff b) })
      else if fld e 63 62 ≠ 0 then none
      else
        let desc := fld e 15 0
        let cue := fld e 31 16
        let read := k.correct (desc / 8 * 8) 16
        match k.descriptor desc with
        | .error r => some ((start read).killEntry c t desc 0 (k.mem64 (desc / 8 * 8 + 8)) r)
        | .ok (w, join) =>
          let pc := w.extractLsb' 0 14
          match k.allocFrame c (fld w 31 16) 3 k.outer with
          | none => some ((start read).killEntry c t desc pc join { faultOf Cause.framePool with addr := k.outer })
          | some (k', off) =>
            if m.heldRange c off 24 then none else
            let k' := (k'.correct desc 16).store64 (off + 16) join
            let m' := start k'
            some (m'.modCore c (·.modTs t fun s =>
              { s.codelet k pc (wd desc) (wd cue) (wd off) (codeletLevel c k) desc cid with notBefore := m.clk + 4 }))

/-! ## Contexts (R20, R59, R96) -/

/-- The core and the offset at which the frame with base `f` stands in a core's memory. -/
def frameHome (c : Nat) (f : Word) : Option (Nat × Nat) :=
  match localOff c f with
  | some off => some (c, off)
  | none => (agentAt (fld f 41 32) (fld f 31 24)).map fun q => (q, fld f 15 0)

/-- A header word of the frame at `f`, wherever the frame stands in a mesh core's memory. -/
def Mach.frameWordAt (m : Mach) (c : Nat) (f : Word) (j : Nat) : Word :=
  match frameHome c f with
  | some (q, off) => (m.core q).mem64 (off + 8 * j)
  | none => 0

/-- The display rebuilt from the static links that start at `f` (R20). -/
def Mach.rebuild (m : Mach) (c : Nat) : Nat → Word → Vector Word 8 → Vector Word 8
  | 0, _, d => d
  | n + 1, f, d =>
    if f = 0 then d
    else if isFar f then vset d 0 f
    else m.rebuild c n (m.frameWordAt c f 0) (vset d (fld (m.frameWordAt c f 1) 29 27) f)

/-- The frame headers that a rebuilding reads (R20). -/
def Mach.headers (m : Mach) (c : Nat) : Nat → Word → List (Nat × Nat)
  | 0, _ => []
  | n + 1, f => if f = 0 || isFar f then [] else (frameHome c f).toList ++ m.headers c n (m.frameWordAt c f 0)

/-- What the resuming of the context of record `i` reads: its record, and the headers of its frames (R20, R80, R96). -/
def Mach.resumeReads (m : Mach) (c i : Nat) : List (Nat × Nat × Nat) :=
  let k := m.core c
  (c, k.recOff i, 128) :: (m.headers c 8 (k.recWord i 1)).map fun qo => (qo.1, qo.2, 16)

/-- Single-bit errors that a resuming meets are corrected and counted (R80, R140). -/
def Mach.resumeFixed (m : Mach) (c i : Nat) : Mach :=
  (m.resumeReads c i).foldl (fun m r => m.modCore r.1 (·.correct r.2.1 r.2.2)) m

/-- The memory-ECC fault that a resuming meets (R80). DESIGN CHOICE: the context is resumed and takes it as a trap before its first
instruction. -/
def Mach.resumeBad (m : Mach) (c i : Nat) : Option FaultRec :=
  (m.resumeReads c i).findSome? fun r => ((m.core r.1).badRead r.2.1 r.2.2).map fun w =>
    { faultOf Cause.memoryEcc with addr := if r.1 = c then wd (8 * w) else meshAddr (posOf r.1).1 (posOf r.1).2 (8 * w) }

/-- The thread set on which the context of record `i` of core `c` resumes; what the context does not carry is undefined
(R20, R59). -/
def Mach.resumed (m : Mach) (c t i : Nat) : ThreadSet :=
  let k := m.core c
  let r := k.record i
  let w := k.recWord i 0
  let free (n : Nat) : Word := Config.freeWord (m.fresh + n)
  let s := (k.tset t).release
  { s with
    busy := true, pc := w.extractLsb' 0 14, tc := bit w 14, kfflags := w.extractLsb' 15 6, priv := Priv.ofCode (fld w 22 21)
    x := Vector.ofFn fun n => if 1 ≤ n.val ∧ n.val ≤ 5 then k.recWord i (n.val + 1) else free n.val
    v := Vector.ofFn fun n => free (32 + 2 * n.val) ++ free (33 + 2 * n.val)
    p := Vector.ofFn fun n => (free (96 + n.val)).setWidth 16
    d := m.rebuild c 8 (k.recWord i 1) (Vector.replicate 8 0)
    eos := bit (free 104) 0
    kfmta := (free 105).setWidth 5, kfmtb := (free 106).setWidth 5, kscla := (free 107).setWidth 16
    ksclb := (free 108).setWidth 16, kplanes := (free 109).setWidth 4, kgpiv := (free 110).setWidth 32
    kepcPc := (free 111).setWidth 14 &&& ~~~1, kepcPriv := (free 112).setWidth 2
    kfault := Vector.ofFn fun n => free (113 + n.val)
    krgn := Vector.ofFn fun n => free (121 + n.val)
    handler := r.handler, event := r.event, desc := r.desc, cid := r.cid, pend := r.pend, holds := some i
    regErr := savedRegs.foldl Map.erase s.regErr
    tag := if r.far then some { core := c, idx := i, stall := false } else none
    notBefore := m.clk + 4 + ((List.range 8).filter fun n => vget (m.rebuild c 8 (k.recWord i 1) (Vector.replicate 8 0)) 0 n != 0).length }

/-- The context record that an entry names. -/
def Core.entryRec (k : Core) (e : Word) : Nat := (fld e 15 0 - k.recs.toNat) / 128

/-- A woken context is taken; its record is taken with it. -/
def Mach.takeContext (m : Mach) (c t : Nat) (kind : Nat) : Option (Nat × Mach) :=
  let k := m.core c
  if !m.mayTakeEntry c t then none
  else
    match k.nextEntry with
    | none => none
    | some (b, e) =>
      if fld e 63 62 ≠ kind || (k.badRead (k.entryOff b) 8).isSome then none
      else
        let i := k.entryRec e
        let s := m.resumed c t i
        let m := m.resumeFixed c i
        let m := m.modCore c fun k => ((k.takeEntry b (m.entryHeld c)).modRec i fun r => { r with st := .taken, pend := [] }).modTs t fun _ => s
        some (i, { m with fresh := m.fresh + 129 })

/-- CONTEXT_RESUME: a free thread set takes a KIND 1 entry (R20, R94). -/
def Mach.contextResume (m : Mach) (c t : Nat) : Option Mach :=
  (m.takeContext c t 1).map fun (i, m) =>
    match m.resumeBad c i with
    | none => m
    | some r => let pc := ((m.core c).tset t).pc; m.trapEntry c t { r with pc := pc } pc

/-- FAULT_RESUME: a free thread set takes a KIND 2 entry and enters the handler with the record's fault (R21, R94, R308). -/
def Mach.faultResume (m : Mach) (c t : Nat) : Option Mach :=
  (m.takeContext c t 2).map fun (i, m) =>
    let k := m.core c
    let pc := (k.tset t).pc
    let m' := m.modCore c (·.modTs t fun s => { s with tag := none })
    match m.resumeBad c i with
    | none => m'.enterTrap c t (FaultRec.ofWords (Vector.ofFn fun n => k.recWord i (8 + n.val))) pc
    | some r => m'.trapEntry c t { r with pc := pc } pc

/-! ## Events (R313) -/

/-- EVENT_TAKE: the free supervisor thread set takes the oldest event, or discards it where no handler exists. The codelet
has no descriptor: what x1 and x2 then hold the spec does not state. DEDUCED: it costs the four cycles that a codelet's start costs
(R296), since it starts as a codelet (R313). -/
def Mach.eventTake (m : Mach) (c : Nat) : Option Mach :=
  let k := m.core c
  let t := k.supTs
  match k.events with
  | [] => none
  | r :: rs =>
    if !m.mayTake c t then none
    else
      let s := k.tset t
      if s.kvec = 0 then some (m.setCore c { k with events := rs })
      else
        match k.allocFrame c 8 3 k.outer with
        | none => none
        | some (k', off) =>
          if m.heldRange c off 24 then none else
          let k' := k'.store64 (off + 16) 0
          let level := if meshCores ≤ c then Priv.house else .supervisor
          let s' := s.codelet k s.kvec (Config.freeWord m.fresh) (Config.freeWord (m.fresh + 1)) (wd off) level 0 m.nextCid
          some ({ m with nextCid := m.nextCid + 1, fresh := m.fresh + 2 }.setCore c
            ({ k' with events := rs }.modTs t fun _ => { s' with event := true, kfault := r.words, notBefore := m.clk + 4 }))

/-! ## Asynchronous traps (R95, R307) -/

/-- A `cpy` of the thread set that has sent some of its requests is abandoned: its channel ends where its requests end, and the
copy counts no completion, since the instruction has not completed (R204, R307). -/
def Core.dropCopy (k : Core) (t : Nat) : Core :=
  let s := k.tset t
  { k with chan := k.chan.map fun ch =>
      if ch.busy && ch.todo != 0 && ch.ts == t && ch.cid == s.cid && ch.pc == s.pc then
        { ch with todo := 0, left := ch.left - ch.todo, limit := ch.limit - BitVec.ofNat 16 ch.todo, cv := false
                  busy := ch.left - ch.todo != 0 }
      else ch }

/-- ASYNC_TRAP_DELIVERY: a kill that waited for a window entry goes on; else the oldest asynchronous trap is taken at the
thread set's boundary, an instruction that waits in place being abandoned (R95, R307). An ended Schur operation has written its
results: its instruction completes first (R243). -/
def Mach.asyncTrap (m : Mach) (c t : Nat) : Option Mach :=
  let k := m.core c
  let s := k.tset t
  match s.dying with
  | some (r, j) =>
    if s.leaving && m.framesHeld c t then none
    else if !s.leaving && (m.sendJoin c t j true).isNone then none
    else some (m.killEnd c t j r)
  | none =>
    match s.pend with
    | [] => none
    | r :: rs =>
      if m.coreRuns c && !k.halted && s.busy && !s.fol && !m.schurWritten c t then
        some ((m.modCore c fun k => (k.dropCopy t).modTs t fun s => { s with pend := rs }).enterTrap c t r s.pc)
      else none

/-! ## The events -/

/-- ASYNC_TRAP_DELIVERY (R307). -/
def execAsyncTrapDelivery (core ts : Nat) (s : State) : Host.Outcome State Fault Refusal :=
  event (fun m => (m.asyncTrap core ts).getD m) s

/-- CODELET_START (R59). -/
def execCodeletStart (core ts : Nat) (s : State) : Host.Outcome State Fault Refusal :=
  event (fun m => (m.codeletStart core ts).getD m) s

/-- CONTEXT_RESUME (R20). -/
def execContextResume (core ts : Nat) (s : State) : Host.Outcome State Fault Refusal :=
  event (fun m => (m.contextResume core ts).getD m) s

/-- FAULT_RESUME (R94). -/
def execFaultResume (core ts : Nat) (s : State) : Host.Outcome State Fault Refusal :=
  event (fun m => (m.faultResume core ts).getD m) s

/-- EVENT_TAKE (R313). -/
def execEventTake (core : Nat) (s : State) : Host.Outcome State Fault Refusal := event (fun m => (m.eventTake core).getD m) s

end Sys2Proof.Machine
end

