-- ==== Sys2Proof/Machine/FarMem.lean ====
section
/-! DEFINITION. Far memory as the house cores read and write it: launch frames, images, segment directories, and the saved
contexts of a suspended partition (15_scheduler R294, R303; 16_traps R316, R317; 17_aqlan R330, R336). The house cores' own
accesses are made whole in one step (log entry on house work). -/

namespace Sys2Proof.Machine

/-- Where the bytes at a far address of a partition stand (R87, R113, R114, R117). -/
inductive FarHome where
  /-- In a block on the slice of stagehand `s`, at offset `o` of it. -/
  | stage (s : Nat) (b : Blk) (o : Nat) (wr : Bool)
  /-- In the channel of stagehand `s`, at byte `a`. -/
  | hbm (s a : Nat) (wr : Bool)
  /-- No window covers the address. -/
  | outside
  /-- The mapping meets V = 0. -/
  | unmapped
  /-- A page table on the way cannot be read (R89). -/
  | unreadable
  deriving Repr

/-- Where partition `q`'s far address `a`, in [59:0], stands. -/
def Mach.farHome (m : Mach) (q a : Nat) : FarHome :=
  let p := m.part q
  match p.home a with
  | none => .outside
  | some (w, s, l) =>
    let blk := p.blockOf w a
    match (m.hand s).inDir q blk, m.walkAt s q w l with
    | some b, .ok _ wr => .stage s b (a - 4096 * blk) wr
    | some b, _ => .stage s b (a - 4096 * blk) true
    | none, .ok h wr => .hbm s (h + l % 65536) wr
    | none, .fatal c => if c = Cause.memoryEcc then .unreadable else .unmapped
    | none, .miss => .unmapped

/-- Why an access by the house cores fails: no window, no mapping, read-only, or an uncorrectable error. -/
inductive FarFail where
  | outside | unmapped | readOnly | bad
  deriving DecidableEq, Repr

/-- Bytes from a far address to the end of its 4 KiB piece, at most `n`. -/
def farPiece (a n : Nat) : Nat := min n (4096 - a % 4096)

/-- `n` bytes of partition `q`'s far memory from `a`, in pieces. -/
def Mach.farRead (m : Mach) (q a n : Nat) : Nat → Except FarFail (List Byte)
  | 0 => .ok []
  | fuel + 1 =>
    if n = 0 then .ok []
    else
      let k := farPiece a n
      let piece : Except FarFail (List Byte) :=
        match m.farHome q a with
        | .stage s b o _ => if b.badRead o k then .error .bad else .ok (b.read s ((m.hand s).keyOf q) o k)
        | .hbm s h _ => if (m.hand s).hbmBad h k then .error .bad else .ok ((m.hand s).hbmRead s q h k)
        | .outside => .error .outside
        | .unmapped => .error .unmapped
        | .unreadable => .error .bad
      match piece with
      | .error e => .error e
      | .ok bs =>
        match m.farRead q (a + k) (n - k) fuel with
        | .error e => .error e
        | .ok rest => .ok (bs ++ rest)

/-- The bytes `bs` written to partition `q`'s far memory from `a`, in pieces. -/
def Mach.farWrite (m : Mach) (q a : Nat) (bs : List Byte) : Nat → Except FarFail Mach
  | 0 => .ok m
  | fuel + 1 =>
    if bs = [] then .ok m
    else
      let k := farPiece a bs.length
      match m.farHome q a with
      | .stage s b o wr =>
        if wr then
          (m.modHand s fun h => h.modDir q b.blk (·.write o (bs.take k))).farWrite q (a + k) (bs.drop k) fuel
        else .error .readOnly
      | .hbm s h wr =>
        if wr then (m.modHand s fun g => g.hbmWrite s q h (bs.take k)).farWrite q (a + k) (bs.drop k) fuel
        else .error .readOnly
      | .outside => .error .outside
      | .unmapped => .error .unmapped
      | .unreadable => .error .bad

/-- Read far memory whole. -/
def Mach.farBytes (m : Mach) (q a n : Nat) : Except FarFail (List Byte) := m.farRead q a n (n / 4096 + 2)

/-- Write far memory whole. -/
def Mach.farPut (m : Mach) (q a : Nat) (bs : List Byte) : Except FarFail Mach := m.farWrite q a bs (bs.length / 4096 + 2)

/-- Every byte of `[a, a + n)` lies in a window of the partition (R113). -/
def Partition.covers (p : Partition) (a n : Nat) : Bool :=
  (List.range (n / 65536 + 2)).all fun i =>
    let b := max a (a / 65536 * 65536 + 65536 * i)
    !(b < a + n) || (p.home b).isSome

end Sys2Proof.Machine
end

