-- ==== Sys2Proof/Machine/Aqlan.lean ====
section
/-! DEFINITION. Aqlan virtual instructions and their translation to Edgor words (17_aqlan R319 to R327). -/

namespace Sys2Proof.Machine

/-! ## Virtual words (R319, R321, R324) -/

/-- A virtual word. -/
abbrev VWord := BitVec 32

/-- One virtual instruction with its qualifiers: the form's page and operation, the fields, and the immediate, exact. -/
structure VInstr where
  page : Nat
  op : Nat
  a : Args
  /-- rt's field where the form names rt; otherwise unused. -/
  t5 : Nat
  imm : Int
  stall : BitVec 3
  deriving DecidableEq, Repr

/-- The device parameter table of the Stavjo S2 (R324). -/
def deviceParam (n : Nat) : Option Nat :=
  [65536, 16384, 1024, 16, 12, 512, 144, 192, 256, 64, 8, 16, 8, 4, 64, 384][n]?

/-- The fields of a virtual word A (R319). -/
def vPage (w : VWord) : Nat := fld w 31 28
def vMod (w : VWord) : Nat := fld w 27 25
def vVar (w : VWord) : Nat := fld w 24 22
def vOp (w : VWord) : Nat := fld w 21 16
def vRd (w : VWord) : Nat := fld w 15 11
def vRs (w : VWord) : Nat := fld w 10 6
def vT5 (w : VWord) : Nat := fld w 5 1
def vL (w : VWord) : Bool := bit w 0

/-- The map entry that a page and operation name; any of the page-0 system group serves for its S format (R158 to
R165, R319). -/
def vRow (page op sub : Nat) : Option Row :=
  if 10 ≤ page || 0x30 ≤ op then none
  else
    match formAt page op sub {} with
    | none => none
    | some i => i.parts.map (·.1)

/-- An immediate of `n` bits by the map's mark (R320). -/
def vExtend (k : ImmKind) (n v : Nat) : Int := if k = .signed ∧ 2 ^ (n - 1) ≤ v then (v : Int) - 2 ^ n else v

/-- What QUAL and SYM put before an instruction (R321). -/
structure VQual where
  qual : Option VWord := none
  sym : Option VWord := none
  deriving DecidableEq, Repr

/-- The instruction of word A with word B and the qualifiers; `none` where the translator refuses the word (R320, R321). -/
def vDecode (q : VQual) (w : VWord) (b : Option VWord) : Option VInstr :=
  let s0 := vPage w == 0 && vOp w == 0x2F
  let b' := b.getD 0
  let add : Int := match q.sym with
    | none => 0
    | some y => (deviceParam (vOp y)).getD 0
  let sysSub := (if b.isSome then b'.toNat else vT5 w) + add.toNat
  match vRow (vPage w) (vOp w) (if s0 then sysSub else 0) with
  | none => none
  | some r =>
    let isS := r.fmt == .s
    let takes := r.imm != .none || isS
    let kind : ImmKind := if isS then .unsigned else r.imm
    let imm : Int :=
      if b.isSome then vExtend kind 32 b'.toNat
      else if r.rt != .none then 0
      else vExtend kind 5 (vT5 w)
    let symOk := match q.sym with
      | none => true
      | some y => takes && (deviceParam (vOp y)).isSome && y.toNat == 11 * 2 ^ 28 + vOp y * 2 ^ 16
    let qualOk := match q.qual with
      | none => true
      | some y => vOp y == 0 && vRd y < 4 && vRs y == 0 && vT5 y == 0 && !vL y
    let spare := r.rt == .none && !takes && vT5 w != 0
    if !symOk || !qualOk || spare || (b.isSome && !takes) || (b.isSome && r.rt == .none && vT5 w != 0) then none
    else
      some
        { page := vPage w, op := vOp w, t5 := vT5 w, imm := imm + add
          stall := (q.qual.map fun y => BitVec.ofNat 3 (vVar y)).getD 0
          a := { d := BitVec.ofNat 5 (vRd w), s := BitVec.ofNat 5 (vRs w), m := BitVec.ofNat 3 (vMod w), v := BitVec.ofNat 3 (vVar w)
                 p := (q.qual.map fun y => BitVec.ofNat 3 (vMod y)).getD 7
                 w := (q.qual.map fun y => BitVec.ofNat 2 (vRd y)).getD 0 } }

/-- The virtual instructions of a segment's words; `none` where one is refused (R321). -/
def vParse (q : VQual) : List VWord → Option (List VInstr)
  | [] => if q = {} then some [] else none
  | w :: ws =>
    if vPage w = 10 then (if q = {} then vParse { q with qual := some w } ws else none)
    else if vPage w = 11 then (if q.sym.isNone then vParse { q with sym := some w } ws else none)
    else if vL w then
      match ws with
      | [] => none
      | b :: ws =>
        match vDecode q w (some b), vParse {} ws with
        | some i, some is => some (i :: is)
        | _, _ => none
    else
      match vDecode q w none, vParse {} ws with
      | some i, some is => some (i :: is)
      | _, _ => none

/-! ## Edgor forms (R155, R157, R323, R325) -/

/-- A form that also has a page-0 encoding is written in that encoding, in which VAR is no size: it is dropped where it gave the
size, and is otherwise left for the form's limits to refuse (R157, R320, R323). -/
def vHome (i : VInstr) : VInstr :=
  let p0 (op : Nat) : VInstr := { i with page := 0, op := op, a := { i.a with v := 0 } }
  let same (op : Nat) : VInstr := { i with page := 0, op := op }
  if i.page = 1 then
    match i.op, i.a.v.toNat with
    | 0x00, 3 => p0 0x14
    | 0x00, 2 => p0 0x15
    | 0x01, 3 => p0 0x16
    | 0x01, 2 => p0 0x17
    | 0x09, 3 => p0 0x2C
    | 0x0A, 0 => p0 0x2D
    | 0x0E, 0 => p0 0x18
    | 0x0F, 0 => p0 0x19
    | _, _ => i
  else if i.page = 7 then
    match i.op with
    | 0x00 => same 0x2B
    | 0x02 => same 0x2A
    | _ => i
  else if i.page = 8 then
    match i.op with
    | 0x04 => same 0x2E
    | 0x05 => same 0x1A
    | 0x06 => same 0x1B
    | _ => i
  else i

/-- How a form uses its immediate: a value, a branch offset in virtual instructions, or an absolute place (R322). -/
inductive VTarget where
  | value | branch | absolute
  deriving DecidableEq, Repr

/-- The forms whose immediate is a branch target (R154, R181, R322). -/
def vTarget (i : VInstr) : VTarget :=
  match formAt i.page i.op 0 {} with
  | some (.b _) => .branch
  | some (.jal _) => .branch
  | some (.beq _) => .branch
  | some (.bne _) => .branch
  | some (.blt _) => .branch
  | some (.bge _) => .branch
  | some (.bltu _) => .branch
  | some (.bgeu _) => .branch
  | some (.bz _) => .branch
  | some (.bnz _) => .branch
  | some (.loop _) => .branch
  | some (.beos _) => .branch
  | some (.beosP8 _) => .branch
  | some (.jf _) => .absolute
  | some (.jfl _) => .absolute
  | _ => .value

/-- The Edgor words of one form with immediate `imm`, `none` where no chain holds it (R150, R155, R323). -/
def vEmit (stage : Bool) (i : VInstr) (imm : Int) : Option (List IWord) :=
  let sub := if i.page = 0 ∧ i.op = 0x2F then imm.toNat else 0
  match vRow i.page i.op sub with
  | none => none
  | some r =>
    let t : RegNo := if r.rt = .none then 0 else BitVec.ofNat 5 i.t5
    let isS := r.fmt == .s
    let value : Word := if r.limit = .trapNo then wd (imm.toNat % 256) else if isS then 0 else BitVec.ofInt 64 imm
    let a := { i.a with t := t, imm := value }
    let short := r.rt == .t2 && a.d == a.s && a.p == 7 && a.w == 0
    let a := if short then { a with short := true, s := t, t := 0 } else a
    let exact := isS || (BitVec.toInt value == imm || (r.imm == .unsigned && (value.toNat : Int) == imm))
    let subOk := !isS || i.page == 0 || imm == 0
    if r.home.admits stage && exact && subOk && r.argsOk a then some (encodeRow r a i.stall) else none

/-- One instruction after legalisation: `li` of a wide value is `li` then `lih` (R325). DESIGN CHOICE: an immediate that SYM carries
outside 32 bits is taken modulo 2^32. -/
def vLegal (i : VInstr) : Option (List VInstr) :=
  match formAt i.page i.op 0 {} with
  | some (.li _) =>
    if -(2 ^ 24) ≤ i.imm ∧ i.imm < 2 ^ 24 then some [i]
    else
      let w : BitVec 32 := BitVec.ofInt 32 i.imm
      some [{ i with imm := (w.extractLsb' 25 7).toInt },
            { i with page := 2, op := 0x29, imm := (w.extractLsb' 0 25).toInt, stall := 0 }]
  | _ => some [vHome i]

/-- One virtual instruction of a segment being laid out: its forms and their lengths in words. -/
structure VPlace where
  forms : List VInstr
  words : List (List IWord)
  deriving DecidableEq, Repr

/-- Words of a placed instruction. -/
def VPlace.len (p : VPlace) : Nat := (p.words.map List.length).sum

/-- The word offset of instruction `n` of a segment. -/
def vOffset (ps : List VPlace) (n : Nat) : Nat := ((ps.take n).map VPlace.len).sum

/-- A segment of a role during translation: its number, its home slot, and its instructions. -/
structure VSeg where
  seg : Nat
  home : Nat
  ps : List VPlace
  deriving DecidableEq, Repr

/-- The immediate in words that instruction `n`'s form needs, `none` where its target is no instruction (R322). -/
def vImm (role : List VSeg) (s : VSeg) (n : Nat) (i : VInstr) : Option Int :=
  match vTarget i with
  | .value => some i.imm
  | .branch =>
    let k : Int := n + i.imm
    if 0 ≤ k ∧ k < s.ps.length then some ((vOffset s.ps k.toNat : Int) - vOffset s.ps n) else none
  | .absolute =>
    let v := i.imm.toNat
    if i.imm < 0 ∨ 2 ^ 16 ≤ v then none
    else
      match role.find? (·.home == v / 4096) with
      | none => none
      | some g =>
        if v % 4096 < g.ps.length then
          some ((512 * g.home + vOffset g.ps (v % 4096) : Int) - (512 * s.home + vOffset s.ps n))
        else none

/-- One pass over a segment: every chain again from the lengths of the pass before (R323). -/
def vPass (stage : Bool) (role : List VSeg) (s : VSeg) : Option VSeg :=
  match s.ps.zipIdx.mapM fun (p, n) =>
      (p.forms.mapM fun i => (vImm role s n i).bind (vEmit stage i)).map fun ws => { p with words := ws } with
  | none => none
  | some ps => some { s with ps := ps }

/-- Passes until no length changes (R323). -/
def vLayout (stage : Bool) (role : List VSeg) : Nat → Option (List VSeg)
  | 0 => none
  | n + 1 =>
    match role.mapM (vPass stage role) with
    | none => none
    | some role' =>
      if role'.map (·.ps.map VPlace.len) = role.map (·.ps.map VPlace.len) ∧ role' = role then some role'
      else vLayout stage role' n

/-- A segment before the first pass: every branch offset is 0 (R323). -/
def vStart (stage : Bool) (seg home : Nat) (ws : List VWord) : Option VSeg :=
  match vParse {} ws with
  | none => none
  | some is =>
    match is.mapM fun i =>
        (vLegal i).bind fun fs =>
          (fs.mapM fun f => vEmit stage f (if vTarget f = .value then f.imm else 0)).map fun words =>
            ({ forms := fs, words := words } : VPlace) with
    | none => none
    | some ps => some { seg := seg, home := home, ps := ps }

/-- The bytes of a translated segment. -/
def VSeg.bytes (s : VSeg) : List Byte := s.ps.flatMap fun p => p.words.flatten.flatMap fun w => leBytes w.toNat 2

/-- Translate the segments of a role, or the stage program; `none` where a word has no translation or a segment exceeds
`limit` bytes (R323, R334). -/
def translateRole (stage : Bool) (limit : Nat) (segs : List (Nat × Nat × List VWord)) : Option (List VSeg) :=
  match segs.mapM fun (n, home, ws) => if 2 * limit < ws.length then none else vStart stage n home ws with
  | none => none
  | some role =>
    match vLayout stage role (16 * limit) with
    | none => none
    | some role => if role.all (·.bytes.length ≤ limit) then some role else none

end Sys2Proof.Machine
end

