-- ==== Sys2Proof/Machine/Image.lean ====
section
/-! DEFINITION. The `.sjm` image: its sections, the verifier's checks, the translated code and its measurement, and the
attestation report (06_tables R127, R128; 17_aqlan R326, R329 to R338). -/

namespace Sys2Proof.Machine

/-! ## Sections (R329) -/

/-- `n` bytes of an image from `o`, as a number. -/
def imgN (img : List Byte) (o n : Nat) : Nat := leNat ((img.drop o).take n)

/-- An 8-byte word of an image. -/
def imgW (img : List Byte) (o : Nat) : Word := wd (imgN img o 8)

/-- A section entry (R329). -/
structure Sect where
  type : Nat
  role : Nat
  len : Nat
  off : Nat
  deriving DecidableEq, Repr

/-- A verified image's header fields and sections. -/
structure Image where
  bytes : List Byte
  nrole : Nat
  svn : Nat
  minfw : Nat
  aqv : Nat
  sects : List Sect
  deriving DecidableEq, Repr

/-- The sections of a type, or of a type and role. -/
def Image.ofType (i : Image) (t : Nat) : List Sect := i.sects.filter (·.type == t)
def Image.ofRole (i : Image) (t r : Nat) : Option Sect := i.sects.find? fun s => s.type == t && s.role == r

/-- The bytes of a section. -/
def Image.body (i : Image) (s : Sect) : List Byte := (i.bytes.drop s.off).take s.len

/-- Read the header and the section entries. -/
def Image.read (img : List Byte) : Image :=
  let nsec := imgN img 6 2
  { bytes := img, nrole := imgN img 10 2, svn := imgN img 8 1, minfw := imgN img 18 4, aqv := imgN img 16 2
    sects := (List.range nsec).map fun k =>
      let o := 64 + 16 * k
      { type := imgN img o 1, role := imgN img (o + 2) 2, len := imgN img (o + 4) 4, off := imgN img (o + 8) 8 } }

/-- Cause 1: MAGIC, FMT, zero fields, TOTAL, section bounds and counts (R329, R336). -/
def Image.shapeOk (i : Image) : Bool :=
  let img := i.bytes
  let n := img.length
  let nsec := imgN img 6 2
  let count (t : Nat) : Nat := (i.ofType t).length
  let perRole (t : Nat) : Bool := t == 1 || t == 2 || t == 3
  let sig := i.sects.getLastD { type := 0, role := 0, len := 0, off := 0 }
  64 ≤ n && imgN img 0 4 == 0x004D4A53 && imgN img 4 2 == 1 &&
  4 ≤ nsec && nsec ≤ 3078 && i.nrole + 3 ≤ nsec && 1 ≤ i.nrole && i.nrole ≤ 1024 &&
  imgN img 9 1 == 0 && imgN img 22 2 == 0 && imgN img 24 8 == n &&
  (img.drop 32).take 32 == List.replicate 32 0 && 64 + 16 * nsec ≤ n &&
  (List.range nsec).all (fun k => imgN img (65 + 16 * k) 1 == 0) &&
  i.sects.all (fun s =>
    ((1 ≤ s.type && s.type ≤ 8) || s.type == 15) && (if perRole s.type then s.role < i.nrole else s.role == 0) &&
    s.off % 16 == 0 && 64 + 16 * nsec ≤ s.off && s.off + s.len ≤ n) &&
  (List.range i.nrole).all (fun r =>
    let have_ (t : Nat) : Nat := (i.sects.filter fun s => s.type == t && s.role == r).length
    have_ 3 == 1 && have_ 1 ≤ 1 && have_ 2 ≤ 1) &&
  count 4 == 1 && count 5 == 1 && count 15 == 1 && count 6 ≤ 1 && count 7 ≤ 1 && count 8 ≤ 1 &&
  sig.type == 15 && sig.off + sig.len == n && sig.len == 288 &&
  imgN img sig.off 8 == 133 && (img.drop (sig.off + 141)).take 11 == List.replicate 11 0 && imgN img (sig.off + 284) 4 == 0

/-- The SIG section's offset. -/
def Image.sigOff (i : Image) : Nat := i.bytes.length - 288

/-- The signer's public key (R335). -/
def Image.key (i : Image) : List Byte := (i.bytes.drop (i.sigOff + 8)).take 133

/-- The bytes that the signature covers (R335). -/
def Image.signed (i : Image) : List Byte := i.bytes.take i.sigOff

/-- The verifier's checks in order: the first cause that fails (R336). -/
def Image.refusal (i : Image) (perm : Perm) (fw : Nat) : Option Nat :=
  let r := beNat ((i.bytes.drop (i.sigOff + 152)).take 66)
  let s := beNat ((i.bytes.drop (i.sigOff + 218)).take 66)
  if !i.shapeOk then some 1
  else if !perm.flash.trusted.contains (sha512 i.key) then some 2
  else if !ecdsaVerify i.key i.signed r s then some 3
  else if i.svn < perm.ctr || 64 < i.svn then some 4
  else if fw < i.minfw then some 5
  else if i.aqv / 256 != 1 || 2 < i.aqv % 256 then some 6
  else none

/-! ## Code, data and parameters (R330, R331) -/

/-- A segment record of a CODE or STAGE section (R330). -/
structure SegRec where
  seg : Nat
  home : Nat
  dlv : Bool
  words : List VWord
  deriving DecidableEq, Repr

/-- The segment records of a section body; `none` where the run, or the zeros that pad a record, are malformed (R330). -/
def segRecords (b : List Byte) : Nat → Option (List SegRec)
  | 0 => none
  | n + 1 =>
    if b = [] then some []
    else
      let nw := imgN b 4 2
      let len := 16 + ceilDiv (4 * nw) 16 * 16
      let zero := fld (imgW b 0) 31 21 == 0 && fld (imgW b 0) 63 48 == 0 && imgN b 8 8 == 0
      let pad := (b.take len).drop (16 + 4 * nw)
      if b.length < len || !zero || !pad.all (· == 0) then none
      else
        let r : SegRec :=
          { seg := imgN b 0 2, home := fld (imgW b 0) 19 16, dlv := bit (imgW b 0) 20
            words := (List.range nw).map fun k => BitVec.ofNat 32 (imgN b (16 + 4 * k) 4) }
        (segRecords (b.drop len) n).map (r :: ·)

/-- The segments of a role: numbers below 4,096 and distinct, delivered homes distinct (R330). -/
def segsOk (rs : List SegRec) : Bool :=
  rs.all (·.seg < 4096) && (rs.map (·.seg)).eraseDups.length == rs.length &&
  ((rs.filter (·.dlv)).map (·.home)).eraseDups.length == (rs.filter (·.dlv)).length

/-- The records of a DATA section: offset and bytes (R330). -/
def dataRecords (b : List Byte) : Nat → Option (List (Nat × List Byte))
  | 0 => none
  | n + 1 =>
    if b = [] then some []
    else
      let off := imgN b 0 2
      let len := imgN b 2 2
      let whole := ceilDiv (4 + len) 16 * 16
      if b.length < whole || 0x10000 < off + len then none
      else (dataRecords (b.drop whole) n).map ((off, (b.drop 4).take len) :: ·)

/-- A role's parameters (R331). -/
structure Param where
  pool0 : Nat := 0
  pool1 : Nat := 0
  handler : Nat := 0
  recs : Nat := 0xA000
  ringA : Nat := 0xC000
  ringB : Nat := 0xC800
  ins : List Nat := [0xD000, 0xD400, 0xD800, 0xDC00]
  slots : List Nat := [7, 7, 7, 7]
  segDir : Nat := 0
  coreOff : Nat := 0
  coreSlots : Nat := 0
  clusterSlots : Nat := 0
  launchSlots : Nat := 0
  init : List (Bool × BitVec 16) := []
  clusterInit : List Word := []
  launchInit : List Word := []
  deriving DecidableEq, Repr

/-- A field whose zero means a default (R331). -/
def orElse (n d : Nat) : Nat := if n = 0 then d else n

/-- Read a PARAM section (R331); `none` where it is too short for what it names. -/
def Param.read (b : List Byte) : Option Param :=
  let h (w n : Nat) : Nat := imgN b (8 * w + 2 * n) 2
  let ninit := h 0 3
  let cl := h 5 2
  let la := h 5 3
  let o1 := 48 + ceilDiv (4 * ninit) 8 * 8
  let o2 := o1 + 8 * cl
  if b.length < o2 + 8 * la then none
  else
    some
      { pool0 := h 0 0, pool1 := h 0 1, handler := h 0 2 % 2 ^ 14
        recs := orElse (h 1 0) 0xA000, ringA := orElse (h 1 1) 0xC000, ringB := orElse (h 1 2) 0xC800
        ins := (List.range 4).map fun n => orElse (h 2 n) (0xD000 + 0x400 * n)
        slots := (List.range 4).map fun n => orElse (imgN b (24 + n) 1) 7
        segDir := imgN b 32 8, coreOff := h 5 0, coreSlots := h 5 1, clusterSlots := cl, launchSlots := la
        init := (List.range ninit).map fun k => (bit (imgW b (48 + 4 * k)) 16, BitVec.ofNat 16 (imgN b (48 + 4 * k) 2))
        clusterInit := (List.range cl).map fun k => imgW b (o1 + 8 * k)
        launchInit := (List.range la).map fun k => imgW b (o2 + 8 * k) }

/-- The areas that hold a core's queues: first offset and length (R93, R99). -/
def Param.areas (p : Param) : List (Nat × Nat) :=
  [(p.recs, 8192), (p.ringA, 2048), (p.ringB, 2048)] ++ (p.ins.zip p.slots).map fun (b, n) => (b, 16 + 144 * n)

/-- The areas are aligned, disjoint and end by 0xFFFF, receive rings have 2 to 255 slots, and no ready ring gets more initial
entries than it holds (R92, R93, R295). -/
def Param.ok (p : Param) : Bool :=
  p.recs % 128 == 0 && p.ringA % 16 == 0 && p.ringB % 16 == 0 && p.ins.all (· % 16 == 0) && p.slots.all (2 ≤ ·) &&
  p.areas.all (fun a => a.1 + a.2 ≤ 0x10000) &&
  p.areas.zipIdx.all (fun a => p.areas.zipIdx.all fun b => a.2 == b.2 || !meets a.1.1 a.1.2 b.1.1 (b.1.1 + b.1.2)) &&
  (p.init.filter (!·.1)).length ≤ 192 && (p.init.filter (·.1)).length ≤ 256

/-! ## Placement, casts, curtains and the boot tree (R128, R332, R333) -/

/-- A rectangle relative to the partition's north-west core, and what it carries: a role and the image offset of its
parameters, a cast number, or a curtain context. -/
structure Rect where
  x0 : Nat
  y0 : Nat
  x1 : Nat
  y1 : Nat
  n : Nat
  param : Nat := 0
  deriving DecidableEq, Repr

/-- The rectangle of a word (R128). -/
def Rect.of (w : Word) (n param : Nat) : Rect := { x0 := fld w 63 54, y0 := fld w 53 46, x1 := fld w 45 36, y1 := fld w 35 28, n := n, param := param }

/-- The corners stand in order and inside a rectangle of `w` by `h` cores. DESIGN CHOICE: of corners that do not stand in order the spec
says nothing; a placement or a cast that has them is refused with the placement check, at step 4 (R128, R294). -/
def Rect.inside (r : Rect) (w h : Nat) : Bool := r.x0 ≤ r.x1 && r.y0 ≤ r.y1 && r.x1 < w && r.y1 < h

/-- Two rectangles share a core. -/
def Rect.meets (a b : Rect) : Bool := a.x0 ≤ b.x1 && b.x0 ≤ a.x1 && a.y0 ≤ b.y1 && b.y0 ≤ a.y1

/-- The cores of a rectangle of a partition in row-major order. -/
def Partition.coresOf (p : Partition) (r : Rect) : List Nat :=
  let (x0, y0, _, _) := p.rect
  rectCores (x0 + r.x0) (y0 + r.y0) (r.x1 + 1 - r.x0) (r.y1 + 1 - r.y0)

/-- The 16-byte entries of a section. -/
def entries16 (b : List Byte) : List (Word × Word) := (List.range (b.length / 16)).map fun k => (imgW b (16 * k), imgW b (16 * k + 8))

/-- The placement table (R128). -/
def Image.placement (i : Image) : List Rect :=
  ((i.ofType 4).flatMap fun s => entries16 (i.body s)).map fun (w, v) => Rect.of w (fld w 15 0) (fld v 31 0)

/-- The cast entries (R333). -/
def Image.castRects (i : Image) : List Rect := ((i.ofType 6).flatMap fun s => entries16 (i.body s)).map fun (w, _) => Rect.of w (fld w 7 0) 0

/-- The curtain entries (R333). -/
def Image.curtainRects (i : Image) : List Rect := ((i.ofType 7).flatMap fun s => entries16 (i.body s)).map fun (w, _) => Rect.of w (fld w 0 0) 0

/-- Zero fields of the PLACE, CAST and CURTAIN entries (R128, R333). -/
def Image.entryZeros (i : Image) : Bool :=
  ((i.ofType 4).flatMap fun s => entries16 (i.body s)).all (fun (w, v) => fld w 27 16 == 0 && fld v 63 32 == 0) &&
  ((i.ofType 6).flatMap fun s => entries16 (i.body s)).all (fun (w, v) => fld w 27 8 == 0 && v == 0) &&
  ((i.ofType 7).flatMap fun s => entries16 (i.body s)).all (fun (w, v) => fld w 27 1 == 0 && v == 0) &&
  ([4, 6, 7].all fun t => (i.ofType t).all fun s => s.len % 16 == 0)

/-- The BOOT section gives every placement entry a fan-out of 1 to 15 (R332). -/
def Image.bootOk (i : Image) : Bool :=
  match i.ofType 5 with
  | [s] =>
    let b := i.body s
    b.length == 8 * i.placement.length && (List.range i.placement.length).all fun k => 1 ≤ imgN b (8 * k) 8 && imgN b (8 * k) 8 ≤ 15
  | _ => false

/-! ## Translation and measurement (R323, R326, R330, R334) -/

/-- A role's translated code and what it is delivered with. -/
structure RoleCode where
  recs : List SegRec
  segs : List VSeg
  data : List (Nat × List Byte)
  param : Param
  deriving DecidableEq, Repr

/-- The segment records of a role, in segment order; `none` where its CODE section is malformed. -/
def Image.roleSegs (i : Image) (r : Nat) : Option (List SegRec) :=
  match i.ofRole 1 r with
  | none => some []
  | some s =>
    match segRecords (i.body s) (s.len / 16 + 1) with
    | none => none
    | some rs => if segsOk rs then some (rs.mergeSort fun a b => a.seg ≤ b.seg) else none

/-- Translate a role (R323). -/
def Image.roleCode (i : Image) (r : Nat) : Option (List SegRec × List VSeg) :=
  (i.roleSegs r).bind fun rs => (translateRole false 1024 (rs.map fun s => (s.seg, s.home, s.words))).map fun vs => (rs, vs)

/-- Translate every role (R294 step 3). -/
def Image.code (i : Image) : Option (List (List SegRec × List VSeg)) := (List.range i.nrole).mapM i.roleCode

/-- Translate the stage program: its Edgor bytes, none where the image has none (R334). -/
def Image.stageCode (i : Image) : Option (List Byte) :=
  match i.ofType 8 with
  | [] => some []
  | s :: _ =>
    match segRecords (i.body s) (s.len / 16 + 1) with
    | some [r] =>
      if r.seg = 0 ∧ r.home = 0 ∧ r.dlv = false then
        ((translateRole true 4096 [(0, 0, r.words)]).map fun vs => vs.flatMap VSeg.bytes)
      else none
    | _ => none

/-- The translation measurement (R326, R334). -/
def Image.measure (i : Image) (code : List (List SegRec × List VSeg)) (stage : List Byte) : List Byte :=
  let entry (role seg : Nat) (bs : List Byte) : List Byte := leBytes (role + 2 ^ 16 * seg + 2 ^ 32 * bs.length) 8 ++ bs
  sha512 ((code.zipIdx.flatMap fun (c, r) => c.2.flatMap fun v => entry r v.seg v.bytes) ++
    (if (i.ofType 8).isEmpty then [] else entry 0xFFFF 0 stage))

/-- The parameters and data of a role (R330, R331). -/
def Image.roleData (i : Image) (r : Nat) : Option (Param × List (Nat × List Byte)) :=
  match i.ofRole 3 r with
  | none => none
  | some s =>
    (Param.read (i.body s)).bind fun p =>
      match i.ofRole 2 r with
      | none => some (p, [])
      | some d => (dataRecords (i.body d) (d.len / 16 + 1)).map fun ds => (p, ds)

/-! ## Segment directories in far space (R127, R330) -/

/-- The far address X from which translated segments and directories stand (R330). -/
def segBase (image ilen : Nat) : Nat := image + ceilDiv ilen 65536 * 65536

/-- Bytes of a role's directory: one entry for each number up to its highest. -/
def dirBytes (vs : List VSeg) : Nat := vs.foldl (fun n v => max n (16 * (v.seg + 1))) 0

/-- Where the first segment stands, from X: at the next far address aligned to 1 KiB after every directory (R127; log entry on
segment places). -/
def segsStart (x : Nat) (roles : List RoleCode) : Nat :=
  ceilDiv (x + roles.foldl (fun n r => max n (r.param.segDir + dirBytes r.segs)) 0) 1024 * 1024 - x

/-- Bytes from X to the end of the last segment. -/
def segsEnd (x : Nat) (roles : List RoleCode) : Nat := segsStart x roles + 1024 * (roles.map (·.segs.length)).sum

/-- The directory of a role whose first segment stands at `at_` (R127). -/
def roleDir (vs : List VSeg) (at_ : Nat) : List Byte :=
  (List.range (dirBytes vs / 16)).flatMap fun n =>
    match vs.zipIdx.find? (·.1.seg == n) with
    | none => leBytes 0 16
    | some (v, k) => leBytes (2 ^ 62 + at_ + 1024 * k) 8 ++ leBytes (n * 2 ^ 48 + v.bytes.length * 2 ^ 32) 8

/-- What the house cores write to far space, by offset from X: directories and segments (R330). -/
def farCode (x : Nat) (roles : List RoleCode) : List (Nat × List Byte) :=
  (roles.foldl (fun (acc : List (Nat × List Byte) × Nat) r =>
    let o := acc.2
    let segs := r.segs.zipIdx.map fun (v, k) => (o + 1024 * k, v.bytes)
    let dir := if r.segs = [] then [] else [(r.param.segDir, roleDir r.segs (x + o))]
    (acc.1 ++ dir ++ segs, o + 1024 * r.segs.length)) ([], segsStart x roles)).1

/-! ## The attestation report (R338) -/

/-- The code of a partition state (R125). -/
def PartState.code : PartState → Nat
  | .free => 0 | .zeroing => 1 | .configured => 2 | .running => 3 | .suspended => 4

/-- The attestation report of a partition for a nonce (R338). -/
def attestation (perm : Perm) (m : Mach) (q : Nat) (nonce : List Byte) : List Byte :=
  let p := m.part q
  let body :=
    if p.st = .running ∨ p.st = .suspended then p.launch.digest ++ p.launch.measure ++ p.launch.signer else List.replicate 192 0
  let r :=
    leBytes (0x00414A53 + 2 ^ 32 + q * 2 ^ 48 + p.st.code * 2 ^ 52) 8 ++ leBytes (perm.ctr + m.fwVersion * 2 ^ 32) 8 ++ nonce ++
      body ++ m.fwDigest ++ leBytes Config.serial.toNat 16
  let (a, b) := Config.deviceSign (sha512 r)
  r ++ (leBytes a 66).reverse ++ (leBytes b 66).reverse

end Sys2Proof.Machine
end

