-- ==== Sys2Proof/Machine/Suspend.lean ====
section
/-! DEFINITION. Stopping a partition, saving its cores, and restoring them (15_scheduler R303 to R305; 16_traps R315 to R317). -/

namespace Sys2Proof.Machine

/-! ## The saved records (R316) -/

/-- Words as bytes. -/
def wordsBytes (ws : List Word) : List Byte := ws.flatMap fun w => leBytes w.toNat 8

/-- The ten control registers of a thread set's record (R316). -/
def ThreadSet.kwords (t : ThreadSet) : List Word :=
  [t.kmode, t.kfflags.setWidth 64, t.kfmta.setWidth 64, t.kfmtb.setWidth 64, t.kscla.setWidth 64, t.ksclb.setWidth 64,
   t.kplanes.setWidth 64, t.kgpiv.setWidth 64, (0 : BitVec 48) ++ t.kepcPriv ++ t.kepcPc, t.kvec.setWidth 64]

/-- Cycles of the time-out that a wait in place keeps for itself; a curtain's is the phase's (R259, R261, R269). -/
def WaitKind.limit (k : WaitKind) : Option Nat :=
  match k with
  | .counter _ _ limit => some limit
  | .event op => parkLimit op
  | .chorus _ => some 65536
  | _ => none

/-- Cycles that the open phase of a partition's curtain has left (R26, R263). -/
def Partition.curtainLeft (p : Partition) (ctx clk : Nat) : Nat :=
  let k := vget p.curtain {} ctx
  match k.first with
  | some n => n + 2 ^ k.toe.toNat - clk
  | none => 0

/-- Cycles that an `ldv` has waited, and cycles that a time-out has left (R315, R316). -/
def ThreadSet.waited (t : ThreadSet) (p : Partition) (clk : Nat) : Nat × Nat :=
  match t.wait with
  | none => (0, 0)
  | some w =>
    match w.kind with
    | .version _ _ => (min (clk - w.since) 127, 0)
    | .curtain ctx _ => (0, p.curtainLeft ctx clk)
    | k => (0, k.limit.getD 0 - (clk - w.since))

/-- The saved words of a stream slot (R316). -/
def Slot.saved (s : Slot) : List Word :=
  [s.w0, s.w1, s.w2, wd (s.pos.toNat * 2 ^ 32 + s.nnz % 2 ^ 16 * 2 ^ 16 + s.status.toNat % 2 ^ 16)]

/-- RUN of a thread set's record: free, running, or to re-execute at PC. A killed codelet whose decrement waits for a window
entry no longer runs (R312, R316). -/
def ThreadSet.run (t : ThreadSet) : Nat := if !t.busy || t.dying.isSome then 0 else if t.wait.isSome then 2 else 1

/-- The 1,328 bytes of a thread set of partition `p` (R316). -/
def ThreadSet.saved (t : ThreadSet) (p : Partition) (clk : Nat) : List Byte :=
  let run := t.run
  let (ldv, left) := t.waited p clk
  wordsBytes (0 :: t.x.toList.drop 1) ++ (t.v.toList.flatMap fun v => leBytes v.toNat 16) ++ wordsBytes t.kwords ++
    wordsBytes (t.kfault.toList ++ t.krgn.toList ++ t.d.toList) ++
    ((List.range 8).flatMap fun n => leBytes (t.preg n).toNat 2) ++
    wordsBytes [wd (run * 2 ^ 62 + t.pc.toNat), wd (ldv * 2 ^ 32 + left % 2 ^ 32)] ++
    wordsBytes (t.sd.toList.flatMap Slot.saved)

/-- `n` elements of 16 bytes, zero where the list ends. -/
def elements (n : Nat) (l : List V128) : List Byte := (List.range n).flatMap fun i => leBytes (l.getD i 0).toNat 16

/-- A copy channel's saved word; the places of its fields are the model's (log entry on the core record). -/
def Chan.saved (c : Chan) : Word :=
  wd (c.base.toNat + c.limit.toNat * 2 ^ 16 + c.wm.toNat * 2 ^ 32 + b2n c.busy * 2 ^ 48 + b2n c.flt * 2 ^ 49)

/-- A job entry's saved words; the places of its fields are the model's. -/
def Job.saved (j : Job) : List Word :=
  let st := match j.phase with
    | .queued => 1
    | .running _ => 2
    | .faulted _ _ _ _ _ => 3
  [wd (j.off.toNat + j.num.toNat * 2 ^ 16 + st * 2 ^ 32), ~~~(j.issued ||| j.card.getD 7 0)]

/-- The 8 KiB core record (R316). -/
def Core.saved (k : Core) (p : Partition) (clk : Nat) : List Byte :=
  (k.ts.toList.flatMap fun t => t.saved p clk) ++
    (k.acc.toList.flatMap fun a => a.toList.flatMap fun w => leBytes w.toNat 4) ++
    (k.link.toList.flatMap (elements 8)) ++
    wordsBytes (k.chan.toList.map Chan.saved) ++
    wordsBytes [k.kaown, wd k.jobNo.toNat] ++ (k.ts.toList.flatMap fun t => leBytes t.followers.toNat 2) ++ wordsBytes [0] ++
    wordsBytes ((List.range 16).flatMap fun i => ((k.jobs[i]?).map Job.saved).getD [0, 0])

/-- The 4 KiB FIFO record (R316). -/
def Core.savedFifos (k : Core) : List Byte := k.ts.toList.flatMap fun t => t.sd.toList.flatMap fun s => elements 8 s.fifo

/-! ## Restoring (R317) -/

/-- A stream slot reloaded from its four words and its FIFO's elements; what the record does not hold stays in place. -/
def Slot.restored (s : Slot) (b : List Byte) (fifo : List V128) : Slot :=
  let w := imgW b 24
  { s with w0 := imgW b 0, w1 := imgW b 8, w2 := imgW b 16, pos := w.extractLsb' 32 32,
           pushTc := s.pushTc, nnz := s.nnz / 2 ^ 16 * 2 ^ 16 + fld w 31 16, bnd := bit w 0, eos := bit w 13, flt := bit w 14, mism := bit w 15,
           fifo := fifo.take s.fifo.length }

/-- The 16-byte elements that bytes hold. -/
def elementsOf (n : Nat) (b : List Byte) : List V128 := (List.range n).map fun i => BitVec.ofNat 128 (imgN b (16 * i) 16)

/-- The wait of a re-executed instruction, from the cycles its record holds (R315, R317). -/
def Waiting.resumed (w : Waiting) (clk ldv left : Nat) : Waiting :=
  match w.kind with
  | .version _ _ => { w with since := clk - ldv }
  | k =>
    match k.limit with
    | some limit => { w with since := clk - (limit - left) }
    | none => w

/-- A thread set reloaded from its record `b` and its FIFO record `f` (R317). A kill that waits for a window entry stays. -/
def ThreadSet.restored (t : ThreadSet) (clk : Nat) (b f : List Byte) : ThreadSet :=
  let k (n : Nat) : Word := imgW b (0x300 + 8 * n)
  let km := k 0
  let w0 := imgW b 0x420
  let w1 := imgW b 0x428
  { t with
    busy := fld w0 63 62 != 0 || t.dying.isSome
    pc := w0.extractLsb' 0 14 &&& ~~~1
    x := Vector.ofFn fun n => imgW b (8 * n.val)
    v := Vector.ofFn fun n => BitVec.ofNat 128 (imgN b (0x100 + 16 * n.val) 16)
    tc := bit km 0, eos := bit km 1, prt := bit km 2, priv := Priv.ofCode (fld km 4 3), cho := bit km 5, fol := bit km 6, sup := bit km 7
    kfflags := (k 1).setWidth 6, kfmta := (k 2).setWidth 5, kfmtb := (k 3).setWidth 5, kscla := (k 4).setWidth 16
    ksclb := (k 5).setWidth 16, kplanes := (k 6).setWidth 4, kgpiv := (k 7).setWidth 32
    kepcPriv := (k 8).extractLsb' 14 2, kepcPc := (k 8).setWidth 14 &&& ~~~1
    kvec := (k 9).setWidth 14 &&& ~~~1
    kfault := Vector.ofFn fun n => imgW b (0x350 + 8 * n.val), regErr := []
    krgn := Vector.ofFn fun n => imgW b (0x390 + 8 * n.val)
    d := Vector.ofFn fun n => imgW b (0x3D0 + 8 * n.val)
    p := Vector.ofFn fun n => BitVec.ofNat 16 (imgN b (0x410 + 2 * n.val) 2)
    sd := Vector.ofFn fun n => (t.slot n.val).restored (b.drop (0x430 + 32 * n.val)) (elementsOf 8 (f.drop (128 * n.val)))
    wait := t.wait.map fun w => w.resumed clk (fld w1 38 32) (fld w1 31 0) }

/-- A copy channel reloaded from its word. DESIGN CHOICE: what pushes and faults have done to it while the core was stopped (R304)
stays done, so W is the higher of the two. -/
def Chan.restored (c : Chan) (w : Word) : Chan :=
  { c with base := w.extractLsb' 0 16, limit := w.extractLsb' 16 16, wm := BitVec.ofNat 16 (max c.wm.toNat (fld w 47 32))
           busy := bit w 48 && c.busy, flt := bit w 49 || c.flt }

/-- A job reloaded from the entry of its number, if the record has one: a queued one restarts, and a far gather issues the elements
recorded as unissued (R316, R317). -/
def Job.restored (j : Job) (b : List Byte) : Job :=
  match (List.range 16).find? fun i => fld (imgW b (0x1F00 + 16 * i)) 63 32 != 0 && fld (imgW b (0x1F00 + 16 * i)) 31 16 == j.num.toNat with
  | none => j
  | some i =>
    let e := imgW b (0x1F00 + 16 * i)
    { j with
      off := e.extractLsb' 0 16
      phase := if fld e 63 32 = 1 then .queued else j.phase
      issued := if j.kind = 1 then ~~~(imgW b (0x1F08 + 16 * i)) &&& ~~~(j.card.getD 7 0) else j.issued }

/-- The shared registers, link buffers, channels, chorus masks and jobs of a core reloaded from its record (R317). -/
def Core.restored (k : Core) (b : List Byte) : Core :=
  let own := imgW b 0x1EE0
  { k with
    acc := Vector.ofFn fun i => Vector.ofFn fun j => BitVec.ofNat 32 (imgN b (0x14C0 + 512 * i.val + 4 * j.val) 4)
    link := Vector.ofFn fun n => (elementsOf 8 (b.drop (0x1CC0 + 128 * n.val))).take (vget k.link [] n.val).length
    owner := Vector.ofFn fun i => own.extractLsb' (2 * i.val) 2
    jobNo := BitVec.ofNat 16 (imgN b 0x1EE8 2)
    chan := Vector.ofFn fun i => (vget k.chan {} i.val).restored (imgW b (0x1EC0 + 8 * i.val))
    ts := Vector.ofFn fun t => { k.tset t.val with followers := BitVec.ofNat 16 (imgN b (0x1EF0 + 2 * t.val) 2) }
    jobs := k.jobs.map fun j => j.restored b }

/-! ## Stopping (R303, R315) -/

/-- What a core started in its units has run to its end: matrix operations, local copies and matrix jobs, and the instructions
that wait for a Schur operation or for the answer to a far request, which then complete, trap or park (R243, R315). -/
def Core.stilled (k : Core) : Bool :=
  k.mat == [] && k.schur.isNone &&
  k.jobs.all (fun j => j.phase = .queued || (j.kind != 0 && j.kind != 2) || (match j.phase with
                                                                             | .faulted _ _ _ _ _ => true
                                                                             | _ => false)) &&
  k.ts.toList.all (fun t => match t.far with
    | .asked _ => false
    | .answered _ => false
    | _ => true)

/-- Every core of a stopping partition has stopped, no gang round is open among them, and every pushed element lies in its
link buffer (R24, R303). -/
def Mach.stopped (m : Mach) (q : Nat) : Bool :=
  let cs := m.liveCores q
  cs.all (fun c => (m.core c).stilled && !m.inGang c) &&
  m.net.all (fun d => d.part != q || (match d.body with
    | .element _ _ _ => false
    | _ => true))

/-- The words of the register die that a thread set's record holds, by REG code: x1 to x31, v, p0 to p6, the display (R53, R316). -/
def dieRegs : List Nat := (List.range 71).drop 1 ++ (List.range 8).map dispCode

/-- The registers of a thread set are read as its record is written: single-bit errors are corrected and counted, and an
uncorrectable one kills the codelet; in a follower it is the lead's, and the record names the member (R23, R62, R310, R312,
R317). -/
def Mach.killUnread (m : Mach) (c t : Nat) : Mach :=
  let s := (m.core c).tset t
  match s.badReg dieRegs with
  | none => m.modCore c fun k => dieRegs.foldl (fun k n => k.fixReg t n) k
  | some n =>
    let l := if s.fol then s.lead else c
    let r := { regTrap n with ts := BitVec.ofNat 2 t, priv := BitVec.ofNat 2 s.priv.code, pc := s.pc, time := wd m.clk }
    if s.busy && s.dying.isNone then m.kill l t (if s.fol then r.from c else r) else m

/-- Bytes written to far space from `a`, and the first address at which such a write has failed: the mapping does not let it be
written. -/
def Mach.farTry (q a : Nat) (bs : List Byte) (s : Mach × Option Nat) : Mach × Option Nat :=
  match s.1.farPut q a bs with
  | .ok m => (m, s.2)
  | .error _ => (s.1, s.2.or (some a))

/-- The save area of a partition in [59:0] (R293). -/
def Partition.saveAt (p : Partition) : Nat := fld p.launch.save 59 0

/-- Save every core of a partition (R303, R316); the first record that the save area does not take, if any. -/
def Mach.saveAll (m : Mach) (q : Nat) : Mach × Option Nat :=
  let cs := m.liveCores q
  let save := (m.part q).saveAt
  if (m.part q).launch.save = 0 then (m, none)
  else
    let m := cs.foldl (fun m c => (List.range 4).foldl (fun m t => m.killUnread c t) m) m
    cs.zipIdx.foldl (fun s ci =>
      let k := s.1.core ci.1
      Mach.farTry q (save + 8192 * cs.length + 4096 * ci.2) k.savedFifos
        (Mach.farTry q (save + 8192 * ci.2) (k.saved (s.1.part q) s.1.clk) s)) (m, none)

/-- The record of a save area that does not hold what the launch must have reserved (R7, R316). -/
def saveFault (a : Nat) : FaultRec := { faultOf Cause.illegalOperation with addr := wd (2 ^ 62 + a) }

/-- SUSPENDED: the cores of the partition have stopped and are saved (R303). DESIGN CHOICE: where no instruction suspends the partition,
the illegal-operation fault of a save area that is not mapped or not writable goes to house core (1023, 0) as an event (R7). -/
def Mach.suspendNow (m : Mach) (q : Nat) : Mach :=
  let (m', bad) := m.saveAll q
  let m' := m'.modPart q fun p => { p with st := .suspended, stopping := false, stopped := m.clk }
  match bad with
  | none => m'
  | some a => m'.event houseCore (saveFault a)

/-- `part.susp` of a partition whose cores have stopped; where the save area does not take a record, its address, and the partition runs
on (R7, R272, R316). -/
def Mach.suspendTry (m : Mach) (q : Nat) : Except (Nat × Mach) Mach :=
  match (m.saveAll q).2 with
  | none => .ok (m.suspendNow q)
  | some a => .error (a, m.modPart q fun p => { p with stopping := false })

/-- Time-outs of a core moved on by the suspended cycles (R304). -/
def Core.shifted (k : Core) (n : Nat) : Core :=
  { k with
    ts := k.ts.map fun t => { t with wait := t.wait.map fun w => { w with since := w.since + n } }
    recTab := k.recTab.map fun r => { r with deadline := r.deadline.map (· + n) } }

/-- A part at far address `a` of a record of core `c` cannot be read: the memory-ECC trap awaits thread set `t` (R317). -/
def Mach.unrestored (m : Mach) (c a t : Nat) : Mach :=
  let s := (m.core c).tset t
  if s.busy then m.deliverFault c t s.cid { faultOf Cause.memoryEcc with addr := wd (2 ^ 62 + a), pc := s.pc } else m

/-- Restore core `c`, whose logical number is `i` of `n`, from its records; a part that cannot be read leaves what stands in
place, and raises the memory-ECC trap before the first issue of the thread set it belongs to: of each, where the four share it
(R317). DESIGN CHOICE: the record address is that of the part. -/
def Mach.restoreCore (m : Mach) (q n c i : Nat) : Mach :=
  let save := (m.part q).saveAt
  let core := save + 8192 * i
  let fifo := save + 8192 * n + 4096 * i
  let shared := core + 0x14C0
  let m := (List.range 4).foldl (fun m t =>
    match m.farBytes q (core + 1328 * t) 1328, m.farBytes q (fifo + 1024 * t) 1024 with
    | .ok b, .ok f => m.modCore c (·.modTs t fun s => s.restored m.clk b f)
    | .ok _, .error _ => m.unrestored c (fifo + 1024 * t) t
    | .error _, _ => m.unrestored c (core + 1328 * t) t) m
  match m.farBytes q shared (8192 - 0x14C0) with
  | .ok b => m.modCore c (·.restored (List.replicate 0x14C0 0 ++ b))
  | .error _ => (List.range 4).foldl (fun m t => m.unrestored c shared t) m

/-- Time limits of a partition's pins and programs at a stagehand moved on by the `n` suspended cycles before `clk`: a pin made or a
program begun while the partition was suspended has all its cycles left (R117, R209, R304). -/
def Stagehand.shifted (h : Stagehand) (q n clk : Nat) : Stagehand :=
  let pin (b : Blk) : Blk := { b with pins := b.pins.map fun x => { x with expires := x.expires + min n (clk + 65536 - x.expires) } }
  let unit (u : StageUnit) : StageUnit := { u with cards := u.cards.map fun r => { r with started := r.started + min n (clk - r.started) } }
  { h with dir := h.dir.map (fun b => if b.part == q then pin b else b),
           units := h.units.map fun u => if u.1 == q then (u.1, unit u.2) else u }

/-- RUNNING again: time-outs go on where they stood, and every core is restored (R304, R317). -/
def Mach.resumeNow (m : Mach) (q : Nat) : Mach :=
  let n := m.clk - (m.part q).stopped
  let cs := m.liveCores q
  let m := cs.foldl (fun m c => m.modCore c (·.shifted n)) m
  let m := if (m.part q).launch.save = 0 then m else cs.zipIdx.foldl (fun m ci => m.restoreCore q cs.length ci.1 ci.2) m
  let m := (m.part q).hands.foldl (fun m s => m.modHand s (·.shifted q n m.clk)) m
  m.modPart q fun p =>
    { p with st := .running, curtain := p.curtain.map fun k => { k with first := k.first.map (· + n) } }

end Sys2Proof.Machine
end

