-- ==== Sys2Proof/Machine/House.lean ====
section
/-! DEFINITION. The partition manager and the launch: configuring, zeroing, launching, suspending and resuming partitions,
the slice table and the key slots (06_tables R113, R120, R121, R125 to R128; 04_memories R88, R90; 13_isa_tasks R272 to R274;
15_scheduler R293 to R295, R302; 17_aqlan R336). -/

namespace Sys2Proof.Machine

/-! ## The configuration record (R113, R125, R272) -/

/-- A window record (R113). -/
def Window.ofWords (a b : Word) : Window :=
  { v := bit a 63, pol := bit a 62, blk := a.extractLsb' 60 2, cnt := a.extractLsb' 50 10, base := a.extractLsb' 0 44,
    size := b.extractLsb' 16 32, first := b.extractLsb' 0 9 }

/-- The partition that a 144-byte record describes (R125, R272). -/
def Partition.ofRecord (b : List Byte) : Partition :=
  let w := imgW b 0
  let v := imgW b 8
  { stitch := w.extractLsb' 58 3, cx0 := w.extractLsb' 53 5, cy0 := w.extractLsb' 49 4, w := w.extractLsb' 43 6, h := w.extractLsb' 39 4
    strv := w.extractLsb' 34 5, rtx := w.extractLsb' 24 10, rty := w.extractLsb' 16 8, quota := w.extractLsb' 0 12
    share := v.extractLsb' 48 16, hbmpg := v.extractLsb' 32 16, hbmbase := v.extractLsb' 16 16, ncast := v.extractLsb' 0 9
    windows := Vector.ofFn fun i => Window.ofWords (imgW b (16 + 16 * i.val)) (imgW b (24 + 16 * i.val)) }

/-- STATE is 0 and every reserved field of the record is zero (R3, R7, R272). -/
def recordZeros (b : List Byte) : Bool :=
  fld (imgW b 0) 63 61 == 0 && fld (imgW b 0) 15 12 == 0 && fld (imgW b 8) 15 9 == 0 &&
  (List.range 8).all fun i => fld (imgW b (16 + 16 * i)) 49 44 == 0 && fld (imgW b (24 + 16 * i)) 63 48 == 0 &&
    fld (imgW b (24 + 16 * i)) 15 9 == 0

/-- Partitions that share columns share stagehands (R125). -/
def Partition.sharesHands (a b : Partition) : Bool :=
  meets a.cx0.toNat a.w.toNat b.cx0.toNat (b.cx0.toNat + b.w.toNat)

/-- The rectangles share a cluster. -/
def Partition.overlaps (a b : Partition) : Bool :=
  a.sharesHands b && meets a.cy0.toNat a.h.toNat b.cy0.toNat (b.cy0.toNat + b.h.toNat)

/-- A window is one that the configuration accepts (R113). -/
def Partition.windowOk (p : Partition) (w : Window) : Bool :=
  !w.v || (w.blk != 3 && 1 ≤ w.cnt.toNat && w.cnt.toNat ≤ 512 && 1 ≤ w.size.toNat && w.first.toNat + w.cnt.toNat ≤ 512 &&
    w.share ≤ 8 * 2 ^ 30 && (List.range w.cnt.toNat).all fun i => p.hands.contains (w.first.toNat + i))

/-- Two windows cover no address together (R113). -/
def Window.apart (a b : Window) : Bool := !a.v || !b.v || !meets a.start a.len b.start (b.start + b.len)

/-- 4 KiB units of level-1 tables at the stagehand of the share that needs most (R114, R125, R360). -/
def Partition.tableNeed (p : Partition) : Nat := p.hands.foldl (fun n s => max n (p.level1 s 8 / 4096)) 0

/-- The configuration of partition `q` is accepted (R113, R125). -/
def Mach.cfgOk (m : Mach) (q : Nat) (p : Partition) : Bool :=
  let others := ((List.range 16).filter (· != q)).map m.part |>.filter (·.st != .free)
  let mates := others.filter p.sharesHands
  1 ≤ p.w.toNat && 1 ≤ p.h.toNat && p.cx0.toNat + p.w.toNat ≤ 32 && p.cy0.toNat + p.h.toNat ≤ 12 && p.stitch.toNat ≤ 3 &&
  p.ncast.toNat ≤ 256 && others.all (!p.overlaps ·) && 16 ≤ p.strv.toNat && p.strv.toNat ≤ 24 &&
  p.hands.all (fun s => ((mates.filter (·.hands.contains s)).map (·.quota.toNat)).sum + p.quota.toNat ≤ 3072 &&
    ((mates.filter (·.hands.contains s)).map (·.share.toNat)).sum + p.share.toNat ≤ 65536) &&
  p.hbmbase.toNat + p.hbmpg.toNat ≤ 32768 &&
  mates.all (fun o => p.hbmpg = 0 || o.hbmpg = 0 ||
    !meets p.hbmbase.toNat p.hbmpg.toNat o.hbmbase.toNat (o.hbmbase.toNat + o.hbmpg.toNat)) &&
  (List.range 8).all (fun i => p.windowOk (p.window i) && (List.range i).all fun j => (p.window i).apart (p.window j)) &&
  p.tableNeed + p.bigBlock ≤ p.quota.toNat

/-! ## Zeroing (R28, R90, R272) -/

/-- One more discard from a source (R272). -/
def Mach.discarded (m : Mach) (q src n : Nat) : Mach :=
  m.modPart q fun p => { p with report := Map.set p.report src (Map.get p.report 0 src + n) }

/-- A RoCE part accepted before the partition enters ZEROING completes (R351). -/
def Mach.flushMove (m : Mach) (v : Move) : Mach :=
  match v.kind with
  | .rdmaWrite x d =>
    if !m.rdma.any (·.xid == x) then m
    else match m.farPut v.part v.at_ (d.take v.len) with
    | .ok m => m.modRdma x fun r => { r with left := r.left - v.len }
    | .error _ => m.modRdma x fun r => { r with left := r.left - v.len, failed := true }
  | .rdmaRead x a =>
    if !m.rdma.any (·.xid == x) then m
    else match m.farBytes v.part v.at_ v.len with
    | .ok bs => m.modRdma x fun r => { r with data := Memory.pokes r.data a bs, left := r.left - v.len }
    | .error _ => m.modRdma x fun r => { r with left := r.left - v.len, failed := true }
  | _ => m

/-- RoCE parts of the partition at its stagehands, and those that wait at the port, completed: their exchanges have been accepted
(R351). -/
def Mach.flushRdma (m : Mach) (q : Nat) : Mach :=
  let m := (m.part q).hands.foldl (fun m s =>
    ((m.hand s).requests.filter (·.part == q)).foldl Mach.flushMove m) m
  (m.rdma.flatMap fun r => (r.todo.map (·.2)).filter (·.part == q)).foldl Mach.flushMove m

/-- What the reset discards, counted by source: packets and window entries, link-buffer elements, and requests and cards
at stagehands (R272). DESIGN CHOICE: the card of a stage program that has begun counts as one that waits. -/
def Mach.countDiscards (m : Mach) (q : Nat) : Mach :=
  let m := (m.net.filter fun d => d.part == q && (d.src < meshCores || handBase ≤ d.src)).foldl (fun m d => m.discarded q d.src 1) m
  let m := (m.liveCores q).foldl (fun m c =>
    (List.range 4).foldl (fun m d =>
      let n := (vget (m.core c).link [] d).length
      if n = 0 then m else m.discarded q ((m.neighbour c d).getD c) n) m) m
  (m.part q).hands.foldl (fun m s =>
    let h := m.hand s
    let m := (h.requests.filter (·.part == q)).foldl (fun m v =>
      match v.kind with
      | .rdmaRead _ _ => m
      | .rdmaWrite _ _ => m
      | _ => m.discarded q (v.core.getD (handBase + s)) 1) m
    (m.unit s q).cards.foldl (fun m k => m.discarded q k.core 1) m) m

/-- A core of a partition after zeroing: only its partition, fenced sub-arrays and their health stay (R90, R239). -/
def Core.zeroed (k : Core) : Core := { part := k.part, fence := k.fence, failing := k.failing }

/-- A stagehand after zeroing of partition `q` under a key: its stage slice quota, tables, requests and HBM pages (R90). -/
def Stagehand.zeroed (h : Stagehand) (q : Nat) (p : Partition) (key : BitVec 512) : Stagehand :=
  let lo := p.hbmbase.toNat
  let n := p.hbmpg.toNat
  let unitIn (u : Nat) : Bool := 1024 * lo ≤ u && u < 1024 * (lo + n)
  { h with
    keys := Map.set h.keys q key
    board := h.board.filter fun ib => ib.2.part != q
    dir := h.dir.filter (·.part != q)
    overflow := h.overflow.filter (·.part != q)
    cache := h.cache.filter (·.part != q)
    tables := Map.erase h.tables q
    tableKey := h.tableKey.filter fun uk => uk.1 / 2 ^ 18 != q
    badTable := h.badTable.filter fun u => u / 2 ^ 18 != q
    zeroKey := Map.set h.zeroKey q key
    requests := h.requests.filter (·.part != q)
    units := Map.erase h.units q
    place := Map.erase h.place q
    hbm := Memory.clear h.hbm (65536 * lo) (65536 * n)
    unitKey := h.unitKey.filter fun uk => !unitIn uk.1
    pageKey := (List.range n).foldl (fun k i => Map.set k (lo + i) key) h.pageKey
    badUnit := h.badUnit.filter fun u => !unitIn u }

/-- The clusters of a partition. -/
def Partition.clusters (p : Partition) : List Nat :=
  (List.range p.h.toNat).flatMap fun j => (List.range p.w.toNat).map fun i => (p.cy0.toNat + j) * 32 + (p.cx0.toNat + i)

/-- Every queue of a cluster emptied, its generation one higher (R109). -/
def Cluster.reset (k : Cluster) : Cluster :=
  { k with queues := (List.range 64).map fun i => (i, { gen := (Map.get k.queues {} i).gen + 1 }) }

/-- The queues of a partition's clusters reset (R109). -/
def Mach.resetQueues (m : Mach) (q : Nat) : Mach :=
  (m.part q).clusters.foldl (fun m n => { m with clusters := Map.set m.clusters n (m.cluster n).reset }) m

/-- Cycles of zeroing: 196,608 for a whole slice's quota, 1,394 for each HBM page, and at least 512 (R90). -/
def Partition.zeroCycles (p : Partition) : Nat := max 512 (max (64 * p.quota.toNat) (1394 * p.hbmpg.toNat))

/-- The partition enters ZEROING: its cores stop with nothing saved, everything of it is discarded and counted, a fresh key
stands in every key slot of its share, and it is zeroed under it (R28, R90, R272, R343). -/
def Mach.zero (m : Mach) (q : Nat) : Mach :=
  let m := m.modPart q fun p => { p with report := [] }
  let m := (m.flushRdma q).countDiscards q
  let p := m.part q
  let (x0, y0, w, h) := p.rect
  let key := Config.randomKey m.fresh
  let m := { m with
    fresh := m.fresh + 1
    net := m.net.filter fun d => !(d.part == q && (d.src < meshCores || handBase ≤ d.src))
    rounds := m.rounds.filter fun r => !p.clusters.contains (r.row / 32 / 12 * 32 + r.row % 32) }
  let m := (rectCores x0 y0 w h).foldl (fun m c => if m.live c then m.modCore c Core.zeroed else m) m
  let m := p.hands.foldl (fun m s => m.modHand s fun g => g.zeroed q p key) m
  (m.modPart q fun p =>
    { p with st := .zeroing, stopping := false, zeroDone := some (m.clk + p.zeroCycles), curtain := Vector.replicate 2 {}, toe := 20,
             pha := false, phb := false, rounds := [], lostEvents := [], casts := Vector.replicate 256 {}, ncast := 0, pending := [],
             launch := {} }).resetQueues q

/-- The partition's clusters are released and its key slot is zeroed at every stagehand of its share (R272); its queue pairs stay until
the next configuration, and an access through them fails (R341). -/
def Mach.release (m : Mach) (q : Nat) : Mach :=
  let p := m.part q
  let (x0, y0, w, h) := p.rect
  let m := (rectCores x0 y0 w h).foldl (fun m c => if m.live c then m.modCore c fun k => { k with part := 0, placed := false } else m) m
  let m := p.hands.foldl (fun m s => m.modHand s fun g => { g with keys := Map.erase g.keys q }) m
  m.modPart q fun p => { energy := p.energy, active := p.active, rem := p.rem, qps := p.qps }

/-- Queue keys of a partition's clusters renewed (R109). -/
def Mach.renewQueueKeys (m : Mach) (q : Nat) : Mach :=
  (m.part q).clusters.foldl (fun m n =>
    { m with fresh := m.fresh + 1, clusters := Map.set m.clusters n { m.cluster n with key := Config.queueKey m.fresh } }) m

/-- Configure partition `q` by a record: `none` where it is refused (R125, R272). With W = 0 it is released. -/
def Mach.configure (m : Mach) (q : Nat) (b : List Byte) : Option Mach :=
  let new := Partition.ofRecord b
  let old := m.part q
  if !recordZeros b then none
  else if new.w = 0 then (if old.st = .configured then some (m.release q) else none)
  else if (old.st != .free && old.st != .configured) || !m.cfgOk q new then none
  else
    let m := if old.st = .configured then m.release q else m
    let m := m.modPart q fun p => { new with st := .zeroing, energy := p.energy, active := p.active, rem := p.rem, qps := (List.range 64).map (64 * q + ·) }
    let (x0, y0, w, h) := (m.part q).rect
    let m := (rectCores x0 y0 w h).foldl (fun m c =>
      if m.live c then m.modCore c fun k => { k with part := BitVec.ofNat 4 q, placed := false } else m) m
    some ((m.renewQueueKeys q).zero q)

/-- The reset of a partition that is CONFIGURED, RUNNING or SUSPENDED (R272). -/
def Mach.zeroAsk (m : Mach) (q : Nat) : Option Mach :=
  match (m.part q).st with
  | .configured => some (m.zero q)
  | .running => some (m.zero q)
  | .suspended => some (m.zero q)
  | _ => none

/-- The position of a source of discards: x, y (R272). -/
def sourcePos (src : Nat) : Nat × Nat := if handBase ≤ src then handPos (src - handBase) else posOf src

/-- The 128 words of a reset report (R272). DESIGN CHOICE: of sources with equal counts, those first in y, x order are listed. -/
def Partition.reportWords (p : Partition) : List Word :=
  let all := (p.report.map fun (s, n) => ((sourcePos s).2, (sourcePos s).1, n)).mergeSort fun a b => a.1 < b.1 || (a.1 == b.1 && a.2.1 ≤ b.2.1)
  let total := (p.report.map (·.2)).sum
  let kept := if all.length ≤ 127 then all
    else
      let most := (all.mergeSort fun a b => b.2.2 ≤ a.2.2).take 127
      all.filter fun e => most.contains e
  let w0 := wd (total % 2 ^ 32 + kept.length * 2 ^ 32 + b2n (127 < all.length) * 2 ^ 39)
  let es := kept.map fun (y, x, n) => wd (x + y * 2 ^ 10 + n % 2 ^ 32 * 2 ^ 18)
  (w0 :: es) ++ List.replicate (127 - kept.length) 0

/-! ## The launch (R293 to R295) -/

/-- The fields of a launch record (R293). -/
def LaunchData.ofWords (w : Nat → Word) : LaunchData :=
  { upriv := (w 0).extractLsb' 54 2, supts := (w 0).extractLsb' 52 2, frow := (w 0).extractLsb' 48 4, fcol := (w 0).extractLsb' 44 4
    foff := (w 0).extractLsb' 28 16, image := w 1, ilen := (w 2).setWidth 32, d0 := w 3, inj := (w 6).setWidth 32, save := w 7 }

/-- Zero fields, UPRIV, FROW and alignments of a launch record (R293). -/
def launchWordsOk (w : Nat → Word) : Bool :=
  fld (w 0) 63 60 == 0 && fld (w 0) 27 0 == 0 && fld (w 2) 63 32 == 0 && !bit (w 4) 63 && !bit (w 5) 63 && fld (w 6) 63 32 == 0 &&
  fld (w 0) 55 54 ≤ 1 && fld (w 0) 51 48 ≤ 11 && fld (w 0) 43 28 % 16 == 0 && fld (w 3) 3 0 == 0 && fld (w 7) 11 0 == 0

/-- Every key slot of the share is filled (R88). -/
def Mach.keysFilled (m : Mach) (q : Nat) : Bool := (m.part q).hands.all fun s => (Map.find (m.hand s).keys q).isSome

/-- The windows hold 12 KiB for every live core at SAVE, as R316 requires; 0 is no save area. -/
def Mach.saveOk (m : Mach) (q : Nat) (v : Word) : Bool :=
  v == 0 || (isFar v && (m.part q).covers (fld v 59 0) (12288 * (m.liveCores q).length))

/-- Step 1 of R294. DESIGN CHOICE: a save area outside the windows, for which no response but that of R7 is stated, is refused
here. -/
def Mach.launchRecordOk (m : Mach) (q : Nat) (w : Nat → Word) : Bool :=
  launchWordsOk w && m.saveOk q (w 7) && fld (w 0) 59 56 == q && (m.part q).st = .configured && m.keysFilled q && isFar (w 1) &&
  (m.part q).covers (fld (w 1) 59 0) (fld (w 2) 31 0)

/-- The cores of each cast in the order that the image names them: live cores that some placement holds (R25, R128). -/
def Mach.castMembers (m : Mach) (q : Nat) (i : Image) (n : Nat) : List Nat :=
  let p := m.part q
  let placed := i.placement.flatMap p.coresOf
  ((i.castRects.filter (·.n == n)).flatMap p.coresOf).eraseDups.filter fun c => m.live c && placed.contains c

/-- The cast numbers that an image defines. -/
def Image.castNumbers (i : Image) : List Nat := (i.castRects.map (·.n)).eraseDups.mergeSort fun a b => a ≤ b

/-- Step 4 of R294: placement, casts, areas, initial entries, curtains, the boot tree, and the range of the far code. DESIGN CHOICE:
launch frame slots in a role other than role 0, where R331 requires zero and states no response, are refused here too. -/
def Mach.placementOk (m : Mach) (q : Nat) (i : Image) (roles : List RoleCode) (x : Nat) : Bool :=
  let p := m.part q
  let (_, _, w, h) := p.rect
  let rs := i.placement
  i.entryZeros && i.bootOk && rs.length ≤ 1024 && rs.all (fun r => r.inside w h && r.n < i.nrole && (i.ofRole 3 r.n).any (·.off == r.param)) &&
  (rs.zipIdx.all fun a => rs.zipIdx.all fun b => a.2 == b.2 || !a.1.meets b.1) &&
  i.castRects.all (·.inside w h) && i.curtainRects.all (·.inside w h) &&
  roles.all (fun r => r.param.ok) && (roles.drop 1).all (·.param.launchSlots == 0) &&
  (let members := i.castNumbers.flatMap (m.castMembers q i)
   members.eraseDups.all fun c => (members.filter (· == c)).length ≤ 4) &&
  (roles.all (·.segs == []) || p.covers x (segsEnd x roles))

/-- A frame that the launch builds, written at version 0 (R84, R85). -/
def launchFrame (slink : Word) (slots : Nat) (depth ox oy : Nat) (init : List Word) : List Word :=
  [slink, frameWord 1 slots true false depth ox oy] ++ init

/-- The cluster frame core of a core's cluster (R83, R293). -/
def LaunchData.frameCore (l : LaunchData) (c : Nat) : Nat :=
  let (x, y) := posOf c
  (y / 12 * 12 + l.frow.toNat) * 512 + (x / 16 * 16 + l.fcol.toNat)

/-- The role that a placement gives a core. -/
def Image.roleAt (i : Image) (p : Partition) (c : Nat) : Option Nat := (i.placement.find? fun r => (p.coresOf r).contains c).map (·.n)

/-- SIZE and slots of a cluster frame: of its frame core's role, else of the first role that gives one, else one slot of 0
(R331). -/
def clusterFrame (roles : List RoleCode) (own : Option Nat) : Nat × List Word :=
  let given := ((own.bind fun r => roles[r]?).filter (·.param.clusterSlots != 0)).or (roles.find? (·.param.clusterSlots != 0))
  match given with
  | some r => (r.param.clusterSlots, r.param.clusterInit)
  | none => (1, [0])

/-- Words written into local memory as the launch delivers them, at version 0. -/
def Core.deliver (k : Core) (a : Nat) (ws : List Word) : Core := k.poke (cellsAt a (wordsBytes ws))

/-- What a role delivers to a core: segments, data, areas, rings, the core frame and the initial entries (R294, R330, R331). -/
def Core.takeRole (k : Core) (c : Nat) (r : RoleCode) (x : Nat) (d1 : Word) : Core :=
  let p := r.param
  let k := (r.recs.zip r.segs).foldl (fun k rv =>
    if rv.1.dlv then
      { k with imem := Memory.pokes (Memory.clear k.imem (1024 * rv.1.home) 1024) (1024 * rv.1.home) rv.2.bytes,
               seg := vset k.seg rv.1.home { st := .valid, seg := BitVec.ofNat 16 rv.1.seg } }
    else k) k
  let k := r.data.foldl (fun k d => k.poke (cellsAt d.1 d.2)) k
  let k := { k with
    poolFirst := BitVec.ofNat 16 p.pool0, poolLast := BitVec.ofNat 16 p.pool1, handlerEntry := BitVec.ofNat 14 (p.handler / 2 * 2)
    recs := BitVec.ofNat 16 p.recs, ringA := BitVec.ofNat 16 p.ringA, ringB := BitVec.ofNat 16 p.ringB
    inBase := Vector.ofFn fun n => BitVec.ofNat 16 (p.ins.getD n.val 0), inSlots := Vector.ofFn fun n => BitVec.ofNat 8 (p.slots.getD n.val 0)
    segDir := wd (2 ^ 62 + x + p.segDir), initial := p.init }
  let k := (List.range 4).foldl (fun k n => k.deliver (k.inOff n) [wd (256 * p.slots.getD n 0), 0]) k
  let (ox, oy) := posOf c
  if p.coreSlots = 0 then k
  else { k.deliver p.coreOff (launchFrame d1 p.coreSlots 2 ox oy []) with frames := p.coreOff :: k.frames }

/-- A thread set of a launched core: its levels, its handler, the launch frame and the cluster frame (R53, R59, R66, R309). -/
def ThreadSet.launched (t : ThreadSet) (sup : Bool) (priv : Priv) (kvec : BitVec 14) (d0 d1 : Word) : ThreadSet :=
  { t with sup := sup, priv := priv, kvec := kvec, d := #v[d0, d1, 0, 0, 0, 0, 0, 0] }

/-- Step 5 at one core (R294). -/
def Mach.launchCore (m : Mach) (q : Nat) (l : LaunchData) (i : Image) (roles : List RoleCode) (x c log : Nat) : Mach :=
  let f := l.frameCore c
  let d1 := meshAddr (posOf f).1 (posOf f).2 l.foff.toNat
  let role := (i.roleAt (m.part q) c).bind fun r => roles[r]?
  m.modCore c fun k =>
    let k := match role with
      | some r => k.takeRole c r x d1
      | none => (List.range 4).foldl (fun k n => k.deliver (k.inOff n) [wd (256 * 7), 0]) k
    let d2 := match role with
      | some r => if r.param.coreSlots = 0 then 0 else wd r.param.coreOff
      | none => 0
    let k := if f = c then
        let (size, init) := clusterFrame roles (i.roleAt (m.part q) c)
        { k.deliver l.foff.toNat (launchFrame l.d0 size 1 (posOf c).1 (posOf c).2 init) with frames := l.foff.toNat :: k.frames }
      else k
    { k with
      ts := Vector.ofFn fun t => (k.tset t.val).launched (t.val == l.supts.toNat) (if l.upriv == 1 then .supervisor else .user) k.handlerEntry l.d0 d1
      bases := #v[l.d0, d1, d2], uprivSup := l.upriv == 1, log := BitVec.ofNat 17 log, placed := false }

/-- The cast table, the membership lists and the trees of an image (R25, R120, R121). DESIGN CHOICE: of a cast whose rectangles hold
no live placed core the spec says nothing; its entry keeps V = 0, and NCAST counts it. -/
def Mach.launchCasts (m : Mach) (q : Nat) (i : Image) : Mach :=
  let m : Mach := { m with routers := m.routers.map fun ir =>
    (ir.1, if (m.part q).holds (ir.1 % 512) (ir.1 / 512) then { ir.2 with tree := [] } else ir.2) }
  let m := i.castNumbers.foldl (fun m n =>
    let members := m.castMembers q i n
    let (rx, ry) := posOf (members.headD 0)
    let cast : Cast :=
      { v := members != [], rx := BitVec.ofNat 10 rx, ry := BitVec.ofNat 8 ry, count := BitVec.ofNat 17 members.length, members := members }
    let m := m.modPart q fun p => { p with casts := vset p.casts n cast }
    let m := members.foldl (fun m c => m.modCore c fun k =>
      match (List.range 4).find? fun j => (vget k.casts none j).isNone with
      | some j => { k with casts := vset k.casts j (some (BitVec.ofNat 8 n)) }
      | none => k) m
    m.buildTree n (members.headD 0) members) m
  m.modPart q fun p => { p with ncast := BitVec.ofNat 9 i.castNumbers.length }

/-- The curtains that an image fills (R262, R294). -/
def Mach.launchCurtains (m : Mach) (q : Nat) (i : Image) : Mach :=
  i.curtainRects.foldl (fun m r =>
    let (x0, y0, _, _) := (m.part q).rect
    m.modCtx q r.n fun k =>
      { filled := true, x0 := x0 + r.x0, y0 := y0 + r.y0, x1 := x0 + r.x1, y1 := y0 + r.y1, phase := k.phase + 1 }) m

/-- The launch frame's bytes: SIZE and slots of role 0 (R83). -/
def Mach.launchFrameBytes (m : Mach) (q : Nat) (roles : List RoleCode) : List Byte :=
  let p := (roles.head?.map (·.param)).getD {}
  let (x, y, _, _) := (m.part q).rect
  if p.launchSlots = 0 then wordsBytes (launchFrame 0 1 0 x y [0])
  else wordsBytes (launchFrame 0 p.launchSlots 0 x y p.launchInit)

/-- What a launch ends in (R294). -/
inductive LaunchEnd where
  | refused (step cause : Nat) (m : Mach)
  | done (m : Mach)
  deriving DecidableEq, Repr

/-- The launch record and its image are refused with a cause that the spec does not number (log entry on free values). -/
def Mach.refuse (m : Mach) (step : Nat) : LaunchEnd :=
  .refused step ((m.freeWord.1).toNat % 256) m.freeWord.2

/-- A refusal at step 5 zeroes the partition (R294). -/
def Mach.refuseZero (m : Mach) (q : Nat) : LaunchEnd :=
  let (v, m) := m.freeWord
  .refused 5 (v.toNat % 256) (m.zero q)

/-- The go instant: after the arrival at the farthest core, and within 65,536 cycles (R295). -/
def Mach.goInstant (m : Mach) (q : Nat) : Nat :=
  let lo := (m.liveCores q).foldl (fun n c => max n (5 + hops houseCore c)) 1
  m.clk + lo + (m.freeWord.1).toNat % (65537 - lo)

/-- A partition's scratch area at a stagehand as its key shows it at launch: zeros, where the key is that of its zeroing (R88,
R90, R208). -/
def Mach.launchScratch (m : Mach) (q s : Nat) : Mach :=
  let h := m.hand s
  let old := Map.get h.zeroKey 0 q
  if h.keyOf q = old then m
  else m.modUnit s q fun u => { u with scratch := Memory.pokes [] 0 ((List.range 256).flatMap fun i =>
    reKey old (h.keyOf q) (2 ^ 127 + s * 2 ^ 34 + Config.stageUnit s q (2 ^ 48 + 1) + i) (List.replicate 64 0)) }

/-- Steps 5 and 6 of R294. -/
def Mach.launchBody (m : Mach) (q : Nat) (l : LaunchData) (warn allot : BitVec 63) (i : Image) (roles : List RoleCode)
    (stage : List Byte) (x : Nat) : LaunchEnd :=
  let frame := m.launchFrameBytes q roles
  let far := (farCode x roles).foldl (fun r (ob : Nat × List Byte) => match r with
    | .ok m => m.farPut q (x + ob.1) ob.2
    | .error e => .error e) (if isFar l.d0 then m.farPut q (fld l.d0 59 0) frame else .error FarFail.outside)
  match far with
  | .error _ => m.refuseZero q
  | .ok m =>
    let m := (m.liveCores q).zipIdx.foldl (fun m cn => m.launchCore q l i roles x cn.1 cn.2) m
    let m := ((m.launchCasts q i).launchCurtains q i).resetQueues q
    let m := if stage = [] then m
      else (m.part q).hands.foldl (fun m s => m.modUnit s q fun u => { u with code := Memory.pokes [] 0 stage, codeLen := stage.length }) m
    let m := (m.part q).hands.foldl (fun m s => m.launchScratch q s) m
    let go := m.goInstant q
    let m := m.freeWord.2
    let l := { l with go := some go }
    let m := m.modPart q fun p => { p with st := .running, launch := l, energy := Vector.replicate 6 0, active := 0, rem := allot, warn := warn, low := false }
    .done (m.send (Reply.launchDone q go))

/-- The image range is closed to the host while the launch reads it: in this cycle, in which the model performs the launch. An access
into it that has not been performed is refused (R336, R339, R341, R351). -/
def Mach.lockImage (m : Mach) (q a n : Nat) : Mach :=
  let hits (v : Move) : Bool := v.part == q && meets v.at_ v.len a (a + n)
  let xs := (m.rdma.filter fun r => r.todo.any (hits ·.2) ||
    m.hands.any fun sh => sh.2.requests.any fun v => v.ofRdma r.xid && hits v).map (·.xid)
  (xs.foldl (fun m x => m.modRdma x fun r => { r with failed := true }) m).modPart q fun p => { p with imageLock := some (m.clk, a, n) }

/-- A launch by the record `w` (R294). DESIGN CHOICE: a malformed CODE section is refused at step 3, and a malformed DATA section or a
PARAM section that is too short at step 4, where their contents are placed (R330). -/
def Mach.launchBy (m : Mach) (perm : Perm) (q : Nat) (w : Nat → Word) : LaunchEnd :=
  if !m.launchRecordOk q w then m.refuse 1
  else
    let l := LaunchData.ofWords w
    let m := m.lockImage q (fld l.image 59 0) l.ilen.toNat
    match m.farBytes q (fld l.image 59 0) l.ilen.toNat with
    | .error .bad => m.refuseZero q
    | .error _ => .refused 2 1 m
    | .ok img =>
      let i := Image.read img
      match i.refusal perm m.fwVersion with
      | some cause => .refused 2 cause m
      | none =>
        match i.code, i.stageCode with
        | some code, some stage =>
          match (List.range i.nrole).mapM i.roleData with
          | none => m.refuse 4
          | some data =>
            let roles := (code.zip data).map fun (c, d) => ({ recs := c.1, segs := c.2, data := d.2, param := d.1 } : RoleCode)
            let x := segBase (fld l.image 59 0) l.ilen.toNat
            if !m.placementOk q i roles x then m.refuse 4
            else
              let l := { l with digest := sha512 i.signed, measure := i.measure code stage, signer := sha512 i.key,
                                svn := BitVec.ofNat 8 i.svn, verified := true }
              m.launchBody q l ((w 5).setWidth 63) ((w 4).setWidth 63) i roles stage x
        | _, _ => m.refuse 3

/-- The energy-low event (R138, R298). -/
def Mach.energyLow (m : Mach) (q : Nat) : Mach := m.runtimeEvent q { faultOf Cause.energyLow with data := (m.part q).rem.setWidth 64 }

/-- LAUNCH_GO: at G every core pushes its initial entries, and LOW is judged (R295, R298, R300). -/
def Mach.launchGo (m : Mach) (q : Nat) : Option Mach :=
  let p := m.part q
  if p.launch.go.any (· ≤ m.clk) then
    let m := (m.liveCores q).foldl (fun m c => m.modCore c fun k =>
      let k := k.initial.foldl (fun k e => k.rawPush e.1 (ringEntry 0 0 e.2.toNat)) k
      { k with placed := true, initial := [], sevens := 0 }) m
    let m := p.hands.foldl (fun m s => m.modHand s fun h => { h with place := Map.erase h.place q }) m
    let m := m.modPart q fun p => { p with launch := { p.launch with go := none }, low := p.rem.toNat < p.warn.toNat }
    some (if p.rem.toNat < p.warn.toNat && !p.low then m.energyLow q else m)
  else none

/-! ## The partition forms (R272) -/

/-- The form runs at house level (R29, R146). -/
def needHouse : Act Unit := do require ((← me).priv == .house) (faultOf Cause.privilege)

/-- The illegal-operation trap of a page-15 form: the operand involved, and a cause code that the spec does not number (R272,
R311). -/
def refuseForm {α : Type} (v : Word := 0) : Act α := do
  let m ← get
  trap { faultOf Cause.illegalOperation with addr := v, data := Config.refusalCause m.here m.clk }

/-- The partition that X(xd) names, its other bits zero (R272). -/
def partOf (d : RegNo) : Act Nat := do
  let v ← readX d
  if fld v 63 4 = 0 then return fld v 3 0 else refuseForm v

/-- `n` bytes of a record in house-core local memory at the offset in a register (R272, R274). -/
def houseBytes (v : Word) (n align : Nat) : Act (List Byte) := do
  require (v.toNat + n ≤ 0x10000) { faultOf Cause.address with addr := v }
  require (v.toNat % align == 0) { faultOf Cause.alignment with addr := v }
  waitGate v.toNat n false
  eccRead (← get).here v.toNat n v
  return Memory.bytes (← myCore).mem v.toNat n

/-- The thread set waits for partition `q` in this form already. -/
def waitsFor (q : Nat) : Act Bool := do
  return (match (← me).wait with
    | some w => w.kind == .partition q
    | none => false)

/-- Wait in place until the partition has left ZEROING (R272). -/
def untilZeroed (q : Nat) : Act Unit := do
  if ((← get).part q).st = .zeroing then throw (.waitKeep (.partition q)) else pure ()

/-- `part.cfg` (R272). -/
def semPartCfg (a : Args) : Act Unit := do
  needHouse
  srcPort false a.d
  srcPort false a.s
  let q ← partOf a.d
  if ← waitsFor q then untilZeroed q
  else do
    let b ← houseBytes (← readX a.s) 144 8
    match (← get).configure q b with
    | none => refuseForm
    | some m => do
      set m
      untilZeroed q

/-- `part.cfg` with W = 0: the clusters are released (R272). -/
def semPartCfgRelease (a : Args) : Act Unit := do
  needHouse
  srcPort false a.d
  srcPort false a.s
  let q ← partOf a.d
  let b ← houseBytes (← readX a.s) 144 8
  let m ← get
  if recordZeros b && (Partition.ofRecord b).w == 0 && (m.part q).st == .configured then set (m.release q) else refuseForm

/-- `part.zero` (R272). -/
def semPartZero (a : Args) : Act Unit := do
  needHouse
  srcPort false a.d
  srcPort false a.s
  let q ← partOf a.d
  let v ← readX a.s
  require (v == 0 || v.toNat + 1024 ≤ 0x10000) { faultOf Cause.address with addr := v }
  require (v.toNat % 64 == 0) { faultOf Cause.alignment with addr := v }
  if ← waitsFor q then pure ()
  else
    match (← get).zeroAsk q with
    | none => refuseForm
    | some m => set m
  untilZeroed q
  if v != 0 then storeOwn (cellsAt v.toNat (wordsBytes ((← get).part q).reportWords)) v else pure ()

/-- The illegal-operation record of a refused launch: its cause, and SAVE where the save area is refused (R7, R272, R316). -/
def Mach.launchFault (m : Mach) (q : Nat) (w : Nat → Word) (cause : Nat) : FaultRec :=
  { faultOf Cause.illegalOperation with addr := if m.saveOk q (w 7) then 0 else w 7, data := wd cause }

/-- `part.run` (R272, R294): of every refused launch the host receives the step and the cause. DESIGN CHOICE:
the launch record is 8-byte aligned, like the record of `part.cfg`. -/
def semPartRun (perm : Perm) (a : Args) : Act Unit := do
  needHouse
  srcPort false a.d
  srcPort false a.s
  let q ← partOf a.d
  let v ← readX a.s
  let m ← get
  if v = 0 ∧ (m.part q).st = .suspended then set (m.resumeNow q)
  else do
    let b ← houseBytes v 64 8
    let w (i : Nat) : Word := imgW b (8 * i)
    match m.launchBy perm q w with
    | .done m => set m
    | .refused step cause m' => do
      set (m'.send (Reply.launchRefused q step cause))
      throw (.trapKeep (m.launchFault q w cause))

/-- `part.susp` (R272, R303). A save area that does not take the records raises illegal-operation with the address, and the partition
runs on (R7, R316). -/
def semPartSusp (a : Args) : Act Unit := do
  needHouse
  srcPort false a.d
  let q ← partOf a.d
  let m ← get
  if ← waitsFor q then
    if (m.part q).st = .suspended then pure ()
    else if (m.part q).stopping && m.stopped q then
      match m.suspendTry q with
      | .ok m' => set m'
      | .error (a, m') => do
        set m'
        throw (.trapKeep { saveFault a with data := Config.refusalCause m.here m.clk })
    else if (m.part q).stopping then throw (.wait (.partition q))
    else refuseForm
  else if (m.part q).st = .running then do
    set (m.modPart q fun p => { p with stopping := true })
    throw (.waitKeep (.partition q))
  else refuseForm

/-! ## Slices and keys (R273, R274, R303) -/

/-- Slice entry `i` of the table. -/
def Mach.slice (m : Mach) (i : Nat) : SliceEntry := vget m.slices {} i

/-- Write a slice entry (R273). -/
def Mach.putSlice (m : Mach) (i : Nat) (instant v : Word) : Mach :=
  { m with slices := vset m.slices i { v := bit v 63, instant := instant, part := v.setWidth 4 } }

/-- The valid entries: index, instant and partition. -/
def Mach.validSlices (m : Mach) : List (Nat × Word × Nat) :=
  ((List.range 16).filter fun i => (m.slice i).v).map fun i => (i, (m.slice i).instant, (m.slice i).part.toNat)

/-- Instants of a list rise strictly. -/
def risingInstants : List (Nat × Word × Nat) → Bool
  | [] => true
  | [_] => true
  | a :: b :: l => a.2.1.toNat < b.2.1.toNat && risingInstants (b :: l)

/-- Start switching at the valid entries that lie in the future; `none` where the table is refused (R273, R303). -/
def Mach.armSlices (m : Mach) : Option Mach :=
  let es := m.validSlices
  if risingInstants es && es.all fun e => (m.part e.2.2).launch.save != 0 then
    some { m with armed := es.filter fun e => m.kptp.toNat < e.2.1.toNat, sliceSet := (es.map (·.2.2)).eraseDups }
  else none

/-- `slice.put` (R273). -/
def semSlicePut (a : Args) : Act Unit := do
  needHouse
  srcPort false a.d
  srcPort false a.s
  srcPort false a.t
  let i ← readX a.d
  let t ← readX a.s
  let v ← readX a.t
  if fld v 62 4 ≠ 0 then refuseForm v
  modify fun m => m.putSlice (fld i 3 0) t v

/-- `slice.arm` (R273). -/
def semSliceArm (_ : Args) : Act Unit := do
  needHouse
  match (← get).armSlices with
  | none => refuseForm
  | some m => set m

/-- The stagehands that X(xs) of a key form names for slot `q` (R274). -/
def Mach.keyHands (m : Mach) (q : Nat) (v : Word) : List Nat := if bit v 9 then (m.part q).hands else [fld v 8 0]

/-- A slot of a RUNNING or SUSPENDED partition is not written (R126). -/
def slotFree (q : Nat) : Act Unit := do
  let st := ((← get).part q).st
  if st = .running ∨ st = .suspended then refuseForm

/-- `key.put` (R274). -/
def semKeyPut (a : Args) : Act Unit := do
  needHouse
  srcPort false a.d
  srcPort false a.s
  srcPort false a.t
  let q := fld (← readX a.d) 3 0
  let v ← readX a.s
  let o ← readX a.t
  slotFree q
  let b ← houseBytes o 64 64
  modify fun m => (m.keyHands q v).foldl (fun m s => m.modHand s fun h => { h with keys := Map.set h.keys q (BitVec.ofNat 512 (leNat b)) }) m

/-- `key.zero` (R274). -/
def semKeyZero (a : Args) : Act Unit := do
  needHouse
  srcPort false a.d
  srcPort false a.s
  let q := fld (← readX a.d) 3 0
  let v ← readX a.s
  slotFree q
  modify fun m => (m.keyHands q v).foldl (fun m s => m.modHand s fun h => { h with keys := Map.erase h.keys q }) m

/-! ## The instructions and events -/

/-- `part.cfg` (R272). -/
def execPartCfg (a : Args) (s : State) : Host.Outcome State Fault Refusal := issue (semPartCfg a) s

/-- `part.cfg` with W = 0 (R272). -/
def execPartCfgRelease (a : Args) (s : State) : Host.Outcome State Fault Refusal := issue (semPartCfgRelease a) s

/-- `part.zero` (R272). -/
def execPartZero (a : Args) (s : State) : Host.Outcome State Fault Refusal := issue (semPartZero a) s

/-- `part.run` (R272); the verifier reads fuses and flash (R336). -/
def execPartRun (a : Args) (s : State) : Host.Outcome State Fault Refusal := issue (semPartRun s.perm a) s

/-- `part.susp` (R272). -/
def execPartSusp (a : Args) (s : State) : Host.Outcome State Fault Refusal := issue (semPartSusp a) s

/-- `slice.put` (R273). -/
def execSlicePut (a : Args) (s : State) : Host.Outcome State Fault Refusal := issue (semSlicePut a) s

/-- `slice.arm` (R273). -/
def execSliceArm (a : Args) (s : State) : Host.Outcome State Fault Refusal := issue (semSliceArm a) s

/-- `key.put` (R274). -/
def execKeyPut (a : Args) (s : State) : Host.Outcome State Fault Refusal := issue (semKeyPut a) s

/-- `key.zero` (R274). -/
def execKeyZero (a : Args) (s : State) : Host.Outcome State Fault Refusal := issue (semKeyZero a) s

/-- LAUNCH_GO (R295). -/
def execLaunchGo (part : Nat) (s : State) : Host.Outcome State Fault Refusal := event (fun m => (m.launchGo part).getD m) s

end Sys2Proof.Machine
end

