-- ==== Sys2Proof/Machine/Events.lean ====
section
/-! DEFINITION. Periods of energy, budgets and power, time slices, and links and live rerouting (06_tables R120 to R122;
07_counters R138, R139; 15_scheduler R298, R302, R303; 16_traps R314; 18_module R345). -/

namespace Sys2Proof.Machine

/-! ## Energy, budgets, power (R138, R139, R345) -/

/-- The energy classes in which a partition was active since the last update (R138). -/
def Mach.activeIn (m : Mach) (q : Nat) : BitVec 6 :=
  (m.liveCores q).foldl (fun a c => a ||| (m.core c).active) (m.part q).active

/-- The activity of a partition is noted anew. -/
def Mach.newPeriod (m : Mach) (q : Nat) : Mach :=
  (m.liveCores q).foldl (fun m c =>
      if (m.core c).active = 0 && (m.core c).idled = 0 then m else m.modCore c fun k => { k with active := 0, idled := 0 })
    (m.modPart q fun p => { p with active := 0 })

/-- The cycles of class 5 of a partition's cores since the last energy update (R138, R344). -/
def Mach.idleCycles (m : Mach) (q : Nat) : Nat := (m.liveCores q).foldl (fun n c => n + (m.core c).idled) 0

/-- The energy of class `c` that partition `q` is charged for period `n`, in nJ: events counted, at the weight of the class. The events
of class 5 are idle cycles; those of the others have no rule (R138, R344). -/
def Mach.energyIn (m : Mach) (q n c : Nat) : Nat :=
  (if c = 5 then m.idleCycles q else if bit (m.activeIn q) c then Config.activity q c n else 0) * m.weights.getD c 0

/-- The energy of all classes that partition `q` is charged for period `n`, in nJ (R138, R344). -/
def Mach.energySum (m : Mach) (q n : Nat) : Nat := (List.range 6).foldl (fun s c => s + m.energyIn q n c) 0

/-- The allotment and threshold that an energy update takes: the last that the host asked for before the update's cycle (R138,
R343, R351). -/
def Partition.allotted (p : Partition) (clk : Nat) : Option (BitVec 63 × BitVec 63) :=
  ((p.pending.filter (·.1 < clk)).getLast?).map (·.2)

/-- The energy update of one partition for period `n`: the classes in which it was active rise, REM falls or is replaced by the
host's allotment, and LOW is judged (R138); a partition that has not been launched has no supervisor thread set to tell. DESIGN CHOICE: an allotment that the host gives stands as it is: the energy of the
period that ends with the update does not lower it. -/
def Mach.energyOf (m : Mach) (q n : Nat) : Mach :=
  let p := m.part q
  let taken := p.allotted m.clk
  let left := p.pending.filter (m.clk ≤ ·.1)
  let (rem, warn) := taken.getD (BitVec.ofNat 63 (p.rem.toNat - m.energySum q n), p.warn)
  let low := decide (rem.toNat < warn.toNat)
  let energy := Vector.ofFn fun c => vget p.energy 0 c.val + wd (m.energyIn q n c.val)
  let m := (m.newPeriod q).modPart q fun p => { p with energy := energy, rem := rem, warn := warn, low := low, pending := left }
  if low && !p.low && (p.st == .running || p.st == .suspended) then m.energyLow q else m

/-- ENERGY_UPDATE (R138). -/
def Mach.energyUpdate (m : Mach) : Option Mach :=
  let n := m.energyPeriod + 1
  if 65536 * n ≤ m.clk then
    let all := (List.range 16).foldl (fun s q => s + m.energySum q n) 0
    some { (List.range 16).foldl (fun m q => m.energyOf q n) m with energyPeriod := n, charged := all }
  else none

/-- BUDGET_PERIOD: every USED count returns to 0 (R139, R300). -/
def Mach.budgetUpdate (m : Mach) : Option Mach :=
  let n := m.budgetPeriod + 1
  if 65536 * n ≤ m.clk then
    some { m with budgetPeriod := n
                  hands := m.hands.map fun (i, h) => (i, { h with used := [], served := [] })
                  routers := m.routers.map fun (i, r) => (i, { r with used := [] }) }
  else none

/-- The power gate after a period of so many milliwatts (R345). -/
def gateAfter (g : BitVec 2) (mw : Nat) : BitVec 2 :=
  if 15000000 < mw then (if g = 3 then 3 else g + 1) else if mw ≤ 14250000 then 0 else g

/-- Package power in mW over a period in which partitions were charged `nj` nJ: a period of 65,536 cycles lasts 65,536/1.7 ns, and the
package's energy is at least what the partitions are charged (R344, R345). -/
def packagePower (n nj : Nat) : Nat := Config.power n + ceilDiv (1700 * nj) 65536

/-- POWER_PERIOD: it ends with the energy period, whose energy has been charged (R345). -/
def Mach.powerUpdate (m : Mach) : Option Mach :=
  let n := m.powerPeriod + 1
  if 65536 * n ≤ m.clk && n ≤ m.energyPeriod then
    let mw := packagePower n m.charged
    some { m with powerPeriod := n, powerMw := mw, pgate := gateAfter m.pgate mw }
  else none

/-! ## Time slices (R302, R303) -/

/-- The kptp instant of a word in nanoseconds (R70). -/
def instantNs (w : Word) : Nat := fld w 63 30 * 1000000000 + fld w 29 0

/-- Partitions of the slice set other than `q` that run (R302). -/
def Mach.outgoing (m : Mach) (q : Nat) : List Nat := m.sliceSet.filter fun o => o != q && (m.part o).st = .running

/-- A switch starts: a late one is reported, and the outgoing partitions stop (R303). -/
def Mach.startSwitch (m : Mach) (t : Word) (q : Nat) : Mach :=
  let late := (m.ptpNs - instantNs t) * 17 / 10
  let m := if instantNs t < m.ptpNs then
      m.runtimeEvent q { faultOf Cause.sliceLate with index := BitVec.ofNat 16 q, data := wd late }
    else m
  { (m.outgoing q).foldl (fun m o => m.modPart o fun p => { p with stopping := true }) m with
    switching := some (t, q, m.outgoing q), armed := m.armed.drop 1 }

/-- The switch ends: the outgoing partitions `out` are SUSPENDED, the incoming runs, and slice-done is reported (R303). -/
def Mach.endSwitch (m : Mach) (t : Word) (q : Nat) (out : List Nat) : Mach :=
  let m := (out.filter fun o => (m.part o).st = .running && (m.part o).stopping).foldl Mach.suspendNow m
  let m := if (m.part q).st = .suspended then m.resumeNow q else m
  let core := match m.runtimeCore q with
    | some c => [Reply.sliceDoneCore c t q]
    | none => []
  let m := m.send (Reply.sliceDone t q)
  { m with switching := none, replies := m.replies ++ core }

/-- SLICE_SWITCH: at the next armed instant the switch starts, and it ends when every outgoing core has stopped; an entry
whose partition is neither RUNNING nor SUSPENDED is skipped. A table that is armed meanwhile leaves the switch under way as it
is (R303). -/
def Mach.sliceSwitch (m : Mach) : Option Mach :=
  match m.switching, m.armed with
  | some (t, q, out), _ => if out.all fun o => (m.part o).st != .running || !(m.part o).stopping || m.stopped o then some (m.endSwitch t q out) else none
  | none, [] => none
  | none, (i, t, q) :: rest =>
    if m.kptp.toNat < t.toNat then none
    else if (m.part q).st != .running && (m.part q).st != .suspended then
      some ({ m with armed := rest }.event houseCore { faultOf Cause.sliceSkip with index := BitVec.ofNat 16 i })
    else some (m.startSwitch t q)

/-! ## Links and live rerouting (R314) -/

/-- A position beyond a direction lies on the mesh. -/
def onMesh (x y d : Nat) : Bool :=
  match d with
  | 0 => 0 < y
  | 1 => x < 511
  | 2 => y < 143
  | _ => 0 < x

/-- Flits of a delivery on its way are still to pass a router's port (R121, R314; log entry on injection). -/
def Mach.crosses (m : Mach) (d : Delivery) (c dir : Nat) : Bool :=
  match d.phase with
  | .flying due =>
    (m.way d).zipIdx.any fun s => s.1 == (c % 512, c / 512, dir) && m.clk < due - d.flight + s.2 + d.body.flits
  | _ => false

/-- A delivery on its way arrives so many cycles later. -/
def Delivery.later (d : Delivery) (n : Nat) : Delivery :=
  match d.phase with
  | .flying due => { d with phase := .flying (due + n) }
  | _ => d

/-- A delivery on its way is to be transmitted again, or for the first time. -/
def Delivery.again (d : Delivery) : Delivery :=
  match d.phase with
  | .flying _ => { d with phase := .queued }
  | _ => d

/-- A link dies: its router stops using it and reports it, injection pauses, and deliveries whose flits it lost wait for
their retransmission, as packets wait that a stagehand has still to send (R314, R362). -/
def Mach.killLink (m : Mach) (c dir : Nat) : Mach :=
  let m := m.modRouter c (·.modLink dir fun l => { l with dead := true })
  { m with
    injPaused := true, deadLinks := m.deadLinks ++ [(c, dir)]
    net := m.net.map fun d => if m.crosses d c dir || m.clk < d.sendAt then d.again else d }

/-- LINK_DEAD (R314). -/
def Mach.linkDead (m : Mach) (c dir : Nat) : Option Mach :=
  if c < meshCores && onMesh (c % 512) (c / 512) dir && !((m.router c).link dir).dead then some (m.killLink c dir) else none

/-- LINK_RESYNC: the sender replays from the number that the receiver expects, and traffic of the link waits 40 cycles; nothing is
drained, and a lost unit of the window is repaired (R318). DESIGN CHOICE: it fails when nothing comes back from the receiver. The
third failure in a row is a dead link (R314). -/
def Mach.linkResync (m : Mach) (c dir : Nat) : Option Mach :=
  if c < meshCores && onMesh (c % 512) (c / 512) dir && !((m.router c).link dir).dead then
    let l := (m.router c).link dir
    let m : Mach := { m with net := m.net.map fun d => if m.crosses d c dir then d.later 40 else d }
    if l.silent then
      if 2 ≤ l.resyncs then some (m.killLink c dir)
      else some (m.modRouter c (·.modLink dir fun l => { l with resyncs := l.resyncs + 1, retry := m.clk + 40 }))
    else some (m.modRouter c (·.modLink dir fun l => { l with resyncs := 0, audit := 0, expect := l.seq, window := [], pending := none }))
  else none

/-- What a troubled link comes to: an audit flit follows every 256 flits, and a resync where the counts disagree; without an
acknowledgement for 4,096 cycles while flits are pending it is dead (R314). -/
def Mach.linkCheck (m : Mach) (c dir : Nat) : Option Mach :=
  let l := (m.router c).link dir
  if l.dead then none
  else if l.pending.any (· + 4096 ≤ m.clk) then some (m.killLink c dir)
  else if l.waits then some (m.modRouter c (·.modLink dir fun l => { l with pending := some m.clk }))
  else if 256 ≤ l.audit && l.retry ≤ m.clk then
    if l.disagrees then m.linkResync c dir else some (m.modRouter c (·.modLink dir fun l => { l with audit := l.audit - 256 }))
  else none

/-- The links that are due for a resync or dead (R314). -/
def Mach.linkDue (m : Mach) : Option Mach :=
  if m.anyTrouble then m.routers.findSome? fun r => (List.range 4).findSome? fun d => m.linkCheck r.1 d else none

/-- The exceptions that lead around a dead link: east and west links along the next row, north and south links along the
next column (R122, R314). -/
def detour (c dir : Nat) : List (Nat × RouteEx) :=
  let x := c % 512
  let y := c / 512
  let row := if y < 143 then (2, y + 1) else (0, y - 1)
  let side := if x < 511 then (1, x + 1) else (3, x - 1)
  match dir with
  | 1 => [(c, { port := row.1, x0 := x + 1, x1 := 511, y0 := 0, y1 := 255 })]
  | 3 => [(c, { port := row.1, x0 := 0, x1 := x - 1, y0 := 0, y1 := 255 }), (c, { port := row.1, x0 := 1023, x1 := 1023, y0 := 0, y1 := 3 })]
  | 2 =>
    [(c, { port := side.1, x0 := x, x1 := x, y0 := y + 1, y1 := 143 }), (c, { port := side.1, x0 := x, x1 := x, y0 := 255, y1 := 255 }),
     (y * 512 + side.2, { port := 2, x0 := x, x1 := x, y0 := y + 1, y1 := 143 }),
     (y * 512 + side.2, { port := 2, x0 := x, x1 := x, y0 := 255, y1 := 255 })]
  | _ =>
    [(c, { port := side.1, x0 := x, x1 := x, y0 := 0, y1 := y - 1 }), (c, { port := side.1, x0 := x, x1 := x, y0 := 254, y1 := 254 }),
     (y * 512 + side.2, { port := 0, x0 := x, x1 := x, y0 := 0, y1 := y - 1 }),
     (y * 512 + side.2, { port := 0, x0 := x, x1 := x, y0 := 254, y1 := 254 })]

/-- The routers next to one: from which a live link leads to it, or to which it leads. -/
def Mach.linked (m : Mach) (back : Bool) (c : Nat) : List Nat :=
  (List.range 4).filterMap fun d =>
    let x := c % 512
    let y := c / 512
    if onMesh x y d then
      let q := beyond (x, y) d
      let n := q.2 * 512 + q.1
      let dead := if back then ((m.router n).link ((d + 2) % 4)).dead else ((m.router c).link d).dead
      if dead then none else some n
    else none

/-- The routers that lead to one, or that it leads to, over live links; `none` where they are more than `n`. -/
def Mach.closure (m : Mach) (back : Bool) : Nat → List Nat → List Nat → Option (List Nat)
  | 0, todo, seen => if todo = [] then some seen else none
  | n + 1, todo, seen =>
    match todo with
    | [] => some seen
    | c :: rest =>
      let new := (m.linked back c).filter fun q => !seen.contains q && !rest.contains q && q != c
      m.closure back n (rest ++ new) (c :: seen)

/-- Links that are dead. -/
def Mach.deadCount (m : Mach) : Nat := (m.routers.map fun r => (r.2.links.toList.filter (·.dead)).length).sum

/-- No route leads from the house cores' router to the core (R314). A region that `n` dead links cut off has fewer than
n² routers. -/
def Mach.isolated (m : Mach) (c : Nat) : Bool :=
  let n := m.deadCount * m.deadCount + 1
  match m.closure true n [c] [] with
  | some seen => !seen.contains 0
  | none =>
    match m.closure false n [0] [] with
    | some seen => !seen.contains c
    | none => false

/-- Cores that dead links may have cut off: those that some dead link leads to, and their like (R314). -/
def Mach.suspects (m : Mach) : List Nat :=
  let n := m.deadCount * m.deadCount + 1
  let near := (m.deadLinks.flatMap fun cd =>
    let q := beyond (cd.1 % 512, cd.1 / 512) cd.2
    match m.closure true n [q.2 * 512 + q.1] [] with
    | some seen => seen
    | none => []).eraseDups
  match m.closure false n [0] [] with
  | some seen => (List.range meshCores).filter fun c => !seen.contains c
  | none => near

/-- The tree of cast `n` of partition `q` crosses a router's link (R121). -/
def Mach.treeCrosses (m : Mach) (q n c dir : Nat) : Bool :=
  let k := (m.part q).cast n
  let e := m.treeAt n c
  k.v && (bit e (9 + dir) || (bit e 15 && fld e 8 6 == dir)) &&
    (m.treeWalk n 2048 (k.ry.toNat * 512 + k.rx.toNat) 0).any (·.1 == c)

/-- The wakes of a stagehand that injection held back; DESIGN CHOICE: those that a dead link lost among them are sent again. -/
def heldWakes (src : Nat) (net : List Delivery) : Nat :=
  (net.filter fun d => d.src == src && handBase ≤ src && d.phase = .queued && d.isWake).length

/-- Injection resumes: each stagehand sends the wakes that it holds one a cycle, in their order (R108, R314, R362). -/
def Mach.resumeWakes (m : Mach) : Mach :=
  { m with
    net := m.net.zipIdx.map fun d =>
      if handBase ≤ d.1.src && d.1.phase = .queued && d.1.isWake then
        { d.1 with sendAt := m.clk + heldWakes d.1.src (m.net.take d.2) }
      else d.1
    hands := m.hands.map fun sh =>
      let n := heldWakes (handBase + sh.1) m.net
      (sh.1, if n = 0 then sh.2 else { sh.2 with wakeAt := m.clk + n }) }

/-- ROUTE_CHANGE: exceptions lead around every reported link and the trees that cross one are rebuilt; injection resumes,
what was lost is sent again, route-change is raised, and isolated cores are lost (R120 to R122, R314). -/
def Mach.routeChange (m : Mach) : Option Mach :=
  if m.deadLinks = [] then none
  else
    let dead := m.deadLinks
    let gone := m.suspects.filter fun c => m.isolated c && !m.gone.contains c
    let live := (List.range 16).filter fun q => (m.part q).st = .running || (m.part q).st = .suspended
    let m := dead.foldl (fun m cd => (detour cd.1 cd.2).foldl (fun m re =>
      m.modRouter re.1 fun r => { r with routes := (r.routes ++ [re.2]).take 64 }) m) m
    let m := live.foldl (fun m q => (List.range 256).foldl (fun m n =>
      let k := (m.part q).cast n
      if dead.any fun cd => m.treeCrosses q n cd.1 cd.2 then m.buildTree n (k.ry.toNat * 512 + k.rx.toNat) k.members else m) m) m
    let m : Mach := ({ m with deadLinks := [], injPaused := false, gone := m.gone ++ gone } : Mach).resumeWakes
    let m := (m.net.map (·.id)).foldl (fun m id => (m.lostDue id).getD m) m
    let m := (m.net.map (·.src)).eraseDups.foldl Mach.transmit m
    let m := dead.foldl (fun m cd => live.foldl (fun m q =>
      m.runtimeEvent q { faultOf Cause.routeChange with data := wd (cd.1 % 512 + cd.1 / 512 * 2 ^ 10 + cd.2 * 2 ^ 18) }) m) m
    some (gone.foldl Mach.loseMember m)

/-! ## The events -/

/-- ENERGY_UPDATE (R138). -/
def execEnergyUpdate (s : State) : Host.Outcome State Fault Refusal := event (fun m => m.energyUpdate.getD m) s

/-- BUDGET_PERIOD (R139). -/
def execBudgetPeriod (s : State) : Host.Outcome State Fault Refusal := event (fun m => m.budgetUpdate.getD m) s

/-- POWER_PERIOD (R345). -/
def execPowerPeriod (s : State) : Host.Outcome State Fault Refusal := event (fun m => m.powerUpdate.getD m) s

/-- SLICE_SWITCH (R303). -/
def execSliceSwitch (s : State) : Host.Outcome State Fault Refusal := event (fun m => m.sliceSwitch.getD m) s

/-- LINK_RESYNC (R314). -/
def execLinkResync (core dir : Nat) (s : State) : Host.Outcome State Fault Refusal := event (fun m => (m.linkResync core dir).getD m) s

/-- LINK_DEAD (R314). -/
def execLinkDead (core dir : Nat) (s : State) : Host.Outcome State Fault Refusal := event (fun m => (m.linkDead core dir).getD m) s

/-- ROUTE_CHANGE (R314). -/
def execRouteChange (s : State) : Host.Outcome State Fault Refusal := event (fun m => m.routeChange.getD m) s

end Sys2Proof.Machine
end

