-- ==== Sys2Proof/Machine/Clock.lean ====
section
/-! DEFINITION. The IEEE 1588 clock and the Ethernet ports (03_registers R70; 18_module R340, R348, R349). -/

namespace Sys2Proof.Machine

/-! ## The IEEE 1588 slave (R349) -/

/-- Port `i`. -/
def Mach.port_ (m : Mach) (i : Nat) : Port := vget m.ports {} i

/-- The machine with a port changed. -/
def Mach.modPort (m : Mach) (i : Nat) (f : Port → Port) : Mach := { m with ports := vset m.ports i (f (m.port_ i)) }

/-- 16 s in cycles. -/
def holdoverCycles : Nat := 27200000000

/-- A port's link is up and its master has been heard within 16 s. -/
def Mach.heardOn (m : Mach) (i : Nat) : Bool := (m.port_ i).up && (m.port_ i).rank.isSome && m.clk < (m.port_ i).heard + holdoverCycles

/-- The port with the best master, port 0 on a tie (R349). -/
def Mach.bestPort (m : Mach) : Option Nat :=
  match m.heardOn 0, m.heardOn 1 with
  | true, true => if (m.port_ 1).rank.getD 0 < (m.port_ 0).rank.getD 0 then some 1 else some 0
  | true, false => some 0
  | false, true => some 1
  | false, false => none

/-- An offset of the reference from kptp applied: above 1 ms a forward step, below −1 ms a hold, else a slew (R349). -/
def Mach.discipline (m : Mach) (ns : Int) : Mach :=
  if 1000000 < ns then { m with ptpNs := m.ptpNs + ns.toNat, ptpSlew := 0, ptpHold := 0 }
  else if ns < -1000000 then { m with ptpHold := (-ns).toNat * 170000, ptpSlew := 0 }
  else { m with ptpSlew := ns * 170000, ptpHold := 0 }

/-- PTP_MESSAGE (R349). -/
def Mach.ptpMessage (m : Mach) (p : PtpMsg) : Option Mach :=
  if !(m.port_ p.port).up then none
  else
    let m := m.modPort p.port fun q => { q with rank := some p.rank, heard := m.clk }
    if m.bestPort = some p.port then some { m.discipline p.offset with ptp := BitVec.ofNat 2 (p.port + 1) } else some m

/-- No master has been heard for 16 s at either port, or since the reset where none has been heard yet (R349). -/
def Mach.unheard (m : Mach) : Bool := m.ports.toList.all fun p => p.heard + holdoverCycles ≤ m.clk

/-- PTP_HOLDOVER: no master has been heard for 16 s (R349). -/
def Mach.holdover (m : Mach) : Option Mach :=
  if m.booted && m.ptp != 3 && m.unheard then some { m with ptp := 3, ptpSlew := 0, ptpHold := 0 } else none

/-! ## Ports (R340, R348) -/

/-- DROPPED_FRAME (R340). -/
def Mach.dropFrame (m : Mach) (i : Nat) : Mach := m.modPort i fun p => { p with drops := p.drops + 1 }

/-- PRIORITY_FLOW_CONTROL: a priority is paused at a port, or goes on, and what waited for it leaves (R340). -/
def Mach.flowControl (m : Mach) (i prio : Nat) (pause : Bool) : Mach :=
  (m.modPort i fun p => if prio = 3 then { p with pause3 := pause } else if prio = 6 then { p with pause6 := pause } else p).sendWaiting

/-- PORT_LINK_UP_OR_DOWN: a port that has gone down resolves the address that it sends to again (R340, R348). A module whose boot has
failed keeps its ports down (R350). -/
def Mach.portLink (m : Mach) (i : Nat) (up : Bool) : Mach :=
  let up := up && m.booted
  (m.modPort i fun p => { p with up := up, resolved := up && p.resolved }).sendWaiting

/-- ADDRESS_RESOLUTION: a port answers requests for its own address, and echo requests (R340). -/
def Mach.resolve (m : Mach) (addr i : Nat) (k : Resolution) : Mach :=
  if !(m.port_ i).up then m
  else
    match k with
    | .arpRequest t => if t = addr then { m with replies := m.replies ++ [Reply.arp i] } else m
    | .neighborSolicitation t => if t = addr then { m with replies := m.replies ++ [Reply.advertisement i] } else m
    | .echoRequest d => { m with replies := m.replies ++ [Reply.echo i d] }

/-! ## The events -/

/-- PTP_MESSAGE (R349). -/
def execPtpMessage (m : PtpMsg) (s : State) : Host.Outcome State Fault Refusal := event (fun k => (k.ptpMessage m).getD k) s

/-- PTP_HOLDOVER (R349). -/
def execPtpHoldover (s : State) : Host.Outcome State Fault Refusal := event (fun m => m.holdover.getD m) s

/-- DROPPED_FRAME (R340). -/
def execDroppedFrame (port : Nat) (s : State) : Host.Outcome State Fault Refusal := event (fun m => m.dropFrame port) s

/-- PRIORITY_FLOW_CONTROL (R340). -/
def execPriorityFlowControl (port prio : Nat) (pause : Bool) (s : State) : Host.Outcome State Fault Refusal :=
  event (fun m => m.flowControl port prio pause) s

/-- PORT_LINK_UP_OR_DOWN (R348). -/
def execPortLinkUpOrDown (port : Nat) (up : Bool) (s : State) : Host.Outcome State Fault Refusal := event (fun m => m.portLink port up) s

/-- ADDRESS_RESOLUTION (R340). -/
def execAddressResolution (port : Nat) (k : Resolution) (s : State) : Host.Outcome State Fault Refusal :=
  event (fun m => m.resolve (vget s.perm.flash.addr 0 port) port k) s

end Sys2Proof.Machine
end

