-- ==== Sys2Proof/Machine/Manage.lean ====
section
/-! DEFINITION. The host: management requests, RoCE, and the boot chain (17_aqlan R337 to R339; 18_module R341 to R343, R350,
R351). -/

namespace Sys2Proof.Machine

/-! ## Requests and their tags (R342, R343) -/

/-- The bytes that a tag covers: the header with TAG zero, and the body (R342). -/
def tagged (type : Nat) (part flags status : Byte) (seq : Word) (body : List Byte) : List Byte :=
  leBytes 0x4D4E4C53 4 ++ [BitVec.ofNat 8 type, part, flags, status] ++ leBytes seq.toNat 8 ++ List.replicate 16 0 ++ body

/-- The tag of a message under the operator key: the first 16 bytes of its HMAC (R342). -/
def tagOf (key : List Byte) (type : Nat) (part flags status : Byte) (seq : Word) (body : List Byte) : List Byte :=
  (hmac512 key (tagged type part flags status seq body)).take 16

/-- The tag is the operator key's (R342). -/
def tagOk (r : MgmtReq) (key : List Byte) (type : Nat) : Bool := r.tag == tagOf key type r.part r.flags 0 r.seq r.body

/-- The machine with a reply sent: the request's header with REPLY set, a STATUS and its own tag, and a body (R342). -/
def Mach.reply (m : Mach) (key : List Byte) (type : Nat) (r : MgmtReq) (status : Byte) (body : List Byte) : Mach :=
  m.send (Reply.mgmt (BitVec.ofNat 8 type) r.part status r.seq (tagOf key type r.part 1 status r.seq body) body)

/-- What performing a request comes to: an answer, or the wait for a partition. -/
inductive Served where
  | done (body : List Byte) (m : Mach)
  | refused (step cause : Nat) (m : Mach)
  | later (m : Mach)

/-- A refusal with a cause that the spec does not number. -/
def Mach.refuseReq (m : Mach) : Served := .refused 0 ((m.freeWord.1).toNat % 256) m.freeWord.2

/-- The seven words of request 0x09 (R343, R344). -/
def Partition.energyWords (p : Partition) : List Word := p.energy.toList ++ [p.rem.setWidth 64]

/-- The words of request 0x0C: the module status words, the energy weights, and the error counters of every live core in
row-major order and of the house cores (R343, R344). -/
def statusWords (perm : Perm) (m : Mach) : List Word :=
  [m.status perm.ctr, wd m.powerMw] ++ perm.flash.weights.map wd ++
    (((List.range meshCores).filter m.live ++ (List.range 4).map (meshCores + ·)).flatMap fun c =>
      (List.range 9).map fun n => (m.core c).seen.word n)

/-- A request performed on the machine (R343). Request 0x0B is `advance`'s. -/
def Mach.serve (m : Mach) (perm : Perm) (type : Nat) (r : MgmtReq) : Served :=
  let q := r.part.toNat
  let p := m.part q
  let need (b : Bool) (k : Served) : Served := if b then k else m.refuseReq
  match type with
  | 0x01 =>
    if 16 ≤ q || r.body.length != 144 then m.refuseReq
    else
      match m.configure q r.body with
      | none => m.refuseReq
      | some m => if (m.part q).st = .zeroing then .later m else .done [] m
  | 0x02 =>
    if 16 ≤ q then m.refuseReq
    else
      match m.zeroAsk q with
      | none => m.refuseReq
      | some m => .later m
  | 0x03 =>
    if 16 ≤ q || r.body.length != 64 then .refused 1 ((m.freeWord.1).toNat % 256) m.freeWord.2
    else
      match m.launchBy perm q fun i => imgW r.body (8 * i) with
      | .done m => .done [] m
      | .refused step cause m => .refused step cause m
  | 0x04 =>
    need (q < 16 && p.st == .running) (.later (m.modPart q fun p => { p with stopping := true }))
  | 0x05 => need (q < 16 && p.st == .suspended) (.done [] (m.resumeNow q))
  | 0x06 =>
    let v := imgW r.body 16
    need (r.body.length == 24 && fld (imgW r.body 0) 63 4 == 0 && fld v 62 4 == 0)
      (.done [] (m.putSlice (fld (imgW r.body 0) 3 0) (imgW r.body 8) v))
  | 0x07 =>
    match m.armSlices with
    | none => m.refuseReq
    | some m => .done [] m
  | 0x08 =>
    need (q < 16 && r.body.length == 16 && !bit (imgW r.body 0) 63 && !bit (imgW r.body 8) 63)
      (.done [] (m.modPart q fun p =>
        { p with pending := p.pending ++ [(m.clk, (imgW r.body 0).setWidth 63, (imgW r.body 8).setWidth 63)] }))
  | 0x09 => need (q < 16) (.done (wordsBytes p.energyWords) m)
  | 0x0A => need (q < 16 && r.body.length == 32) (.done (attestation perm m q r.body) m)
  | 0x0C => .done (wordsBytes (statusWords perm m)) m
  | _ => m.refuseReq

/-- Request 0x0B: the fused counter moves to the SVN of the partition's verified image, when that is greater; one fuse a
step, and at most 64 (R337). -/
def State.advance (s : State) (r : MgmtReq) : Served × Nat :=
  let l := (s.mach.part r.part.toNat).launch
  if 16 ≤ r.part.toNat || !l.verified then (s.mach.refuseReq, s.perm.ctr)
  else (.done [] s.mach, min 64 (max s.perm.ctr l.svn.toNat))

/-- The requests performed in their order, until one waits for its partition (R339, R342). -/
def State.pump (s : State) : Nat → State
  | 0 => s
  | n + 1 =>
    match s.mach.requests with
    | [] => s
    | (type, r) :: rest =>
      let (out, ctr) := if type = 0x0B then s.advance r else (s.mach.serve s.perm type r, s.perm.ctr)
      let s := { s with perm := { s.perm with ctr := ctr } }
      match out with
      | .later m => { s with mach := m }
      | .done body m => ({ s with mach := { m.reply s.perm.flash.opKey type r 0 body with requests := rest } } : State).pump n
      | .refused step cause m =>
        let body := [BitVec.ofNat 8 step, BitVec.ofNat 8 cause]
        ({ s with mach := { m.reply s.perm.flash.opKey type r 1 body with requests := rest } } : State).pump n

/-- The request under way is answered, and the next ones are performed. -/
def State.finish (s : State) (status : Byte) (body : List Byte) : State :=
  match s.mach.requests with
  | [] => s
  | (type, r) :: rest =>
    ({ s with mach := { s.mach.reply s.perm.flash.opKey type r status body with requests := rest } } : State).pump rest.length

/-- A management request arrives: its tag, its SEQ against the last accepted one, and the ceiling in flash (R342). -/
def State.request (s : State) (type : Nat) (r : MgmtReq) : State :=
  let m := s.mach
  if !m.booted || m.ports.toList.all (!·.up) || r.flags != 0 then s
  else if !tagOk r s.perm.flash.opKey type then { s with mach := m.reply s.perm.flash.opKey type r 2 [] }
  else if r.seq.toNat ≤ m.lastSeq then { s with mach := m.reply s.perm.flash.opKey type r 3 (leBytes m.lastSeq 8) }
  else
    let ceiling := if s.perm.flash.ceiling < r.seq.toNat then r.seq.toNat + 2 ^ 32 else s.perm.flash.ceiling
    let s' : State :=
      { perm := { s.perm with flash := { s.perm.flash with ceiling := ceiling } }
        mach := { m with lastSeq := r.seq.toNat, requests := m.requests ++ [(type, r)] } }
    if m.requests = [] then s'.pump 1 else s'

/-- The SUSPEND under way: its partition has stopped and is saved, or can no longer be; one whose save area does not take the records
is refused, and the partition runs on (R303, R316, R343). -/
def State.suspendReq (s : State) (r : MgmtReq) : State :=
  let m := s.mach
  let q := r.part.toNat
  match (m.part q).st with
  | .running =>
    if !(m.part q).stopping then s.finish 1 [0, BitVec.ofNat 8 (m.freeWord.1).toNat]
    else if m.stopped q then
      match m.suspendTry q with
      | .ok m' => ({ s with mach := m' } : State).finish 0 []
      | .error (_, m') => ({ s with mach := m' } : State).finish 1 [0, BitVec.ofNat 8 (m.freeWord.1).toNat]
    else s
  | .suspended => s.finish 0 []
  | _ => s.finish 1 [0, BitVec.ofNat 8 (m.freeWord.1).toNat]

/-- ZEROING_DONE: the partition is CONFIGURED, and the request that began it is answered (R90, R125, R343). -/
def State.zeroingDone (s : State) (q : Nat) : State :=
  let m := s.mach
  let p := m.part q
  if p.st = .zeroing && p.zeroDone.any (· ≤ m.clk) then
    let m := m.modPart q fun p => { p with st := .configured, zeroDone := none }
    let s := { s with mach := m }
    match m.requests with
    | [] => s
    | (type, r) :: _ =>
      if r.part.toNat != q then s
      else if type = 0x01 then s.finish 0 []
      else if type = 0x02 then s.finish 0 (wordsBytes p.reportWords)
      else s
  else s

/-! ## RoCE (R341) -/

/-- The partition of a queue pair. -/
def Mach.qpPart (m : Mach) (qp : Nat) : Option Nat := (List.range 16).find? fun q => (m.part q).qps.contains qp

/-- The parts of an access, each within 4 KiB of far space: address, offset in the access, length. -/
def rdmaParts (a o n : Nat) : Nat → List (Nat × Nat × Nat)
  | 0 => []
  | f + 1 => if n = 0 then [] else (a, o, farPiece a n) :: rdmaParts (a + farPiece a n) (o + farPiece a n) (n - farPiece a n) f

/-- One part for the home stagehand of its address, which waits at the port for the end of the cycle's instructions, and for a place in
the stagehand's queue; an address that no window covers fails the exchange (R110, R341, R351). -/
def Mach.rdmaPart (m : Mach) (q x : Nat) (data : Option (List Byte)) (p : Nat × Nat × Nat) : Mach :=
  if !m.rdma.any (·.xid == x) then m
  else
    match (m.part q).home p.1 with
    | none => m.modRdma x fun r => { r with failed := true }
    | some (w, s, l) =>
      let kind : MoveKind := match data with
        | some d => .rdmaWrite x ((d.drop p.2.1).take p.2.2)
        | none => .rdmaRead x p.2.1
      let v : Move := { id := m.nextId, part := q, kind := kind, addr := wd (2 ^ 62 + p.1), win := w, off := l, len := p.2.2 }
      let m : Mach := { m with nextId := m.nextId + 1 }.modHand s id
      m.modRdma x fun r => { r with todo := r.todo ++ [(s, v)] }

/-- An access to `[a, a + n)` meets an image that a launch of this cycle reads (R336, R341). -/
def Mach.imageClosed (m : Mach) (q a n : Nat) : Bool :=
  (m.part q).imageLock.any fun l => l.1 == m.clk && meets a n l.2.1 (l.2.1 + l.2.2)

/-- An RDMA access of a queue pair (R341). -/
def Mach.rdmaAccess (m : Mach) (qp : Nat) (addr : Word) (len : Nat) (data : Option (List Byte)) : Mach :=
  if !m.booted || m.ports.toList.all (!·.up) then m
  else
    match m.qpPart qp with
    | none => m
    | some q =>
      let x := m.nextCid
      let st := (m.part q).st
      let r : Rdma := { xid := x, write := data.isSome, left := len, len := len, failed := st == .zeroing || st == .free || !isFar addr || m.imageClosed q (fld addr 59 0) len }
      let m := { m with nextCid := m.nextCid + 1, rdma := m.rdma ++ [r] }
      if r.failed || len == 0 then m.endRdma r
      else (rdmaParts (fld addr 59 0) 0 len (len / 4096 + 2)).foldl (fun m p => m.rdmaPart q x data p) m

/-- ROCE_SEND: the send is acknowledged; no RoCE operation reaches local memory, and the spec names no receiver (R341). -/
def Mach.roceSend (m : Mach) (qp : Nat) (data : List Byte) : Mach :=
  if !m.booted || m.ports.toList.all (!·.up) || (m.qpPart qp).isNone then m
  else m.send (Reply.sent qp data)

/-! ## The boot chain (R350) -/

/-- A stage-1 copy passes the ROM's check: its signature under the Nealis key, and its version. DESIGN CHOICE: a copy whose version is
below the value derived from the fused counter, which refuses to run, is passed over as one that fails its signature is (R350). -/
def bootable (f : Firmware) (ctr : Nat) : Bool :=
  ecdsaVerify Config.romKey f.body f.sigR f.sigS && ctr * 65536 ≤ f.version

/-- The copy that boots, and whether it is copy B. -/
def Flash.choose (fl : Flash) (ctr : Nat) : Option (Firmware × Bool) :=
  match fl.copyA.filter (bootable · ctr), fl.copyB.filter (bootable · ctr) with
  | some f, _ => some (f, false)
  | none, some f => some (f, true)
  | none, none => none

/-- A core right after module reset: nothing but which of its sub-arrays give wrong results (R239, R350). -/
def Core.powerOn (k : Core) (c : Nat) : Core := { (if c = houseCore then resetHouse else {}) with failing := k.failing }

/-- A stagehand right after module reset: slices and key slots are zeroed, and HBM keeps what it holds, under keys that are
gone (R88, R350). -/
def Stagehand.powerOn (h : Stagehand) : Stagehand := { hbm := h.hbm, unitKey := h.unitKey, pageKey := h.pageKey, badUnit := h.badUnit }

/-- The machine right after module reset, before the ROM has chosen a copy. -/
def Mach.powerOn (m : Mach) : Mach :=
  { State.reset.mach with
    cores := Map.set (m.cores.map fun ck => (ck.1, ck.2.powerOn ck.1)) houseCore ((m.core houseCore).powerOn houseCore)
    hands := m.hands.map fun sh => (sh.1, sh.2.powerOn)
    clusters := [], agenda := m.agenda, fresh := m.fresh }

/-- Every house core halts (R350). -/
def Mach.haltHouse (m : Mach) : Mach :=
  (List.range 4).foldl (fun m i => m.modCore (meshCores + i) fun k => { k with halted := true }) m

/-- The ports after a boot: one that does not come up leaves LINK clear (R350). -/
def bootPorts (n : Nat) : Vector Port 2 := Vector.ofFn fun i => { up := Config.portUp n i.val }

/-- MODULE_RESET: the boot chain (R342, R350). -/
def State.boot (s : State) : State :=
  let m := s.mach.powerOn
  match s.perm.flash.choose s.perm.ctr with
  | none => { s with mach := m.haltHouse }
  | some (f, b) =>
    { perm := { s.perm with flash := { s.perm.flash with ceiling := s.perm.flash.ceiling + 2 ^ 32 } }
      mach := { m with
        fusedCopy := s.perm.fused, booted := true, fwVersion := f.version, fwB := b, fwDigest := sha512 f.body
        lastSeq := s.perm.flash.ceiling, ports := bootPorts m.fresh, fresh := m.fresh + 1, weights := s.perm.flash.weights } }

/-- STAGE_1_FIRMWARE_UPDATE: written to the copy not running, which the ROM checks at the next reset. DESIGN CHOICE: one that would
pass that check brings its trusted-key list and its operator key at once, and a new operator key sets the ceiling to 0; one that
would not leaves both as they are (R342, R350). DEDUCED: no SEQ has been accepted from the new key yet. -/
def State.updateFirmware (s : State) (f : Firmware) : State :=
  let fl := s.perm.flash
  let fl := if s.mach.fwB then { fl with copyA := some f } else { fl with copyB := some f }
  if !bootable f s.perm.ctr then { s with perm := { s.perm with flash := fl } }
  else
    let fl := { fl with trusted := f.trusted.take 8 }
    let fl := match f.opKey with
      | none => fl
      | some k => { fl with opKey := k, ceiling := 0 }
    { perm := { s.perm with flash := fl }, mach := { s.mach with lastSeq := if f.opKey.isSome then 0 else s.mach.lastSeq } }

/-! ## The events -/

/-- CONFIGURE_PARTITION (R343). -/
def execConfigurePartition (r : MgmtReq) (s : State) : Host.Outcome State Fault Refusal := .next (s.request 0x01 r)

/-- ZERO_PARTITION (R343). -/
def execZeroPartition (r : MgmtReq) (s : State) : Host.Outcome State Fault Refusal := .next (s.request 0x02 r)

/-- LAUNCH (R294, R343). -/
def execLaunch (r : MgmtReq) (s : State) : Host.Outcome State Fault Refusal := .next (s.request 0x03 r)

/-- SUSPEND (R343). -/
def execSuspend (r : MgmtReq) (s : State) : Host.Outcome State Fault Refusal := .next (s.request 0x04 r)

/-- RESUME (R343). -/
def execResume (r : MgmtReq) (s : State) : Host.Outcome State Fault Refusal := .next (s.request 0x05 r)

/-- SLICE_ENTRY (R343). -/
def execSliceEntry (r : MgmtReq) (s : State) : Host.Outcome State Fault Refusal := .next (s.request 0x06 r)

/-- ARM_SLICES (R343). -/
def execArmSlices (r : MgmtReq) (s : State) : Host.Outcome State Fault Refusal := .next (s.request 0x07 r)

/-- SET_ALLOTMENT (R343). -/
def execSetAllotment (r : MgmtReq) (s : State) : Host.Outcome State Fault Refusal := .next (s.request 0x08 r)

/-- READ_ENERGY (R343). -/
def execReadEnergy (r : MgmtReq) (s : State) : Host.Outcome State Fault Refusal := .next (s.request 0x09 r)

/-- ATTEST (R338, R343). -/
def execAttest (r : MgmtReq) (s : State) : Host.Outcome State Fault Refusal := .next (s.request 0x0A r)

/-- ADVANCE_ROLLBACK (R337, R343). -/
def execAdvanceRollback (r : MgmtReq) (s : State) : Host.Outcome State Fault Refusal := .next (s.request 0x0B r)

/-- READ_STATUS (R343). -/
def execReadStatus (r : MgmtReq) (s : State) : Host.Outcome State Fault Refusal := .next (s.request 0x0C r)

/-- ZEROING_DONE (R90, R125). -/
def execZeroingDone (part : Nat) (s : State) : Host.Outcome State Fault Refusal := .next (s.zeroingDone part)

/-- RDMA_WRITE (R341). -/
def execRdmaWrite (qp : Nat) (addr : Word) (data : List Byte) (s : State) : Host.Outcome State Fault Refusal :=
  event (fun m => m.rdmaAccess qp addr data.length (some data)) s

/-- RDMA_READ (R341). -/
def execRdmaRead (qp : Nat) (addr : Word) (len : Nat) (s : State) : Host.Outcome State Fault Refusal :=
  event (fun m => m.rdmaAccess qp addr len none) s

/-- ROCE_SEND (R341). -/
def execRoceSend (qp : Nat) (data : List Byte) (s : State) : Host.Outcome State Fault Refusal := event (fun m => m.roceSend qp data) s

/-- MODULE_RESET (R350). -/
def execModuleReset (s : State) : Host.Outcome State Fault Refusal := .next s.boot

/-- STAGE_1_FIRMWARE_UPDATE (R350). -/
def execStage1FirmwareUpdate (f : Firmware) (s : State) : Host.Outcome State Fault Refusal := .next (s.updateFirmware f)

end Sys2Proof.Machine
end

