-- ==== Sys2Proof/Machine/Fetch.lean ====
section
/-! DEFINITION. Instruction fetch: what the words at a PC are, the slot states, and instruction-memory errors (04_memories R80
to R82; 08_encoding R142, R152, R153; 10_isa_memory R208; 16_traps R308). -/

namespace Sys2Proof.Machine

/-- How many words fetch reads of those at a PC: up to the base word, or to the end of the slot (R142, R152). -/
def chainLen : List IWord → Nat
  | [] => 0
  | w :: ws => if op6 w < 0x30 then 1 else 1 + chainLen ws

/-- The words at a PC of a core. -/
def Core.wordsAt (k : Core) (pc : Nat) : List IWord := slotWords k.imem pc

/-- The 8-byte words of instruction memory in which `n` instruction words at `pc` lie (R80). -/
def fetchSpan (pc n : Nat) : List Nat := (List.range (2 * n)).map (fun i => (pc + i) / 8) |>.eraseDups

/-- The offset of the first instruction word at `pc` with an uncorrectable error (R82). -/
def Core.badFetch (k : Core) (pc n : Nat) : Option Nat :=
  ((List.range n).map fun i => pc + 2 * i).find? fun a => Map.get k.imemEcc .good (a / 8) = .double

/-- Single-bit errors of the words fetched are corrected and counted (R80, R140). -/
def Core.correctFetch (k : Core) (pc n : Nat) : Core :=
  (fetchSpan pc n).foldl (fun k w =>
    if Map.get k.imemEcc .good w = .single then
      { k with imemEcc := Map.put k.imemEcc .good w .good, count := { k.count with memEcc := satInc k.count.memEcc } }
    else k) k

/-- What stops a fetch. -/
inductive FetchStop where
  /-- A trap at the fetching instruction. -/
  | trap (r : FaultRec)
  /-- The slot is LOADING. -/
  | loading (slot : Nat)
  deriving DecidableEq, Repr

/-- What stops the fetch at `pc` of a core, if anything does (R81, R82). -/
def Core.fetchStop (k : Core) (pc : BitVec 14) : Option FetchStop :=
  let g := pc.toNat / 1024
  match (k.slot g).st with
  | .empty => some (.trap { faultOf Cause.overlayAbsent with addr := pc.setWidth 64, index := BitVec.ofNat 16 g, pc := pc })
  | .loading => some (.loading g)
  | .valid =>
    (k.badFetch pc.toNat (chainLen (k.wordsAt pc.toNat))).map fun a =>
      .trap { faultOf Cause.instructionEcc with addr := wd a, pc := pc }

/-- A trap of a fetch; at kvec.ENTRY it kills the codelet (R308). -/
def Mach.fetchTrap (m : Mach) (c t : Nat) (r : FaultRec) : Mach :=
  let s := (m.core c).tset t
  if s.pc = s.kvec then
    m.kill c t { r with ts := BitVec.ofNat 2 t, priv := BitVec.ofNat 2 s.priv.code, time := wd m.clk }
  else m.trapEntry c t r s.pc

/-- A fetch from a LOADING slot: the context parks with WAIT 3; a held thread set, or one with no free record, stalls in
place (R81, R97). -/
def Mach.fetchPark (m : Mach) (c t g : Nat) : Mach :=
  let k := m.core c
  let s := k.tset t
  if s.held then m.stall (.core c t) .other
  else
    match k.freeRec with
    | none => m.stall (.core c t) .other
    | some i =>
      if m.recHeld c i then m.stall (.core c t) .other else
      let m := match s.holds with
        | some j => m.modCore c (·.modRec j fun _ => {})
        | none => m
      m.parkOrTrap c t i 3 (wd g)

/-- INSTRUCTION_FETCH: what a stopped fetch does; a fetch that nothing stops delivers its words, and changes nothing but the
single-bit errors it corrects (R81, R82). -/
def Mach.fetchEvent (m : Mach) (c t : Nat) : Mach :=
  let k := m.core c
  let s := k.tset t
  if !s.busy || s.fol then m
  else
    match k.fetchStop s.pc with
    | some (.trap r) => m.fetchTrap c t r
    | some (.loading g) => m.fetchPark c t g
    | none => m.modCore c fun k => k.correctFetch s.pc.toNat (chainLen (k.wordsAt s.pc.toNat))

/-! ## What an agent issues next -/

/-- What an agent issues, with the machine it issues it in. -/
inductive Fetched where
  /-- The instruction that its words encode. -/
  | instr (i : Instr) (m : Mach)
  /-- Words that encode none: the offset of the word found illegal (R153). -/
  | illegal (off : Nat) (m : Mach)
  /-- Page 15 below house level (R146). -/
  | closed (m : Mach)
  /-- A fetch that is stopped (R81, R82). -/
  | stopped (c t : Nat) (m : Mach)
  deriving DecidableEq, Repr

/-- The decoded words of an agent at `pc`: the agent issues them, and `npc` is the next instruction in sequence (R142, R153). -/
def Mach.decoded (m : Mach) (a : Agent) (pc : BitVec 14) (stage house : Bool) (ws : List IWord) : Fetched :=
  match decode stage house ws with
  | .ok d => .instr d.instr { m with cur := a, npc := pc + BitVec.ofNat 14 (2 * d.words), taken := false }
  | .error (.illegal n) => .illegal (pc.toNat + 2 * n) { m with cur := a, npc := pc }
  | .error .privilege => .closed { m with cur := a, npc := pc }

/-- The words of a stage program from `pc` to the end of the code area (R208). -/
def StageUnit.wordsAt (u : StageUnit) (pc : Nat) : List IWord :=
  (List.range (min maxWords ((4096 - pc) / 2))).map fun i => imemWord u.code (pc + 2 * i)

/-- What a thread set of a core issues next. -/
def Mach.fetchCore (m : Mach) (c t : Nat) : Fetched :=
  let k := m.core c
  let s := k.tset t
  match k.fetchStop s.pc with
  | some _ => .stopped c t { m with cur := .core c t, npc := s.pc }
  | none =>
    let ws := k.wordsAt s.pc.toNat
    let m := if k.imemEcc = [] then m else m.setCore c (k.correctFetch s.pc.toNat (chainLen ws))
    m.decoded (.core c t) s.pc false (s.priv == .house) ws

/-- What a stage program issues next (R208). -/
def Mach.fetchStage (m : Mach) (sh p : Nat) : Fetched :=
  let u := m.unit sh p
  m.decoded (.stage sh p) u.ts.pc true false (u.wordsAt u.ts.pc.toNat)

/-- The trap of a PAGE prefix that names page 15 below house level (R146, R153). -/
def semClosedPage : Act Unit := trap (faultOf Cause.privilege)

/-- The illegal-instruction trap, which names the offset of the word found illegal (R153). -/
def semIllegal (off : Nat) : Act Unit := trapAt Cause.illegalInstruction (wd off)

/-! ## The events -/

/-- ILLEGAL_INSTRUCTION (R153). -/
def execIllegalInstruction (off : Nat) (s : State) : Host.Outcome State Fault Refusal := issue (semIllegal off) s

/-- INSTRUCTION_FETCH (R81). -/
def execInstructionFetch (core ts : Nat) (s : State) : Host.Outcome State Fault Refusal := event (fun m => m.fetchEvent core ts) s

end Sys2Proof.Machine
end

