-- ==== Sys2Proof/Machine/Scalar.lean ====
section
/-! DEFINITION. Scalar instructions: register arithmetic, immediates, division, bits, fields and select
(09_isa_scalar R169 to R177). -/

namespace Sys2Proof.Machine

/-! ## Results (R172 to R176) -/

/-- 1 for true, as a register result. -/
def flagWord (b : Bool) : Word := if b then 1 else 0

/-- Bits [127:64] of the signed product (R172). -/
def mulHigh (l r : Word) : Word := (l.signExtend 128 * r.signExtend 128).extractLsb' 64 64

/-- Bits [127:64] of the unsigned product (R172). -/
def mulHighU (l r : Word) : Word := (l.setWidth 128 * r.setWidth 128).extractLsb' 64 64

/-- The sum as signed values, saturated (R172). -/
def addSat (l r : Word) : Word :=
  let s := l.toInt + r.toInt
  if s < -(2 ^ 63) then BitVec.ofInt 64 (-(2 ^ 63)) else if 2 ^ 63 - 1 < s then BitVec.ofInt 64 (2 ^ 63 - 1) else BitVec.ofInt 64 s

/-- Quotient and remainder of signed division, with the corners of R174. -/
def divSigned (l r : Word) : Word × Word :=
  if r = 0 then (BitVec.allOnes 64, l)
  else if l = BitVec.ofInt 64 (-(2 ^ 63)) ∧ r = BitVec.allOnes 64 then (l, 0)
  else
    let q := Int.tdiv l.toInt r.toInt
    (BitVec.ofInt 64 q, BitVec.ofInt 64 (l.toInt - q * r.toInt))

/-- Quotient and remainder of unsigned division (R174). -/
def divUnsigned (l r : Word) : Word × Word :=
  if r = 0 then (BitVec.allOnes 64, l) else (wd (l.toNat / r.toNat), wd (l.toNat % r.toNat))

/-- Zero bits above the highest 1 of an `n`-bit value (R175). -/
def clzNat (v : Nat) : Nat → Nat
  | 0 => 0
  | n + 1 => if v / 2 ^ n % 2 = 1 then 0 else clzNat v n + 1

/-- Zero bits below the lowest 1 of an `n`-bit value (R175). -/
def ctzNat : Nat → Nat → Nat
  | _, 0 => 0
  | v, n + 1 => if v % 2 = 1 then 0 else ctzNat (v / 2) n + 1

/-- The 1 bits of an `n`-bit value (R175). -/
def popNat : Nat → Nat → Nat
  | _, 0 => 0
  | v, n + 1 => v % 2 + popNat (v / 2) n

/-- The low `n` bytes in reverse order, zero-extended (R175). -/
def swapBytes (v : Word) (n : Nat) : Word := wd (leNat (leBytes v.toNat n).reverse)

/-- `bfx`: field `len` wide at `pos` (R176). -/
def fieldGet (src : Word) (pos len : Nat) : Word := zext (src >>> pos) len

/-- `bfi`: the field of `old` replaced by the low bits of `src` (R176). -/
def fieldPut (old src : Word) (pos len : Nat) : Word :=
  let mask := wd (2 ^ len - 1) <<< pos
  (old &&& ~~~mask) ||| ((src <<< pos) &&& mask)

/-- The position that a field immediate names (R176). -/
def fieldPos (imm : Word) : Nat := fld imm 5 0

/-- The length that a field immediate names (R176). -/
def fieldLen (imm : Word) : Nat := fld imm 11 6 + 1

/-! ## Forms (R169, R172, R173, R175) -/

/-- A t2 form: both sources read, the result written under the predicate (R172). -/
def semBin (op : Word → Word → Word) (a : Args) : Act Unit := do
  let (l, r) ← readBin a
  let on ← predOn a
  writeRes a on (op l r)

/-- A form `op xd, xs` (R173, R175). -/
def semUn (op : Word → Word) (a : Args) : Act Unit := do
  let v ← readUn a
  let on ← predOn a
  writeRes a on (op v)

/-- A form `op xd, xd, imm`: the d field is source and destination (R169, R173). -/
def semImm (op : Word → Word → Word) (a : Args) : Act Unit := do
  bothPort false a.d
  let v ← readX a.d
  let on ← predOn a
  writeRes a on (op v a.imm)

/-- `li` (R173). -/
def semLi (a : Args) : Act Unit := do
  dstPort false a.d
  let on ← predOn a
  writeRes a on a.imm

/-- `sel` (R177). -/
def semSel (a : Args) : Act Unit := do
  bothPort false a.d
  srcPort false a.s
  if a.short then
    let c ← readX a.d
    let r ← readX a.s
    let on ← predOn a
    writeRes a on (if c ≠ 0 then c else r)
  else
    srcPort false a.t
    let c ← readX a.d
    let l ← readX a.s
    let r ← readX a.t
    let on ← predOn a
    writeRes a on (if c ≠ 0 then l else r)

/-- `bfi` (R176). -/
def semBfi (a : Args) : Act Unit := do
  bothPort false a.d
  srcPort false a.s
  let old ← readX a.d
  let src ← readX a.s
  let on ← predOn a
  writeRes a on (fieldPut old src (fieldPos a.imm) (fieldLen a.imm))

/-! ## The instructions -/

/-- `add` (R172). -/
def execAdd (a : Args) (s : State) : Host.Outcome State Fault Refusal := issue (semBin (· + ·) a) s

/-- `sub` (R172). -/
def execSub (a : Args) (s : State) : Host.Outcome State Fault Refusal := issue (semBin (· - ·) a) s

/-- `and` (R172). -/
def execAnd (a : Args) (s : State) : Host.Outcome State Fault Refusal := issue (semBin (· &&& ·) a) s

/-- `or` (R172). -/
def execOr (a : Args) (s : State) : Host.Outcome State Fault Refusal := issue (semBin (· ||| ·) a) s

/-- `xor` (R172). -/
def execXor (a : Args) (s : State) : Host.Outcome State Fault Refusal := issue (semBin (· ^^^ ·) a) s

/-- `shl` (R172). -/
def execShl (a : Args) (s : State) : Host.Outcome State Fault Refusal := issue (semBin (fun l r => l <<< fld r 5 0) a) s

/-- `shr` (R172). -/
def execShr (a : Args) (s : State) : Host.Outcome State Fault Refusal := issue (semBin (fun l r => l >>> fld r 5 0) a) s

/-- `sra` (R172). -/
def execSra (a : Args) (s : State) : Host.Outcome State Fault Refusal := issue (semBin (fun l r => l.sshiftRight (fld r 5 0)) a) s

/-- `mul` (R172). -/
def execMul (a : Args) (s : State) : Host.Outcome State Fault Refusal := issue (semBin (· * ·) a) s

/-- `seq` (R172). -/
def execSeq (a : Args) (s : State) : Host.Outcome State Fault Refusal := issue (semBin (fun l r => flagWord (l == r)) a) s

/-- `slt` (R172). -/
def execSlt (a : Args) (s : State) : Host.Outcome State Fault Refusal := issue (semBin (fun l r => flagWord (l.slt r)) a) s

/-- `sltu` (R172). -/
def execSltu (a : Args) (s : State) : Host.Outcome State Fault Refusal := issue (semBin (fun l r => flagWord (l.ult r)) a) s

/-- `sel` (R177). -/
def execSel (a : Args) (s : State) : Host.Outcome State Fault Refusal := issue (semSel a) s

/-- `addImm` (R173). -/
def execAddImm (a : Args) (s : State) : Host.Outcome State Fault Refusal := issue (semImm (· + ·) a) s

/-- `shlImm` (R173). -/
def execShlImm (a : Args) (s : State) : Host.Outcome State Fault Refusal := issue (semImm (fun l i => l <<< i.toNat) a) s

/-- `shrImm` (R173). -/
def execShrImm (a : Args) (s : State) : Host.Outcome State Fault Refusal := issue (semImm (fun l i => l >>> i.toNat) a) s

/-- `sraImm` (R173). -/
def execSraImm (a : Args) (s : State) : Host.Outcome State Fault Refusal := issue (semImm (fun l i => l.sshiftRight i.toNat) a) s

/-- `andImm` (R173). -/
def execAndImm (a : Args) (s : State) : Host.Outcome State Fault Refusal := issue (semImm (· &&& ·) a) s

/-- `li` (R173). -/
def execLi (a : Args) (s : State) : Host.Outcome State Fault Refusal := issue (semLi a) s

/-- `mov` (R173). -/
def execMov (a : Args) (s : State) : Host.Outcome State Fault Refusal := issue (semUn id a) s

/-- `andn` (R172). -/
def execAndn (a : Args) (s : State) : Host.Outcome State Fault Refusal := issue (semBin (fun l r => l &&& ~~~r) a) s

/-- `rol` (R172). -/
def execRol (a : Args) (s : State) : Host.Outcome State Fault Refusal := issue (semBin (fun l r => l.rotateLeft (fld r 5 0)) a) s

/-- `mulh` (R172). -/
def execMulh (a : Args) (s : State) : Host.Outcome State Fault Refusal := issue (semBin mulHigh a) s

/-- `mulhu` (R172). -/
def execMulhu (a : Args) (s : State) : Host.Outcome State Fault Refusal := issue (semBin mulHighU a) s

/-- `div` (R174). -/
def execDiv (a : Args) (s : State) : Host.Outcome State Fault Refusal := issue (semBin (fun l r => (divSigned l r).1) a) s

/-- `divu` (R174). -/
def execDivu (a : Args) (s : State) : Host.Outcome State Fault Refusal := issue (semBin (fun l r => (divUnsigned l r).1) a) s

/-- `rem` (R174). -/
def execRem (a : Args) (s : State) : Host.Outcome State Fault Refusal := issue (semBin (fun l r => (divSigned l r).2) a) s

/-- `remu` (R174). -/
def execRemu (a : Args) (s : State) : Host.Outcome State Fault Refusal := issue (semBin (fun l r => (divUnsigned l r).2) a) s

/-- `min` (R172). -/
def execMin (a : Args) (s : State) : Host.Outcome State Fault Refusal := issue (semBin (fun l r => if l.slt r then l else r) a) s

/-- `max` (R172). -/
def execMax (a : Args) (s : State) : Host.Outcome State Fault Refusal := issue (semBin (fun l r => if l.slt r then r else l) a) s

/-- `minu` (R172). -/
def execMinu (a : Args) (s : State) : Host.Outcome State Fault Refusal := issue (semBin (fun l r => if l.ult r then l else r) a) s

/-- `maxu` (R172). -/
def execMaxu (a : Args) (s : State) : Host.Outcome State Fault Refusal := issue (semBin (fun l r => if l.ult r then r else l) a) s

/-- `clz` (R175). -/
def execClz (a : Args) (s : State) : Host.Outcome State Fault Refusal := issue (semUn (fun v => wd (clzNat v.toNat 64)) a) s

/-- `ctz` (R175). -/
def execCtz (a : Args) (s : State) : Host.Outcome State Fault Refusal := issue (semUn (fun v => wd (ctzNat v.toNat 64)) a) s

/-- `popc` (R175). -/
def execPopc (a : Args) (s : State) : Host.Outcome State Fault Refusal := issue (semUn (fun v => wd (popNat v.toNat 64)) a) s

/-- `bswap` (R175). -/
def execBswap (a : Args) (s : State) : Host.Outcome State Fault Refusal := issue (semUn (fun v => swapBytes v (sizeOf a.v)) a) s

/-- `sext` (R175). -/
def execSext (a : Args) (s : State) : Host.Outcome State Fault Refusal := issue (semUn (fun v => Machine.sext v (8 * sizeOf a.v)) a) s

/-- `zext` (R175). -/
def execZext (a : Args) (s : State) : Host.Outcome State Fault Refusal := issue (semUn (fun v => Machine.zext v (8 * sizeOf a.v)) a) s

/-- `lih` (R173). -/
def execLih (a : Args) (s : State) : Host.Outcome State Fault Refusal := issue (semImm (fun l i => (l <<< 25) ||| Machine.zext i 25) a) s

/-- `adds` (R172). -/
def execAdds (a : Args) (s : State) : Host.Outcome State Fault Refusal := issue (semBin addSat a) s

/-- `bfx` (R176). -/
def execBfx (a : Args) (s : State) : Host.Outcome State Fault Refusal := issue (semUn (fun v => fieldGet v (fieldPos a.imm) (fieldLen a.imm)) a) s

/-- `bfi` (R176). -/
def execBfi (a : Args) (s : State) : Host.Outcome State Fault Refusal := issue (semBfi a) s

/-- `orImm` (R173). -/
def execOrImm (a : Args) (s : State) : Host.Outcome State Fault Refusal := issue (semImm (· ||| ·) a) s

/-- `xorImm` (R173). -/
def execXorImm (a : Args) (s : State) : Host.Outcome State Fault Refusal := issue (semImm (· ^^^ ·) a) s

end Sys2Proof.Machine
end

