-- ==== Sys2Proof/Machine/Vector.lean ====
section
/-! DEFINITION. Integer vector forms, moves and permutes, bitmap and predicate forms (11_isa_vector R214 to R221, R226, R227). -/

namespace Sys2Proof.Machine

/-! ## Operands of vector forms (R56, R57, R214, R215) -/

/-- Port checks of a t2 vector form, a group with a bound name first (R56). -/
def vbinPorts (a : Args) : Act Unit := do
  let w := groupWidth a
  groupPort true a.d w
  groupPort true a.s w
  if a.short then pure () else groupPort true a.t w
  if a.short then bothPort true a.d else dstPort true a.d
  srcPort true a.s
  if a.short then pure () else srcPort true a.t

/-- The two sources of register `k` of a t2 vector form, in their order (R215). -/
def readVBin (a : Args) (k : Nat) : Act (V128 × V128) := do
  let i := BitVec.ofNat 5 k
  let x ← readV ((if a.short then a.d else a.s) + i)
  let y ← readV ((if a.short then a.s else a.t) + i)
  return (x, y)

/-- Port checks of a form `op vd, vs`, a group with a bound name first (R56). -/
def vunPorts (a : Args) : Act Unit := do
  groupPort true a.d (groupWidth a)
  groupPort true a.s (groupWidth a)
  dstPort true a.d
  srcPort true a.s

/-- Lanes of `n` bytes computed from those of two registers. -/
def mapLanes (n : Nat) (f : Nat → Nat → Nat) (x y : V128) : V128 :=
  vecLanes n ((List.range (16 / n)).map fun k => (k, f (laneOf x n k) (laneOf y n k) % 2 ^ (8 * n)))

/-- A t2 form on lanes of `n` bytes, for each register of the group (R214, R217). -/
def semVBin (n : Nat) (f : V128 → V128 → V128) (a : Args) : Act Unit := do
  vbinPorts a
  let mask ← readPred a
  (List.range (groupWidth a)).forM fun k => do
    let (x, y) ← readVBin a k
    writeMasked (laneMask mask n) (a.d + BitVec.ofNat 5 k) (f x y)

/-- A form `op vd, vs` on lanes of `n` bytes, for each register of the group (R214, R217). -/
def semVUn (n : Nat) (f : V128 → V128) (a : Args) : Act Unit := do
  vunPorts a
  let mask ← readPred a
  (List.range (groupWidth a)).forM fun k => do
    let x ← readV (a.s + BitVec.ofNat 5 k)
    writeMasked (laneMask mask n) (a.d + BitVec.ofNat 5 k) (f x)

/-! ## Integer lanes (R217, R218) -/

/-- Lane bytes of a page-2 variant (R214). -/
def laneBytes (v : BitVec 3) : Nat := sizeOf v

/-- A page-2 variant names signed lanes (R214). -/
def laneSigned (v : BitVec 3) : Bool := v.toNat < 4

/-- A lane as an integer of its kind. -/
def laneInt (signed : Bool) (n x : Nat) : Int :=
  if signed && 2 ^ (8 * n - 1) ≤ x then (x : Int) - 2 ^ (8 * n) else x

/-- The bits of an integer in a lane of `n` bytes. -/
def laneBits (n : Nat) (x : Int) : Nat := (x % 2 ^ (8 * n)).toNat

/-- A t2 form on the integers of the lanes (R217). -/
def semVInt (f : Nat → Int → Int → Int) (a : Args) : Act Unit :=
  let n := laneBytes a.v
  let s := laneSigned a.v
  semVBin n (mapLanes n fun x y => laneBits n (f n (laneInt s n x) (laneInt s n y))) a

/-- A shift of each lane by the count in the other operand's lane, modulo the lane width (R217). -/
def semVShift (f : Nat → Nat → Nat → Nat) (a : Args) : Act Unit :=
  let n := laneBytes a.v
  semVBin n (mapLanes n fun x y => f n x (y % (8 * n))) a

/-- A form `op vd, vs` on the integers of the lanes (R217). -/
def semVIntUn (f : Int → Int) (a : Args) : Act Unit :=
  let n := laneBytes a.v
  semVUn n (fun x => mapLanes n (fun u _ => laneBits n (f (laneInt true n u))) x x) a

/-- An integer comparison by condition code: eq, ne, lt, le (R218). -/
def intCond (cond : Nat) (x y : Int) : Bool :=
  match cond with
  | 0 => x == y
  | 1 => x != y
  | 2 => x < y
  | _ => x ≤ y

/-- The mask bits of lane `k` of `n` bytes. -/
def laneBitsMask (n k : Nat) : Nat := (2 ^ n - 1) * 2 ^ (n * k)

/-- A predicate with the bits of the listed lanes of `n` bytes set or cleared (R218). -/
def setLanes (n : Nat) (old : BitVec 16) (ls : List (Nat × Bool)) : BitVec 16 :=
  ls.foldl (fun p kb =>
    let m := BitVec.ofNat 16 (laneBitsMask n kb.1)
    if kb.2 then p ||| m else p &&& ~~~m) old

/-- `vcmp` on lanes of `n` bytes: the active lanes of pd take the comparison, whose flags are raised; bits that are kept are read (R62,
R218, R223). -/
def semVCmp (n : Nat) (f : Nat → Nat → Bool × FFlags) (a : Args) : Act Unit := do
  srcPort true a.s
  srcPort true a.t
  let x ← readV a.s
  let y ← readV a.t
  let mask ← readPred a
  if (activeLanes mask n).length * n = 16 then pure () else checkReg (64 + a.d.toNat)
  let rs := (activeLanes mask n).map fun k => (k, f (laneOf x n k) (laneOf y n k))
  modMe fun t => t.setP a.d.toNat (setLanes n (t.preg a.d.toNat) (rs.map fun r => (r.1, r.2.1)))
  raiseFlags (orFlags (rs.map (·.2.2)))

/-! ## Moves, permutes and lane access (R219, R220) -/

/-- `vsel`: the predicate selects the bytes, and every byte is written (R219). -/
def semVsel (a : Args) : Act Unit := do
  vbinPorts a
  let mask ← readPred a
  (List.range (groupWidth a)).forM fun k => do
    let (x, y) ← readVBin a k
    writeV (a.d + BitVec.ofNat 5 k) (mergeBytes mask y x)

/-- The bytes of `x` that the index bytes of `i` name (R219). -/
def permBytes (x i : V128) : V128 :=
  vecOf ((List.range 16).map fun j => if bit (vbyte i j) 7 then 0 else vbyte x (fld (vbyte i j) 3 0))

/-- `vbcst` (R220). -/
def semVbcst (a : Args) : Act Unit := do
  srcPort false a.s
  dstPort true a.d
  let v ← readX a.s
  let mask ← readPred a
  let n := laneBytes a.v
  writeMasked (laneMask mask n) a.d (mapLanes n (fun _ _ => v.toNat) 0 0)

/-- A lane extended to 64 bits by its kind (R220, R221). -/
def extLane (v : BitVec 3) (x : Nat) : Word := BitVec.ofInt 64 (laneInt (laneSigned v) (laneBytes v) x)

/-- `vext` (R220). -/
def semVext (a : Args) : Act Unit := do
  srcPort true a.s
  dstPort false a.d
  let x ← readV a.s
  let on ← predOn a
  writeRes a on (extLane a.v (laneOf x (laneBytes a.v) a.imm.toNat))

/-- `vins` (R220). -/
def semVins (a : Args) : Act Unit := do
  srcPort false a.s
  bothPort true a.d
  let n := laneBytes a.v
  let i := a.imm.toNat
  let v ← readX a.s
  let old ← readV a.d
  let mask ← readPred a
  if mask.getLsbD (n * i) then
    writeV a.d (mergeBytes (BitVec.ofNat 16 (laneBitsMask n i)) old (vecLanes n [(i, v.toNat % 2 ^ (8 * n))]))
  else pure ()

/-- The active lanes of a source, as integers of their kind. -/
def activeInts (a : Args) (mask : BitVec 16) (x : V128) : List Int :=
  let n := laneBytes a.v
  (activeLanes mask n).map fun k => laneInt (laneSigned a.v) n (laneOf x n k)

/-- An integer reduction; the scalar is always written (R221). -/
def semVRed (f : List Int → Int) (a : Args) : Act Unit := do
  srcPort true a.s
  dstPort false a.d
  let x ← readV a.s
  let mask ← readPred a
  writeX a.d (BitVec.ofInt 64 (f (activeInts a mask x)))

/-- The least and greatest values of a lane type. -/
def laneRange (v : BitVec 3) : Int × Int :=
  let n := laneBytes v
  if laneSigned v then (-(2 ^ (8 * n - 1)), 2 ^ (8 * n - 1) - 1) else (0, 2 ^ (8 * n) - 1)

/-! ## Bitmaps and predicates (R226, R227) -/

/-- 1 bits of the bytes of a vector below byte `j` (R226). -/
def bitsBelow (x : V128) (j : Nat) : Nat := popNat (x.toNat % 2 ^ (8 * j)) 128

/-- `vpopc`: always written (R226). -/
def semVpopc (a : Args) : Act Unit := do
  srcPort true a.s
  dstPort false a.d
  let x ← readV a.s
  let mask ← readPred a
  writeX a.d (wd (popNat (mergeBytes mask 0 x).toNat 128))

/-- Write predicate pd where the governing predicate has a 1 (R227); bits that are kept are read (R62). -/
def writeP (d : RegNo) (gov v : BitVec 16) : Act Unit := do
  if gov = BitVec.allOnes 16 then pure () else checkReg (64 + d.toNat)
  modMe fun t => t.setP d.toNat ((v &&& gov) ||| (t.preg d.toNat &&& ~~~gov))

/-- A t2 predicate form (R227). -/
def semPBin (f : BitVec 16 → BitVec 16 → BitVec 16) (a : Args) : Act Unit := do
  let x ← readP (if a.short then a.d else a.s).toNat
  let y ← readP (if a.short then a.s else a.t).toNat
  let gov ← readPred a
  writeP a.d gov (f x y)

/-- A form `op pd, ps` (R227). -/
def semPUn (f : BitVec 16 → BitVec 16) (a : Args) : Act Unit := do
  let x ← readP a.s.toNat
  let gov ← readPred a
  writeP a.d gov (f x)

/-- `pset` (R227). -/
def semPset (a : Args) : Act Unit := do
  let gov ← readPred a
  writeP a.d gov (a.imm.setWidth 16)

/-! ## The instructions -/

/-- `vadd` (R217). -/
def execVaddInt (a : Args) (s : State) : Host.Outcome State Fault Refusal := issue (semVInt (fun _ x y => x + y) a) s

/-- `vsub` (R217). -/
def execVsubInt (a : Args) (s : State) : Host.Outcome State Fault Refusal := issue (semVInt (fun _ x y => x - y) a) s

/-- `vmul` (R217). -/
def execVmulInt (a : Args) (s : State) : Host.Outcome State Fault Refusal := issue (semVInt (fun _ x y => x * y) a) s

/-- `vmin` (R217). -/
def execVminInt (a : Args) (s : State) : Host.Outcome State Fault Refusal := issue (semVInt (fun _ x y => min x y) a) s

/-- `vmax` (R217). -/
def execVmaxInt (a : Args) (s : State) : Host.Outcome State Fault Refusal := issue (semVInt (fun _ x y => max x y) a) s

/-- `vabs` (R217). -/
def execVabsInt (a : Args) (s : State) : Host.Outcome State Fault Refusal := issue (semVIntUn (fun x => x.natAbs) a) s

/-- `vneg` (R217). -/
def execVnegInt (a : Args) (s : State) : Host.Outcome State Fault Refusal := issue (semVIntUn (fun x => -x) a) s

/-- `vcmp` (R218). -/
def execVcmpInt (a : Args) (s : State) : Host.Outcome State Fault Refusal :=
  issue (semVCmp (laneBytes a.v) (fun x y => (intCond a.m.toNat (laneInt (laneSigned a.v) (laneBytes a.v) x) (laneInt (laneSigned a.v) (laneBytes a.v) y), 0)) a) s

/-- `vsel` (R219). -/
def execVsel (a : Args) (s : State) : Host.Outcome State Fault Refusal := issue (semVsel a) s

/-- `vand` (R219). -/
def execVand (a : Args) (s : State) : Host.Outcome State Fault Refusal := issue (semVBin 1 (· &&& ·) a) s

/-- `vor` (R219). -/
def execVor (a : Args) (s : State) : Host.Outcome State Fault Refusal := issue (semVBin 1 (· ||| ·) a) s

/-- `vxor` (R219). -/
def execVxor (a : Args) (s : State) : Host.Outcome State Fault Refusal := issue (semVBin 1 (· ^^^ ·) a) s

/-- `vshl` (R217). -/
def execVshl (a : Args) (s : State) : Host.Outcome State Fault Refusal := issue (semVShift (fun _ x c => x * 2 ^ c) a) s

/-- `vshr` (R217). -/
def execVshr (a : Args) (s : State) : Host.Outcome State Fault Refusal := issue (semVShift (fun _ x c => x / 2 ^ c) a) s

/-- `vsra` (R217). -/
def execVsra (a : Args) (s : State) : Host.Outcome State Fault Refusal :=
  issue (semVShift (fun n x c => laneBits n (laneInt true n x / 2 ^ c)) a) s

/-- `vperm` (R219). -/
def execVperm (a : Args) (s : State) : Host.Outcome State Fault Refusal := issue (semVBin 1 permBytes a) s

/-- `vbcst` (R220). -/
def execVbcst (a : Args) (s : State) : Host.Outcome State Fault Refusal := issue (semVbcst a) s

/-- `vext` (R220). -/
def execVext (a : Args) (s : State) : Host.Outcome State Fault Refusal := issue (semVext a) s

/-- `vins` (R220). -/
def execVins (a : Args) (s : State) : Host.Outcome State Fault Refusal := issue (semVins a) s

/-- `vmov` (R219). -/
def execVmov (a : Args) (s : State) : Host.Outcome State Fault Refusal := issue (semVUn 1 id a) s

/-- `vred.sum` (R221). -/
def execVredSumInt (a : Args) (s : State) : Host.Outcome State Fault Refusal :=
  issue (semVRed (fun xs => xs.foldl (· + ·) 0) a) s

/-- `vred.max` (R221). -/
def execVredMaxInt (a : Args) (s : State) : Host.Outcome State Fault Refusal :=
  issue (semVRed (fun xs => xs.foldl max (laneRange a.v).1) a) s

/-- `vred.min` (R221). -/
def execVredMinInt (a : Args) (s : State) : Host.Outcome State Fault Refusal :=
  issue (semVRed (fun xs => xs.foldl min (laneRange a.v).2) a) s

/-- `vbmand` (R226). -/
def execVbmand (a : Args) (s : State) : Host.Outcome State Fault Refusal := issue (semVBin 1 (· &&& ·) a) s

/-- `vpfx` (R226). -/
def execVpfx (a : Args) (s : State) : Host.Outcome State Fault Refusal :=
  issue (semVUn 1 (fun x => vecOf ((List.range 16).map fun j => BitVec.ofNat 8 (bitsBelow x j))) a) s

/-- `vpopc` (R226). -/
def execVpopc (a : Args) (s : State) : Host.Outcome State Fault Refusal := issue (semVpopc a) s

/-- `pand` (R227). -/
def execPand (a : Args) (s : State) : Host.Outcome State Fault Refusal := issue (semPBin (· &&& ·) a) s

/-- `por` (R227). -/
def execPor (a : Args) (s : State) : Host.Outcome State Fault Refusal := issue (semPBin (· ||| ·) a) s

/-- `pxor` (R227). -/
def execPxor (a : Args) (s : State) : Host.Outcome State Fault Refusal := issue (semPBin (· ^^^ ·) a) s

/-- `pnot` (R227). -/
def execPnot (a : Args) (s : State) : Host.Outcome State Fault Refusal := issue (semPUn (~~~ ·) a) s

/-- `pmov` (R227). -/
def execPmov (a : Args) (s : State) : Host.Outcome State Fault Refusal := issue (semPUn id a) s

/-- `pset` (R227). -/
def execPset (a : Args) (s : State) : Host.Outcome State Fault Refusal := issue (semPset a) s

end Sys2Proof.Machine
end

