-- ==== Sys2Proof/Machine/Float.lean ====
section
/-! DEFINITION. Float vector forms, reductions, the dot product and conversions (11_isa_vector R222 to R225). -/

namespace Sys2Proof.Machine

/-- The float format of a page-3 variant (R214). -/
def laneFmt (v : BitVec 3) : FloatFmt :=
  match v.toNat with
  | 0 => fmtF64 | 1 => fmtF32 | 2 => fmtF16 | _ => fmtBf16

/-- Lane bytes of a page-3 variant. -/
def floatBytes (v : BitVec 3) : Nat := (laneFmt v).width / 8

/-- The destination format of sums: f64 for f64 lanes, f32 else (R48, R224). -/
def sumFmt (v : BitVec 3) : FloatFmt := if v = 0 then fmtF64 else fmtF32

/-- The results of the active lanes, with their flags. -/
def floatLanes (n : Nat) (mask : BitVec 16) (f : Nat → Nat × FFlags) : V128 × FFlags :=
  let rs := (activeLanes mask n).map fun k => (k, f k)
  (vecLanes n (rs.map fun r => (r.1, r.2.1)), orFlags (rs.map (·.2.2)))

/-- A t2 float form: the lane function takes the format, the mode, a and b (R222). -/
def semFBin (f : FloatFmt → Nat → Nat → Nat → Nat × FFlags) (a : Args) : Act Unit := do
  vbinPorts a
  let mask ← readPred a
  let n := floatBytes a.v
  (List.range (groupWidth a)).forM fun k => do
    let (x, y) ← readVBin a k
    let (r, fl) := floatLanes n mask fun i => f (laneFmt a.v) a.m.toNat (laneOf x n i) (laneOf y n i)
    writeMasked (laneMask mask n) (a.d + BitVec.ofNat 5 k) r
    raiseFlags fl

/-- `vfma` and `vfms`, which read the old vd as c, in the long form too (R215, R222). -/
def semFma (minus : Bool) (a : Args) : Act Unit := do
  vbinPorts a
  bothPort true a.d
  let mask ← readPred a
  let n := floatBytes a.v
  (List.range (groupWidth a)).forM fun k => do
    let (x, y) ← readVBin a k
    let c ← readV (a.d + BitVec.ofNat 5 k)
    let (r, fl) := floatLanes n mask fun i =>
      (laneFmt a.v).fma minus a.m.toNat (laneOf x n i) (laneOf y n i) (laneOf c n i)
    writeMasked (laneMask mask n) (a.d + BitVec.ofNat 5 k) r
    raiseFlags fl

/-- A float form `op vd, vs` (R222). -/
def semFUn (f : FloatFmt → Nat → Nat → Nat × FFlags) (a : Args) : Act Unit := do
  vunPorts a
  let mask ← readPred a
  let n := floatBytes a.v
  (List.range (groupWidth a)).forM fun k => do
    let x ← readV (a.s + BitVec.ofNat 5 k)
    let (r, fl) := floatLanes n mask fun i => f (laneFmt a.v) a.m.toNat (laneOf x n i)
    writeMasked (laneMask mask n) (a.d + BitVec.ofNat 5 k) r
    raiseFlags fl

/-- A float reduction over the active lanes of vs with the accumulator in lane 0 of vt; vd is written whole (R224). -/
def semFRed (acc : FloatFmt) (f : List Nat → Nat → Nat × FFlags) (a : Args) : Act Unit := do
  srcPort true a.s
  srcPort true a.t
  dstPort true a.d
  let x ← readV a.s
  let y ← readV a.t
  let mask ← readPred a
  let n := floatBytes a.v
  let (r, fl) := f ((activeLanes mask n).map (laneOf x n)) (laneOf y (acc.width / 8) 0)
  writeV a.d (BitVec.ofNat 128 r)
  raiseFlags fl

/-- `vdot` (R224). -/
def semVdot (a : Args) : Act Unit := do
  srcPort true a.s
  srcPort true a.t
  bothPort true a.d
  let x ← readV a.s
  let y ← readV a.t
  let c ← readV a.d
  let mask ← readPred a
  let n := floatBytes a.v
  let d := sumFmt a.v
  let (r, fl) := dotSum (laneFmt a.v) d a.m.toNat ((activeLanes mask n).map fun k => (laneOf x n k, laneOf y n k))
    (laneOf c (d.width / 8) 0)
  writeV a.d (BitVec.ofNat 128 r)
  raiseFlags fl

/-- Element `j` of `w` bits of a register (R37). -/
def packedElem (v : V128) (w j : Nat) : Nat := v.toNat / 2 ^ (w * j) % 2 ^ w

/-- The target and source codes of a `vcvt` immediate (R162, R225). -/
def cvtCodes (imm : Word) : Nat × Nat := (fld imm 9 5, fld imm 4 0)

/-- `vcvt` (R225). -/
def semVcvt (a : Args) : Act Unit := do
  srcPort true a.s
  dstPort true a.d
  let (tgt, src) := cvtCodes a.imm
  let ws := fmtBits src
  let wt := fmtBits tgt
  let x ← readV a.s
  let old ← oldV a.d
  let mask ← readPred a
  let tc := (← me).tc
  let m := 128 / max ws wt
  let rs := (List.range m).map fun j =>
    if mask.getLsbD (j * wt / 8) then convertElem (numKind src) (numKind tgt) tc a.m.toNat (packedElem x ws j)
    else (packedElem old wt j, 0)
  writeV a.d (BitVec.ofNat 128 (rs.zipIdx.foldl (fun v rj => v + rj.1.1 * 2 ^ (wt * rj.2)) 0))
  raiseFlags (orFlags (rs.map (·.2)))

/-! ## The instructions -/

/-- `vadd` (R222). -/
def execVaddFloat (a : Args) (s : State) : Host.Outcome State Fault Refusal :=
  issue (semFBin (fun f m x y => f.add m x y) a) s

/-- `vsub` (R222). -/
def execVsubFloat (a : Args) (s : State) : Host.Outcome State Fault Refusal :=
  issue (semFBin (fun f m x y => f.sub m x y) a) s

/-- `vmul` (R222). -/
def execVmulFloat (a : Args) (s : State) : Host.Outcome State Fault Refusal :=
  issue (semFBin (fun f m x y => f.mul m x y) a) s

/-- `vfma` (R222). -/
def execVfma (a : Args) (s : State) : Host.Outcome State Fault Refusal := issue (semFma false a) s

/-- `vfms` (R222). -/
def execVfms (a : Args) (s : State) : Host.Outcome State Fault Refusal := issue (semFma true a) s

/-- `vmin` (R222). -/
def execVminFloat (a : Args) (s : State) : Host.Outcome State Fault Refusal :=
  issue (semFBin (fun f _ x y => f.pick false x y) a) s

/-- `vmax` (R222). -/
def execVmaxFloat (a : Args) (s : State) : Host.Outcome State Fault Refusal :=
  issue (semFBin (fun f _ x y => f.pick true x y) a) s

/-- `vabs` (R222). -/
def execVabsFloat (a : Args) (s : State) : Host.Outcome State Fault Refusal :=
  issue (semFUn (fun f _ x => f.signOp false x) a) s

/-- `vneg` (R222). -/
def execVnegFloat (a : Args) (s : State) : Host.Outcome State Fault Refusal :=
  issue (semFUn (fun f _ x => f.signOp true x) a) s

/-- `vdiv` (R222). -/
def execVdiv (a : Args) (s : State) : Host.Outcome State Fault Refusal :=
  issue (semFBin (fun f m x y => f.div m x y) a) s

/-- `vsqrt` (R222). -/
def execVsqrt (a : Args) (s : State) : Host.Outcome State Fault Refusal := issue (semFUn (fun f m x => f.sqrt m x) a) s

/-- `vcmp` (R223). -/
def execVcmpFloat (a : Args) (s : State) : Host.Outcome State Fault Refusal :=
  issue (semVCmp (floatBytes a.v) (fun x y => (laneFmt a.v).compare a.m.toNat x y) a) s

/-- `vred.sum` (R224). -/
def execVredSumFloat (a : Args) (s : State) : Host.Outcome State Fault Refusal :=
  issue (semFRed (sumFmt a.v) (reduceSum (laneFmt a.v) (sumFmt a.v) a.m.toNat) a) s

/-- `vred.max` (R224). -/
def execVredMaxFloat (a : Args) (s : State) : Host.Outcome State Fault Refusal :=
  issue (semFRed (laneFmt a.v) (reducePick (laneFmt a.v) true) a) s

/-- `vred.min` (R224). -/
def execVredMinFloat (a : Args) (s : State) : Host.Outcome State Fault Refusal :=
  issue (semFRed (laneFmt a.v) (reducePick (laneFmt a.v) false) a) s

/-- `vdot` (R224). -/
def execVdot (a : Args) (s : State) : Host.Outcome State Fault Refusal := issue (semVdot a) s

/-- `vcvt` (R225). -/
def execVcvt (a : Args) (s : State) : Host.Outcome State Fault Refusal := issue (semVcvt a) s

end Sys2Proof.Machine
end

