-- ==== Sys2Proof/Machine/Gbp.lean ====
section
/-! DEFINITION. The Schur unit: message slots, joint records, and the belief-propagation instructions
(04_memories R91; 12_isa_matrix R241 to R249). -/

namespace Sys2Proof.Machine

/-! ## f32 steps (R243) -/

/-- One step in RNE whose NaN is the default NaN (R243). -/
def step32 (r : Nat × FFlags) : Nat := if (fmtF32.read false r.1).isNan then nan32 else r.1
/-- Sum. -/
def add32 (x y : Nat) : Nat := step32 (fmtF32.add 0 x y)
/-- Difference. -/
def sub32 (x y : Nat) : Nat := step32 (fmtF32.sub 0 x y)
/-- Product. -/
def mul32 (x y : Nat) : Nat := step32 (fmtF32.mul 0 x y)
/-- Quotient. -/
def div32 (x y : Nat) : Nat := step32 (fmtF32.div 0 x y)

/-- a > b; false where one is a NaN. -/
def gt32 (x y : Nat) : Bool :=
  let a := fmtF32.read false x
  let b := fmtF32.read false y
  !a.isNan && !b.isNan && ltVal b a

/-- The greatest of a list; a NaN where one is (R245). -/
def max32 : List Nat → Nat
  | [] => 0xFF800000
  | x :: xs =>
    let y := max32 xs
    if (fmtF32.read false x).isNan || (fmtF32.read false y).isNan then nan32 else if gt32 y x then y else x

/-! ## Records (R91, R241) -/

/-- Places of a packed upper triangle of dimension `n`. -/
def triSize (n : Nat) : Nat := n * (n + 1) / 2

/-- The place of Λ(i, j) in the packed upper triangle (R91, R241). -/
def triAt (n i j : Nat) : Nat :=
  let a := min i j
  let b := max i j
  a * n - a * (a - 1) / 2 + (b - a)

/-- A matrix and its vector, as bits of f32. -/
structure Joint where
  n : Nat
  lam : List Nat
  eta : List Nat

/-- M(i, j). -/
def Joint.at_ (m : Joint) (i j : Nat) : Nat := m.lam.getD (triAt m.n i j) 0

/-- h(i). -/
def Joint.h (m : Joint) (i : Nat) : Nat := m.eta.getD i 0

/-- f32 values from an offset on. -/
def Core.floats (k : Core) (a n : Nat) : List Nat := (List.range n).map fun i => k.readN (a + 4 * i) 4

/-- The record at offset `a` of dimension `n`: η at 16, Λ after it (R91, R241). -/
def Core.joint (k : Core) (a n : Nat) : Joint :=
  { n := n, eta := k.floats (a + 16) n, lam := k.floats (a + 16 + 4 * n) (triSize n) }

/-- Bytes of a record of dimension `n`. -/
def recordSize (n : Nat) : Nat := 16 + 4 * n + 4 * triSize n

/-- f32 values as cells. -/
def floatCells (a : Nat) (xs : List Nat) : List (Nat × Byte) := cellsAt a (xs.flatMap fun x => leBytes x 4)

/-- Eliminate pivot `p` from the variables `rm`, ascending (R245). -/
def Joint.eliminate (m : Joint) (rm : List Nat) (p : Nat) : Joint :=
  let l := rm.map fun i => (i, div32 (m.at_ i p) (m.at_ p p))
  l.foldl (fun r il =>
    let r := rm.foldl (fun r j =>
      if j < il.1 then r
      else { r with lam := r.lam.set (triAt r.n il.1 j) (sub32 (r.at_ il.1 j) (mul32 il.2 (m.at_ p j))) }) r
    { r with eta := r.eta.set il.1 (sub32 (r.h il.1) (mul32 il.2 (m.h p))) }) m

/-- Pivots eliminated in order while each exceeds the threshold: the matrix, or the failing pivot, its bits, and the cost
of the pivots before it (R245, R247, R249). -/
def Joint.factor (tau : Nat) (rest : Nat → List Nat) : List Nat → Joint → Nat → Except (Nat × Nat × Nat) (Joint × Nat)
  | [], m, w => .ok (m, w)
  | p :: ps, m, w =>
    if gt32 (m.at_ p p) tau then
      let rm := rest p
      (m.eliminate rm p).factor tau rest ps (w + rm.length * (rm.length + 3) / 2)
    else .error (p, m.at_ p p, w)

/-! ## Checks (R242) -/

/-- An operand that is a local offset of an aligned record; trap else. -/
def schurOff (x : Word) (al : Nat) : Act Nat := do
  require (fld x 63 16 == 0) { faultOf Cause.illegalOperation with addr := x }
  require (x.toNat % al == 0) { faultOf Cause.alignment with addr := x }
  return x.toNat

/-- The record ends within local memory. -/
def schurFits (a n : Nat) : Act Unit := require (a + n ≤ 65536) { faultOf Cause.address with addr := wd a }

/-- Read the words of an operand under the waits of R185. -/
def schurRead (a n : Nat) : Act Unit := do
  waitGate a n false
  eccRead (← get).here a n (wd a)

/-- The dimension of a message slot, after the checks of its header (R91, R242). -/
def slotDim (a : Nat) : Act Nat := do
  schurFits a 16
  schurRead a 16
  let k ← myCore
  let w0 := k.mem64 a
  let w1 := k.mem64 (a + 8)
  require (fld w0 25 19 == 0 && fld w1 31 0 == 0) { faultOf Cause.illegalOperation with addr := wd a }
  let n := fld w0 29 27
  require (n != 0 && n != 7) { faultOf Cause.illegalOperation with addr := wd a }
  schurFits a (recordSize n)
  schurRead a (recordSize n)
  return n

/-- Two operands are equal or do not overlap. -/
def schurApart (a n b k : Nat) (equalOk : Bool) : Act Unit :=
  require ((equalOk && a == b) || !meets a n b (b + k)) { faultOf Cause.illegalOperation with addr := wd b }

/-- kgpiv is a number that is neither negative nor infinite (R67, R242). -/
def pivotOk (r : BitVec 32) : Act Unit := do
  let v := fmtF32.read false r.toNat
  require (!(v.isNan || v.isInf || (v.neg && !v.isZero))) (kregTrap Cause.illegalOperation 0x07)

/-! ## The unit (R243, R249) -/

/-- What an operation of the unit will do. -/
structure SchurPlan where
  cycles : Nat
  ranges : List (Nat × Nat)
  writes : List (Nat × Byte) := []
  result : Option Word := none
  singular : Option (Nat × BitVec 32) := none

/-- A form of the unit: its operands are read and its plan made when it begins; the thread set then waits in place until
SCHUR_COMPLETE, and ends with the register result or the singular-block trap (R243, R249). -/
def runSchur (a : Args) (plan : Act SchurPlan) (m0 : Mach) : Act Unit := do
  match m0.myCore.schur with
  | some s =>
    if s.ts = m0.tsNo then
      stallUntil s.ended
      modMyCore fun k => { k with schur := none }
      match s.singular with
      | some (i, v) => do
        set (m0.modCore m0.here fun k => { k with schur := none })
        throw (.trapKeep { faultOf Cause.singularBlock with index := BitVec.ofNat 16 i, val := v })
      | none =>
        match s.result with
        | none => pure ()
        | some v => writeX a.d v
    else throw (.wait .other)
  | none => do
    let p ← plan
    let s : Schur :=
      { ts := m0.tsNo, done := m0.clk + p.cycles, ranges := p.ranges, writes := p.writes, result := p.result, singular := p.singular }
    set (m0.modCore m0.here fun k => { k with schur := some s })
    throw (.waitKeep .other)

/-- Ranges that the unit will write are ready for a store (R185). -/
def schurGate (cs : List (Nat × Byte)) : Act Unit := do
  gateWords true (cellWords cs)
  let m ← get
  match m.myCore.badWrite cs with
  | some w => trap { faultOf Cause.memoryEcc with addr := wd (8 * w) }
  | none =>
    match (cellWords cs).findSome? fun w => (m.myCore.protectedAt (8 * w) 8).map (w, ·) with
    | some (w, code) => trap (m.guardRec m.here (8 * w) 8 (wd (8 * w)) code)
    | none => pure ()

/-- `gacc` and `gsub` (R244). -/
def planAcc (op : Nat → Nat → Nat) (xd xs : Word) : Act SchurPlan := do
  let d ← schurOff xd 128
  let s ← schurOff xs 128
  let n ← slotDim d
  let k ← slotDim s
  require (n == k) { faultOf Cause.illegalOperation with addr := wd s }
  schurApart d (recordSize n) s (recordSize n) true
  let c ← myCore
  let cnt := n + triSize n
  let cs := floatCells (d + 16) (List.zipWith op (c.floats (d + 16) cnt) (c.floats (s + 16) cnt))
  schurGate cs
  return { cycles := 24, ranges := [(d, recordSize n), (s, recordSize n)], writes := cs }

/-- `gschur` (R245). -/
def planSchur (xd xs xt : Word) : Act SchurPlan := do
  let o ← schurOff xd 128
  let j ← schurOff xs 128
  require (fld xt 63 3 == 0) { faultOf Cause.illegalOperation with addr := xt }
  schurFits j 16
  schurRead j 16
  let k ← myCore
  let w0 := k.mem64 j
  let n := fld w0 3 0
  let nb := fld xt 2 0
  require (fld w0 63 4 == 0 && k.mem64 (j + 8) == 0) { faultOf Cause.illegalOperation with addr := wd j }
  require (2 ≤ n && n ≤ 12) { faultOf Cause.illegalOperation with addr := wd j }
  require (1 ≤ nb && nb ≤ 6 && nb < n && n - nb ≤ 6) { faultOf Cause.illegalOperation with addr := xt }
  let t ← me
  pivotOk t.kgpiv
  let na := n - nb
  schurFits j (recordSize n)
  schurFits o (recordSize na)
  schurApart j (recordSize n) o (recordSize na) true
  schurRead j (recordSize n)
  let k ← myCore
  let m := k.joint j n
  let bs := (List.range nb).map (na + ·)
  let tau := mul32 t.kgpiv.toNat (max32 (bs.map fun i => m.at_ i i))
  let rest (p : Nat) : List Nat := List.range na ++ (List.range n).filter (p < ·)
  let ranges := [(j, recordSize n), (o, recordSize na)]
  match m.factor tau rest bs 0 with
  | .error (p, v, w) =>
    return { cycles := 118 + w, ranges := ranges, singular := some (p - na, BitVec.ofNat 32 v) }
  | .ok (r, w) => do
    let head := k.mem64 o
    let word := wd (head.toNat - fld head 29 27 * 2 ^ 27 + na * 2 ^ 27)
    let lam := (List.range na).flatMap fun i => ((List.range na).filter (i ≤ ·)).map fun l => r.at_ i l
    let cs := cellsAt o (leBytes word.toNat 8) ++ floatCells (o + 16) ((List.range na).map r.h ++ lam)
    schurGate cs
    schurRead o 8
    return { cycles := 118 + w, ranges := ranges, writes := cs }

/-- One damped value (R246). -/
def damp (delta c old : Nat) : Nat :=
  if delta = 0 then c
  else
    let f (n : Nat) : Nat := (fmtF32.ofExact false 0 { m := n, e := -16 } false).1
    add32 (mul32 (f (65536 - delta)) c) (mul32 (f delta) old)

/-- `gdamp` (R246). -/
def planDamp (xd xs xt : Word) : Act SchurPlan := do
  let o ← schurOff xd 128
  let s ← schurOff xs 128
  let u ← schurOff xt 128
  let n ← slotDim s
  let n' ← slotDim u
  require (n == n') { faultOf Cause.illegalOperation with addr := wd u }
  let z := recordSize n
  schurFits o z
  schurApart s z o z true
  schurApart u z o z true
  schurApart s z u z false
  let k ← myCore
  let cnt := n + triSize n
  let vs := List.zipWith (damp (fld (k.mem64 s) 15 0)) (k.floats (s + 16) cnt) (k.floats (u + 16) cnt)
  let cs := cellsAt o (Memory.bytes k.mem s 16) ++ floatCells (o + 16) vs
  schurGate cs
  return { cycles := 32, ranges := [(s, z), (u, z), (o, z)], writes := cs }

/-- The solution by back substitution, from the last variable (R247). -/
def backSolve (m : Joint) : Nat → List (Nat × Nat) → List (Nat × Nat)
  | 0, mu => mu
  | i + 1, mu =>
    let s := (List.range m.n).foldl (fun s j =>
      if i < j then sub32 s (mul32 (m.at_ i j) ((mu.find? (·.1 == j)).map (·.2) |>.getD 0)) else s) (m.h i)
    backSolve m i ((i, div32 s (m.at_ i i)) :: mu)

/-- `gmean` (R247). -/
def planMean (xd xs : Word) : Act SchurPlan := do
  let o ← schurOff xd 8
  let s ← schurOff xs 128
  let n ← slotDim s
  let t ← me
  pivotOk t.kgpiv
  schurFits o (4 * n)
  schurApart s (recordSize n) o (4 * n) false
  let k ← myCore
  let m := k.joint s n
  let tau := mul32 t.kgpiv.toNat (max32 ((List.range n).map fun i => m.at_ i i))
  let rest (p : Nat) : List Nat := (List.range n).filter (p < ·)
  let ranges := [(s, recordSize n), (o, 4 * n)]
  match m.factor tau rest (List.range n) 0 with
  | .error (p, v, w) => return { cycles := 64 + w, ranges := ranges, singular := some (p, BitVec.ofNat 32 v) }
  | .ok (r, w) => do
    let cs := floatCells o ((backSolve r n []).map (·.2))
    schurGate cs
    return { cycles := 64 + w + n * (n + 1) / 2, ranges := ranges, writes := cs }

/-- The magnitude of a difference; the default NaN where it is none (R248). -/
def residual (new old : Nat) : Nat :=
  let d := sub32 new old
  if (fmtF32.read false d).isNan then nan32 else d % 2 ^ 31

/-- `gres` (R248). -/
def planRes (xs xt : Word) : Act SchurPlan := do
  let s ← schurOff xs 128
  let u ← schurOff xt 128
  let n ← slotDim s
  let n' ← slotDim u
  require (n == n') { faultOf Cause.illegalOperation with addr := wd u }
  schurApart s (recordSize n) u (recordSize n) true
  let k ← myCore
  let cnt := n + triSize n
  let ds := List.zipWith residual (k.floats (s + 16) cnt) (k.floats (u + 16) cnt)
  return { cycles := 24, ranges := [(s, recordSize n), (u, recordSize n)], result := some (wd (ds.foldl max 0)) }

/-- SCHUR_COMPLETE: the results are written, each word one store, once no running matrix operation holds one of them back (R230);
their thread set goes on (R243). -/
def Mach.schurComplete (m : Mach) (c : Nat) : Option Mach :=
  match (m.core c).schur with
  | none => none
  | some s =>
    if s.done ≤ m.clk && !s.ended && !((cellWords s.writes).any fun w => m.matHeld c (8 * w) 8) then
      some (m.modCore c fun k => { k.store s.writes with schur := some { s with ended := true } })
    else none

/-- A form of two operands, the d field read first (R169, R244). -/
def semG2 (plan : Word → Word → Act SchurPlan) (a : Args) : Act Unit := do
  let m0 ← get
  srcPort false a.d
  srcPort false a.s
  let xd ← readX a.d
  let xs ← readX a.s
  runSchur a (plan xd xs) m0

/-- A form of three operands, the d field read first (R169). -/
def semG3 (plan : Word → Word → Word → Act SchurPlan) (a : Args) : Act Unit := do
  let m0 ← get
  srcPort false a.d
  srcPort false a.s
  srcPort false a.t
  let xd ← readX a.d
  let xs ← readX a.s
  let xt ← readX a.t
  runSchur a (plan xd xs xt) m0

/-- `gres` (R248). -/
def semGres (a : Args) : Act Unit := do
  let m0 ← get
  srcPort false a.s
  srcPort false a.t
  dstPort false a.d
  let xs ← readX a.s
  let xt ← readX a.t
  runSchur a (planRes xs xt) m0

/-! ## The instructions and the event -/

/-- `gacc` (R244). -/
def execGacc (a : Args) (s : State) : Host.Outcome State Fault Refusal := issue (semG2 (planAcc add32) a) s

/-- `gsub` (R244). -/
def execGsub (a : Args) (s : State) : Host.Outcome State Fault Refusal := issue (semG2 (planAcc sub32) a) s

/-- `gschur` (R245). -/
def execGschur (a : Args) (s : State) : Host.Outcome State Fault Refusal := issue (semG3 planSchur a) s

/-- `gdamp` (R246). -/
def execGdamp (a : Args) (s : State) : Host.Outcome State Fault Refusal := issue (semG3 planDamp a) s

/-- `gmean` (R247). -/
def execGmean (a : Args) (s : State) : Host.Outcome State Fault Refusal := issue (semG2 planMean a) s

/-- `gres` (R248). -/
def execGres (a : Args) (s : State) : Host.Outcome State Fault Refusal := issue (semGres a) s

/-- SCHUR_COMPLETE (R243). -/
def execSchurComplete (core : Nat) (s : State) : Host.Outcome State Fault Refusal :=
  event (fun m => (m.schurComplete core).getD m) s

end Sys2Proof.Machine
end

