-- ==== Sys2Proof/Machine/Dispatch.lean ====
section
/-! DEFINITION. One arm for each instruction and event: a call of its meaning. -/

namespace Sys2Proof.Machine

/-- What an instruction or event does to the module. -/
def exec (i : Instr) (s : State) : Host.Outcome State Fault Refusal :=
  match i with
  | .add a => Sys2Proof.Machine.execAdd a s
  | .sub a => Sys2Proof.Machine.execSub a s
  | .and a => Sys2Proof.Machine.execAnd a s
  | .or a => Sys2Proof.Machine.execOr a s
  | .xor a => Sys2Proof.Machine.execXor a s
  | .shl a => Sys2Proof.Machine.execShl a s
  | .shr a => Sys2Proof.Machine.execShr a s
  | .sra a => Sys2Proof.Machine.execSra a s
  | .mul a => Sys2Proof.Machine.execMul a s
  | .seq a => Sys2Proof.Machine.execSeq a s
  | .slt a => Sys2Proof.Machine.execSlt a s
  | .sltu a => Sys2Proof.Machine.execSltu a s
  | .sel a => Sys2Proof.Machine.execSel a s
  | .addImm a => Sys2Proof.Machine.execAddImm a s
  | .shlImm a => Sys2Proof.Machine.execShlImm a s
  | .shrImm a => Sys2Proof.Machine.execShrImm a s
  | .sraImm a => Sys2Proof.Machine.execSraImm a s
  | .andImm a => Sys2Proof.Machine.execAndImm a s
  | .li a => Sys2Proof.Machine.execLi a s
  | .mov a => Sys2Proof.Machine.execMov a s
  | .ldD a => Sys2Proof.Machine.execLdD a s
  | .ldW a => Sys2Proof.Machine.execLdW a s
  | .stD a => Sys2Proof.Machine.execStD a s
  | .stW a => Sys2Proof.Machine.execStW a s
  | .vld a => Sys2Proof.Machine.execVld a s
  | .vst a => Sys2Proof.Machine.execVst a s
  | .ldfr a => Sys2Proof.Machine.execLdfr a s
  | .stfr a => Sys2Proof.Machine.execStfr a s
  | .b a => Sys2Proof.Machine.execB a s
  | .jal a => Sys2Proof.Machine.execJal a s
  | .beq a => Sys2Proof.Machine.execBeq a s
  | .bne a => Sys2Proof.Machine.execBne a s
  | .blt a => Sys2Proof.Machine.execBlt a s
  | .bge a => Sys2Proof.Machine.execBge a s
  | .bltu a => Sys2Proof.Machine.execBltu a s
  | .bgeu a => Sys2Proof.Machine.execBgeu a s
  | .bz a => Sys2Proof.Machine.execBz a s
  | .bnz a => Sys2Proof.Machine.execBnz a s
  | .jr a => Sys2Proof.Machine.execJr a s
  | .loop a => Sys2Proof.Machine.execLoop a s
  | .kget a => Sys2Proof.Machine.execKget a s
  | .kput a => Sys2Proof.Machine.execKput a s
  | .cueDec a => Sys2Proof.Machine.execCueDec a s
  | .send a => Sys2Proof.Machine.execSend a s
  | .pstD a => Sys2Proof.Machine.execPstD a s
  | .pstv a => Sys2Proof.Machine.execPstv a s
  | .beos a => Sys2Proof.Machine.execBeos a s
  | .nop a => Sys2Proof.Machine.execNop a s
  | .done a => Sys2Proof.Machine.execDone a s
  | .ret a => Sys2Proof.Machine.execRet a s
  | .eret a => Sys2Proof.Machine.execEret a s
  | .halt a => Sys2Proof.Machine.execHalt a s
  | .trap a => Sys2Proof.Machine.execTrap a s
  | .ldSize a => Sys2Proof.Machine.execLdSize a s
  | .stSize a => Sys2Proof.Machine.execStSize a s
  | .ldAcq a => Sys2Proof.Machine.execLdAcq a s
  | .stRel a => Sys2Proof.Machine.execStRel a s
  | .stS a => Sys2Proof.Machine.execStS a s
  | .ldv a => Sys2Proof.Machine.execLdv a s
  | .stv a => Sys2Proof.Machine.execStv a s
  | .rcl a => Sys2Proof.Machine.execRcl a s
  | .ver a => Sys2Proof.Machine.execVer a s
  | .pstSize a => Sys2Proof.Machine.execPstSize a s
  | .pstvP1 a => Sys2Proof.Machine.execPstvP1 a s
  | .ldfar a => Sys2Proof.Machine.execLdfar a s
  | .stfar a => Sys2Proof.Machine.execStfar a s
  | .vldfar a => Sys2Proof.Machine.execVldfar a s
  | .vldP1 a => Sys2Proof.Machine.execVldP1 a s
  | .vstP1 a => Sys2Proof.Machine.execVstP1 a s
  | .vlds a => Sys2Proof.Machine.execVlds a s
  | .vsts a => Sys2Proof.Machine.execVsts a s
  | .vgat a => Sys2Proof.Machine.execVgat a s
  | .vsct a => Sys2Proof.Machine.execVsct a s
  | .amoAdd a => Sys2Proof.Machine.execAmoAdd a s
  | .amoAnd a => Sys2Proof.Machine.execAmoAnd a s
  | .amoOr a => Sys2Proof.Machine.execAmoOr a s
  | .amoXor a => Sys2Proof.Machine.execAmoXor a s
  | .amoMin a => Sys2Proof.Machine.execAmoMin a s
  | .amoMax a => Sys2Proof.Machine.execAmoMax a s
  | .amoMinu a => Sys2Proof.Machine.execAmoMinu a s
  | .amoMaxu a => Sys2Proof.Machine.execAmoMaxu a s
  | .amoSwap a => Sys2Proof.Machine.execAmoSwap a s
  | .cas a => Sys2Proof.Machine.execCas a s
  | .fence a => Sys2Proof.Machine.execFence a s
  | .cpy a => Sys2Proof.Machine.execCpy a s
  | .wmk a => Sys2Proof.Machine.execWmk a s
  | .job a => Sys2Proof.Machine.execJob a s
  | .jwait a => Sys2Proof.Machine.execJwait a s
  | .tilePut a => Sys2Proof.Machine.execTilePut a s
  | .tileGet a => Sys2Proof.Machine.execTileGet a s
  | .sfill a => Sys2Proof.Machine.execSfill a s
  | .sdrain a => Sys2Proof.Machine.execSdrain a s
  | .vaddInt a => Sys2Proof.Machine.execVaddInt a s
  | .vsubInt a => Sys2Proof.Machine.execVsubInt a s
  | .vmulInt a => Sys2Proof.Machine.execVmulInt a s
  | .vminInt a => Sys2Proof.Machine.execVminInt a s
  | .vmaxInt a => Sys2Proof.Machine.execVmaxInt a s
  | .vabsInt a => Sys2Proof.Machine.execVabsInt a s
  | .vnegInt a => Sys2Proof.Machine.execVnegInt a s
  | .vcmpInt a => Sys2Proof.Machine.execVcmpInt a s
  | .vsel a => Sys2Proof.Machine.execVsel a s
  | .vand a => Sys2Proof.Machine.execVand a s
  | .vor a => Sys2Proof.Machine.execVor a s
  | .vxor a => Sys2Proof.Machine.execVxor a s
  | .vshl a => Sys2Proof.Machine.execVshl a s
  | .vshr a => Sys2Proof.Machine.execVshr a s
  | .vsra a => Sys2Proof.Machine.execVsra a s
  | .vperm a => Sys2Proof.Machine.execVperm a s
  | .vbcst a => Sys2Proof.Machine.execVbcst a s
  | .vext a => Sys2Proof.Machine.execVext a s
  | .vins a => Sys2Proof.Machine.execVins a s
  | .vmov a => Sys2Proof.Machine.execVmov a s
  | .vredSumInt a => Sys2Proof.Machine.execVredSumInt a s
  | .vredMaxInt a => Sys2Proof.Machine.execVredMaxInt a s
  | .vredMinInt a => Sys2Proof.Machine.execVredMinInt a s
  | .andn a => Sys2Proof.Machine.execAndn a s
  | .rol a => Sys2Proof.Machine.execRol a s
  | .mulh a => Sys2Proof.Machine.execMulh a s
  | .mulhu a => Sys2Proof.Machine.execMulhu a s
  | .div a => Sys2Proof.Machine.execDiv a s
  | .divu a => Sys2Proof.Machine.execDivu a s
  | .rem a => Sys2Proof.Machine.execRem a s
  | .remu a => Sys2Proof.Machine.execRemu a s
  | .min a => Sys2Proof.Machine.execMin a s
  | .max a => Sys2Proof.Machine.execMax a s
  | .minu a => Sys2Proof.Machine.execMinu a s
  | .maxu a => Sys2Proof.Machine.execMaxu a s
  | .clz a => Sys2Proof.Machine.execClz a s
  | .ctz a => Sys2Proof.Machine.execCtz a s
  | .popc a => Sys2Proof.Machine.execPopc a s
  | .bswap a => Sys2Proof.Machine.execBswap a s
  | .sext a => Sys2Proof.Machine.execSext a s
  | .zext a => Sys2Proof.Machine.execZext a s
  | .lih a => Sys2Proof.Machine.execLih a s
  | .adds a => Sys2Proof.Machine.execAdds a s
  | .bfx a => Sys2Proof.Machine.execBfx a s
  | .bfi a => Sys2Proof.Machine.execBfi a s
  | .orImm a => Sys2Proof.Machine.execOrImm a s
  | .xorImm a => Sys2Proof.Machine.execXorImm a s
  | .vaddFloat a => Sys2Proof.Machine.execVaddFloat a s
  | .vsubFloat a => Sys2Proof.Machine.execVsubFloat a s
  | .vmulFloat a => Sys2Proof.Machine.execVmulFloat a s
  | .vfma a => Sys2Proof.Machine.execVfma a s
  | .vfms a => Sys2Proof.Machine.execVfms a s
  | .vminFloat a => Sys2Proof.Machine.execVminFloat a s
  | .vmaxFloat a => Sys2Proof.Machine.execVmaxFloat a s
  | .vabsFloat a => Sys2Proof.Machine.execVabsFloat a s
  | .vnegFloat a => Sys2Proof.Machine.execVnegFloat a s
  | .vdiv a => Sys2Proof.Machine.execVdiv a s
  | .vsqrt a => Sys2Proof.Machine.execVsqrt a s
  | .vcmpFloat a => Sys2Proof.Machine.execVcmpFloat a s
  | .vredSumFloat a => Sys2Proof.Machine.execVredSumFloat a s
  | .vredMaxFloat a => Sys2Proof.Machine.execVredMaxFloat a s
  | .vredMinFloat a => Sys2Proof.Machine.execVredMinFloat a s
  | .vdot a => Sys2Proof.Machine.execVdot a s
  | .vcvt a => Sys2Proof.Machine.execVcvt a s
  | .vbmand a => Sys2Proof.Machine.execVbmand a s
  | .vpfx a => Sys2Proof.Machine.execVpfx a s
  | .vpopc a => Sys2Proof.Machine.execVpopc a s
  | .pand a => Sys2Proof.Machine.execPand a s
  | .por a => Sys2Proof.Machine.execPor a s
  | .pxor a => Sys2Proof.Machine.execPxor a s
  | .pnot a => Sys2Proof.Machine.execPnot a s
  | .pmov a => Sys2Proof.Machine.execPmov a s
  | .pset a => Sys2Proof.Machine.execPset a s
  | .mma a => Sys2Proof.Machine.execMma a s
  | .mmag a => Sys2Proof.Machine.execMmag a s
  | .mmix a => Sys2Proof.Machine.execMmix a s
  | .macz a => Sys2Proof.Machine.execMacz a s
  | .macr a => Sys2Proof.Machine.execMacr a s
  | .macw a => Sys2Proof.Machine.execMacw a s
  | .macst a => Sys2Proof.Machine.execMacst a s
  | .mreh a => Sys2Proof.Machine.execMreh a s
  | .mwait a => Sys2Proof.Machine.execMwait a s
  | .gacc a => Sys2Proof.Machine.execGacc a s
  | .gsub a => Sys2Proof.Machine.execGsub a s
  | .gschur a => Sys2Proof.Machine.execGschur a s
  | .gdamp a => Sys2Proof.Machine.execGdamp a s
  | .gmean a => Sys2Proof.Machine.execGmean a s
  | .gres a => Sys2Proof.Machine.execGres a s
  | .sendP7 a => Sys2Proof.Machine.execSendP7 a s
  | .sendc a => Sys2Proof.Machine.execSendc a s
  | .cueDecP7 a => Sys2Proof.Machine.execCueDecP7 a s
  | .cueArm a => Sys2Proof.Machine.execCueArm a s
  | .cueBind a => Sys2Proof.Machine.execCueBind a s
  | .cueStat a => Sys2Proof.Machine.execCueStat a s
  | .ready a => Sys2Proof.Machine.execReady a s
  | .park a => Sys2Proof.Machine.execPark a s
  | .rpoll a => Sys2Proof.Machine.execRpoll a s
  | .rwait a => Sys2Proof.Machine.execRwait a s
  | .rpop a => Sys2Proof.Machine.execRpop a s
  | .mbinc a => Sys2Proof.Machine.execMbinc a s
  | .mbwait a => Sys2Proof.Machine.execMbwait a s
  | .mbget a => Sys2Proof.Machine.execMbget a s
  | .sbind a => Sys2Proof.Machine.execSbind a s
  | .sclose a => Sys2Proof.Machine.execSclose a s
  | .sstat a => Sys2Proof.Machine.execSstat a s
  | .sseek a => Sys2Proof.Machine.execSseek a s
  | .beosP8 a => Sys2Proof.Machine.execBeosP8 a s
  | .ldfrP8 a => Sys2Proof.Machine.execLdfrP8 a s
  | .stfrP8 a => Sys2Proof.Machine.execStfrP8 a s
  | .vldfr a => Sys2Proof.Machine.execVldfr a s
  | .vstfr a => Sys2Proof.Machine.execVstfr a s
  | .enter a => Sys2Proof.Machine.execEnter a s
  | .leave a => Sys2Proof.Machine.execLeave a s
  | .dmov a => Sys2Proof.Machine.execDmov a s
  | .frref a => Sys2Proof.Machine.execFrref a s
  | .frrel a => Sys2Proof.Machine.execFrrel a s
  | .cfetch a => Sys2Proof.Machine.execCfetch a s
  | .cstat a => Sys2Proof.Machine.execCstat a s
  | .jf a => Sys2Proof.Machine.execJf a s
  | .jfl a => Sys2Proof.Machine.execJfl a s
  | .curtain a => Sys2Proof.Machine.execCurtain a s
  | .curtainArr a => Sys2Proof.Machine.execCurtainArr a s
  | .curtainExcuse a => Sys2Proof.Machine.execCurtainExcuse a s
  | .castq a => Sys2Proof.Machine.execCastq a s
  | .qenq a => Sys2Proof.Machine.execQenq a s
  | .qdeq a => Sys2Proof.Machine.execQdeq a s
  | .qsteal a => Sys2Proof.Machine.execQsteal a s
  | .qmint a => Sys2Proof.Machine.execQmint a s
  | .chorus a => Sys2Proof.Machine.execChorus a s
  | .chorusEnd a => Sys2Proof.Machine.execChorusEnd a s
  | .partCfg a => Sys2Proof.Machine.execPartCfg a s
  | .partCfgRelease a => Sys2Proof.Machine.execPartCfgRelease a s
  | .partZero a => Sys2Proof.Machine.execPartZero a s
  | .partRun a => Sys2Proof.Machine.execPartRun a s
  | .partSusp a => Sys2Proof.Machine.execPartSusp a s
  | .slicePut a => Sys2Proof.Machine.execSlicePut a s
  | .sliceArm a => Sys2Proof.Machine.execSliceArm a s
  | .keyPut a => Sys2Proof.Machine.execKeyPut a s
  | .keyZero a => Sys2Proof.Machine.execKeyZero a s
  | .sysPageTableWrite addr data => Sys2Proof.Machine.execSysPageTableWrite addr data s
  | .asyncTrapDelivery core ts => Sys2Proof.Machine.execAsyncTrapDelivery core ts s
  | .codeletStart core ts => Sys2Proof.Machine.execCodeletStart core ts s
  | .contextResume core ts => Sys2Proof.Machine.execContextResume core ts s
  | .faultResume core ts => Sys2Proof.Machine.execFaultResume core ts s
  | .eventTake core => Sys2Proof.Machine.execEventTake core s
  | .cueDecArrival id => Sys2Proof.Machine.execCueDecArrival id s
  | .messageAppend id => Sys2Proof.Machine.execMessageAppend id s
  | .postedStoreArrival id => Sys2Proof.Machine.execPostedStoreArrival id s
  | .stvArrival id => Sys2Proof.Machine.execStvArrival id s
  | .mailboxIncrement id => Sys2Proof.Machine.execMailboxIncrement id s
  | .deliveryAccepted id => Sys2Proof.Machine.execDeliveryAccepted id s
  | .deliveryRefused id => Sys2Proof.Machine.execDeliveryRefused id s
  | .retransmit id => Sys2Proof.Machine.execRetransmit id s
  | .farRequest id => Sys2Proof.Machine.execFarRequest id s
  | .farAnswer id => Sys2Proof.Machine.execFarAnswer id s
  | .contextWake w => Sys2Proof.Machine.execContextWake w s
  | .faultWake w => Sys2Proof.Machine.execFaultWake w s
  | .versionWaitPark core ts => Sys2Proof.Machine.execVersionWaitPark core ts s
  | .parkTimeout core rec => Sys2Proof.Machine.execParkTimeout core rec s
  | .quantumChoice sh => Sys2Proof.Machine.execQuantumChoice sh s
  | .fetchComplete sh part blk => Sys2Proof.Machine.execFetchComplete sh part blk s
  | .fetchFault sh part blk => Sys2Proof.Machine.execFetchFault sh part blk s
  | .drainEnd sh part blk => Sys2Proof.Machine.execDrainEnd sh part blk s
  | .writebackDone sh part blk => Sys2Proof.Machine.execWritebackDone sh part blk s
  | .pinTimeout sh part blk => Sys2Proof.Machine.execPinTimeout sh part blk s
  | .streamFill core ts slot => Sys2Proof.Machine.execStreamFill core ts slot s
  | .streamDrain core ts slot => Sys2Proof.Machine.execStreamDrain core ts slot s
  | .linkElementArrival id => Sys2Proof.Machine.execLinkElementArrival id s
  | .copyPush id => Sys2Proof.Machine.execCopyPush id s
  | .copyFault id => Sys2Proof.Machine.execCopyFault id s
  | .jobStart core job => Sys2Proof.Machine.execJobStart core job s
  | .jobComplete core job => Sys2Proof.Machine.execJobComplete core job s
  | .jobFault core job => Sys2Proof.Machine.execJobFault core job s
  | .stageTimeout sh part => Sys2Proof.Machine.execStageTimeout sh part s
  | .matrixBegin core => Sys2Proof.Machine.execMatrixBegin core s
  | .matrixComplete core => Sys2Proof.Machine.execMatrixComplete core s
  | .gangBarrierComplete row pair => Sys2Proof.Machine.execGangBarrierComplete row pair s
  | .gangTimeout row pair => Sys2Proof.Machine.execGangTimeout row pair s
  | .gangAbort row pair => Sys2Proof.Machine.execGangAbort row pair s
  | .schurComplete core => Sys2Proof.Machine.execSchurComplete core s
  | .curtainRelease part ctx => Sys2Proof.Machine.execCurtainRelease part ctx s
  | .curtainTimeout part ctx => Sys2Proof.Machine.execCurtainTimeout part ctx s
  | .mailboxTimeout core ts => Sys2Proof.Machine.execMailboxTimeout core ts s
  | .chorusWaitTimeout core ts => Sys2Proof.Machine.execChorusWaitTimeout core ts s
  | .castRoundComplete part cast => Sys2Proof.Machine.execCastRoundComplete part cast s
  | .collectiveTimeout part cast => Sys2Proof.Machine.execCollectiveTimeout part cast s
  | .overlayFetchDone core slot => Sys2Proof.Machine.execOverlayFetchDone core slot s
  | .energyUpdate => Sys2Proof.Machine.execEnergyUpdate s
  | .budgetPeriod => Sys2Proof.Machine.execBudgetPeriod s
  | .powerPeriod => Sys2Proof.Machine.execPowerPeriod s
  | .launchGo part => Sys2Proof.Machine.execLaunchGo part s
  | .zeroingDone part => Sys2Proof.Machine.execZeroingDone part s
  | .sliceSwitch => Sys2Proof.Machine.execSliceSwitch s
  | .linkResync core dir => Sys2Proof.Machine.execLinkResync core dir s
  | .linkDead core dir => Sys2Proof.Machine.execLinkDead core dir s
  | .routeChange => Sys2Proof.Machine.execRouteChange s
  | .moduleReset => Sys2Proof.Machine.execModuleReset s
  | .configurePartition r => Sys2Proof.Machine.execConfigurePartition r s
  | .zeroPartition r => Sys2Proof.Machine.execZeroPartition r s
  | .launch r => Sys2Proof.Machine.execLaunch r s
  | .suspend r => Sys2Proof.Machine.execSuspend r s
  | .resume r => Sys2Proof.Machine.execResume r s
  | .sliceEntry r => Sys2Proof.Machine.execSliceEntry r s
  | .armSlices r => Sys2Proof.Machine.execArmSlices r s
  | .setAllotment r => Sys2Proof.Machine.execSetAllotment r s
  | .readEnergy r => Sys2Proof.Machine.execReadEnergy r s
  | .attest r => Sys2Proof.Machine.execAttest r s
  | .advanceRollback r => Sys2Proof.Machine.execAdvanceRollback r s
  | .readStatus r => Sys2Proof.Machine.execReadStatus r s
  | .rdmaWrite qp addr data => Sys2Proof.Machine.execRdmaWrite qp addr data s
  | .rdmaRead qp addr len => Sys2Proof.Machine.execRdmaRead qp addr len s
  | .roceSend qp data => Sys2Proof.Machine.execRoceSend qp data s
  | .ptpMessage m => Sys2Proof.Machine.execPtpMessage m s
  | .ptpHoldover => Sys2Proof.Machine.execPtpHoldover s
  | .addressResolution port k => Sys2Proof.Machine.execAddressResolution port k s
  | .illegalInstruction off => Sys2Proof.Machine.execIllegalInstruction off s
  | .instructionFetch core ts => Sys2Proof.Machine.execInstructionFetch core ts s
  | .droppedFrame port => Sys2Proof.Machine.execDroppedFrame port s
  | .priorityFlowControl port prio pause => Sys2Proof.Machine.execPriorityFlowControl port prio pause s
  | .portLinkUpOrDown port up => Sys2Proof.Machine.execPortLinkUpOrDown port up s
  | .stage1FirmwareUpdate f => Sys2Proof.Machine.execStage1FirmwareUpdate f s

end Sys2Proof.Machine
end

