-- ==== Sys2Proof/Machine/Timing.lean ====
section
/-! DEFINITION. When results are available and when a thread set may issue: latencies, interlocks, stalls, gates, and the
cycle counters (01_machine R15, R16; 07_counters R140; 09_isa_scalar R170; 10_isa_memory R185; 11_isa_vector R216). -/

namespace Sys2Proof.Machine

/-! ## The registers that an instruction names (R16, R310) -/

/-- REG codes of an operand: 0 to 31 x, 32 to 63 v, 64 to 71 p; x0 and p7 are constants (R54). -/
def fileCodes (f : File) (r : RegNo) (w : Nat) : List Nat :=
  match f with
  | .x => if r = 0 then [] else [r.toNat]
  | .v => (List.range w).map fun i => 32 + r.toNat + i
  | .p => if r = 7 then [] else [64 + r.toNat]
  | _ => []

/-- The registers of every operand that the form names; `ret` reads x5 (R180). -/
def rowCodes (r : Row) (a : Args) : List Nat :=
  let w := groupWidth a
  fileCodes r.dFile a.d w ++ fileCodes r.sFile a.s w ++
    (if r.rt != .none && !a.short then fileCodes r.tFile a.t w else []) ++
    (if r.pred then fileCodes .p (a.p.setWidth 5) 1 else []) ++
    (if r.page = 0 ∧ r.op = 0x2F ∧ r.limit = .sub 2 then [5] else [])

/-- The register of a REG code is a bound port, whose elements have no latency (R57). -/
def ThreadSet.portCode (t : ThreadSet) (n : Nat) : Bool :=
  (n < 32 && (t.portOf false (BitVec.ofNat 5 n)).isSome) || (32 ≤ n && n < 64 && (t.portOf true (BitVec.ofNat 5 (n - 32))).isSome)

/-- The cycle from which every register the form names is available. -/
def ThreadSet.regsFrom (t : ThreadSet) (r : Row) (a : Args) : Nat :=
  ((rowCodes r a).map fun n => if t.portCode n then 0 else Map.get t.due 0 n).foldl max 0

/-! ## Latencies (R77, R170, R185, R198, R216, R237) -/

/-- `vdiv` and `vsqrt`, which use the core's divider. -/
def usesDivider (r : Row) : Bool := r.page = 3 && (r.op = 0x09 || r.op = 0x0A)

/-- A local or cluster read, whose latency is that of the core it reads (R77, R185; log entry on latencies). -/
def isLoad (r : Row) : Bool :=
  (r.page = 0 && (r.op = 0x14 || r.op = 0x15 || r.op = 0x18)) ||
    (r.page = 1 && (r.op = 0x00 || r.op = 0x02 || r.op = 0x0E || r.op = 0x10 || (0x14 ≤ r.op && r.op ≤ 0x1D))) ||
    (r.page = 7 && (r.op = 0x05 || r.op = 0x0D))

/-- A load of a frame slot, whose latency is that of the core in whose memory the frame stands (R77, R197; log entry on
latencies). -/
def isFrameLoad (r : Row) : Bool := (r.page = 0 && r.op = 0x1A) || (r.page = 8 && (r.op = 0x05 || r.op = 0x07))

/-- A scalar, vector or belief-propagation form, by which energy class 1 is charged (R138). -/
def isArith (r : Row) : Bool := (r.page = 0 && r.op ≤ 0x13) || (2 ≤ r.page && r.page ≤ 4) || r.page = 6

/-- Cycles from issue until the destination of a form is available, at the issuing core. -/
def rowLatency (r : Row) (a : Args) : Nat :=
  let w := groupWidth a
  match r.page, r.op with
  | 0, 0x08 => 3
  | 0, 0x28 => 2
  | 0, 0x14 => 3
  | 0, 0x15 => 3
  | 0, 0x18 => 2 + w
  | 0, 0x1A => 3
  | 1, 0x0E => 2 + w
  | 1, 0x10 => 6
  | 1, 0x12 => 6
  | 1, n => if n = 0x00 ∨ n = 0x02 ∨ n = 0x05 ∨ n = 0x08 then 3 else if 0x14 ≤ n ∧ n ≤ 0x1D then 4 else 1
  | 2, n =>
    if n = 0x02 then 2 + w
    else if n ≤ 0x13 then 1 + w
    else if n ≤ 0x16 then 5
    else if n = 0x19 ∨ n = 0x1A then 3
    else if 0x1B ≤ n ∧ n ≤ 0x1E then 34
    else 1
  | 3, n =>
    if n ≤ 0x08 then 3 + w
    else if n ≤ 0x0A then (if a.v = 0 then 19 else if a.v = 1 then 11 else 7) + w
    else if n = 0x0B then 2
    else if n ≤ 0x0E then 5
    else if n = 0x0F then 6
    else 3
  | 4, n => if n = 0x01 ∨ n = 0x02 then 2 else w
  | 5, 0x04 => if bit a.imm 5 then 6 else 3
  | 7, 0x05 => 3
  | 7, 0x0D => 3
  | 8, 0x05 => 3
  | 8, 0x07 => 3
  | _, _ => 1

/-- The value of an x operand, without popping it. -/
def ThreadSet.peekX (t : ThreadSet) (n : RegNo) : Word :=
  if n = 0 then 0
  else
    match t.portOf false n with
    | some i => ((t.slot i).fifo.headD 0).setWidth 64
    | none => vget t.x 0 n.toNat

/-- The other core that an address in space 0x1 or 0x2 names, if any (R75, R77). -/
def otherCore (c : Nat) (ea : Word) : Option Nat :=
  if fld ea 63 60 = 1 ∨ fld ea 63 60 = 2 then (agentAt (fld ea 41 32) (fld ea 31 24)).filter (· != c) else none

/-- Cycles that a read of the core named by an address takes: 8 + 2h for another core of the cluster (R77, R198). -/
def accessCycles (own c : Nat) (ea : Word) : Nat :=
  match otherCore c ea with
  | some q => 8 + 2 * hops c q
  | none => own

/-- The latency of a form as its agent issues it. -/
def Mach.latencyOf (m : Mach) (a : Agent) (r : Row) (x : Args) : Nat :=
  match a with
  | .stage _ _ => rowLatency r x
  | .core c _ =>
    if isLoad r then accessCycles (rowLatency r x) c ((m.tset a).peekX x.s + x.imm)
    else if isFrameLoad r then accessCycles (rowLatency r x) c (vget (m.tset a).d 0 (fld x.imm 2 0))
    else rowLatency r x

/-- A jump, call or return, taken whenever it completes (R170, R178, R180, R181, R271). -/
def isJump (r : Row) : Bool :=
  (r.page = 0 && (r.op = 0x1C || r.op = 0x1D || r.op = 0x26 || (r.op = 0x2F && (r.limit = .sub 2 || r.limit = .sub 3)))) ||
    (r.page = 8 && (r.op = 0x10 || r.op = 0x11))

/-- A conditional branch (R178, R179, R203). -/
def isBranch (r : Row) : Bool :=
  (r.page = 0 && ((0x1E ≤ r.op && r.op ≤ 0x25) || r.op = 0x27 || r.op = 0x2E)) || (r.page = 8 && r.op = 0x04)

/-- The predicate of a form leaves it a part to perform: Pred[0] of a scalar one, some byte of a vector one (R55). -/
def ThreadSet.performs (t : ThreadSet) (r : Row) (x : Args) : Bool :=
  if !r.pred then true
  else if r.dFile = .v then t.preg x.p.toNat != 0
  else (t.preg x.p.toNat).getLsbD 0

/-- Cycles for which a read of another core holds the thread set that issued it: a stall, and never a park (R15, R19, R77,
R198). -/
def Mach.readStall (m : Mach) (a : Agent) (r : Row) (x : Args) : Nat :=
  match a with
  | .stage _ _ => 0
  | .core c _ =>
    let t := m.tset a
    if r.page = 8 ∧ (r.op = 0x0C ∨ r.op = 0x0D) then accessCycles 3 c (t.peekX x.s)
    else if !t.performs r x then 0
    else if isLoad r then accessCycles 0 c (t.peekX x.s + x.imm)
    else if isFrameLoad r then accessCycles 0 c (vget t.d 0 (fld x.imm 2 0))
    else 0

/-- The thread set's instruction completed in this cycle and stands at its next PC. -/
def Mach.completed (m : Mach) (a : Agent) : Bool :=
  let t := m.tset a
  t.wait.isNone && t.issuedAt == m.clk && t.pc == m.npc

/-- The destination of a form performed at `a`, from the cycle `clk` on: when it is available, and when the core's divider is free
again (R170, R185, R216). `m0` is the machine the form was issued in. -/
def Mach.resultDue (m m0 : Mach) (a : Agent) (r : Row) (x : Args) (clk : Nat) : Mach :=
  let n := m0.latencyOf a r x
  let dest := (fileCodes r.dFile x.d (groupWidth x)).filter fun k => !(m0.tset a).portCode k
  let live := (m.tset a).due.filter fun e => m.clk < e.2
  let m := m.modTs a fun t => { t with due := if 1 < n then dest.foldl (fun d k => Map.set d k (clk + n)) live else live }
  match a with
  | .stage _ _ => m
  | .core c _ => if usesDivider r then m.modCore c fun k => { k with divDue := clk + n } else m

/-- A read of another core's memory or counters is routed as flits, the request and the answer, by which energy class 3 of the
partition is charged; the wait for an own-core read is shorter than any of another core (R77, R138). -/
def Mach.chargeReads (m : Mach) (c : Nat) (stalls : List Nat) : Mach :=
  if c < meshCores && stalls.any (8 ≤ ·) then m.charge (m.core c).part.toNat 8 else m

/-- The machine after the instruction of `a` completed: when its result is available, at a chorus lead's followers as well, and
what its target or the wait of a member for an owner's answer costs. `m0` is the machine it was issued in (R23, R77, R138, R170,
R185, R198, R216). -/
def Mach.retire (m m0 : Mach) (a : Agent) (i : Instr) : Mach :=
  if !m.completed a then m
  else
    match i.parts with
    | none => m
    | some (r, x) =>
      let stalls :=
        match a with
        | .stage _ _ => []
        | .core c t => (if (m0.tset a).cho then m0.membersOf c t else [(a, 0)]).map fun b => m0.readStall b.1 r x
      let hold := stalls.foldl max (if isJump r || (isBranch r && m.taken) then 2 else 0)
      let m := (m.resultDue m0 a r x m.clk).modTs a fun t => { t with notBefore := max t.notBefore (m.clk + hold) }
      match a with
      | .stage _ p => m.charge p 16
      | .core c t =>
        let m := if (m0.tset a).cho then
            (m0.followersOf c t).foldl (fun m q => m.resultDue m0 (.core q t) r x (m.clk + dist (posOf q).1 (posOf c).1)) m
          else m
        (m.chargeReads c stalls).modCore c fun k =>
          { k.charge (if isArith r then 2 else 0) with
            issueDue := if r.group && !(r.op = 0x19 && r.page = 0) && !(r.op = 0x0F && r.page = 1) then m.clk + groupWidth x else k.issueDue }

/-! ## Who may issue (R15, R151, R298, R345) -/

/-- The stall count of the HINT prefix of the words at a PC (R151). -/
def hintOf (ws : List IWord) : Nat :=
  match Chain.read {} ws with
  | .ok c => ((c.hint.getD 0).toNat / 128)
  | .error _ => 0

/-- The cycle from which the registers that the words name are available, and for `vdiv` and `vsqrt` the divider, free at the
cycle `div`. -/
def ThreadSet.needsFrom (t : ThreadSet) (div : Nat) (stage house : Bool) (ws : List IWord) : Nat :=
  match decode stage house ws with
  | .error _ => 0
  | .ok d =>
    match d.instr.parts with
    | none => 0
    | some (r, a) => max (t.regsFrom r a) (if usesDivider r then div else 0)

/-- The cycle from which a thread set may issue the words at its PC: after its stalls and its HINT, with what they need. -/
def ThreadSet.issueFrom (t : ThreadSet) (div : Nat) (stage house : Bool) (ws : List IWord) : Nat :=
  max (max t.notBefore (t.issuedAt + hintOf ws)) (t.needsFrom div stage house ws)

/-- The cycle from which thread set `t` of a core may issue; a chorus lead, from which every follower has what the word needs,
and has ended its own system access, when it performs it (R16, R23, R346). -/
def Mach.issueFrom (m : Mach) (c t : Nat) : Nat :=
  let k := m.core c
  let s := k.tset t
  let ws := k.wordsAt s.pc.toNat
  let own := s.issueFrom k.divDue false (s.priv == .house) ws
  if s.cho then
    (m.followersOf c t).foldl (fun n q =>
      let f := (m.core q).tset t
      max n (max f.notBefore (f.needsFrom (m.core q).divDue false (s.priv == .house) ws) - dist (posOf q).1 (posOf c).1)) own
  else own

/-- The energy gate or the power gate holds the core back in this cycle: its last issue is too near, the sparser gate counting
(R298, R345). -/
def Mach.gated (m : Mach) (c : Nat) : Bool :=
  let k := m.core c
  let gap := if c < meshCores && (m.part k.part.toNat).rem == 0 then 8 else 2 ^ m.pgate.toNat
  k.lastIssue.any fun n => m.clk < n + gap

/-- The gates and a group under way let the core issue in this cycle (R216, R298, R345). -/
def Mach.gateOpen (m : Mach) (c : Nat) : Bool := !m.gated c && (m.core c).issueDue ≤ m.clk

/-- The thread set waits in a `fence` that it has issued, or in the release of an `amo` or a `cas` (R194, R195, R357). -/
def ThreadSet.inFence (t : ThreadSet) : Bool := t.wait.any (·.kind == .fence)

/-- The thread set waits until its earlier accesses are performed: in a fence, in a release, in the fence of a `curtain.arr` (R194,
R195, R263, R357). -/
def ThreadSet.fencing (t : ThreadSet) : Bool :=
  t.inFence || t.wait.any fun w => match w.kind with
    | .arriving _ _ => true
    | _ => false

/-- Thread set `t` of core `c` has an instruction to issue, no trap to take first, and no stall to wait out; the core's gates
apart. -/
def Mach.readyButGate (m : Mach) (c t : Nat) : Bool :=
  let k := m.core c
  let s := k.tset t
  c < 73732 && t < 4 && m.coreTakes c && !k.halted && s.busy && !s.fol && s.dying.isNone && s.pend == [] && !s.fencing &&
    m.issueFrom c t ≤ m.clk

/-- Thread set `t` of core `c` may issue now. -/
def Mach.ready (m : Mach) (c t : Nat) : Bool := m.gateOpen c && m.readyButGate c t

/-- The thread set that issued last waits out a stall of one or two cycles (R15). -/
def Mach.waitsOut (m : Mach) (c : Nat) : Bool :=
  let k := m.core c
  let s := k.tset k.last
  let n (_ : Unit) : Nat := m.issueFrom c k.last
  s.busy && !s.fol && s.wait.isNone && m.clk < n () && n () ≤ max (s.issuedAt + 1) k.issueDue + 2

/-- The core issues in the cycle `clk`: an instruction, or another part of a group (R216). -/
def Core.issues (k : Core) (clk : Nat) : Bool := k.lastIssue = some clk || clk < k.issueDue

/-! ## The passing of a cycle (R15, R140) -/

/-- A core's counters over one cycle, in which it issues or not, waits out a stall or not. -/
def Core.tick (k : Core) (issues waits : Bool) : Core :=
  { k with
    count :=
      if issues then { k.count with issue := k.count.issue + 1 }
      else if waits then { k.count with idle := k.count.idle + 1, stall := k.count.stall + 1 }
      else { k.count with idle := k.count.idle + 1 } }

/-- A cycle in which the core issues nothing is charged in class 5, but for one in which a gate holds a ready thread set back
(R138, R298, R345). -/
def Mach.idles (m : Mach) (c : Nat) : Bool := !(m.gated c && (List.range 4).any (m.readyButGate c))

/-- One more cycle of class 5, where it is one (R138, R344). -/
def Core.idle (k : Core) (n : Bool) : Core := { k with idled := k.idled + n.toNat }

/-- Core `c` after a cycle; one whose clock is stopped counts nothing (R304). DESIGN CHOICE: a core of a RUNNING partition before its
go instant G counts no idle cycle, as its clock has not started (R140, R295). -/
def Mach.tickCore (m : Mach) (c : Nat) (k : Core) : Core :=
  let k' :=
    if !m.coreRuns c then k
    else if k.issues m.clk then k.tick true false
    else (k.tick false (m.waitsOut c)).idle (m.idles c)
  { k' with seen := k'.count }

/-- A cycle passes. -/
def Mach.tick (m : Mach) : Mach :=
  let m := m.noteReady.tickPtp
  { m with clk := m.clk + 1, cores := m.cores.map fun ck => (ck.1, m.tickCore ck.1 ck.2)
           phase := .takes, rot := 0, tried := [] }

end Sys2Proof.Machine
end

