-- ==== Sys2Proof/Machine/Due.lean ====
section
/-! DEFINITION. What is due in a cycle, in the order in which the model performs it: what each core takes, which agent issues,
and what the units, stagehands, deliveries and time-outs do (01_machine R14, R15, R18; 05_queues R95; 08_encoding R151;
15_scheduler R295 to R304; 16_traps R307, R313; 18_module R345). The order within a cycle is the model's own
(log entry on interleaving). -/

namespace Sys2Proof.Machine

/-! ## Taking (R18, R95, R307, R313) -/

/-- What thread set `t` of core `c` takes: an event, a ring entry. -/
def Mach.tsTakes (m : Mach) (c t : Nat) : Option Mach :=
  (if t == (m.core c).supTs then m.eventTake c else none) <|> m.codeletStart c t <|> m.contextResume c t <|> m.faultResume c t

/-- What some thread set of a core takes: nothing where no event and no entry stands. -/
def Mach.coreTake (m : Mach) (c : Nat) (k : Core) : Option Mach :=
  if k.events == [] && k.pickRing.isNone then none else (List.range 4).findSome? fun t => m.tsTakes c t

/-- A stage program that waits at a stagehand starts (R208, R209). -/
def Mach.stageStarts (m : Mach) (sh : Nat) : Option Mach :=
  ((m.hand sh).units.find? fun u => u.2.cards != [] && !u.2.ts.busy).map fun u => m.stageBegin sh u.1

/-- What is taken at the start of a cycle. -/
def Mach.takes (m : Mach) : Option Mach :=
  m.budgetUpdate <|>
    (m.cores.findSome? fun ck => m.coreTake ck.1 ck.2) <|>
    m.hands.findSome? fun sh => m.stageStarts sh.1

/-! ## Who issues (R15, R208) -/

/-- The number by which an agent's unit has its turn in a cycle. -/
def Agent.number : Agent → Nat
  | .core c _ => c
  | .stage sh _ => handBase + sh

/-- The number of an agent within its unit. -/
def Agent.sub : Agent → Nat
  | .core _ t => t
  | .stage _ p => p

/-- The place of an agent among those of a cycle. -/
def Agent.place (a : Agent) : Nat := 16 * a.number + a.sub

/-- The agent has been tried in this cycle. -/
def Mach.isTried (m : Mach) (a : Agent) : Bool := m.tried.contains a.place

/-- The places at which a core has its turn: its own; the late one of a `curtain`, which comes after the arrivals of its cycle
(R275), and of a thread set with a full FIFO towards a neighbour, which comes after the pops of its cycle (R111); and the last one,
of the thread sets that follow one that has stalled at a late place. -/
def latePlace : Nat := 200000

/-- Thread set `t` of core `c` has a full FIFO towards a neighbour, which makes room when the neighbour pops (R107, R111). -/
def Mach.atFullLink (m : Mach) (c t : Nat) : Bool :=
  (List.range 8).any fun i =>
    let s := ((m.core c).tset t).slot i
    s.bnd && s.dir && 7 ≤ s.kind && 8 ≤ s.fifo.length

/-- The instruction at the pc of thread set `t` of core `c`. -/
def Mach.nextInstr (m : Mach) (c t : Nat) : Option Instr :=
  let s := (m.core c).tset t
  match decode false (s.priv == .house) ((m.core c).wordsAt s.pc.toNat) with
  | .ok d => some d.instr
  | .error _ => none

/-- Thread set `t` of core `c` has a `curtain` to issue. -/
def Mach.atCurtain (m : Mach) (c t : Nat) : Bool :=
  match m.nextInstr c t with
  | some (.curtain _) => true
  | _ => false

/-- Thread set `t` of core `c` has its turn at a late place. -/
def Mach.isLate (m : Mach) (c t : Nat) : Bool := m.atCurtain c t || m.atFullLink c t

/-- The place at which core `c` tries its thread set `t` next. -/
def Mach.placeOf (m : Mach) (c t : Nat) : Nat :=
  if (List.range 4).any fun u => m.isTried (.core c u) && m.isLate c u then 2 * latePlace + c
  else if m.isLate c t then latePlace + c
  else c

/-- The place in the cycle of the thread set that core `c` tries next: the one that issued last, else the next in order
(R15). -/
def Mach.choose (m : Mach) (c : Nat) : Option (Nat × Nat) :=
  let k := m.core c
  if m.waitsOut c then none
  else
    (((List.range 4).map fun i => (k.last + i) % 4).find? fun t => !m.isTried (.core c t) && m.ready c t).map fun t =>
      (t, m.placeOf c t)

/-- The program of partition `p` at a stagehand has an instruction to issue. -/
def Mach.stageReady (m : Mach) (sh p : Nat) : Bool :=
  let u := m.unit sh p
  sh < 512 && p < 16 && u.cards != [] && u.ts.busy && u.ts.issueFrom 0 true false (u.wordsAt u.ts.pc.toNat) ≤ m.clk

/-- The program that a stagehand tries next, in round-robin order of partition (R208). -/
def Mach.chooseStage (m : Mach) (sh : Nat) : Option Nat :=
  ((List.range 16).map fun i => ((m.hand sh).turn + 1 + i) % 16).find? fun p =>
    !m.isTried (.stage sh p) && m.stageReady sh p

/-- The agents that may have the next turn of the cycle, each with its place. -/
def Mach.turns (m : Mach) : List (Agent × Nat) :=
  (m.cores.filterMap fun ck => (m.choose ck.1).map fun tp => (Agent.core ck.1 tp.1, tp.2)) ++
    m.hands.filterMap fun sh => (m.chooseStage sh.1).map fun p => (Agent.stage sh.1 p, handBase + sh.1)

/-- The agent that issues next in this cycle, with its place: cores in ascending order, then stagehands, then the cores of the
late places. -/
def Mach.nextTurn (m : Mach) : Option (Agent × Nat) :=
  (m.turns.filter (m.rot ≤ ·.2)).foldl (fun (b : Option (Agent × Nat)) x => if b.any (·.2 ≤ x.2) then b else some x) none

/-- The far access, Schur form, transfer or fence that an agent waits in has its answer: a fence or a release completes in the
cycle in which the last acceptance arrives, whoever issues in it (R357). -/
def Mach.answered (m : Mach) : Agent → Bool
  | .core c t =>
    let k := m.core c
    let s := k.tset t
    m.coreRuns c && !k.halted && s.busy && !s.fol && s.dying.isNone &&
      (s.pend == [] && ((match s.far with
        | .answered _ => true
        | _ => false) || s.fencing && m.quiet c t && s.drained) || k.schur.any fun o => o.ts == t && o.ended)
  | .stage sh p =>
    let u := m.unit sh p
    u.cards != [] && u.ts.busy && u.answer.isSome

/-- The agents of the units that stand in the state. -/
def Mach.agents (m : Mach) : List Agent :=
  (m.cores.flatMap fun ck => (List.range 4).map (Agent.core ck.1)) ++
    m.hands.flatMap fun sh => sh.2.units.map fun u => Agent.stage sh.1 u.1

/-- The next agent whose answered instruction ends. The instruction issued when it asked: its end takes no issue (R185,
R196, R243). -/
def Mach.nextEnding (m : Mach) : Option Agent := m.agents.find? fun a => m.rot ≤ a.place && m.answered a

/-- The instruction that an agent has just performed has begun a far access, a Schur operation, a transfer or a fence: it has
issued and waits for the answer. -/
def Mach.begun (m m0 : Mach) : Agent → Bool
  | .core c t =>
    ((m0.core c).tset t).far == .idle && ((m.core c).tset t).far != .idle ||
      !((m0.core c).tset t).inFence && ((m.core c).tset t).inFence ||
      (m0.core c).schur.isNone && (m.core c).schur.any (·.ts == t)
  | .stage sh p => (m0.unit sh p).move.isNone && (m.unit sh p).move.isSome

/-- An instruction that an agent has tried has issued: it completed, trapped, or waits for an answer it has asked for. -/
def Mach.hasIssued (m m0 : Mach) (a : Agent) : Bool := (m.tset a).wait.isNone || m.begun m0 a

/-- The issue is noted: by a core which thread set issued and when, by a stagehand which program; the register die is charged
(R15, R138, R151, R208). -/
def Mach.noted (m m0 : Mach) (a : Agent) : Mach :=
  if m.hasIssued m0 a then
    let m := m.modTs a fun t => { t with issuedAt := m.clk }
    match a with
    | .core c t => m.modCore c fun k => { k.charge 4 with last := t, lastIssue := some m.clk }
    | .stage sh p => m.modHand sh fun h => { h with turn := p }
  else m

/-- The agent is a thread set with a full FIFO towards a neighbour, by its place. -/
def Mach.fullAt (m : Mach) (n : Nat) : Bool := m.atFullLink (n / 16) (n % 16)

/-- The turn of a unit after it tried its agent `a` at a place: the unit has issued in this cycle, or another of its agents is
tried. What issues at a late place may have popped: the thread sets that stalled at a full FIFO are tried again, so that every push
of a chain finds the room that the pops of its cycle make (R111). -/
def Mach.turned (m m0 : Mach) (a : Agent) (place : Nat) : Mach :=
  let issued := match a with
    | .core c _ => (m.core c).lastIssue == some m.clk
    | .stage _ _ => m.hasIssued m0 a
  if !issued then { m with rot := place, tried := a.place :: m0.tried }
  else if place < latePlace then { m with rot := place + 1 }
  else { m with rot := latePlace, tried := m.tried.filter fun n => !m.fullAt n }

/-- The answered instruction of `a` has ended: it issued when it asked (R151, R185). -/
def Mach.ended_ (m m0 : Mach) (a : Agent) : Mach :=
  { m.modTs a fun t => { t with issuedAt := (m0.tset a).issuedAt } with rot := a.place + 1 }

/-- What an agent issues. -/
def Mach.fetched (m : Mach) : Agent → Fetched
  | .core c t => m.fetchCore c t
  | .stage sh p => m.fetchStage sh p

/-- What happens only in the turn of an agent: the instructions, the system-space write that a store performs, and what a fetch
or an illegal word comes to. -/
def agentOnly (i : Instr) : Bool :=
  match i with
  | .sysPageTableWrite _ _ => true
  | .illegalInstruction _ => true
  | .instructionFetch _ _ => true
  | _ => i.parts.isSome

/-- The machine at the start of another part of its cycle. -/
def Mach.enterPhase (m : Mach) (p : CyclePhase) : Mach := { m with phase := p, rot := 0, tried := [] }

/-! ## What is due before the instructions of a cycle -/

/-- Requests and zeroing that wait for the machine (R90, R343). -/
def State.hostDue (s : State) : Option State :=
  let m := s.mach
  match (List.range 16).find? fun q => (m.part q).st == .zeroing && (m.part q).zeroDone.any (· ≤ m.clk) with
  | some q => some (s.zeroingDone q)
  | none =>
    match m.requests with
    | (4, r) :: _ =>
      let p := m.part r.part.toNat
      if p.st != .running || !p.stopping || m.stopped r.part.toNat then some (s.suspendReq r) else none
    | _ => none

/-- The module's launches, clock and links (R295, R314, R349). -/
def Mach.moduleDue (m : Mach) : Option Mach :=
  ((List.range 16).findSome? m.launchGo) <|> m.holdover <|> m.routeChange <|> m.linkDue

/-- A delivery that waits for the budget of its router, or for the links, enters the mesh (R301, R314). -/
def Mach.injectDue (m : Mach) : Option Mach :=
  (m.net.find? fun d =>
    d.phase = .queued && d.after == [] && m.injectOpen d && !(m.net.takeWhile (·.id != d.id)).any (d.conflicts ·)).map
      fun d => m.transmit d.src

/-- A delivery of any kind. -/
def anyPayload (_ : Payload) : Bool := true

/-- A wake for a thread set that stalls in place (R22, R98). -/
def Mach.stallWake (m : Mach) (id : Nat) : Option Mach :=
  match m.delivery id with
  | none => none
  | some d =>
    match d.body with
    | .wake w _ => if w.stall then m.wakePacket id true <|> m.wakePacket id false else none
    | _ => none

/-- Thread set `t` of core `c` has an `rpop` of receive ring `n` to issue. -/
def Mach.atRpop (m : Mach) (c t n : Nat) : Bool :=
  match m.nextInstr c t with
  | some (.rpop a) => a.imm.toNat % 4 == n
  | _ => false

/-- A message to an empty receive ring that waits for the instructions of its cycle: an `rpop` of the same cycle is applied before
the append, and traps (R111, R260). -/
def Mach.afterRpop (m : Mach) (id : Nat) : Bool :=
  (m.delivery id).any fun d =>
    match d.body with
    | .msg h _ _ =>
      (m.core d.dst).headSlot (fld h 45 44) == 0 && (List.range 4).any fun t => m.ready d.dst t && m.atRpop d.dst t (fld h 45 44)
    | _ => false

/-- What a delivery does as it reaches its target or its sender (R104, R105, R107, R191, R196, R314). -/
def Mach.deliveryDue (m : Mach) (id : Nat) : Option Mach :=
  m.lostDue id <|> m.releaseReady id <|> (if m.afterRpop id then none else m.arriveAt false anyPayload id) <|> m.accepted id <|> m.refused id <|> m.retransmit id <|>
    m.farAnswer id <|> m.stallWake id <|> m.linkArrive id

/-- The elements of a core's streams move, while its clock runs (R106, R107, R303). -/
def Mach.streamDue (m : Mach) (c : Nat) : Option Mach :=
  if !m.coreRuns c then none
  else
  ((List.range 4).filter fun t => ((m.core c).tset t).anyBound).findSome? fun t =>
    (List.range 8).findSome? fun i => m.drainSlot c t i <|> m.fillSlot c t i

/-- What a core's units end: matrix and Schur operations, jobs, overlay fetches; and what then stands before it (R136, R213, R230,
R231, R243). -/
def Mach.coreDue (m : Mach) (c : Nat) : Option Mach :=
  let k := m.core c
  m.matrixComplete c <|> m.schurComplete c <|> m.heldDue c <|> m.deferredDue c <|> m.streamDue c <|>
    (k.jobs.findSome? fun j => m.jobComplete c j.uid <|> m.jobFault c j.uid) <|>
    (List.range 16).findSome? fun g => m.overlayDone c g

/-- Cast rounds and curtains of a partition (R263, R266). -/
def Mach.partDue (m : Mach) (q : Nat) : Option Mach :=
  ((m.part q).rounds.findSome? fun r => m.castRound q r.cast) <|> m.memberTold q <|>
    (List.range 2).findSome? fun i => m.curtainRefill q i <|> m.curtainRelease q i

/-- The rounds that a trap or a disagreement has cut (R235, R240). -/
def Mach.gangCuts (m : Mach) : Option Mach := m.rounds.findSome? fun r => m.gangAbort r.row r.pair

/-- The asynchronous traps that are pending (R307). -/
def Mach.trapsDue (m : Mach) : Option Mach := m.cores.findSome? fun ck => (List.range 4).findSome? fun t => m.asyncTrap ck.1 t

/-- What is due in a cycle before its instructions, beside the module's periods and the host's requests. -/
def Mach.earlyDue (m : Mach) : Option Mach :=
  m.gangCuts <|> m.injectDue <|> (m.cores.findSome? fun ck => m.matrixComplete ck.1 <|> m.schurComplete ck.1) <|>
    (m.net.findSome? fun d => m.deliveryDue d.id) <|> (m.cores.findSome? fun ck => m.coreDue ck.1) <|>
    ((List.range 16).findSome? m.partDue) <|> m.trapsDue

/-- The next thing due; the next part of the cycle when nothing is. -/
def State.nextDue (s : State) : State :=
  match s.mach.moduleDue with
  | some m => { s with mach := m }
  | none =>
    match s.hostDue with
    | some s' => s'
    | none => { s with mach := s.mach.earlyDue.getD (s.mach.enterPhase .ends) }

/-! ## What is due after the instructions of a cycle -/


/-- Blocks, programs and the channel of a stagehand, after the page-table writes of the cycle (R89, R116, R117, R129, R209, R300,
R341). -/
def Mach.handDue (m : Mach) (s : Nat) : Option Mach :=
  let h := m.hand s
  (h.board.findSome? fun b => m.fetchComplete s b.2.part b.2.blk <|> m.fetchFault s b.2.part b.2.blk <|>
      m.walkMissed s b.2.part b.2.blk) <|>
    (h.dir.findSome? fun b =>
      m.writebackDone s b.part b.blk <|> m.drainEnd s b.part b.blk <|> m.pinTimeout s b.part b.blk <|> m.writersWake s b.part b.blk) <|>
    (h.units.findSome? fun u => m.stageTimeout s u.1) <|> m.rdmaQueue s <|> m.quantumChoice s

/-- A wake packet for record `i` of core `c` has come. -/
def Mach.wakeOf (m : Mach) (c i : Nat) (fault : Bool) : Option Mach :=
  m.net.findSome? fun d =>
    match d.body with
    | .wake w _ => if !w.stall && w.core == c && w.idx == i then m.wakePacket d.id fault else none
    | _ => none

/-- The next wake of a core, in ascending record index, a fault before a wake for one wait (R21, R98, R111). -/
def Mach.recordDue (m : Mach) (c : Nat) : Option Mach :=
  (List.range 64).findSome? fun i =>
    if ((m.core c).record i).st = .free then none
    else
      m.wakeOf c i true <|> m.faultWakeEv (.record c i) <|> m.wakeOf c i false <|> m.contextWake (.record c i) <|> m.parkTimeout c i

/-- A wake packet whose record is free again changes nothing and goes. -/
def Mach.strayWake (m : Mach) (id : Nat) : Option Mach := m.wakePacket id true <|> m.wakePacket id false

/-- Time-outs (R24, R133, R135, R263, R266, R269). -/
def Mach.timeouts (m : Mach) : Option Mach :=
  ((List.range 16).findSome? fun q =>
      ((List.range 2).findSome? fun i => m.curtainTimeout q i) <|> (m.part q).rounds.findSome? fun r => m.collectiveTimeout q r.cast) <|>
    (m.cores.findSome? fun ck =>
      ((List.range 4).filter fun t => (ck.2.tset t).wait.isSome).findSome? fun t =>
        m.versionPark ck.1 t <|> m.mailboxTimeout ck.1 t <|> m.chorusTimeout ck.1 t) <|>
    m.rounds.findSome? fun r => m.gangTimeout r.row r.pair

/-- What begins in the cycle in which its instruction issued, when nothing holds it back (R110, R230, R234). -/
def Mach.beginsDue (m : Mach) : Option Mach :=
  (m.cores.findSome? fun ck => m.matrixBegin ck.1 <|> ck.2.jobs.findSome? fun j => m.jobStart ck.1 j.uid) <|>
    m.rounds.findSome? fun r => m.gangBarrier r.row r.pair

/-- What is due in a cycle after its instructions: deliveries that they have not made room for are refused, stagehands, streams,
wakes, and what begins (R111, R117, R129). -/
def Mach.lateDue (m : Mach) : Option Mach :=
  (m.net.findSome? fun d => m.arriveAt true anyPayload d.id) <|> (m.hands.findSome? fun sh => m.handDue sh.1) <|>
    (m.net.findSome? fun d => m.farRequest d.id) <|> (m.cores.findSome? fun ck => m.streamDue ck.1) <|>
    (m.cores.findSome? fun ck => m.recordDue ck.1) <|> (m.net.findSome? fun d => m.strayWake d.id) <|> m.beginsDue

/-- What is due last in a cycle: what a copy or a gather is given, which counts from the next cycle on; the time-outs, after every
arrival; the periods, the power's after the energy's; the list of overflow, refilled last (R117, R137, R138, R141, R240, R275, R306,
R345). -/
def Mach.lastDue (m : Mach) : Option Mach :=
  (m.net.findSome? fun d => m.copyPush d.id <|> m.copyFault d.id) <|> m.timeouts <|> m.energyUpdate <|> m.powerUpdate <|>
    m.sliceSwitch <|> m.hands.findSome? fun sh => m.refill sh.1

/-! ## The parts of a cycle -/

/-- The next turn of a cycle that needs no agent: `none` where an agent issues or ends an instruction. A delivery that an instruction
has made way for is applied before the next one (R104). -/
def State.settle (s : State) : Option State :=
  let m := s.mach
  match m.phase with
  | .takes => some { s with mach := m.takes.getD (m.enterPhase .due) }
  | .due => some s.nextDue
  | .ends => if m.nextEnding.isNone then some { s with mach := m.enterPhase .issue } else none
  | .issue =>
    match m.cores.findSome? fun ck => m.heldDue ck.1 with
    | some m => some { s with mach := m }
    | none => if m.nextTurn.isNone then some { s with mach := m.enterPhase .begins } else none
  | .begins => some { s with mach := m.lateDue.getD (m.enterPhase .pushes) }
  | .pushes => some { s with mach := m.lastDue.getD m.tick }

/-! ## Placing an instruction -/

/-- Thread set `t` of core `c` at the place of the next fetch (R142). -/
def Mach.fetchAt (m : Mach) : Nat × Nat :=
  match m.cur with
  | .core c t => (c, t)
  | .stage _ _ => (houseCore, 0)

/-- The slot that holds `pc` made VALID, and as many of the bytes written from `pc` as it holds (R81, R142). -/
def Core.place (k : Core) (pc : Nat) (bytes : List Byte) : Core :=
  { k with imem := Memory.pokes k.imem pc (bytes.take (1024 - pc % 1024)), imemEcc := k.imemEcc.filter fun e => e.1 / 128 != pc / 1024
           seg := vset k.seg (pc / 1024) { st := .valid } }

/-- The bytes of instruction words, each in little-endian order (R142). -/
def codeBytes (ws : List IWord) : List Byte := ws.flatMap fun w => leBytes w.toNat 2

end Sys2Proof.Machine
end

