-- ==== Sys2Proof/Machine/Step.lean ====
section
/-! DEFINITION. One step of the module: the environment's next turn, the next instruction of an agent, the next thing due, or
the passing of a cycle. -/

namespace Sys2Proof.Machine

/-- An outcome with its machine changed by `f`. -/
def onNext (f : Mach → Mach) : Host.Outcome State Fault Refusal → Host.Outcome State Fault Refusal
  | .next s => .next { s with mach := f s.mach }
  | .fault x => .fault x
  | .refused x => .refused x

/-- The instruction that the agent's words at its PC encode, performed, with what its issue leaves to wait for; or what its
fetch, or its words, come to (R16, R81, R142, R146, R153). -/
def runAgent (a : Agent) (s : State) : Host.Outcome State Fault Refusal :=
  match s.mach.fetched a with
  | .instr i m => onNext (fun m' => m'.retire m a i) (exec i { s with mach := m })
  | .illegal off m => execIllegalInstruction off { s with mach := m }
  | .closed m => issue semClosedPage { s with mach := m }
  | .stopped c t m => execInstructionFetch c t { s with mach := m }

/-- The fetch of the agent's next instruction is stopped (R81). -/
def Mach.fetchStops (m : Mach) (a : Agent) : Bool :=
  match m.fetched a with
  | .stopped _ _ _ => true
  | _ => false

/-- The agent issues: as `runAgent`, and its unit notes the issue. -/
def issueAgent (a : Agent) (s : State) : Host.Outcome State Fault Refusal :=
  if s.mach.fetchStops a then runAgent a s else onNext (fun m => m.noted s.mach a) (runAgent a s)

/-- A turn that the environment has chosen: an agent that may not issue now, and an instruction that no agent has fetched,
do nothing. -/
def turn (s : State) : Turn → Host.Outcome State Fault Refusal
  | .event i => if agentOnly i then .next s else exec i s
  | .issue c t => if s.mach.ready c t then issueAgent (.core c t) s else .next s
  | .stage sh p => if s.mach.stageReady sh p then issueAgent (.stage sh p) s else .next s

/-- The turn of the agents in the part of the cycle in which they issue, or end what they have issued. -/
def agentTurn (s : State) : Host.Outcome State Fault Refusal :=
  let m := s.mach
  if m.phase = .ends then
    match m.nextEnding with
    | some a => onNext (fun m' => m'.ended_ m a) (runAgent a s)
    | none => .next s
  else
    match m.nextTurn with
    | some (a, place) => onNext (fun m' => m'.turned m a place) (issueAgent a s)
    | none => .next s

/-- One step. -/
def step (s : State) : Host.Outcome State Fault Refusal :=
  match s.mach.agenda with
  | t :: rest => turn { s with mach := { s.mach with agenda := rest } } t
  | [] =>
    match s.settle with
    | some s' => .next s'
    | none => agentTurn s

/-- The state with an instruction of `nbits` bits `w`, every bit above them zero, placed where the agent `cur` fetches next, and
with that agent's turn next. -/
def State.withFetchWord (s : State) (nbits w : Nat) : State :=
  let (c, t) := s.mach.fetchAt
  let pc := ((s.mach.core c).tset t).pc.toNat
  let m := s.mach.modCore c fun k => k.place pc (codeBytes (wordsOf (w % 2 ^ nbits) maxWords))
  { s with mach := { m with agenda := [.issue c t] } }

end Sys2Proof.Machine
end

