-- ==== Sys2Proof/Laws/Map.lean ====
section
/-! SUPPORT. Tables, memories and vectors: a read after a write, the places a write leaves alone, and the canonical form that
every memory operation keeps. -/

namespace Sys2Proof.Machine

/-! ## Tables -/

@[simp] theorem Map.find_erase_same {α : Type} (m : Map α) (k : Nat) : (Map.erase m k).find k = none := by
  induction m with
  | nil => rfl
  | cons c m ih => simp only [Map.erase]; split <;> simp_all [Map.find]

theorem Map.find_erase_other {α : Type} (m : Map α) {k j : Nat} (h : j ≠ k) : (Map.erase m k).find j = m.find j := by
  induction m with
  | nil => rfl
  | cons c m ih =>
    simp only [Map.erase]
    split
    · subst_vars; simp [Map.find, ih, h]
    · simp [Map.find, ih]

theorem Map.find_place {α : Type} (m : Map α) (k j : Nat) (v : α) (hk : m.find k = none) :
    (Map.place m k v).find j = if j = k then some v else m.find j := by
  induction m with
  | nil => rfl
  | cons c m ih =>
    simp only [Map.find] at hk
    split at hk
    · cases hk
    · simp only [Map.place]
      split
      · simp [Map.find]
      · rename_i hne _
        simp only [Map.find, ih hk]
        by_cases hj : j = c.1
        · simp [hj, Ne.symm hne]
        · simp [hj]

@[simp] theorem Map.find_set {α : Type} (m : Map α) (k j : Nat) (v : α) :
    (Map.set m k v).find j = if j = k then some v else m.find j := by
  rw [Map.set, Map.find_place _ _ _ _ (Map.find_erase_same m k)]
  split
  · rfl
  · exact Map.find_erase_other m ‹_›

@[simp] theorem Map.get_set {α : Type} (m : Map α) (d : α) (k j : Nat) (v : α) :
    Map.get (Map.set m k v) d j = if j = k then v else Map.get m d j := by
  simp only [Map.get, Map.find_set]; split <;> rfl

@[simp] theorem Map.get_put {α : Type} [DecidableEq α] (m : Map α) (d : α) (k j : Nat) (v : α) :
    Map.get (Map.put m d k v) d j = if j = k then v else Map.get m d j := by
  rw [Map.put]
  split
  · rename_i h
    split
    · subst_vars; simp [Map.get]
    · simp [Map.get, Map.find_erase_other m ‹_›]
  · exact Map.get_set m d k j v

/-! ## Bytes -/

/-- A byte read after a write: the written byte at its address, and every other byte as before. -/
@[simp] theorem Memory.byte_poke (m : Memory) (a b : Nat) (v : Byte) :
    (m.poke a v).byte b = if b = a then v else m.byte b := by
  simp [Memory.byte, Memory.poke]

theorem Memory.byte_pokes_other (bs : List Byte) (m : Memory) (a b : Nat) (h : b < a ∨ a + bs.length ≤ b) :
    (m.pokes a bs).byte b = m.byte b := by
  induction bs generalizing m a with
  | nil => rfl
  | cons v bs ih =>
    simp only [List.length_cons] at h
    rw [Memory.pokes, ih _ _ (by omega), Memory.byte_poke, if_neg (by omega)]

theorem Memory.bytes_pokes (bs : List Byte) (m : Memory) (a : Nat) : (m.pokes a bs).bytes a bs.length = bs := by
  induction bs generalizing m a with
  | nil => rfl
  | cons v bs ih =>
    rw [Memory.pokes, List.length_cons, Memory.bytes, ih, Memory.byte_pokes_other _ _ _ _ (by omega)]
    simp

@[simp] theorem Memory.length_bytes (m : Memory) (a n : Nat) : (m.bytes a n).length = n := by
  induction n generalizing a with
  | zero => rfl
  | succ n ih => simp [Memory.bytes, ih]

/-! ## The canonical form -/

/-- Every key of the table is greater than `b`. -/
def Map.above {α : Type} (b : Nat) (m : Map α) : Bool := m.all fun c => b < c.1

theorem Map.rising_cons {α : Type} (c : Nat × α) (m : Map α) :
    Map.rising (c :: m) = true ↔ (Map.above c.1 m = true ∧ Map.rising m = true) := by
  induction m generalizing c with
  | nil => simp [Map.rising, Map.above]
  | cons d m ih =>
    simp only [Map.rising, Bool.and_eq_true, decide_eq_true_eq, Map.above, List.all_cons]
    constructor
    · rintro ⟨h1, h2⟩
      refine ⟨⟨h1, ?_⟩, h2⟩
      have := ((ih d).mp h2).1
      simp only [Map.above, List.all_eq_true, decide_eq_true_eq] at this ⊢
      exact fun x hx => Nat.lt_trans h1 (this x hx)
    · rintro ⟨⟨h1, -⟩, h2⟩
      exact ⟨h1, h2⟩

theorem Map.mem_erase {α : Type} {m : Map α} {k : Nat} {c : Nat × α} (h : c ∈ Map.erase m k) : c ∈ m ∧ c.1 ≠ k := by
  induction m with
  | nil => cases h
  | cons d m ih =>
    simp only [Map.erase] at h
    split at h
    · exact ⟨List.mem_cons_of_mem _ (ih h).1, (ih h).2⟩
    · rcases List.mem_cons.mp h with rfl | h
      · exact ⟨List.mem_cons_self, fun hk => by simp_all⟩
      · exact ⟨List.mem_cons_of_mem _ (ih h).1, (ih h).2⟩

theorem Map.mem_place {α : Type} {m : Map α} {k : Nat} {v : α} {c : Nat × α} (h : c ∈ Map.place m k v) :
    c = (k, v) ∨ c ∈ m := by
  induction m with
  | nil => simpa [Map.place] using h
  | cons d m ih =>
    simp only [Map.place] at h
    split at h
    · simpa using h
    · rcases List.mem_cons.mp h with rfl | h
      · exact .inr List.mem_cons_self
      · exact (ih h).imp_right (List.mem_cons_of_mem _)

theorem Map.mem_set {α : Type} {m : Map α} {k : Nat} {v : α} {c : Nat × α} (h : c ∈ Map.set m k v) :
    c = (k, v) ∨ (c ∈ m ∧ c.1 ≠ k) :=
  (Map.mem_place h).imp_right Map.mem_erase

theorem Map.rising_erase {α : Type} {m : Map α} (h : Map.rising m = true) (k : Nat) : Map.rising (Map.erase m k) = true := by
  induction m with
  | nil => rfl
  | cons d m ih =>
    have hd := (Map.rising_cons d m).mp h
    simp only [Map.erase]
    split
    · exact ih hd.2
    · refine (Map.rising_cons _ _).mpr ⟨?_, ih hd.2⟩
      have h1 := hd.1
      simp only [Map.above, List.all_eq_true] at h1 ⊢
      exact fun c hc => h1 c (Map.mem_erase hc).1

theorem Map.rising_place {α : Type} {m : Map α} (h : Map.rising m = true) (k : Nat) (v : α) (hk : m.find k = none) :
    Map.rising (Map.place m k v) = true := by
  induction m with
  | nil => rfl
  | cons d m ih =>
    have hd := (Map.rising_cons d m).mp h
    simp only [Map.find] at hk
    split at hk
    · cases hk
    · rename_i hne
      simp only [Map.place]
      split
      · rename_i hlt
        refine (Map.rising_cons _ _).mpr ⟨?_, h⟩
        have h1 := hd.1
        simp only [Map.above, List.all_cons, List.all_eq_true, Bool.and_eq_true, decide_eq_true_eq] at h1 ⊢
        exact ⟨hlt, fun c hc => Nat.lt_trans hlt (h1 c hc)⟩
      · refine (Map.rising_cons _ _).mpr ⟨?_, ih hd.2 hk⟩
        have h1 := hd.1
        simp only [Map.above, List.all_eq_true, decide_eq_true_eq] at h1 ⊢
        intro c hc
        rcases Map.mem_place hc with rfl | hc
        · show d.1 < k
          omega
        · exact h1 c hc

theorem Map.rising_set {α : Type} {m : Map α} (h : Map.rising m = true) (k : Nat) (v : α) :
    Map.rising (Map.set m k v) = true :=
  Map.rising_place (Map.rising_erase h k) k v (Map.find_erase_same m k)

theorem Map.rising_filter {α : Type} {m : Map α} (h : Map.rising m = true) (p : Nat × α → Bool) :
    Map.rising (m.filter p) = true := by
  induction m with
  | nil => rfl
  | cons d m ih =>
    have hd := (Map.rising_cons d m).mp h
    rw [List.filter_cons]
    split
    · refine (Map.rising_cons _ _).mpr ⟨?_, ih hd.2⟩
      have h1 := hd.1
      simp only [Map.above, List.all_eq_true] at h1 ⊢
      exact fun c hc => h1 c (List.mem_filter.mp hc).1
    · exact ih hd.2

theorem Map.rising_append {α : Type} {l r : Map α} (hl : Map.rising l = true) (hr : Map.rising r = true)
    (h : ∀ c ∈ l, ∀ d ∈ r, c.1 < d.1) : Map.rising (l ++ r) = true := by
  induction l with
  | nil => exact hr
  | cons d l ih =>
    have hd := (Map.rising_cons d l).mp hl
    rw [List.cons_append]
    refine (Map.rising_cons _ _).mpr ⟨?_, ih hd.2 fun c hc => h c (List.mem_cons_of_mem _ hc)⟩
    have h1 := hd.1
    simp only [Map.above, List.all_eq_true, decide_eq_true_eq, List.mem_append] at h1 ⊢
    rintro c (hc | hc)
    · exact h1 c hc
    · exact h d List.mem_cons_self c hc

theorem Map.rising_shift {α : Type} {m : Map α} (h : Map.rising m = true) (f : Nat → Nat)
    (hf : ∀ c ∈ m, ∀ d ∈ m, c.1 < d.1 → f c.1 < f d.1) : Map.rising (m.map fun c => (f c.1, c.2)) = true := by
  induction m with
  | nil => rfl
  | cons d m ih =>
    have hd := (Map.rising_cons d m).mp h
    rw [List.map_cons]
    refine (Map.rising_cons _ _).mpr
      ⟨?_, ih hd.2 fun a ha b hb => hf a (List.mem_cons_of_mem _ ha) b (List.mem_cons_of_mem _ hb)⟩
    have h1 := hd.1
    simp only [Map.above, List.all_map, List.all_eq_true, Function.comp, decide_eq_true_eq] at h1 ⊢
    exact fun c hc => hf d List.mem_cons_self c (List.mem_cons_of_mem _ hc) (h1 c hc)

theorem Memory.wf_iff (m : Memory) : m.wf = true ↔ (Map.rising m = true ∧ ∀ c ∈ m, c.2 ≠ 0) := by
  simp [Memory.wf, List.all_eq_true]

/-- Writing one byte keeps the canonical form. -/
theorem Memory.wf_poke {m : Memory} (h : m.wf = true) (a : Nat) (b : Byte) : (m.poke a b).wf = true := by
  rw [Memory.wf_iff] at h ⊢
  rw [Memory.poke, Map.put]
  split
  · exact ⟨Map.rising_erase h.1 a, fun c hc => h.2 c (Map.mem_erase hc).1⟩
  · rename_i hb
    refine ⟨Map.rising_set h.1 a b, fun c hc => ?_⟩
    rcases Map.mem_set hc with rfl | hc
    · exact hb
    · exact h.2 c hc.1

/-- Writing bytes keeps the canonical form. -/
theorem Memory.wf_pokes (bs : List Byte) {m : Memory} (h : m.wf = true) (a : Nat) : (m.pokes a bs).wf = true := by
  induction bs generalizing m a with
  | nil => exact h
  | cons b bs ih => exact ih (Memory.wf_poke h a b) (a + 1)

/-- Writing bytes each at its own address keeps the canonical form. -/
theorem Memory.wf_foldl_poke (cs : List (Nat × Byte)) {m : Memory} (h : m.wf = true) :
    (cs.foldl (fun m c => Memory.poke m c.1 c.2) m).wf = true := by
  induction cs generalizing m with
  | nil => exact h
  | cons c cs ih => exact ih (Memory.wf_poke h c.1 c.2)

theorem Memory.wf_filter {m : Memory} (h : m.wf = true) (p : Host.Cell → Bool) : Memory.wf (m.filter p) = true := by
  rw [Memory.wf_iff] at h ⊢
  exact ⟨Map.rising_filter h.1 p, fun c hc => h.2 c (List.mem_filter.mp hc).1⟩

/-- Zeroing a range keeps the canonical form. -/
theorem Memory.wf_clear {m : Memory} (h : m.wf = true) (a n : Nat) : (m.clear a n).wf = true := Memory.wf_filter h _

/-- A range cut out and renumbered has the canonical form. -/
theorem Memory.wf_slice {m : Memory} (h : m.wf = true) (a n : Nat) : (m.slice a n).wf = true := by
  have h' := (Memory.wf_iff m).mp h
  rw [Memory.wf_iff, Memory.slice]
  refine ⟨Map.rising_shift (Map.rising_filter h'.1 _) (· - a) ?_, ?_⟩
  · intro c hc d hd hlt
    have h1 := (List.mem_filter.mp hc).2
    have h2 := (List.mem_filter.mp hd).2
    simp only [Bool.and_eq_true, decide_eq_true_eq] at h1 h2
    show c.1 - a < d.1 - a
    omega
  · intro c hc
    obtain ⟨d, hd, rfl⟩ := List.mem_map.mp hc
    exact h'.2 d (List.mem_filter.mp hd).1

/-- Replacing a range by the cells of another memory keeps the canonical form. -/
theorem Memory.wf_blit {m x : Memory} (h : m.wf = true) (hx : x.wf = true) (a n : Nat) : (m.blit a n x).wf = true := by
  have h' := (Memory.wf_iff m).mp h
  have hx' := (Memory.wf_iff x).mp hx
  have key : ∀ c ∈ (x.filter (fun c => c.1 < n)).map (fun c => (c.1 + a, c.2)), a ≤ c.1 ∧ c.1 < a + n := by
    intro c hc
    obtain ⟨d, hd, rfl⟩ := List.mem_map.mp hc
    have := (List.mem_filter.mp hd).2
    simp only [decide_eq_true_eq] at this
    exact ⟨by simp, by simp; omega⟩
  have lo : ∀ c ∈ m.filter (fun c => c.1 < a), c.1 < a := fun c hc => by simpa using (List.mem_filter.mp hc).2
  have hi : ∀ c ∈ m.filter (fun c => a + n ≤ c.1), a + n ≤ c.1 := fun c hc => by simpa using (List.mem_filter.mp hc).2
  rw [Memory.wf_iff]
  simp only [Memory.blit]
  refine ⟨Map.rising_append (Map.rising_append (Map.rising_filter h'.1 _) ?_ ?_) (Map.rising_filter h'.1 _) ?_, ?_⟩
  · exact Map.rising_shift (Map.rising_filter hx'.1 _) (· + a) fun c _ d _ hlt => Nat.add_lt_add_right hlt a
  · exact fun c hc d hd => Nat.lt_of_lt_of_le (lo c hc) (key d hd).1
  · intro c hc d hd
    have hd := hi d hd
    rcases List.mem_append.mp hc with hc | hc
    · have := lo c hc; omega
    · have := (key c hc).2; omega
  · intro c hc
    rcases List.mem_append.mp hc with hc | hc
    · rcases List.mem_append.mp hc with hc | hc
      · exact h'.2 c (List.mem_filter.mp hc).1
      · obtain ⟨d, hd, rfl⟩ := List.mem_map.mp hc
        exact hx'.2 d (List.mem_filter.mp hd).1
    · exact h'.2 c (List.mem_filter.mp hc).1

/-! ## Vectors by number -/

@[simp] theorem vget_vset_same {α : Type} {n : Nat} (v : Vector α n) (d x : α) {i : Nat} (h : i < n) :
    vget (vset v i x) d i = x := by
  simp [vget, vset, h]

theorem vget_vset_other {α : Type} {n : Nat} (v : Vector α n) (d x : α) {i j : Nat} (h : i ≠ j) :
    vget (vset v i x) d j = vget v d j := by
  simp [vget, vset, Vector.getElem?_setIfInBounds_ne h]

theorem vset_out {α : Type} {n : Nat} (v : Vector α n) (x : α) {i : Nat} (h : n ≤ i) : vset v i x = v := by
  simp only [vset]
  ext j hj
  rw [Vector.getElem_setIfInBounds]
  split
  · omega
  · rfl

@[simp] theorem vset_vget {α : Type} {n : Nat} (v : Vector α n) (d : α) (i : Nat) : vset v i (vget v d i) = v := by
  by_cases h : i < n
  · ext j hj
    simp only [vset, vget, Vector.getElem_setIfInBounds, Vector.getElem?_eq_getElem h, Option.getD_some]
    split
    · subst_vars; rfl
    · rfl
  · exact vset_out v _ (Nat.le_of_not_lt h)

/-! ## Byte order -/

@[simp] theorem length_leBytes (v n : Nat) : (leBytes v n).length = n := by
  induction n generalizing v with
  | zero => rfl
  | succ n ih => simp [leBytes, ih]

/-- The bytes of a number, read back, give the number modulo its width. -/
theorem leNat_leBytes (v n : Nat) : leNat (leBytes v n) = v % 256 ^ n := by
  induction n generalizing v with
  | zero => simp [leBytes, leNat, Nat.mod_one]
  | succ n ih =>
    simp only [leBytes, leNat, ih, BitVec.toNat_ofNat]
    rw [show (256 : Nat) ^ (n + 1) = 256 * 256 ^ n from Nat.pow_succ', Nat.mod_mul]

end Sys2Proof.Machine
end

