-- ==== Sys2Proof/Laws/State.lean ====
section
/-! SUPPORT. What each update of the state leaves as it was: one lemma for each field and update, so that no later proof unfolds
a record update. -/

namespace Sys2Proof.Machine

/-! ## The module: a core replaced -/

@[simp] theorem Mach.setCore_clk (m : Mach) (c : Nat) (k : Core) : (m.setCore c k).clk = m.clk := rfl
@[simp] theorem Mach.setCore_hands (m : Mach) (c : Nat) (k : Core) : (m.setCore c k).hands = m.hands := rfl
@[simp] theorem Mach.setCore_routers (m : Mach) (c : Nat) (k : Core) : (m.setCore c k).routers = m.routers := rfl
@[simp] theorem Mach.setCore_clusters (m : Mach) (c : Nat) (k : Core) : (m.setCore c k).clusters = m.clusters := rfl
@[simp] theorem Mach.setCore_parts (m : Mach) (c : Nat) (k : Core) : (m.setCore c k).parts = m.parts := rfl
@[simp] theorem Mach.setCore_net (m : Mach) (c : Nat) (k : Core) : (m.setCore c k).net = m.net := rfl
@[simp] theorem Mach.setCore_nextId (m : Mach) (c : Nat) (k : Core) : (m.setCore c k).nextId = m.nextId := rfl
@[simp] theorem Mach.setCore_rounds (m : Mach) (c : Nat) (k : Core) : (m.setCore c k).rounds = m.rounds := rfl
@[simp] theorem Mach.setCore_slices (m : Mach) (c : Nat) (k : Core) : (m.setCore c k).slices = m.slices := rfl
@[simp] theorem Mach.setCore_armed (m : Mach) (c : Nat) (k : Core) : (m.setCore c k).armed = m.armed := rfl
@[simp] theorem Mach.setCore_sliceSet (m : Mach) (c : Nat) (k : Core) : (m.setCore c k).sliceSet = m.sliceSet := rfl
@[simp] theorem Mach.setCore_switching (m : Mach) (c : Nat) (k : Core) : (m.setCore c k).switching = m.switching := rfl
@[simp] theorem Mach.setCore_fusedCopy (m : Mach) (c : Nat) (k : Core) : (m.setCore c k).fusedCopy = m.fusedCopy := rfl
@[simp] theorem Mach.setCore_ptpNs (m : Mach) (c : Nat) (k : Core) : (m.setCore c k).ptpNs = m.ptpNs := rfl
@[simp] theorem Mach.setCore_ptpFrac (m : Mach) (c : Nat) (k : Core) : (m.setCore c k).ptpFrac = m.ptpFrac := rfl
@[simp] theorem Mach.setCore_ptpSlew (m : Mach) (c : Nat) (k : Core) : (m.setCore c k).ptpSlew = m.ptpSlew := rfl
@[simp] theorem Mach.setCore_ptpHold (m : Mach) (c : Nat) (k : Core) : (m.setCore c k).ptpHold = m.ptpHold := rfl
@[simp] theorem Mach.setCore_ptp (m : Mach) (c : Nat) (k : Core) : (m.setCore c k).ptp = m.ptp := rfl
@[simp] theorem Mach.setCore_ports (m : Mach) (c : Nat) (k : Core) : (m.setCore c k).ports = m.ports := rfl
@[simp] theorem Mach.setCore_pgate (m : Mach) (c : Nat) (k : Core) : (m.setCore c k).pgate = m.pgate := rfl
@[simp] theorem Mach.setCore_powerMw (m : Mach) (c : Nat) (k : Core) : (m.setCore c k).powerMw = m.powerMw := rfl
@[simp] theorem Mach.setCore_lastSeq (m : Mach) (c : Nat) (k : Core) : (m.setCore c k).lastSeq = m.lastSeq := rfl
@[simp] theorem Mach.setCore_requests (m : Mach) (c : Nat) (k : Core) : (m.setCore c k).requests = m.requests := rfl
@[simp] theorem Mach.setCore_fwVersion (m : Mach) (c : Nat) (k : Core) : (m.setCore c k).fwVersion = m.fwVersion := rfl
@[simp] theorem Mach.setCore_fwB (m : Mach) (c : Nat) (k : Core) : (m.setCore c k).fwB = m.fwB := rfl
@[simp] theorem Mach.setCore_fwDigest (m : Mach) (c : Nat) (k : Core) : (m.setCore c k).fwDigest = m.fwDigest := rfl
@[simp] theorem Mach.setCore_booted (m : Mach) (c : Nat) (k : Core) : (m.setCore c k).booted = m.booted := rfl
@[simp] theorem Mach.setCore_injPaused (m : Mach) (c : Nat) (k : Core) : (m.setCore c k).injPaused = m.injPaused := rfl
@[simp] theorem Mach.setCore_gone (m : Mach) (c : Nat) (k : Core) : (m.setCore c k).gone = m.gone := rfl
@[simp] theorem Mach.setCore_deadLinks (m : Mach) (c : Nat) (k : Core) : (m.setCore c k).deadLinks = m.deadLinks := rfl
@[simp] theorem Mach.setCore_rdma (m : Mach) (c : Nat) (k : Core) : (m.setCore c k).rdma = m.rdma := rfl
@[simp] theorem Mach.setCore_replies (m : Mach) (c : Nat) (k : Core) : (m.setCore c k).replies = m.replies := rfl
@[simp] theorem Mach.setCore_outbox (m : Mach) (c : Nat) (k : Core) : (m.setCore c k).outbox = m.outbox := rfl
@[simp] theorem Mach.setCore_weights (m : Mach) (c : Nat) (k : Core) : (m.setCore c k).weights = m.weights := rfl
@[simp] theorem Mach.setCore_charged (m : Mach) (c : Nat) (k : Core) : (m.setCore c k).charged = m.charged := rfl
@[simp] theorem Mach.setCore_energyPeriod (m : Mach) (c : Nat) (k : Core) : (m.setCore c k).energyPeriod = m.energyPeriod := rfl
@[simp] theorem Mach.setCore_budgetPeriod (m : Mach) (c : Nat) (k : Core) : (m.setCore c k).budgetPeriod = m.budgetPeriod := rfl
@[simp] theorem Mach.setCore_powerPeriod (m : Mach) (c : Nat) (k : Core) : (m.setCore c k).powerPeriod = m.powerPeriod := rfl
@[simp] theorem Mach.setCore_fresh (m : Mach) (c : Nat) (k : Core) : (m.setCore c k).fresh = m.fresh := rfl
@[simp] theorem Mach.setCore_nextCid (m : Mach) (c : Nat) (k : Core) : (m.setCore c k).nextCid = m.nextCid := rfl
@[simp] theorem Mach.setCore_agenda (m : Mach) (c : Nat) (k : Core) : (m.setCore c k).agenda = m.agenda := rfl
@[simp] theorem Mach.setCore_cur (m : Mach) (c : Nat) (k : Core) : (m.setCore c k).cur = m.cur := rfl
@[simp] theorem Mach.setCore_npc (m : Mach) (c : Nat) (k : Core) : (m.setCore c k).npc = m.npc := rfl
@[simp] theorem Mach.setCore_taken (m : Mach) (c : Nat) (k : Core) : (m.setCore c k).taken = m.taken := rfl
@[simp] theorem Mach.setCore_phase (m : Mach) (c : Nat) (k : Core) : (m.setCore c k).phase = m.phase := rfl
@[simp] theorem Mach.setCore_rot (m : Mach) (c : Nat) (k : Core) : (m.setCore c k).rot = m.rot := rfl
@[simp] theorem Mach.setCore_tried (m : Mach) (c : Nat) (k : Core) : (m.setCore c k).tried = m.tried := rfl

/-! ## The module: a core changed -/

@[simp] theorem Mach.modCore_clk (m : Mach) (c : Nat) (f : Core → Core) : (m.modCore c f).clk = m.clk := rfl
@[simp] theorem Mach.modCore_hands (m : Mach) (c : Nat) (f : Core → Core) : (m.modCore c f).hands = m.hands := rfl
@[simp] theorem Mach.modCore_routers (m : Mach) (c : Nat) (f : Core → Core) : (m.modCore c f).routers = m.routers := rfl
@[simp] theorem Mach.modCore_clusters (m : Mach) (c : Nat) (f : Core → Core) : (m.modCore c f).clusters = m.clusters := rfl
@[simp] theorem Mach.modCore_parts (m : Mach) (c : Nat) (f : Core → Core) : (m.modCore c f).parts = m.parts := rfl
@[simp] theorem Mach.modCore_net (m : Mach) (c : Nat) (f : Core → Core) : (m.modCore c f).net = m.net := rfl
@[simp] theorem Mach.modCore_nextId (m : Mach) (c : Nat) (f : Core → Core) : (m.modCore c f).nextId = m.nextId := rfl
@[simp] theorem Mach.modCore_rounds (m : Mach) (c : Nat) (f : Core → Core) : (m.modCore c f).rounds = m.rounds := rfl
@[simp] theorem Mach.modCore_slices (m : Mach) (c : Nat) (f : Core → Core) : (m.modCore c f).slices = m.slices := rfl
@[simp] theorem Mach.modCore_armed (m : Mach) (c : Nat) (f : Core → Core) : (m.modCore c f).armed = m.armed := rfl
@[simp] theorem Mach.modCore_sliceSet (m : Mach) (c : Nat) (f : Core → Core) : (m.modCore c f).sliceSet = m.sliceSet := rfl
@[simp] theorem Mach.modCore_switching (m : Mach) (c : Nat) (f : Core → Core) : (m.modCore c f).switching = m.switching := rfl
@[simp] theorem Mach.modCore_fusedCopy (m : Mach) (c : Nat) (f : Core → Core) : (m.modCore c f).fusedCopy = m.fusedCopy := rfl
@[simp] theorem Mach.modCore_ptpNs (m : Mach) (c : Nat) (f : Core → Core) : (m.modCore c f).ptpNs = m.ptpNs := rfl
@[simp] theorem Mach.modCore_ptpFrac (m : Mach) (c : Nat) (f : Core → Core) : (m.modCore c f).ptpFrac = m.ptpFrac := rfl
@[simp] theorem Mach.modCore_ptpSlew (m : Mach) (c : Nat) (f : Core → Core) : (m.modCore c f).ptpSlew = m.ptpSlew := rfl
@[simp] theorem Mach.modCore_ptpHold (m : Mach) (c : Nat) (f : Core → Core) : (m.modCore c f).ptpHold = m.ptpHold := rfl
@[simp] theorem Mach.modCore_ptp (m : Mach) (c : Nat) (f : Core → Core) : (m.modCore c f).ptp = m.ptp := rfl
@[simp] theorem Mach.modCore_ports (m : Mach) (c : Nat) (f : Core → Core) : (m.modCore c f).ports = m.ports := rfl
@[simp] theorem Mach.modCore_pgate (m : Mach) (c : Nat) (f : Core → Core) : (m.modCore c f).pgate = m.pgate := rfl
@[simp] theorem Mach.modCore_powerMw (m : Mach) (c : Nat) (f : Core → Core) : (m.modCore c f).powerMw = m.powerMw := rfl
@[simp] theorem Mach.modCore_lastSeq (m : Mach) (c : Nat) (f : Core → Core) : (m.modCore c f).lastSeq = m.lastSeq := rfl
@[simp] theorem Mach.modCore_requests (m : Mach) (c : Nat) (f : Core → Core) : (m.modCore c f).requests = m.requests := rfl
@[simp] theorem Mach.modCore_fwVersion (m : Mach) (c : Nat) (f : Core → Core) : (m.modCore c f).fwVersion = m.fwVersion := rfl
@[simp] theorem Mach.modCore_fwB (m : Mach) (c : Nat) (f : Core → Core) : (m.modCore c f).fwB = m.fwB := rfl
@[simp] theorem Mach.modCore_fwDigest (m : Mach) (c : Nat) (f : Core → Core) : (m.modCore c f).fwDigest = m.fwDigest := rfl
@[simp] theorem Mach.modCore_booted (m : Mach) (c : Nat) (f : Core → Core) : (m.modCore c f).booted = m.booted := rfl
@[simp] theorem Mach.modCore_injPaused (m : Mach) (c : Nat) (f : Core → Core) : (m.modCore c f).injPaused = m.injPaused := rfl
@[simp] theorem Mach.modCore_gone (m : Mach) (c : Nat) (f : Core → Core) : (m.modCore c f).gone = m.gone := rfl
@[simp] theorem Mach.modCore_deadLinks (m : Mach) (c : Nat) (f : Core → Core) : (m.modCore c f).deadLinks = m.deadLinks := rfl
@[simp] theorem Mach.modCore_rdma (m : Mach) (c : Nat) (f : Core → Core) : (m.modCore c f).rdma = m.rdma := rfl
@[simp] theorem Mach.modCore_replies (m : Mach) (c : Nat) (f : Core → Core) : (m.modCore c f).replies = m.replies := rfl
@[simp] theorem Mach.modCore_outbox (m : Mach) (c : Nat) (f : Core → Core) : (m.modCore c f).outbox = m.outbox := rfl
@[simp] theorem Mach.modCore_weights (m : Mach) (c : Nat) (f : Core → Core) : (m.modCore c f).weights = m.weights := rfl
@[simp] theorem Mach.modCore_charged (m : Mach) (c : Nat) (f : Core → Core) : (m.modCore c f).charged = m.charged := rfl
@[simp] theorem Mach.modCore_energyPeriod (m : Mach) (c : Nat) (f : Core → Core) : (m.modCore c f).energyPeriod = m.energyPeriod := rfl
@[simp] theorem Mach.modCore_budgetPeriod (m : Mach) (c : Nat) (f : Core → Core) : (m.modCore c f).budgetPeriod = m.budgetPeriod := rfl
@[simp] theorem Mach.modCore_powerPeriod (m : Mach) (c : Nat) (f : Core → Core) : (m.modCore c f).powerPeriod = m.powerPeriod := rfl
@[simp] theorem Mach.modCore_fresh (m : Mach) (c : Nat) (f : Core → Core) : (m.modCore c f).fresh = m.fresh := rfl
@[simp] theorem Mach.modCore_nextCid (m : Mach) (c : Nat) (f : Core → Core) : (m.modCore c f).nextCid = m.nextCid := rfl
@[simp] theorem Mach.modCore_agenda (m : Mach) (c : Nat) (f : Core → Core) : (m.modCore c f).agenda = m.agenda := rfl
@[simp] theorem Mach.modCore_cur (m : Mach) (c : Nat) (f : Core → Core) : (m.modCore c f).cur = m.cur := rfl
@[simp] theorem Mach.modCore_npc (m : Mach) (c : Nat) (f : Core → Core) : (m.modCore c f).npc = m.npc := rfl
@[simp] theorem Mach.modCore_taken (m : Mach) (c : Nat) (f : Core → Core) : (m.modCore c f).taken = m.taken := rfl
@[simp] theorem Mach.modCore_phase (m : Mach) (c : Nat) (f : Core → Core) : (m.modCore c f).phase = m.phase := rfl
@[simp] theorem Mach.modCore_rot (m : Mach) (c : Nat) (f : Core → Core) : (m.modCore c f).rot = m.rot := rfl
@[simp] theorem Mach.modCore_tried (m : Mach) (c : Nat) (f : Core → Core) : (m.modCore c f).tried = m.tried := rfl

/-! ## The module: a stagehand changed -/

@[simp] theorem Mach.modHand_clk (m : Mach) (s : Nat) (f : Stagehand → Stagehand) : (m.modHand s f).clk = m.clk := rfl
@[simp] theorem Mach.modHand_cores (m : Mach) (s : Nat) (f : Stagehand → Stagehand) : (m.modHand s f).cores = m.cores := rfl
@[simp] theorem Mach.modHand_routers (m : Mach) (s : Nat) (f : Stagehand → Stagehand) : (m.modHand s f).routers = m.routers := rfl
@[simp] theorem Mach.modHand_clusters (m : Mach) (s : Nat) (f : Stagehand → Stagehand) : (m.modHand s f).clusters = m.clusters := rfl
@[simp] theorem Mach.modHand_parts (m : Mach) (s : Nat) (f : Stagehand → Stagehand) : (m.modHand s f).parts = m.parts := rfl
@[simp] theorem Mach.modHand_net (m : Mach) (s : Nat) (f : Stagehand → Stagehand) : (m.modHand s f).net = m.net := rfl
@[simp] theorem Mach.modHand_nextId (m : Mach) (s : Nat) (f : Stagehand → Stagehand) : (m.modHand s f).nextId = m.nextId := rfl
@[simp] theorem Mach.modHand_rounds (m : Mach) (s : Nat) (f : Stagehand → Stagehand) : (m.modHand s f).rounds = m.rounds := rfl
@[simp] theorem Mach.modHand_slices (m : Mach) (s : Nat) (f : Stagehand → Stagehand) : (m.modHand s f).slices = m.slices := rfl
@[simp] theorem Mach.modHand_armed (m : Mach) (s : Nat) (f : Stagehand → Stagehand) : (m.modHand s f).armed = m.armed := rfl
@[simp] theorem Mach.modHand_sliceSet (m : Mach) (s : Nat) (f : Stagehand → Stagehand) : (m.modHand s f).sliceSet = m.sliceSet := rfl
@[simp] theorem Mach.modHand_switching (m : Mach) (s : Nat) (f : Stagehand → Stagehand) : (m.modHand s f).switching = m.switching := rfl
@[simp] theorem Mach.modHand_fusedCopy (m : Mach) (s : Nat) (f : Stagehand → Stagehand) : (m.modHand s f).fusedCopy = m.fusedCopy := rfl
@[simp] theorem Mach.modHand_ptpNs (m : Mach) (s : Nat) (f : Stagehand → Stagehand) : (m.modHand s f).ptpNs = m.ptpNs := rfl
@[simp] theorem Mach.modHand_ptpFrac (m : Mach) (s : Nat) (f : Stagehand → Stagehand) : (m.modHand s f).ptpFrac = m.ptpFrac := rfl
@[simp] theorem Mach.modHand_ptpSlew (m : Mach) (s : Nat) (f : Stagehand → Stagehand) : (m.modHand s f).ptpSlew = m.ptpSlew := rfl
@[simp] theorem Mach.modHand_ptpHold (m : Mach) (s : Nat) (f : Stagehand → Stagehand) : (m.modHand s f).ptpHold = m.ptpHold := rfl
@[simp] theorem Mach.modHand_ptp (m : Mach) (s : Nat) (f : Stagehand → Stagehand) : (m.modHand s f).ptp = m.ptp := rfl
@[simp] theorem Mach.modHand_ports (m : Mach) (s : Nat) (f : Stagehand → Stagehand) : (m.modHand s f).ports = m.ports := rfl
@[simp] theorem Mach.modHand_pgate (m : Mach) (s : Nat) (f : Stagehand → Stagehand) : (m.modHand s f).pgate = m.pgate := rfl
@[simp] theorem Mach.modHand_powerMw (m : Mach) (s : Nat) (f : Stagehand → Stagehand) : (m.modHand s f).powerMw = m.powerMw := rfl
@[simp] theorem Mach.modHand_lastSeq (m : Mach) (s : Nat) (f : Stagehand → Stagehand) : (m.modHand s f).lastSeq = m.lastSeq := rfl
@[simp] theorem Mach.modHand_requests (m : Mach) (s : Nat) (f : Stagehand → Stagehand) : (m.modHand s f).requests = m.requests := rfl
@[simp] theorem Mach.modHand_fwVersion (m : Mach) (s : Nat) (f : Stagehand → Stagehand) : (m.modHand s f).fwVersion = m.fwVersion := rfl
@[simp] theorem Mach.modHand_fwB (m : Mach) (s : Nat) (f : Stagehand → Stagehand) : (m.modHand s f).fwB = m.fwB := rfl
@[simp] theorem Mach.modHand_fwDigest (m : Mach) (s : Nat) (f : Stagehand → Stagehand) : (m.modHand s f).fwDigest = m.fwDigest := rfl
@[simp] theorem Mach.modHand_booted (m : Mach) (s : Nat) (f : Stagehand → Stagehand) : (m.modHand s f).booted = m.booted := rfl
@[simp] theorem Mach.modHand_injPaused (m : Mach) (s : Nat) (f : Stagehand → Stagehand) : (m.modHand s f).injPaused = m.injPaused := rfl
@[simp] theorem Mach.modHand_gone (m : Mach) (s : Nat) (f : Stagehand → Stagehand) : (m.modHand s f).gone = m.gone := rfl
@[simp] theorem Mach.modHand_deadLinks (m : Mach) (s : Nat) (f : Stagehand → Stagehand) : (m.modHand s f).deadLinks = m.deadLinks := rfl
@[simp] theorem Mach.modHand_rdma (m : Mach) (s : Nat) (f : Stagehand → Stagehand) : (m.modHand s f).rdma = m.rdma := rfl
@[simp] theorem Mach.modHand_replies (m : Mach) (s : Nat) (f : Stagehand → Stagehand) : (m.modHand s f).replies = m.replies := rfl
@[simp] theorem Mach.modHand_outbox (m : Mach) (s : Nat) (f : Stagehand → Stagehand) : (m.modHand s f).outbox = m.outbox := rfl
@[simp] theorem Mach.modHand_weights (m : Mach) (s : Nat) (f : Stagehand → Stagehand) : (m.modHand s f).weights = m.weights := rfl
@[simp] theorem Mach.modHand_charged (m : Mach) (s : Nat) (f : Stagehand → Stagehand) : (m.modHand s f).charged = m.charged := rfl
@[simp] theorem Mach.modHand_energyPeriod (m : Mach) (s : Nat) (f : Stagehand → Stagehand) : (m.modHand s f).energyPeriod = m.energyPeriod := rfl
@[simp] theorem Mach.modHand_budgetPeriod (m : Mach) (s : Nat) (f : Stagehand → Stagehand) : (m.modHand s f).budgetPeriod = m.budgetPeriod := rfl
@[simp] theorem Mach.modHand_powerPeriod (m : Mach) (s : Nat) (f : Stagehand → Stagehand) : (m.modHand s f).powerPeriod = m.powerPeriod := rfl
@[simp] theorem Mach.modHand_fresh (m : Mach) (s : Nat) (f : Stagehand → Stagehand) : (m.modHand s f).fresh = m.fresh := rfl
@[simp] theorem Mach.modHand_nextCid (m : Mach) (s : Nat) (f : Stagehand → Stagehand) : (m.modHand s f).nextCid = m.nextCid := rfl
@[simp] theorem Mach.modHand_agenda (m : Mach) (s : Nat) (f : Stagehand → Stagehand) : (m.modHand s f).agenda = m.agenda := rfl
@[simp] theorem Mach.modHand_cur (m : Mach) (s : Nat) (f : Stagehand → Stagehand) : (m.modHand s f).cur = m.cur := rfl
@[simp] theorem Mach.modHand_npc (m : Mach) (s : Nat) (f : Stagehand → Stagehand) : (m.modHand s f).npc = m.npc := rfl
@[simp] theorem Mach.modHand_taken (m : Mach) (s : Nat) (f : Stagehand → Stagehand) : (m.modHand s f).taken = m.taken := rfl
@[simp] theorem Mach.modHand_phase (m : Mach) (s : Nat) (f : Stagehand → Stagehand) : (m.modHand s f).phase = m.phase := rfl
@[simp] theorem Mach.modHand_rot (m : Mach) (s : Nat) (f : Stagehand → Stagehand) : (m.modHand s f).rot = m.rot := rfl
@[simp] theorem Mach.modHand_tried (m : Mach) (s : Nat) (f : Stagehand → Stagehand) : (m.modHand s f).tried = m.tried := rfl

/-! ## The module: a stage program unit changed -/

@[simp] theorem Mach.modUnit_clk (m : Mach) (s p : Nat) (f : StageUnit → StageUnit) : (m.modUnit s p f).clk = m.clk := rfl
@[simp] theorem Mach.modUnit_cores (m : Mach) (s p : Nat) (f : StageUnit → StageUnit) : (m.modUnit s p f).cores = m.cores := rfl
@[simp] theorem Mach.modUnit_routers (m : Mach) (s p : Nat) (f : StageUnit → StageUnit) : (m.modUnit s p f).routers = m.routers := rfl
@[simp] theorem Mach.modUnit_clusters (m : Mach) (s p : Nat) (f : StageUnit → StageUnit) : (m.modUnit s p f).clusters = m.clusters := rfl
@[simp] theorem Mach.modUnit_parts (m : Mach) (s p : Nat) (f : StageUnit → StageUnit) : (m.modUnit s p f).parts = m.parts := rfl
@[simp] theorem Mach.modUnit_net (m : Mach) (s p : Nat) (f : StageUnit → StageUnit) : (m.modUnit s p f).net = m.net := rfl
@[simp] theorem Mach.modUnit_nextId (m : Mach) (s p : Nat) (f : StageUnit → StageUnit) : (m.modUnit s p f).nextId = m.nextId := rfl
@[simp] theorem Mach.modUnit_rounds (m : Mach) (s p : Nat) (f : StageUnit → StageUnit) : (m.modUnit s p f).rounds = m.rounds := rfl
@[simp] theorem Mach.modUnit_slices (m : Mach) (s p : Nat) (f : StageUnit → StageUnit) : (m.modUnit s p f).slices = m.slices := rfl
@[simp] theorem Mach.modUnit_armed (m : Mach) (s p : Nat) (f : StageUnit → StageUnit) : (m.modUnit s p f).armed = m.armed := rfl
@[simp] theorem Mach.modUnit_sliceSet (m : Mach) (s p : Nat) (f : StageUnit → StageUnit) : (m.modUnit s p f).sliceSet = m.sliceSet := rfl
@[simp] theorem Mach.modUnit_switching (m : Mach) (s p : Nat) (f : StageUnit → StageUnit) : (m.modUnit s p f).switching = m.switching := rfl
@[simp] theorem Mach.modUnit_fusedCopy (m : Mach) (s p : Nat) (f : StageUnit → StageUnit) : (m.modUnit s p f).fusedCopy = m.fusedCopy := rfl
@[simp] theorem Mach.modUnit_ptpNs (m : Mach) (s p : Nat) (f : StageUnit → StageUnit) : (m.modUnit s p f).ptpNs = m.ptpNs := rfl
@[simp] theorem Mach.modUnit_ptpFrac (m : Mach) (s p : Nat) (f : StageUnit → StageUnit) : (m.modUnit s p f).ptpFrac = m.ptpFrac := rfl
@[simp] theorem Mach.modUnit_ptpSlew (m : Mach) (s p : Nat) (f : StageUnit → StageUnit) : (m.modUnit s p f).ptpSlew = m.ptpSlew := rfl
@[simp] theorem Mach.modUnit_ptpHold (m : Mach) (s p : Nat) (f : StageUnit → StageUnit) : (m.modUnit s p f).ptpHold = m.ptpHold := rfl
@[simp] theorem Mach.modUnit_ptp (m : Mach) (s p : Nat) (f : StageUnit → StageUnit) : (m.modUnit s p f).ptp = m.ptp := rfl
@[simp] theorem Mach.modUnit_ports (m : Mach) (s p : Nat) (f : StageUnit → StageUnit) : (m.modUnit s p f).ports = m.ports := rfl
@[simp] theorem Mach.modUnit_pgate (m : Mach) (s p : Nat) (f : StageUnit → StageUnit) : (m.modUnit s p f).pgate = m.pgate := rfl
@[simp] theorem Mach.modUnit_powerMw (m : Mach) (s p : Nat) (f : StageUnit → StageUnit) : (m.modUnit s p f).powerMw = m.powerMw := rfl
@[simp] theorem Mach.modUnit_lastSeq (m : Mach) (s p : Nat) (f : StageUnit → StageUnit) : (m.modUnit s p f).lastSeq = m.lastSeq := rfl
@[simp] theorem Mach.modUnit_requests (m : Mach) (s p : Nat) (f : StageUnit → StageUnit) : (m.modUnit s p f).requests = m.requests := rfl
@[simp] theorem Mach.modUnit_fwVersion (m : Mach) (s p : Nat) (f : StageUnit → StageUnit) : (m.modUnit s p f).fwVersion = m.fwVersion := rfl
@[simp] theorem Mach.modUnit_fwB (m : Mach) (s p : Nat) (f : StageUnit → StageUnit) : (m.modUnit s p f).fwB = m.fwB := rfl
@[simp] theorem Mach.modUnit_fwDigest (m : Mach) (s p : Nat) (f : StageUnit → StageUnit) : (m.modUnit s p f).fwDigest = m.fwDigest := rfl
@[simp] theorem Mach.modUnit_booted (m : Mach) (s p : Nat) (f : StageUnit → StageUnit) : (m.modUnit s p f).booted = m.booted := rfl
@[simp] theorem Mach.modUnit_injPaused (m : Mach) (s p : Nat) (f : StageUnit → StageUnit) : (m.modUnit s p f).injPaused = m.injPaused := rfl
@[simp] theorem Mach.modUnit_gone (m : Mach) (s p : Nat) (f : StageUnit → StageUnit) : (m.modUnit s p f).gone = m.gone := rfl
@[simp] theorem Mach.modUnit_deadLinks (m : Mach) (s p : Nat) (f : StageUnit → StageUnit) : (m.modUnit s p f).deadLinks = m.deadLinks := rfl
@[simp] theorem Mach.modUnit_rdma (m : Mach) (s p : Nat) (f : StageUnit → StageUnit) : (m.modUnit s p f).rdma = m.rdma := rfl
@[simp] theorem Mach.modUnit_replies (m : Mach) (s p : Nat) (f : StageUnit → StageUnit) : (m.modUnit s p f).replies = m.replies := rfl
@[simp] theorem Mach.modUnit_outbox (m : Mach) (s p : Nat) (f : StageUnit → StageUnit) : (m.modUnit s p f).outbox = m.outbox := rfl
@[simp] theorem Mach.modUnit_weights (m : Mach) (s p : Nat) (f : StageUnit → StageUnit) : (m.modUnit s p f).weights = m.weights := rfl
@[simp] theorem Mach.modUnit_charged (m : Mach) (s p : Nat) (f : StageUnit → StageUnit) : (m.modUnit s p f).charged = m.charged := rfl
@[simp] theorem Mach.modUnit_energyPeriod (m : Mach) (s p : Nat) (f : StageUnit → StageUnit) : (m.modUnit s p f).energyPeriod = m.energyPeriod := rfl
@[simp] theorem Mach.modUnit_budgetPeriod (m : Mach) (s p : Nat) (f : StageUnit → StageUnit) : (m.modUnit s p f).budgetPeriod = m.budgetPeriod := rfl
@[simp] theorem Mach.modUnit_powerPeriod (m : Mach) (s p : Nat) (f : StageUnit → StageUnit) : (m.modUnit s p f).powerPeriod = m.powerPeriod := rfl
@[simp] theorem Mach.modUnit_fresh (m : Mach) (s p : Nat) (f : StageUnit → StageUnit) : (m.modUnit s p f).fresh = m.fresh := rfl
@[simp] theorem Mach.modUnit_nextCid (m : Mach) (s p : Nat) (f : StageUnit → StageUnit) : (m.modUnit s p f).nextCid = m.nextCid := rfl
@[simp] theorem Mach.modUnit_agenda (m : Mach) (s p : Nat) (f : StageUnit → StageUnit) : (m.modUnit s p f).agenda = m.agenda := rfl
@[simp] theorem Mach.modUnit_cur (m : Mach) (s p : Nat) (f : StageUnit → StageUnit) : (m.modUnit s p f).cur = m.cur := rfl
@[simp] theorem Mach.modUnit_npc (m : Mach) (s p : Nat) (f : StageUnit → StageUnit) : (m.modUnit s p f).npc = m.npc := rfl
@[simp] theorem Mach.modUnit_taken (m : Mach) (s p : Nat) (f : StageUnit → StageUnit) : (m.modUnit s p f).taken = m.taken := rfl
@[simp] theorem Mach.modUnit_phase (m : Mach) (s p : Nat) (f : StageUnit → StageUnit) : (m.modUnit s p f).phase = m.phase := rfl
@[simp] theorem Mach.modUnit_rot (m : Mach) (s p : Nat) (f : StageUnit → StageUnit) : (m.modUnit s p f).rot = m.rot := rfl
@[simp] theorem Mach.modUnit_tried (m : Mach) (s p : Nat) (f : StageUnit → StageUnit) : (m.modUnit s p f).tried = m.tried := rfl

/-! ## The module: a partition changed -/

@[simp] theorem Mach.modPart_clk (m : Mach) (p : Nat) (f : Partition → Partition) : (m.modPart p f).clk = m.clk := rfl
@[simp] theorem Mach.modPart_cores (m : Mach) (p : Nat) (f : Partition → Partition) : (m.modPart p f).cores = m.cores := rfl
@[simp] theorem Mach.modPart_hands (m : Mach) (p : Nat) (f : Partition → Partition) : (m.modPart p f).hands = m.hands := rfl
@[simp] theorem Mach.modPart_routers (m : Mach) (p : Nat) (f : Partition → Partition) : (m.modPart p f).routers = m.routers := rfl
@[simp] theorem Mach.modPart_clusters (m : Mach) (p : Nat) (f : Partition → Partition) : (m.modPart p f).clusters = m.clusters := rfl
@[simp] theorem Mach.modPart_net (m : Mach) (p : Nat) (f : Partition → Partition) : (m.modPart p f).net = m.net := rfl
@[simp] theorem Mach.modPart_nextId (m : Mach) (p : Nat) (f : Partition → Partition) : (m.modPart p f).nextId = m.nextId := rfl
@[simp] theorem Mach.modPart_rounds (m : Mach) (p : Nat) (f : Partition → Partition) : (m.modPart p f).rounds = m.rounds := rfl
@[simp] theorem Mach.modPart_slices (m : Mach) (p : Nat) (f : Partition → Partition) : (m.modPart p f).slices = m.slices := rfl
@[simp] theorem Mach.modPart_armed (m : Mach) (p : Nat) (f : Partition → Partition) : (m.modPart p f).armed = m.armed := rfl
@[simp] theorem Mach.modPart_sliceSet (m : Mach) (p : Nat) (f : Partition → Partition) : (m.modPart p f).sliceSet = m.sliceSet := rfl
@[simp] theorem Mach.modPart_switching (m : Mach) (p : Nat) (f : Partition → Partition) : (m.modPart p f).switching = m.switching := rfl
@[simp] theorem Mach.modPart_fusedCopy (m : Mach) (p : Nat) (f : Partition → Partition) : (m.modPart p f).fusedCopy = m.fusedCopy := rfl
@[simp] theorem Mach.modPart_ptpNs (m : Mach) (p : Nat) (f : Partition → Partition) : (m.modPart p f).ptpNs = m.ptpNs := rfl
@[simp] theorem Mach.modPart_ptpFrac (m : Mach) (p : Nat) (f : Partition → Partition) : (m.modPart p f).ptpFrac = m.ptpFrac := rfl
@[simp] theorem Mach.modPart_ptpSlew (m : Mach) (p : Nat) (f : Partition → Partition) : (m.modPart p f).ptpSlew = m.ptpSlew := rfl
@[simp] theorem Mach.modPart_ptpHold (m : Mach) (p : Nat) (f : Partition → Partition) : (m.modPart p f).ptpHold = m.ptpHold := rfl
@[simp] theorem Mach.modPart_ptp (m : Mach) (p : Nat) (f : Partition → Partition) : (m.modPart p f).ptp = m.ptp := rfl
@[simp] theorem Mach.modPart_ports (m : Mach) (p : Nat) (f : Partition → Partition) : (m.modPart p f).ports = m.ports := rfl
@[simp] theorem Mach.modPart_pgate (m : Mach) (p : Nat) (f : Partition → Partition) : (m.modPart p f).pgate = m.pgate := rfl
@[simp] theorem Mach.modPart_powerMw (m : Mach) (p : Nat) (f : Partition → Partition) : (m.modPart p f).powerMw = m.powerMw := rfl
@[simp] theorem Mach.modPart_lastSeq (m : Mach) (p : Nat) (f : Partition → Partition) : (m.modPart p f).lastSeq = m.lastSeq := rfl
@[simp] theorem Mach.modPart_requests (m : Mach) (p : Nat) (f : Partition → Partition) : (m.modPart p f).requests = m.requests := rfl
@[simp] theorem Mach.modPart_fwVersion (m : Mach) (p : Nat) (f : Partition → Partition) : (m.modPart p f).fwVersion = m.fwVersion := rfl
@[simp] theorem Mach.modPart_fwB (m : Mach) (p : Nat) (f : Partition → Partition) : (m.modPart p f).fwB = m.fwB := rfl
@[simp] theorem Mach.modPart_fwDigest (m : Mach) (p : Nat) (f : Partition → Partition) : (m.modPart p f).fwDigest = m.fwDigest := rfl
@[simp] theorem Mach.modPart_booted (m : Mach) (p : Nat) (f : Partition → Partition) : (m.modPart p f).booted = m.booted := rfl
@[simp] theorem Mach.modPart_injPaused (m : Mach) (p : Nat) (f : Partition → Partition) : (m.modPart p f).injPaused = m.injPaused := rfl
@[simp] theorem Mach.modPart_gone (m : Mach) (p : Nat) (f : Partition → Partition) : (m.modPart p f).gone = m.gone := rfl
@[simp] theorem Mach.modPart_deadLinks (m : Mach) (p : Nat) (f : Partition → Partition) : (m.modPart p f).deadLinks = m.deadLinks := rfl
@[simp] theorem Mach.modPart_rdma (m : Mach) (p : Nat) (f : Partition → Partition) : (m.modPart p f).rdma = m.rdma := rfl
@[simp] theorem Mach.modPart_replies (m : Mach) (p : Nat) (f : Partition → Partition) : (m.modPart p f).replies = m.replies := rfl
@[simp] theorem Mach.modPart_outbox (m : Mach) (p : Nat) (f : Partition → Partition) : (m.modPart p f).outbox = m.outbox := rfl
@[simp] theorem Mach.modPart_weights (m : Mach) (p : Nat) (f : Partition → Partition) : (m.modPart p f).weights = m.weights := rfl
@[simp] theorem Mach.modPart_charged (m : Mach) (p : Nat) (f : Partition → Partition) : (m.modPart p f).charged = m.charged := rfl
@[simp] theorem Mach.modPart_energyPeriod (m : Mach) (p : Nat) (f : Partition → Partition) : (m.modPart p f).energyPeriod = m.energyPeriod := rfl
@[simp] theorem Mach.modPart_budgetPeriod (m : Mach) (p : Nat) (f : Partition → Partition) : (m.modPart p f).budgetPeriod = m.budgetPeriod := rfl
@[simp] theorem Mach.modPart_powerPeriod (m : Mach) (p : Nat) (f : Partition → Partition) : (m.modPart p f).powerPeriod = m.powerPeriod := rfl
@[simp] theorem Mach.modPart_fresh (m : Mach) (p : Nat) (f : Partition → Partition) : (m.modPart p f).fresh = m.fresh := rfl
@[simp] theorem Mach.modPart_nextCid (m : Mach) (p : Nat) (f : Partition → Partition) : (m.modPart p f).nextCid = m.nextCid := rfl
@[simp] theorem Mach.modPart_agenda (m : Mach) (p : Nat) (f : Partition → Partition) : (m.modPart p f).agenda = m.agenda := rfl
@[simp] theorem Mach.modPart_cur (m : Mach) (p : Nat) (f : Partition → Partition) : (m.modPart p f).cur = m.cur := rfl
@[simp] theorem Mach.modPart_npc (m : Mach) (p : Nat) (f : Partition → Partition) : (m.modPart p f).npc = m.npc := rfl
@[simp] theorem Mach.modPart_taken (m : Mach) (p : Nat) (f : Partition → Partition) : (m.modPart p f).taken = m.taken := rfl
@[simp] theorem Mach.modPart_phase (m : Mach) (p : Nat) (f : Partition → Partition) : (m.modPart p f).phase = m.phase := rfl
@[simp] theorem Mach.modPart_rot (m : Mach) (p : Nat) (f : Partition → Partition) : (m.modPart p f).rot = m.rot := rfl
@[simp] theorem Mach.modPart_tried (m : Mach) (p : Nat) (f : Partition → Partition) : (m.modPart p f).tried = m.tried := rfl

/-! ## A core: a thread set changed -/

@[simp] theorem Core.modTs_mem (k : Core) (t : Nat) (f : ThreadSet → ThreadSet) : (k.modTs t f).mem = k.mem := rfl
@[simp] theorem Core.modTs_side (k : Core) (t : Nat) (f : ThreadSet → ThreadSet) : (k.modTs t f).side = k.side := rfl
@[simp] theorem Core.modTs_imem (k : Core) (t : Nat) (f : ThreadSet → ThreadSet) : (k.modTs t f).imem = k.imem := rfl
@[simp] theorem Core.modTs_imemEcc (k : Core) (t : Nat) (f : ThreadSet → ThreadSet) : (k.modTs t f).imemEcc = k.imemEcc := rfl
@[simp] theorem Core.modTs_seg (k : Core) (t : Nat) (f : ThreadSet → ThreadSet) : (k.modTs t f).seg = k.seg := rfl
@[simp] theorem Core.modTs_acc (k : Core) (t : Nat) (f : ThreadSet → ThreadSet) : (k.modTs t f).acc = k.acc := rfl
@[simp] theorem Core.modTs_shadow (k : Core) (t : Nat) (f : ThreadSet → ThreadSet) : (k.modTs t f).shadow = k.shadow := rfl
@[simp] theorem Core.modTs_owner (k : Core) (t : Nat) (f : ThreadSet → ThreadSet) : (k.modTs t f).owner = k.owner := rfl
@[simp] theorem Core.modTs_mat (k : Core) (t : Nat) (f : ThreadSet → ThreadSet) : (k.modTs t f).mat = k.mat := rfl
@[simp] theorem Core.modTs_sinceReh (k : Core) (t : Nat) (f : ThreadSet → ThreadSet) : (k.modTs t f).sinceReh = k.sinceReh := rfl
@[simp] theorem Core.modTs_rehEnd (k : Core) (t : Nat) (f : ThreadSet → ThreadSet) : (k.modTs t f).rehEnd = k.rehEnd := rfl
@[simp] theorem Core.modTs_period (k : Core) (t : Nat) (f : ThreadSet → ThreadSet) : (k.modTs t f).period = k.period := rfl
@[simp] theorem Core.modTs_fence (k : Core) (t : Nat) (f : ThreadSet → ThreadSet) : (k.modTs t f).fence = k.fence := rfl
@[simp] theorem Core.modTs_failing (k : Core) (t : Nat) (f : ThreadSet → ThreadSet) : (k.modTs t f).failing = k.failing := rfl
@[simp] theorem Core.modTs_chan (k : Core) (t : Nat) (f : ThreadSet → ThreadSet) : (k.modTs t f).chan = k.chan := rfl
@[simp] theorem Core.modTs_mb (k : Core) (t : Nat) (f : ThreadSet → ThreadSet) : (k.modTs t f).mb = k.mb := rfl
@[simp] theorem Core.modTs_recs (k : Core) (t : Nat) (f : ThreadSet → ThreadSet) : (k.modTs t f).recs = k.recs := rfl
@[simp] theorem Core.modTs_ringA (k : Core) (t : Nat) (f : ThreadSet → ThreadSet) : (k.modTs t f).ringA = k.ringA := rfl
@[simp] theorem Core.modTs_ringB (k : Core) (t : Nat) (f : ThreadSet → ThreadSet) : (k.modTs t f).ringB = k.ringB := rfl
@[simp] theorem Core.modTs_inBase (k : Core) (t : Nat) (f : ThreadSet → ThreadSet) : (k.modTs t f).inBase = k.inBase := rfl
@[simp] theorem Core.modTs_inSlots (k : Core) (t : Nat) (f : ThreadSet → ThreadSet) : (k.modTs t f).inSlots = k.inSlots := rfl
@[simp] theorem Core.modTs_pushedA (k : Core) (t : Nat) (f : ThreadSet → ThreadSet) : (k.modTs t f).pushedA = k.pushedA := rfl
@[simp] theorem Core.modTs_takenA (k : Core) (t : Nat) (f : ThreadSet → ThreadSet) : (k.modTs t f).takenA = k.takenA := rfl
@[simp] theorem Core.modTs_pushedB (k : Core) (t : Nat) (f : ThreadSet → ThreadSet) : (k.modTs t f).pushedB = k.pushedB := rfl
@[simp] theorem Core.modTs_takenB (k : Core) (t : Nat) (f : ThreadSet → ThreadSet) : (k.modTs t f).takenB = k.takenB := rfl
@[simp] theorem Core.modTs_deferred (k : Core) (t : Nat) (f : ThreadSet → ThreadSet) : (k.modTs t f).deferred = k.deferred := rfl
@[simp] theorem Core.modTs_sevens (k : Core) (t : Nat) (f : ThreadSet → ThreadSet) : (k.modTs t f).sevens = k.sevens := rfl
@[simp] theorem Core.modTs_recTab (k : Core) (t : Nat) (f : ThreadSet → ThreadSet) : (k.modTs t f).recTab = k.recTab := rfl
@[simp] theorem Core.modTs_events (k : Core) (t : Nat) (f : ThreadSet → ThreadSet) : (k.modTs t f).events = k.events := rfl
@[simp] theorem Core.modTs_hold (k : Core) (t : Nat) (f : ThreadSet → ThreadSet) : (k.modTs t f).hold = k.hold := rfl
@[simp] theorem Core.modTs_msgNo (k : Core) (t : Nat) (f : ThreadSet → ThreadSet) : (k.modTs t f).msgNo = k.msgNo := rfl
@[simp] theorem Core.modTs_link (k : Core) (t : Nat) (f : ThreadSet → ThreadSet) : (k.modTs t f).link = k.link := rfl
@[simp] theorem Core.modTs_jobs (k : Core) (t : Nat) (f : ThreadSet → ThreadSet) : (k.modTs t f).jobs = k.jobs := rfl
@[simp] theorem Core.modTs_jobNo (k : Core) (t : Nat) (f : ThreadSet → ThreadSet) : (k.modTs t f).jobNo = k.jobNo := rfl
@[simp] theorem Core.modTs_casts (k : Core) (t : Nat) (f : ThreadSet → ThreadSet) : (k.modTs t f).casts = k.casts := rfl
@[simp] theorem Core.modTs_rounds (k : Core) (t : Nat) (f : ThreadSet → ThreadSet) : (k.modTs t f).rounds = k.rounds := rfl
@[simp] theorem Core.modTs_count (k : Core) (t : Nat) (f : ThreadSet → ThreadSet) : (k.modTs t f).count = k.count := rfl
@[simp] theorem Core.modTs_halted (k : Core) (t : Nat) (f : ThreadSet → ThreadSet) : (k.modTs t f).halted = k.halted := rfl
@[simp] theorem Core.modTs_schur (k : Core) (t : Nat) (f : ThreadSet → ThreadSet) : (k.modTs t f).schur = k.schur := rfl
@[simp] theorem Core.modTs_last (k : Core) (t : Nat) (f : ThreadSet → ThreadSet) : (k.modTs t f).last = k.last := rfl
@[simp] theorem Core.modTs_poolFirst (k : Core) (t : Nat) (f : ThreadSet → ThreadSet) : (k.modTs t f).poolFirst = k.poolFirst := rfl
@[simp] theorem Core.modTs_poolLast (k : Core) (t : Nat) (f : ThreadSet → ThreadSet) : (k.modTs t f).poolLast = k.poolLast := rfl
@[simp] theorem Core.modTs_poolUsed (k : Core) (t : Nat) (f : ThreadSet → ThreadSet) : (k.modTs t f).poolUsed = k.poolUsed := rfl
@[simp] theorem Core.modTs_frames (k : Core) (t : Nat) (f : ThreadSet → ThreadSet) : (k.modTs t f).frames = k.frames := rfl
@[simp] theorem Core.modTs_bases (k : Core) (t : Nat) (f : ThreadSet → ThreadSet) : (k.modTs t f).bases = k.bases := rfl
@[simp] theorem Core.modTs_segDir (k : Core) (t : Nat) (f : ThreadSet → ThreadSet) : (k.modTs t f).segDir = k.segDir := rfl
@[simp] theorem Core.modTs_handlerEntry (k : Core) (t : Nat) (f : ThreadSet → ThreadSet) : (k.modTs t f).handlerEntry = k.handlerEntry := rfl
@[simp] theorem Core.modTs_uprivSup (k : Core) (t : Nat) (f : ThreadSet → ThreadSet) : (k.modTs t f).uprivSup = k.uprivSup := rfl
@[simp] theorem Core.modTs_log (k : Core) (t : Nat) (f : ThreadSet → ThreadSet) : (k.modTs t f).log = k.log := rfl
@[simp] theorem Core.modTs_part (k : Core) (t : Nat) (f : ThreadSet → ThreadSet) : (k.modTs t f).part = k.part := rfl
@[simp] theorem Core.modTs_placed (k : Core) (t : Nat) (f : ThreadSet → ThreadSet) : (k.modTs t f).placed = k.placed := rfl
@[simp] theorem Core.modTs_initial (k : Core) (t : Nat) (f : ThreadSet → ThreadSet) : (k.modTs t f).initial = k.initial := rfl
@[simp] theorem Core.modTs_gangOwed (k : Core) (t : Nat) (f : ThreadSet → ThreadSet) : (k.modTs t f).gangOwed = k.gangOwed := rfl
@[simp] theorem Core.modTs_lastIssue (k : Core) (t : Nat) (f : ThreadSet → ThreadSet) : (k.modTs t f).lastIssue = k.lastIssue := rfl
@[simp] theorem Core.modTs_seen (k : Core) (t : Nat) (f : ThreadSet → ThreadSet) : (k.modTs t f).seen = k.seen := rfl
@[simp] theorem Core.modTs_active (k : Core) (t : Nat) (f : ThreadSet → ThreadSet) : (k.modTs t f).active = k.active := rfl
@[simp] theorem Core.modTs_idled (k : Core) (t : Nat) (f : ThreadSet → ThreadSet) : (k.modTs t f).idled = k.idled := rfl
@[simp] theorem Core.modTs_issueDue (k : Core) (t : Nat) (f : ThreadSet → ThreadSet) : (k.modTs t f).issueDue = k.issueDue := rfl
@[simp] theorem Core.modTs_divDue (k : Core) (t : Nat) (f : ThreadSet → ThreadSet) : (k.modTs t f).divDue = k.divDue := rfl

/-! ## A core: what stands beside a word -/

@[simp] theorem Core.setSide_ts (k : Core) (a : Nat) (s : Side) : (k.setSide a s).ts = k.ts := rfl
@[simp] theorem Core.setSide_mem (k : Core) (a : Nat) (s : Side) : (k.setSide a s).mem = k.mem := rfl
@[simp] theorem Core.setSide_imem (k : Core) (a : Nat) (s : Side) : (k.setSide a s).imem = k.imem := rfl
@[simp] theorem Core.setSide_imemEcc (k : Core) (a : Nat) (s : Side) : (k.setSide a s).imemEcc = k.imemEcc := rfl
@[simp] theorem Core.setSide_seg (k : Core) (a : Nat) (s : Side) : (k.setSide a s).seg = k.seg := rfl
@[simp] theorem Core.setSide_acc (k : Core) (a : Nat) (s : Side) : (k.setSide a s).acc = k.acc := rfl
@[simp] theorem Core.setSide_shadow (k : Core) (a : Nat) (s : Side) : (k.setSide a s).shadow = k.shadow := rfl
@[simp] theorem Core.setSide_owner (k : Core) (a : Nat) (s : Side) : (k.setSide a s).owner = k.owner := rfl
@[simp] theorem Core.setSide_mat (k : Core) (a : Nat) (s : Side) : (k.setSide a s).mat = k.mat := rfl
@[simp] theorem Core.setSide_sinceReh (k : Core) (a : Nat) (s : Side) : (k.setSide a s).sinceReh = k.sinceReh := rfl
@[simp] theorem Core.setSide_rehEnd (k : Core) (a : Nat) (s : Side) : (k.setSide a s).rehEnd = k.rehEnd := rfl
@[simp] theorem Core.setSide_period (k : Core) (a : Nat) (s : Side) : (k.setSide a s).period = k.period := rfl
@[simp] theorem Core.setSide_fence (k : Core) (a : Nat) (s : Side) : (k.setSide a s).fence = k.fence := rfl
@[simp] theorem Core.setSide_failing (k : Core) (a : Nat) (s : Side) : (k.setSide a s).failing = k.failing := rfl
@[simp] theorem Core.setSide_chan (k : Core) (a : Nat) (s : Side) : (k.setSide a s).chan = k.chan := rfl
@[simp] theorem Core.setSide_mb (k : Core) (a : Nat) (s : Side) : (k.setSide a s).mb = k.mb := rfl
@[simp] theorem Core.setSide_recs (k : Core) (a : Nat) (s : Side) : (k.setSide a s).recs = k.recs := rfl
@[simp] theorem Core.setSide_ringA (k : Core) (a : Nat) (s : Side) : (k.setSide a s).ringA = k.ringA := rfl
@[simp] theorem Core.setSide_ringB (k : Core) (a : Nat) (s : Side) : (k.setSide a s).ringB = k.ringB := rfl
@[simp] theorem Core.setSide_inBase (k : Core) (a : Nat) (s : Side) : (k.setSide a s).inBase = k.inBase := rfl
@[simp] theorem Core.setSide_inSlots (k : Core) (a : Nat) (s : Side) : (k.setSide a s).inSlots = k.inSlots := rfl
@[simp] theorem Core.setSide_pushedA (k : Core) (a : Nat) (s : Side) : (k.setSide a s).pushedA = k.pushedA := rfl
@[simp] theorem Core.setSide_takenA (k : Core) (a : Nat) (s : Side) : (k.setSide a s).takenA = k.takenA := rfl
@[simp] theorem Core.setSide_pushedB (k : Core) (a : Nat) (s : Side) : (k.setSide a s).pushedB = k.pushedB := rfl
@[simp] theorem Core.setSide_takenB (k : Core) (a : Nat) (s : Side) : (k.setSide a s).takenB = k.takenB := rfl
@[simp] theorem Core.setSide_deferred (k : Core) (a : Nat) (s : Side) : (k.setSide a s).deferred = k.deferred := rfl
@[simp] theorem Core.setSide_sevens (k : Core) (a : Nat) (s : Side) : (k.setSide a s).sevens = k.sevens := rfl
@[simp] theorem Core.setSide_recTab (k : Core) (a : Nat) (s : Side) : (k.setSide a s).recTab = k.recTab := rfl
@[simp] theorem Core.setSide_events (k : Core) (a : Nat) (s : Side) : (k.setSide a s).events = k.events := rfl
@[simp] theorem Core.setSide_hold (k : Core) (a : Nat) (s : Side) : (k.setSide a s).hold = k.hold := rfl
@[simp] theorem Core.setSide_msgNo (k : Core) (a : Nat) (s : Side) : (k.setSide a s).msgNo = k.msgNo := rfl
@[simp] theorem Core.setSide_link (k : Core) (a : Nat) (s : Side) : (k.setSide a s).link = k.link := rfl
@[simp] theorem Core.setSide_jobs (k : Core) (a : Nat) (s : Side) : (k.setSide a s).jobs = k.jobs := rfl
@[simp] theorem Core.setSide_jobNo (k : Core) (a : Nat) (s : Side) : (k.setSide a s).jobNo = k.jobNo := rfl
@[simp] theorem Core.setSide_casts (k : Core) (a : Nat) (s : Side) : (k.setSide a s).casts = k.casts := rfl
@[simp] theorem Core.setSide_rounds (k : Core) (a : Nat) (s : Side) : (k.setSide a s).rounds = k.rounds := rfl
@[simp] theorem Core.setSide_count (k : Core) (a : Nat) (s : Side) : (k.setSide a s).count = k.count := rfl
@[simp] theorem Core.setSide_halted (k : Core) (a : Nat) (s : Side) : (k.setSide a s).halted = k.halted := rfl
@[simp] theorem Core.setSide_schur (k : Core) (a : Nat) (s : Side) : (k.setSide a s).schur = k.schur := rfl
@[simp] theorem Core.setSide_last (k : Core) (a : Nat) (s : Side) : (k.setSide a s).last = k.last := rfl
@[simp] theorem Core.setSide_poolFirst (k : Core) (a : Nat) (s : Side) : (k.setSide a s).poolFirst = k.poolFirst := rfl
@[simp] theorem Core.setSide_poolLast (k : Core) (a : Nat) (s : Side) : (k.setSide a s).poolLast = k.poolLast := rfl
@[simp] theorem Core.setSide_poolUsed (k : Core) (a : Nat) (s : Side) : (k.setSide a s).poolUsed = k.poolUsed := rfl
@[simp] theorem Core.setSide_frames (k : Core) (a : Nat) (s : Side) : (k.setSide a s).frames = k.frames := rfl
@[simp] theorem Core.setSide_bases (k : Core) (a : Nat) (s : Side) : (k.setSide a s).bases = k.bases := rfl
@[simp] theorem Core.setSide_segDir (k : Core) (a : Nat) (s : Side) : (k.setSide a s).segDir = k.segDir := rfl
@[simp] theorem Core.setSide_handlerEntry (k : Core) (a : Nat) (s : Side) : (k.setSide a s).handlerEntry = k.handlerEntry := rfl
@[simp] theorem Core.setSide_uprivSup (k : Core) (a : Nat) (s : Side) : (k.setSide a s).uprivSup = k.uprivSup := rfl
@[simp] theorem Core.setSide_log (k : Core) (a : Nat) (s : Side) : (k.setSide a s).log = k.log := rfl
@[simp] theorem Core.setSide_part (k : Core) (a : Nat) (s : Side) : (k.setSide a s).part = k.part := rfl
@[simp] theorem Core.setSide_placed (k : Core) (a : Nat) (s : Side) : (k.setSide a s).placed = k.placed := rfl
@[simp] theorem Core.setSide_initial (k : Core) (a : Nat) (s : Side) : (k.setSide a s).initial = k.initial := rfl
@[simp] theorem Core.setSide_gangOwed (k : Core) (a : Nat) (s : Side) : (k.setSide a s).gangOwed = k.gangOwed := rfl
@[simp] theorem Core.setSide_lastIssue (k : Core) (a : Nat) (s : Side) : (k.setSide a s).lastIssue = k.lastIssue := rfl
@[simp] theorem Core.setSide_seen (k : Core) (a : Nat) (s : Side) : (k.setSide a s).seen = k.seen := rfl
@[simp] theorem Core.setSide_active (k : Core) (a : Nat) (s : Side) : (k.setSide a s).active = k.active := rfl
@[simp] theorem Core.setSide_idled (k : Core) (a : Nat) (s : Side) : (k.setSide a s).idled = k.idled := rfl
@[simp] theorem Core.setSide_issueDue (k : Core) (a : Nat) (s : Side) : (k.setSide a s).issueDue = k.issueDue := rfl
@[simp] theorem Core.setSide_divDue (k : Core) (a : Nat) (s : Side) : (k.setSide a s).divDue = k.divDue := rfl

/-! ## A core: bytes written -/

@[simp] theorem Core.poke_ts (k : Core) (cs : List (Nat × Byte)) : (k.poke cs).ts = k.ts := rfl
@[simp] theorem Core.poke_side (k : Core) (cs : List (Nat × Byte)) : (k.poke cs).side = k.side := rfl
@[simp] theorem Core.poke_imem (k : Core) (cs : List (Nat × Byte)) : (k.poke cs).imem = k.imem := rfl
@[simp] theorem Core.poke_imemEcc (k : Core) (cs : List (Nat × Byte)) : (k.poke cs).imemEcc = k.imemEcc := rfl
@[simp] theorem Core.poke_seg (k : Core) (cs : List (Nat × Byte)) : (k.poke cs).seg = k.seg := rfl
@[simp] theorem Core.poke_acc (k : Core) (cs : List (Nat × Byte)) : (k.poke cs).acc = k.acc := rfl
@[simp] theorem Core.poke_shadow (k : Core) (cs : List (Nat × Byte)) : (k.poke cs).shadow = k.shadow := rfl
@[simp] theorem Core.poke_owner (k : Core) (cs : List (Nat × Byte)) : (k.poke cs).owner = k.owner := rfl
@[simp] theorem Core.poke_mat (k : Core) (cs : List (Nat × Byte)) : (k.poke cs).mat = k.mat := rfl
@[simp] theorem Core.poke_sinceReh (k : Core) (cs : List (Nat × Byte)) : (k.poke cs).sinceReh = k.sinceReh := rfl
@[simp] theorem Core.poke_rehEnd (k : Core) (cs : List (Nat × Byte)) : (k.poke cs).rehEnd = k.rehEnd := rfl
@[simp] theorem Core.poke_period (k : Core) (cs : List (Nat × Byte)) : (k.poke cs).period = k.period := rfl
@[simp] theorem Core.poke_fence (k : Core) (cs : List (Nat × Byte)) : (k.poke cs).fence = k.fence := rfl
@[simp] theorem Core.poke_failing (k : Core) (cs : List (Nat × Byte)) : (k.poke cs).failing = k.failing := rfl
@[simp] theorem Core.poke_chan (k : Core) (cs : List (Nat × Byte)) : (k.poke cs).chan = k.chan := rfl
@[simp] theorem Core.poke_mb (k : Core) (cs : List (Nat × Byte)) : (k.poke cs).mb = k.mb := rfl
@[simp] theorem Core.poke_recs (k : Core) (cs : List (Nat × Byte)) : (k.poke cs).recs = k.recs := rfl
@[simp] theorem Core.poke_ringA (k : Core) (cs : List (Nat × Byte)) : (k.poke cs).ringA = k.ringA := rfl
@[simp] theorem Core.poke_ringB (k : Core) (cs : List (Nat × Byte)) : (k.poke cs).ringB = k.ringB := rfl
@[simp] theorem Core.poke_inBase (k : Core) (cs : List (Nat × Byte)) : (k.poke cs).inBase = k.inBase := rfl
@[simp] theorem Core.poke_inSlots (k : Core) (cs : List (Nat × Byte)) : (k.poke cs).inSlots = k.inSlots := rfl
@[simp] theorem Core.poke_pushedA (k : Core) (cs : List (Nat × Byte)) : (k.poke cs).pushedA = k.pushedA := rfl
@[simp] theorem Core.poke_takenA (k : Core) (cs : List (Nat × Byte)) : (k.poke cs).takenA = k.takenA := rfl
@[simp] theorem Core.poke_pushedB (k : Core) (cs : List (Nat × Byte)) : (k.poke cs).pushedB = k.pushedB := rfl
@[simp] theorem Core.poke_takenB (k : Core) (cs : List (Nat × Byte)) : (k.poke cs).takenB = k.takenB := rfl
@[simp] theorem Core.poke_deferred (k : Core) (cs : List (Nat × Byte)) : (k.poke cs).deferred = k.deferred := rfl
@[simp] theorem Core.poke_sevens (k : Core) (cs : List (Nat × Byte)) : (k.poke cs).sevens = k.sevens := rfl
@[simp] theorem Core.poke_recTab (k : Core) (cs : List (Nat × Byte)) : (k.poke cs).recTab = k.recTab := rfl
@[simp] theorem Core.poke_events (k : Core) (cs : List (Nat × Byte)) : (k.poke cs).events = k.events := rfl
@[simp] theorem Core.poke_hold (k : Core) (cs : List (Nat × Byte)) : (k.poke cs).hold = k.hold := rfl
@[simp] theorem Core.poke_msgNo (k : Core) (cs : List (Nat × Byte)) : (k.poke cs).msgNo = k.msgNo := rfl
@[simp] theorem Core.poke_link (k : Core) (cs : List (Nat × Byte)) : (k.poke cs).link = k.link := rfl
@[simp] theorem Core.poke_jobs (k : Core) (cs : List (Nat × Byte)) : (k.poke cs).jobs = k.jobs := rfl
@[simp] theorem Core.poke_jobNo (k : Core) (cs : List (Nat × Byte)) : (k.poke cs).jobNo = k.jobNo := rfl
@[simp] theorem Core.poke_casts (k : Core) (cs : List (Nat × Byte)) : (k.poke cs).casts = k.casts := rfl
@[simp] theorem Core.poke_rounds (k : Core) (cs : List (Nat × Byte)) : (k.poke cs).rounds = k.rounds := rfl
@[simp] theorem Core.poke_count (k : Core) (cs : List (Nat × Byte)) : (k.poke cs).count = k.count := rfl
@[simp] theorem Core.poke_halted (k : Core) (cs : List (Nat × Byte)) : (k.poke cs).halted = k.halted := rfl
@[simp] theorem Core.poke_schur (k : Core) (cs : List (Nat × Byte)) : (k.poke cs).schur = k.schur := rfl
@[simp] theorem Core.poke_last (k : Core) (cs : List (Nat × Byte)) : (k.poke cs).last = k.last := rfl
@[simp] theorem Core.poke_poolFirst (k : Core) (cs : List (Nat × Byte)) : (k.poke cs).poolFirst = k.poolFirst := rfl
@[simp] theorem Core.poke_poolLast (k : Core) (cs : List (Nat × Byte)) : (k.poke cs).poolLast = k.poolLast := rfl
@[simp] theorem Core.poke_poolUsed (k : Core) (cs : List (Nat × Byte)) : (k.poke cs).poolUsed = k.poolUsed := rfl
@[simp] theorem Core.poke_frames (k : Core) (cs : List (Nat × Byte)) : (k.poke cs).frames = k.frames := rfl
@[simp] theorem Core.poke_bases (k : Core) (cs : List (Nat × Byte)) : (k.poke cs).bases = k.bases := rfl
@[simp] theorem Core.poke_segDir (k : Core) (cs : List (Nat × Byte)) : (k.poke cs).segDir = k.segDir := rfl
@[simp] theorem Core.poke_handlerEntry (k : Core) (cs : List (Nat × Byte)) : (k.poke cs).handlerEntry = k.handlerEntry := rfl
@[simp] theorem Core.poke_uprivSup (k : Core) (cs : List (Nat × Byte)) : (k.poke cs).uprivSup = k.uprivSup := rfl
@[simp] theorem Core.poke_log (k : Core) (cs : List (Nat × Byte)) : (k.poke cs).log = k.log := rfl
@[simp] theorem Core.poke_part (k : Core) (cs : List (Nat × Byte)) : (k.poke cs).part = k.part := rfl
@[simp] theorem Core.poke_placed (k : Core) (cs : List (Nat × Byte)) : (k.poke cs).placed = k.placed := rfl
@[simp] theorem Core.poke_initial (k : Core) (cs : List (Nat × Byte)) : (k.poke cs).initial = k.initial := rfl
@[simp] theorem Core.poke_gangOwed (k : Core) (cs : List (Nat × Byte)) : (k.poke cs).gangOwed = k.gangOwed := rfl
@[simp] theorem Core.poke_lastIssue (k : Core) (cs : List (Nat × Byte)) : (k.poke cs).lastIssue = k.lastIssue := rfl
@[simp] theorem Core.poke_seen (k : Core) (cs : List (Nat × Byte)) : (k.poke cs).seen = k.seen := rfl
@[simp] theorem Core.poke_active (k : Core) (cs : List (Nat × Byte)) : (k.poke cs).active = k.active := rfl
@[simp] theorem Core.poke_idled (k : Core) (cs : List (Nat × Byte)) : (k.poke cs).idled = k.idled := rfl
@[simp] theorem Core.poke_issueDue (k : Core) (cs : List (Nat × Byte)) : (k.poke cs).issueDue = k.issueDue := rfl
@[simp] theorem Core.poke_divDue (k : Core) (cs : List (Nat × Byte)) : (k.poke cs).divDue = k.divDue := rfl

/-! ## A core: a context record changed -/

@[simp] theorem Core.modRec_ts (k : Core) (i : Nat) (f : Rec → Rec) : (k.modRec i f).ts = k.ts := rfl
@[simp] theorem Core.modRec_mem (k : Core) (i : Nat) (f : Rec → Rec) : (k.modRec i f).mem = k.mem := rfl
@[simp] theorem Core.modRec_side (k : Core) (i : Nat) (f : Rec → Rec) : (k.modRec i f).side = k.side := rfl
@[simp] theorem Core.modRec_imem (k : Core) (i : Nat) (f : Rec → Rec) : (k.modRec i f).imem = k.imem := rfl
@[simp] theorem Core.modRec_imemEcc (k : Core) (i : Nat) (f : Rec → Rec) : (k.modRec i f).imemEcc = k.imemEcc := rfl
@[simp] theorem Core.modRec_seg (k : Core) (i : Nat) (f : Rec → Rec) : (k.modRec i f).seg = k.seg := rfl
@[simp] theorem Core.modRec_acc (k : Core) (i : Nat) (f : Rec → Rec) : (k.modRec i f).acc = k.acc := rfl
@[simp] theorem Core.modRec_shadow (k : Core) (i : Nat) (f : Rec → Rec) : (k.modRec i f).shadow = k.shadow := rfl
@[simp] theorem Core.modRec_owner (k : Core) (i : Nat) (f : Rec → Rec) : (k.modRec i f).owner = k.owner := rfl
@[simp] theorem Core.modRec_mat (k : Core) (i : Nat) (f : Rec → Rec) : (k.modRec i f).mat = k.mat := rfl
@[simp] theorem Core.modRec_sinceReh (k : Core) (i : Nat) (f : Rec → Rec) : (k.modRec i f).sinceReh = k.sinceReh := rfl
@[simp] theorem Core.modRec_rehEnd (k : Core) (i : Nat) (f : Rec → Rec) : (k.modRec i f).rehEnd = k.rehEnd := rfl
@[simp] theorem Core.modRec_period (k : Core) (i : Nat) (f : Rec → Rec) : (k.modRec i f).period = k.period := rfl
@[simp] theorem Core.modRec_fence (k : Core) (i : Nat) (f : Rec → Rec) : (k.modRec i f).fence = k.fence := rfl
@[simp] theorem Core.modRec_failing (k : Core) (i : Nat) (f : Rec → Rec) : (k.modRec i f).failing = k.failing := rfl
@[simp] theorem Core.modRec_chan (k : Core) (i : Nat) (f : Rec → Rec) : (k.modRec i f).chan = k.chan := rfl
@[simp] theorem Core.modRec_mb (k : Core) (i : Nat) (f : Rec → Rec) : (k.modRec i f).mb = k.mb := rfl
@[simp] theorem Core.modRec_recs (k : Core) (i : Nat) (f : Rec → Rec) : (k.modRec i f).recs = k.recs := rfl
@[simp] theorem Core.modRec_ringA (k : Core) (i : Nat) (f : Rec → Rec) : (k.modRec i f).ringA = k.ringA := rfl
@[simp] theorem Core.modRec_ringB (k : Core) (i : Nat) (f : Rec → Rec) : (k.modRec i f).ringB = k.ringB := rfl
@[simp] theorem Core.modRec_inBase (k : Core) (i : Nat) (f : Rec → Rec) : (k.modRec i f).inBase = k.inBase := rfl
@[simp] theorem Core.modRec_inSlots (k : Core) (i : Nat) (f : Rec → Rec) : (k.modRec i f).inSlots = k.inSlots := rfl
@[simp] theorem Core.modRec_pushedA (k : Core) (i : Nat) (f : Rec → Rec) : (k.modRec i f).pushedA = k.pushedA := rfl
@[simp] theorem Core.modRec_takenA (k : Core) (i : Nat) (f : Rec → Rec) : (k.modRec i f).takenA = k.takenA := rfl
@[simp] theorem Core.modRec_pushedB (k : Core) (i : Nat) (f : Rec → Rec) : (k.modRec i f).pushedB = k.pushedB := rfl
@[simp] theorem Core.modRec_takenB (k : Core) (i : Nat) (f : Rec → Rec) : (k.modRec i f).takenB = k.takenB := rfl
@[simp] theorem Core.modRec_deferred (k : Core) (i : Nat) (f : Rec → Rec) : (k.modRec i f).deferred = k.deferred := rfl
@[simp] theorem Core.modRec_sevens (k : Core) (i : Nat) (f : Rec → Rec) : (k.modRec i f).sevens = k.sevens := rfl
@[simp] theorem Core.modRec_events (k : Core) (i : Nat) (f : Rec → Rec) : (k.modRec i f).events = k.events := rfl
@[simp] theorem Core.modRec_hold (k : Core) (i : Nat) (f : Rec → Rec) : (k.modRec i f).hold = k.hold := rfl
@[simp] theorem Core.modRec_msgNo (k : Core) (i : Nat) (f : Rec → Rec) : (k.modRec i f).msgNo = k.msgNo := rfl
@[simp] theorem Core.modRec_link (k : Core) (i : Nat) (f : Rec → Rec) : (k.modRec i f).link = k.link := rfl
@[simp] theorem Core.modRec_jobs (k : Core) (i : Nat) (f : Rec → Rec) : (k.modRec i f).jobs = k.jobs := rfl
@[simp] theorem Core.modRec_jobNo (k : Core) (i : Nat) (f : Rec → Rec) : (k.modRec i f).jobNo = k.jobNo := rfl
@[simp] theorem Core.modRec_casts (k : Core) (i : Nat) (f : Rec → Rec) : (k.modRec i f).casts = k.casts := rfl
@[simp] theorem Core.modRec_rounds (k : Core) (i : Nat) (f : Rec → Rec) : (k.modRec i f).rounds = k.rounds := rfl
@[simp] theorem Core.modRec_count (k : Core) (i : Nat) (f : Rec → Rec) : (k.modRec i f).count = k.count := rfl
@[simp] theorem Core.modRec_halted (k : Core) (i : Nat) (f : Rec → Rec) : (k.modRec i f).halted = k.halted := rfl
@[simp] theorem Core.modRec_schur (k : Core) (i : Nat) (f : Rec → Rec) : (k.modRec i f).schur = k.schur := rfl
@[simp] theorem Core.modRec_last (k : Core) (i : Nat) (f : Rec → Rec) : (k.modRec i f).last = k.last := rfl
@[simp] theorem Core.modRec_poolFirst (k : Core) (i : Nat) (f : Rec → Rec) : (k.modRec i f).poolFirst = k.poolFirst := rfl
@[simp] theorem Core.modRec_poolLast (k : Core) (i : Nat) (f : Rec → Rec) : (k.modRec i f).poolLast = k.poolLast := rfl
@[simp] theorem Core.modRec_poolUsed (k : Core) (i : Nat) (f : Rec → Rec) : (k.modRec i f).poolUsed = k.poolUsed := rfl
@[simp] theorem Core.modRec_frames (k : Core) (i : Nat) (f : Rec → Rec) : (k.modRec i f).frames = k.frames := rfl
@[simp] theorem Core.modRec_bases (k : Core) (i : Nat) (f : Rec → Rec) : (k.modRec i f).bases = k.bases := rfl
@[simp] theorem Core.modRec_segDir (k : Core) (i : Nat) (f : Rec → Rec) : (k.modRec i f).segDir = k.segDir := rfl
@[simp] theorem Core.modRec_handlerEntry (k : Core) (i : Nat) (f : Rec → Rec) : (k.modRec i f).handlerEntry = k.handlerEntry := rfl
@[simp] theorem Core.modRec_uprivSup (k : Core) (i : Nat) (f : Rec → Rec) : (k.modRec i f).uprivSup = k.uprivSup := rfl
@[simp] theorem Core.modRec_log (k : Core) (i : Nat) (f : Rec → Rec) : (k.modRec i f).log = k.log := rfl
@[simp] theorem Core.modRec_part (k : Core) (i : Nat) (f : Rec → Rec) : (k.modRec i f).part = k.part := rfl
@[simp] theorem Core.modRec_placed (k : Core) (i : Nat) (f : Rec → Rec) : (k.modRec i f).placed = k.placed := rfl
@[simp] theorem Core.modRec_initial (k : Core) (i : Nat) (f : Rec → Rec) : (k.modRec i f).initial = k.initial := rfl
@[simp] theorem Core.modRec_gangOwed (k : Core) (i : Nat) (f : Rec → Rec) : (k.modRec i f).gangOwed = k.gangOwed := rfl
@[simp] theorem Core.modRec_lastIssue (k : Core) (i : Nat) (f : Rec → Rec) : (k.modRec i f).lastIssue = k.lastIssue := rfl
@[simp] theorem Core.modRec_seen (k : Core) (i : Nat) (f : Rec → Rec) : (k.modRec i f).seen = k.seen := rfl
@[simp] theorem Core.modRec_active (k : Core) (i : Nat) (f : Rec → Rec) : (k.modRec i f).active = k.active := rfl
@[simp] theorem Core.modRec_idled (k : Core) (i : Nat) (f : Rec → Rec) : (k.modRec i f).idled = k.idled := rfl
@[simp] theorem Core.modRec_issueDue (k : Core) (i : Nat) (f : Rec → Rec) : (k.modRec i f).issueDue = k.issueDue := rfl
@[simp] theorem Core.modRec_divDue (k : Core) (i : Nat) (f : Rec → Rec) : (k.modRec i f).divDue = k.divDue := rfl

/-! ## A thread set: a scalar register written -/

@[simp] theorem ThreadSet.setX_busy (t : ThreadSet) (n : RegNo) (v : Word) : (t.setX n v).busy = t.busy := by unfold ThreadSet.setX; split <;> rfl
@[simp] theorem ThreadSet.setX_pc (t : ThreadSet) (n : RegNo) (v : Word) : (t.setX n v).pc = t.pc := by unfold ThreadSet.setX; split <;> rfl
@[simp] theorem ThreadSet.setX_v (t : ThreadSet) (n : RegNo) (v : Word) : (t.setX n v).v = t.v := by unfold ThreadSet.setX; split <;> rfl
@[simp] theorem ThreadSet.setX_p (t : ThreadSet) (n : RegNo) (v : Word) : (t.setX n v).p = t.p := by unfold ThreadSet.setX; split <;> rfl
@[simp] theorem ThreadSet.setX_d (t : ThreadSet) (n : RegNo) (v : Word) : (t.setX n v).d = t.d := by unfold ThreadSet.setX; split <;> rfl
@[simp] theorem ThreadSet.setX_sd (t : ThreadSet) (n : RegNo) (v : Word) : (t.setX n v).sd = t.sd := by unfold ThreadSet.setX; split <;> rfl
@[simp] theorem ThreadSet.setX_tc (t : ThreadSet) (n : RegNo) (v : Word) : (t.setX n v).tc = t.tc := by unfold ThreadSet.setX; split <;> rfl
@[simp] theorem ThreadSet.setX_eos (t : ThreadSet) (n : RegNo) (v : Word) : (t.setX n v).eos = t.eos := by unfold ThreadSet.setX; split <;> rfl
@[simp] theorem ThreadSet.setX_prt (t : ThreadSet) (n : RegNo) (v : Word) : (t.setX n v).prt = t.prt := by unfold ThreadSet.setX; split <;> rfl
@[simp] theorem ThreadSet.setX_cho (t : ThreadSet) (n : RegNo) (v : Word) : (t.setX n v).cho = t.cho := by unfold ThreadSet.setX; split <;> rfl
@[simp] theorem ThreadSet.setX_fol (t : ThreadSet) (n : RegNo) (v : Word) : (t.setX n v).fol = t.fol := by unfold ThreadSet.setX; split <;> rfl
@[simp] theorem ThreadSet.setX_sup (t : ThreadSet) (n : RegNo) (v : Word) : (t.setX n v).sup = t.sup := by unfold ThreadSet.setX; split <;> rfl
@[simp] theorem ThreadSet.setX_priv (t : ThreadSet) (n : RegNo) (v : Word) : (t.setX n v).priv = t.priv := by unfold ThreadSet.setX; split <;> rfl
@[simp] theorem ThreadSet.setX_kfflags (t : ThreadSet) (n : RegNo) (v : Word) : (t.setX n v).kfflags = t.kfflags := by unfold ThreadSet.setX; split <;> rfl
@[simp] theorem ThreadSet.setX_kfmta (t : ThreadSet) (n : RegNo) (v : Word) : (t.setX n v).kfmta = t.kfmta := by unfold ThreadSet.setX; split <;> rfl
@[simp] theorem ThreadSet.setX_kfmtb (t : ThreadSet) (n : RegNo) (v : Word) : (t.setX n v).kfmtb = t.kfmtb := by unfold ThreadSet.setX; split <;> rfl
@[simp] theorem ThreadSet.setX_kscla (t : ThreadSet) (n : RegNo) (v : Word) : (t.setX n v).kscla = t.kscla := by unfold ThreadSet.setX; split <;> rfl
@[simp] theorem ThreadSet.setX_ksclb (t : ThreadSet) (n : RegNo) (v : Word) : (t.setX n v).ksclb = t.ksclb := by unfold ThreadSet.setX; split <;> rfl
@[simp] theorem ThreadSet.setX_kplanes (t : ThreadSet) (n : RegNo) (v : Word) : (t.setX n v).kplanes = t.kplanes := by unfold ThreadSet.setX; split <;> rfl
@[simp] theorem ThreadSet.setX_kgpiv (t : ThreadSet) (n : RegNo) (v : Word) : (t.setX n v).kgpiv = t.kgpiv := by unfold ThreadSet.setX; split <;> rfl
@[simp] theorem ThreadSet.setX_kepcPc (t : ThreadSet) (n : RegNo) (v : Word) : (t.setX n v).kepcPc = t.kepcPc := by unfold ThreadSet.setX; split <;> rfl
@[simp] theorem ThreadSet.setX_kepcPriv (t : ThreadSet) (n : RegNo) (v : Word) : (t.setX n v).kepcPriv = t.kepcPriv := by unfold ThreadSet.setX; split <;> rfl
@[simp] theorem ThreadSet.setX_kvec (t : ThreadSet) (n : RegNo) (v : Word) : (t.setX n v).kvec = t.kvec := by unfold ThreadSet.setX; split <;> rfl
@[simp] theorem ThreadSet.setX_kfault (t : ThreadSet) (n : RegNo) (v : Word) : (t.setX n v).kfault = t.kfault := by unfold ThreadSet.setX; split <;> rfl
@[simp] theorem ThreadSet.setX_krgn (t : ThreadSet) (n : RegNo) (v : Word) : (t.setX n v).krgn = t.krgn := by unfold ThreadSet.setX; split <;> rfl
@[simp] theorem ThreadSet.setX_handler (t : ThreadSet) (n : RegNo) (v : Word) : (t.setX n v).handler = t.handler := by unfold ThreadSet.setX; split <;> rfl
@[simp] theorem ThreadSet.setX_event (t : ThreadSet) (n : RegNo) (v : Word) : (t.setX n v).event = t.event := by unfold ThreadSet.setX; split <;> rfl
@[simp] theorem ThreadSet.setX_followers (t : ThreadSet) (n : RegNo) (v : Word) : (t.setX n v).followers = t.followers := by unfold ThreadSet.setX; split <;> rfl
@[simp] theorem ThreadSet.setX_lead (t : ThreadSet) (n : RegNo) (v : Word) : (t.setX n v).lead = t.lead := by unfold ThreadSet.setX; split <;> rfl
@[simp] theorem ThreadSet.setX_desc (t : ThreadSet) (n : RegNo) (v : Word) : (t.setX n v).desc = t.desc := by unfold ThreadSet.setX; split <;> rfl
@[simp] theorem ThreadSet.setX_cid (t : ThreadSet) (n : RegNo) (v : Word) : (t.setX n v).cid = t.cid := by unfold ThreadSet.setX; split <;> rfl
@[simp] theorem ThreadSet.setX_pend (t : ThreadSet) (n : RegNo) (v : Word) : (t.setX n v).pend = t.pend := by unfold ThreadSet.setX; split <;> rfl
@[simp] theorem ThreadSet.setX_wait (t : ThreadSet) (n : RegNo) (v : Word) : (t.setX n v).wait = t.wait := by unfold ThreadSet.setX; split <;> rfl
@[simp] theorem ThreadSet.setX_far (t : ThreadSet) (n : RegNo) (v : Word) : (t.setX n v).far = t.far := by unfold ThreadSet.setX; split <;> rfl
@[simp] theorem ThreadSet.setX_farRec (t : ThreadSet) (n : RegNo) (v : Word) : (t.setX n v).farRec = t.farRec := by unfold ThreadSet.setX; split <;> rfl
@[simp] theorem ThreadSet.setX_farHdr (t : ThreadSet) (n : RegNo) (v : Word) : (t.setX n v).farHdr = t.farHdr := by unfold ThreadSet.setX; split <;> rfl
@[simp] theorem ThreadSet.setX_tag (t : ThreadSet) (n : RegNo) (v : Word) : (t.setX n v).tag = t.tag := by unfold ThreadSet.setX; split <;> rfl
@[simp] theorem ThreadSet.setX_holds (t : ThreadSet) (n : RegNo) (v : Word) : (t.setX n v).holds = t.holds := by unfold ThreadSet.setX; split <;> rfl
@[simp] theorem ThreadSet.setX_elapsed (t : ThreadSet) (n : RegNo) (v : Word) : (t.setX n v).elapsed = t.elapsed := by unfold ThreadSet.setX; split <;> rfl
@[simp] theorem ThreadSet.setX_notBefore (t : ThreadSet) (n : RegNo) (v : Word) : (t.setX n v).notBefore = t.notBefore := by unfold ThreadSet.setX; split <;> rfl
@[simp] theorem ThreadSet.setX_issuedAt (t : ThreadSet) (n : RegNo) (v : Word) : (t.setX n v).issuedAt = t.issuedAt := by unfold ThreadSet.setX; split <;> rfl
@[simp] theorem ThreadSet.setX_due (t : ThreadSet) (n : RegNo) (v : Word) : (t.setX n v).due = t.due := by unfold ThreadSet.setX; split <;> rfl
@[simp] theorem ThreadSet.setX_doneJoin (t : ThreadSet) (n : RegNo) (v : Word) : (t.setX n v).doneJoin = t.doneJoin := by unfold ThreadSet.setX; split <;> rfl
@[simp] theorem ThreadSet.setX_dying (t : ThreadSet) (n : RegNo) (v : Word) : (t.setX n v).dying = t.dying := by unfold ThreadSet.setX; split <;> rfl
@[simp] theorem ThreadSet.setX_leaving (t : ThreadSet) (n : RegNo) (v : Word) : (t.setX n v).leaving = t.leaving := by unfold ThreadSet.setX; split <;> rfl

/-! ## A thread set: a vector register written -/

@[simp] theorem ThreadSet.setV_busy (t : ThreadSet) (n : RegNo) (v : V128) : (t.setV n v).busy = t.busy := rfl
@[simp] theorem ThreadSet.setV_pc (t : ThreadSet) (n : RegNo) (v : V128) : (t.setV n v).pc = t.pc := rfl
@[simp] theorem ThreadSet.setV_x (t : ThreadSet) (n : RegNo) (v : V128) : (t.setV n v).x = t.x := rfl
@[simp] theorem ThreadSet.setV_p (t : ThreadSet) (n : RegNo) (v : V128) : (t.setV n v).p = t.p := rfl
@[simp] theorem ThreadSet.setV_d (t : ThreadSet) (n : RegNo) (v : V128) : (t.setV n v).d = t.d := rfl
@[simp] theorem ThreadSet.setV_sd (t : ThreadSet) (n : RegNo) (v : V128) : (t.setV n v).sd = t.sd := rfl
@[simp] theorem ThreadSet.setV_tc (t : ThreadSet) (n : RegNo) (v : V128) : (t.setV n v).tc = t.tc := rfl
@[simp] theorem ThreadSet.setV_eos (t : ThreadSet) (n : RegNo) (v : V128) : (t.setV n v).eos = t.eos := rfl
@[simp] theorem ThreadSet.setV_prt (t : ThreadSet) (n : RegNo) (v : V128) : (t.setV n v).prt = t.prt := rfl
@[simp] theorem ThreadSet.setV_cho (t : ThreadSet) (n : RegNo) (v : V128) : (t.setV n v).cho = t.cho := rfl
@[simp] theorem ThreadSet.setV_fol (t : ThreadSet) (n : RegNo) (v : V128) : (t.setV n v).fol = t.fol := rfl
@[simp] theorem ThreadSet.setV_sup (t : ThreadSet) (n : RegNo) (v : V128) : (t.setV n v).sup = t.sup := rfl
@[simp] theorem ThreadSet.setV_priv (t : ThreadSet) (n : RegNo) (v : V128) : (t.setV n v).priv = t.priv := rfl
@[simp] theorem ThreadSet.setV_kfflags (t : ThreadSet) (n : RegNo) (v : V128) : (t.setV n v).kfflags = t.kfflags := rfl
@[simp] theorem ThreadSet.setV_kfmta (t : ThreadSet) (n : RegNo) (v : V128) : (t.setV n v).kfmta = t.kfmta := rfl
@[simp] theorem ThreadSet.setV_kfmtb (t : ThreadSet) (n : RegNo) (v : V128) : (t.setV n v).kfmtb = t.kfmtb := rfl
@[simp] theorem ThreadSet.setV_kscla (t : ThreadSet) (n : RegNo) (v : V128) : (t.setV n v).kscla = t.kscla := rfl
@[simp] theorem ThreadSet.setV_ksclb (t : ThreadSet) (n : RegNo) (v : V128) : (t.setV n v).ksclb = t.ksclb := rfl
@[simp] theorem ThreadSet.setV_kplanes (t : ThreadSet) (n : RegNo) (v : V128) : (t.setV n v).kplanes = t.kplanes := rfl
@[simp] theorem ThreadSet.setV_kgpiv (t : ThreadSet) (n : RegNo) (v : V128) : (t.setV n v).kgpiv = t.kgpiv := rfl
@[simp] theorem ThreadSet.setV_kepcPc (t : ThreadSet) (n : RegNo) (v : V128) : (t.setV n v).kepcPc = t.kepcPc := rfl
@[simp] theorem ThreadSet.setV_kepcPriv (t : ThreadSet) (n : RegNo) (v : V128) : (t.setV n v).kepcPriv = t.kepcPriv := rfl
@[simp] theorem ThreadSet.setV_kvec (t : ThreadSet) (n : RegNo) (v : V128) : (t.setV n v).kvec = t.kvec := rfl
@[simp] theorem ThreadSet.setV_kfault (t : ThreadSet) (n : RegNo) (v : V128) : (t.setV n v).kfault = t.kfault := rfl
@[simp] theorem ThreadSet.setV_krgn (t : ThreadSet) (n : RegNo) (v : V128) : (t.setV n v).krgn = t.krgn := rfl
@[simp] theorem ThreadSet.setV_handler (t : ThreadSet) (n : RegNo) (v : V128) : (t.setV n v).handler = t.handler := rfl
@[simp] theorem ThreadSet.setV_event (t : ThreadSet) (n : RegNo) (v : V128) : (t.setV n v).event = t.event := rfl
@[simp] theorem ThreadSet.setV_followers (t : ThreadSet) (n : RegNo) (v : V128) : (t.setV n v).followers = t.followers := rfl
@[simp] theorem ThreadSet.setV_lead (t : ThreadSet) (n : RegNo) (v : V128) : (t.setV n v).lead = t.lead := rfl
@[simp] theorem ThreadSet.setV_desc (t : ThreadSet) (n : RegNo) (v : V128) : (t.setV n v).desc = t.desc := rfl
@[simp] theorem ThreadSet.setV_cid (t : ThreadSet) (n : RegNo) (v : V128) : (t.setV n v).cid = t.cid := rfl
@[simp] theorem ThreadSet.setV_pend (t : ThreadSet) (n : RegNo) (v : V128) : (t.setV n v).pend = t.pend := rfl
@[simp] theorem ThreadSet.setV_wait (t : ThreadSet) (n : RegNo) (v : V128) : (t.setV n v).wait = t.wait := rfl
@[simp] theorem ThreadSet.setV_far (t : ThreadSet) (n : RegNo) (v : V128) : (t.setV n v).far = t.far := rfl
@[simp] theorem ThreadSet.setV_farRec (t : ThreadSet) (n : RegNo) (v : V128) : (t.setV n v).farRec = t.farRec := rfl
@[simp] theorem ThreadSet.setV_farHdr (t : ThreadSet) (n : RegNo) (v : V128) : (t.setV n v).farHdr = t.farHdr := rfl
@[simp] theorem ThreadSet.setV_tag (t : ThreadSet) (n : RegNo) (v : V128) : (t.setV n v).tag = t.tag := rfl
@[simp] theorem ThreadSet.setV_holds (t : ThreadSet) (n : RegNo) (v : V128) : (t.setV n v).holds = t.holds := rfl
@[simp] theorem ThreadSet.setV_elapsed (t : ThreadSet) (n : RegNo) (v : V128) : (t.setV n v).elapsed = t.elapsed := rfl
@[simp] theorem ThreadSet.setV_notBefore (t : ThreadSet) (n : RegNo) (v : V128) : (t.setV n v).notBefore = t.notBefore := rfl
@[simp] theorem ThreadSet.setV_issuedAt (t : ThreadSet) (n : RegNo) (v : V128) : (t.setV n v).issuedAt = t.issuedAt := rfl
@[simp] theorem ThreadSet.setV_due (t : ThreadSet) (n : RegNo) (v : V128) : (t.setV n v).due = t.due := rfl
@[simp] theorem ThreadSet.setV_doneJoin (t : ThreadSet) (n : RegNo) (v : V128) : (t.setV n v).doneJoin = t.doneJoin := rfl
@[simp] theorem ThreadSet.setV_dying (t : ThreadSet) (n : RegNo) (v : V128) : (t.setV n v).dying = t.dying := rfl
@[simp] theorem ThreadSet.setV_leaving (t : ThreadSet) (n : RegNo) (v : V128) : (t.setV n v).leaving = t.leaving := rfl

/-! ## A thread set: a predicate register written -/

@[simp] theorem ThreadSet.setP_busy (t : ThreadSet) (n : Nat) (v : BitVec 16) : (t.setP n v).busy = t.busy := by unfold ThreadSet.setP; split <;> rfl
@[simp] theorem ThreadSet.setP_pc (t : ThreadSet) (n : Nat) (v : BitVec 16) : (t.setP n v).pc = t.pc := by unfold ThreadSet.setP; split <;> rfl
@[simp] theorem ThreadSet.setP_x (t : ThreadSet) (n : Nat) (v : BitVec 16) : (t.setP n v).x = t.x := by unfold ThreadSet.setP; split <;> rfl
@[simp] theorem ThreadSet.setP_v (t : ThreadSet) (n : Nat) (v : BitVec 16) : (t.setP n v).v = t.v := by unfold ThreadSet.setP; split <;> rfl
@[simp] theorem ThreadSet.setP_d (t : ThreadSet) (n : Nat) (v : BitVec 16) : (t.setP n v).d = t.d := by unfold ThreadSet.setP; split <;> rfl
@[simp] theorem ThreadSet.setP_sd (t : ThreadSet) (n : Nat) (v : BitVec 16) : (t.setP n v).sd = t.sd := by unfold ThreadSet.setP; split <;> rfl
@[simp] theorem ThreadSet.setP_tc (t : ThreadSet) (n : Nat) (v : BitVec 16) : (t.setP n v).tc = t.tc := by unfold ThreadSet.setP; split <;> rfl
@[simp] theorem ThreadSet.setP_eos (t : ThreadSet) (n : Nat) (v : BitVec 16) : (t.setP n v).eos = t.eos := by unfold ThreadSet.setP; split <;> rfl
@[simp] theorem ThreadSet.setP_prt (t : ThreadSet) (n : Nat) (v : BitVec 16) : (t.setP n v).prt = t.prt := by unfold ThreadSet.setP; split <;> rfl
@[simp] theorem ThreadSet.setP_cho (t : ThreadSet) (n : Nat) (v : BitVec 16) : (t.setP n v).cho = t.cho := by unfold ThreadSet.setP; split <;> rfl
@[simp] theorem ThreadSet.setP_fol (t : ThreadSet) (n : Nat) (v : BitVec 16) : (t.setP n v).fol = t.fol := by unfold ThreadSet.setP; split <;> rfl
@[simp] theorem ThreadSet.setP_sup (t : ThreadSet) (n : Nat) (v : BitVec 16) : (t.setP n v).sup = t.sup := by unfold ThreadSet.setP; split <;> rfl
@[simp] theorem ThreadSet.setP_priv (t : ThreadSet) (n : Nat) (v : BitVec 16) : (t.setP n v).priv = t.priv := by unfold ThreadSet.setP; split <;> rfl
@[simp] theorem ThreadSet.setP_kfflags (t : ThreadSet) (n : Nat) (v : BitVec 16) : (t.setP n v).kfflags = t.kfflags := by unfold ThreadSet.setP; split <;> rfl
@[simp] theorem ThreadSet.setP_kfmta (t : ThreadSet) (n : Nat) (v : BitVec 16) : (t.setP n v).kfmta = t.kfmta := by unfold ThreadSet.setP; split <;> rfl
@[simp] theorem ThreadSet.setP_kfmtb (t : ThreadSet) (n : Nat) (v : BitVec 16) : (t.setP n v).kfmtb = t.kfmtb := by unfold ThreadSet.setP; split <;> rfl
@[simp] theorem ThreadSet.setP_kscla (t : ThreadSet) (n : Nat) (v : BitVec 16) : (t.setP n v).kscla = t.kscla := by unfold ThreadSet.setP; split <;> rfl
@[simp] theorem ThreadSet.setP_ksclb (t : ThreadSet) (n : Nat) (v : BitVec 16) : (t.setP n v).ksclb = t.ksclb := by unfold ThreadSet.setP; split <;> rfl
@[simp] theorem ThreadSet.setP_kplanes (t : ThreadSet) (n : Nat) (v : BitVec 16) : (t.setP n v).kplanes = t.kplanes := by unfold ThreadSet.setP; split <;> rfl
@[simp] theorem ThreadSet.setP_kgpiv (t : ThreadSet) (n : Nat) (v : BitVec 16) : (t.setP n v).kgpiv = t.kgpiv := by unfold ThreadSet.setP; split <;> rfl
@[simp] theorem ThreadSet.setP_kepcPc (t : ThreadSet) (n : Nat) (v : BitVec 16) : (t.setP n v).kepcPc = t.kepcPc := by unfold ThreadSet.setP; split <;> rfl
@[simp] theorem ThreadSet.setP_kepcPriv (t : ThreadSet) (n : Nat) (v : BitVec 16) : (t.setP n v).kepcPriv = t.kepcPriv := by unfold ThreadSet.setP; split <;> rfl
@[simp] theorem ThreadSet.setP_kvec (t : ThreadSet) (n : Nat) (v : BitVec 16) : (t.setP n v).kvec = t.kvec := by unfold ThreadSet.setP; split <;> rfl
@[simp] theorem ThreadSet.setP_kfault (t : ThreadSet) (n : Nat) (v : BitVec 16) : (t.setP n v).kfault = t.kfault := by unfold ThreadSet.setP; split <;> rfl
@[simp] theorem ThreadSet.setP_krgn (t : ThreadSet) (n : Nat) (v : BitVec 16) : (t.setP n v).krgn = t.krgn := by unfold ThreadSet.setP; split <;> rfl
@[simp] theorem ThreadSet.setP_handler (t : ThreadSet) (n : Nat) (v : BitVec 16) : (t.setP n v).handler = t.handler := by unfold ThreadSet.setP; split <;> rfl
@[simp] theorem ThreadSet.setP_event (t : ThreadSet) (n : Nat) (v : BitVec 16) : (t.setP n v).event = t.event := by unfold ThreadSet.setP; split <;> rfl
@[simp] theorem ThreadSet.setP_followers (t : ThreadSet) (n : Nat) (v : BitVec 16) : (t.setP n v).followers = t.followers := by unfold ThreadSet.setP; split <;> rfl
@[simp] theorem ThreadSet.setP_lead (t : ThreadSet) (n : Nat) (v : BitVec 16) : (t.setP n v).lead = t.lead := by unfold ThreadSet.setP; split <;> rfl
@[simp] theorem ThreadSet.setP_desc (t : ThreadSet) (n : Nat) (v : BitVec 16) : (t.setP n v).desc = t.desc := by unfold ThreadSet.setP; split <;> rfl
@[simp] theorem ThreadSet.setP_cid (t : ThreadSet) (n : Nat) (v : BitVec 16) : (t.setP n v).cid = t.cid := by unfold ThreadSet.setP; split <;> rfl
@[simp] theorem ThreadSet.setP_pend (t : ThreadSet) (n : Nat) (v : BitVec 16) : (t.setP n v).pend = t.pend := by unfold ThreadSet.setP; split <;> rfl
@[simp] theorem ThreadSet.setP_wait (t : ThreadSet) (n : Nat) (v : BitVec 16) : (t.setP n v).wait = t.wait := by unfold ThreadSet.setP; split <;> rfl
@[simp] theorem ThreadSet.setP_far (t : ThreadSet) (n : Nat) (v : BitVec 16) : (t.setP n v).far = t.far := by unfold ThreadSet.setP; split <;> rfl
@[simp] theorem ThreadSet.setP_farRec (t : ThreadSet) (n : Nat) (v : BitVec 16) : (t.setP n v).farRec = t.farRec := by unfold ThreadSet.setP; split <;> rfl
@[simp] theorem ThreadSet.setP_farHdr (t : ThreadSet) (n : Nat) (v : BitVec 16) : (t.setP n v).farHdr = t.farHdr := by unfold ThreadSet.setP; split <;> rfl
@[simp] theorem ThreadSet.setP_tag (t : ThreadSet) (n : Nat) (v : BitVec 16) : (t.setP n v).tag = t.tag := by unfold ThreadSet.setP; split <;> rfl
@[simp] theorem ThreadSet.setP_holds (t : ThreadSet) (n : Nat) (v : BitVec 16) : (t.setP n v).holds = t.holds := by unfold ThreadSet.setP; split <;> rfl
@[simp] theorem ThreadSet.setP_elapsed (t : ThreadSet) (n : Nat) (v : BitVec 16) : (t.setP n v).elapsed = t.elapsed := by unfold ThreadSet.setP; split <;> rfl
@[simp] theorem ThreadSet.setP_notBefore (t : ThreadSet) (n : Nat) (v : BitVec 16) : (t.setP n v).notBefore = t.notBefore := by unfold ThreadSet.setP; split <;> rfl
@[simp] theorem ThreadSet.setP_issuedAt (t : ThreadSet) (n : Nat) (v : BitVec 16) : (t.setP n v).issuedAt = t.issuedAt := by unfold ThreadSet.setP; split <;> rfl
@[simp] theorem ThreadSet.setP_due (t : ThreadSet) (n : Nat) (v : BitVec 16) : (t.setP n v).due = t.due := by unfold ThreadSet.setP; split <;> rfl
@[simp] theorem ThreadSet.setP_doneJoin (t : ThreadSet) (n : Nat) (v : BitVec 16) : (t.setP n v).doneJoin = t.doneJoin := by unfold ThreadSet.setP; split <;> rfl
@[simp] theorem ThreadSet.setP_dying (t : ThreadSet) (n : Nat) (v : BitVec 16) : (t.setP n v).dying = t.dying := by unfold ThreadSet.setP; split <;> rfl
@[simp] theorem ThreadSet.setP_leaving (t : ThreadSet) (n : Nat) (v : BitVec 16) : (t.setP n v).leaving = t.leaving := by unfold ThreadSet.setP; split <;> rfl

/-! ## A thread set: a stream slot replaced -/

@[simp] theorem ThreadSet.setSlot_busy (t : ThreadSet) (i : Nat) (s : Slot) : (t.setSlot i s).busy = t.busy := rfl
@[simp] theorem ThreadSet.setSlot_pc (t : ThreadSet) (i : Nat) (s : Slot) : (t.setSlot i s).pc = t.pc := rfl
@[simp] theorem ThreadSet.setSlot_x (t : ThreadSet) (i : Nat) (s : Slot) : (t.setSlot i s).x = t.x := rfl
@[simp] theorem ThreadSet.setSlot_v (t : ThreadSet) (i : Nat) (s : Slot) : (t.setSlot i s).v = t.v := rfl
@[simp] theorem ThreadSet.setSlot_p (t : ThreadSet) (i : Nat) (s : Slot) : (t.setSlot i s).p = t.p := rfl
@[simp] theorem ThreadSet.setSlot_d (t : ThreadSet) (i : Nat) (s : Slot) : (t.setSlot i s).d = t.d := rfl
@[simp] theorem ThreadSet.setSlot_tc (t : ThreadSet) (i : Nat) (s : Slot) : (t.setSlot i s).tc = t.tc := rfl
@[simp] theorem ThreadSet.setSlot_eos (t : ThreadSet) (i : Nat) (s : Slot) : (t.setSlot i s).eos = t.eos := rfl
@[simp] theorem ThreadSet.setSlot_prt (t : ThreadSet) (i : Nat) (s : Slot) : (t.setSlot i s).prt = t.prt := rfl
@[simp] theorem ThreadSet.setSlot_cho (t : ThreadSet) (i : Nat) (s : Slot) : (t.setSlot i s).cho = t.cho := rfl
@[simp] theorem ThreadSet.setSlot_fol (t : ThreadSet) (i : Nat) (s : Slot) : (t.setSlot i s).fol = t.fol := rfl
@[simp] theorem ThreadSet.setSlot_sup (t : ThreadSet) (i : Nat) (s : Slot) : (t.setSlot i s).sup = t.sup := rfl
@[simp] theorem ThreadSet.setSlot_priv (t : ThreadSet) (i : Nat) (s : Slot) : (t.setSlot i s).priv = t.priv := rfl
@[simp] theorem ThreadSet.setSlot_kfflags (t : ThreadSet) (i : Nat) (s : Slot) : (t.setSlot i s).kfflags = t.kfflags := rfl
@[simp] theorem ThreadSet.setSlot_kfmta (t : ThreadSet) (i : Nat) (s : Slot) : (t.setSlot i s).kfmta = t.kfmta := rfl
@[simp] theorem ThreadSet.setSlot_kfmtb (t : ThreadSet) (i : Nat) (s : Slot) : (t.setSlot i s).kfmtb = t.kfmtb := rfl
@[simp] theorem ThreadSet.setSlot_kscla (t : ThreadSet) (i : Nat) (s : Slot) : (t.setSlot i s).kscla = t.kscla := rfl
@[simp] theorem ThreadSet.setSlot_ksclb (t : ThreadSet) (i : Nat) (s : Slot) : (t.setSlot i s).ksclb = t.ksclb := rfl
@[simp] theorem ThreadSet.setSlot_kplanes (t : ThreadSet) (i : Nat) (s : Slot) : (t.setSlot i s).kplanes = t.kplanes := rfl
@[simp] theorem ThreadSet.setSlot_kgpiv (t : ThreadSet) (i : Nat) (s : Slot) : (t.setSlot i s).kgpiv = t.kgpiv := rfl
@[simp] theorem ThreadSet.setSlot_kepcPc (t : ThreadSet) (i : Nat) (s : Slot) : (t.setSlot i s).kepcPc = t.kepcPc := rfl
@[simp] theorem ThreadSet.setSlot_kepcPriv (t : ThreadSet) (i : Nat) (s : Slot) : (t.setSlot i s).kepcPriv = t.kepcPriv := rfl
@[simp] theorem ThreadSet.setSlot_kvec (t : ThreadSet) (i : Nat) (s : Slot) : (t.setSlot i s).kvec = t.kvec := rfl
@[simp] theorem ThreadSet.setSlot_kfault (t : ThreadSet) (i : Nat) (s : Slot) : (t.setSlot i s).kfault = t.kfault := rfl
@[simp] theorem ThreadSet.setSlot_krgn (t : ThreadSet) (i : Nat) (s : Slot) : (t.setSlot i s).krgn = t.krgn := rfl
@[simp] theorem ThreadSet.setSlot_handler (t : ThreadSet) (i : Nat) (s : Slot) : (t.setSlot i s).handler = t.handler := rfl
@[simp] theorem ThreadSet.setSlot_event (t : ThreadSet) (i : Nat) (s : Slot) : (t.setSlot i s).event = t.event := rfl
@[simp] theorem ThreadSet.setSlot_followers (t : ThreadSet) (i : Nat) (s : Slot) : (t.setSlot i s).followers = t.followers := rfl
@[simp] theorem ThreadSet.setSlot_lead (t : ThreadSet) (i : Nat) (s : Slot) : (t.setSlot i s).lead = t.lead := rfl
@[simp] theorem ThreadSet.setSlot_desc (t : ThreadSet) (i : Nat) (s : Slot) : (t.setSlot i s).desc = t.desc := rfl
@[simp] theorem ThreadSet.setSlot_cid (t : ThreadSet) (i : Nat) (s : Slot) : (t.setSlot i s).cid = t.cid := rfl
@[simp] theorem ThreadSet.setSlot_pend (t : ThreadSet) (i : Nat) (s : Slot) : (t.setSlot i s).pend = t.pend := rfl
@[simp] theorem ThreadSet.setSlot_wait (t : ThreadSet) (i : Nat) (s : Slot) : (t.setSlot i s).wait = t.wait := rfl
@[simp] theorem ThreadSet.setSlot_far (t : ThreadSet) (i : Nat) (s : Slot) : (t.setSlot i s).far = t.far := rfl
@[simp] theorem ThreadSet.setSlot_farRec (t : ThreadSet) (i : Nat) (s : Slot) : (t.setSlot i s).farRec = t.farRec := rfl
@[simp] theorem ThreadSet.setSlot_farHdr (t : ThreadSet) (i : Nat) (s : Slot) : (t.setSlot i s).farHdr = t.farHdr := rfl
@[simp] theorem ThreadSet.setSlot_tag (t : ThreadSet) (i : Nat) (s : Slot) : (t.setSlot i s).tag = t.tag := rfl
@[simp] theorem ThreadSet.setSlot_holds (t : ThreadSet) (i : Nat) (s : Slot) : (t.setSlot i s).holds = t.holds := rfl
@[simp] theorem ThreadSet.setSlot_elapsed (t : ThreadSet) (i : Nat) (s : Slot) : (t.setSlot i s).elapsed = t.elapsed := rfl
@[simp] theorem ThreadSet.setSlot_notBefore (t : ThreadSet) (i : Nat) (s : Slot) : (t.setSlot i s).notBefore = t.notBefore := rfl
@[simp] theorem ThreadSet.setSlot_issuedAt (t : ThreadSet) (i : Nat) (s : Slot) : (t.setSlot i s).issuedAt = t.issuedAt := rfl
@[simp] theorem ThreadSet.setSlot_due (t : ThreadSet) (i : Nat) (s : Slot) : (t.setSlot i s).due = t.due := rfl
@[simp] theorem ThreadSet.setSlot_doneJoin (t : ThreadSet) (i : Nat) (s : Slot) : (t.setSlot i s).doneJoin = t.doneJoin := rfl
@[simp] theorem ThreadSet.setSlot_dying (t : ThreadSet) (i : Nat) (s : Slot) : (t.setSlot i s).dying = t.dying := rfl
@[simp] theorem ThreadSet.setSlot_leaving (t : ThreadSet) (i : Nat) (s : Slot) : (t.setSlot i s).leaving = t.leaving := rfl
@[simp] theorem ThreadSet.setSlot_regErr (t : ThreadSet) (i : Nat) (s : Slot) : (t.setSlot i s).regErr = t.regErr := rfl

/-! ## A thread set that goes on -/

@[simp] theorem ThreadSet.advance_busy (t : ThreadSet) (pc : BitVec 14) (clk : Nat) : (t.advance pc clk).busy = t.busy := rfl
@[simp] theorem ThreadSet.advance_x (t : ThreadSet) (pc : BitVec 14) (clk : Nat) : (t.advance pc clk).x = t.x := rfl
@[simp] theorem ThreadSet.advance_v (t : ThreadSet) (pc : BitVec 14) (clk : Nat) : (t.advance pc clk).v = t.v := rfl
@[simp] theorem ThreadSet.advance_p (t : ThreadSet) (pc : BitVec 14) (clk : Nat) : (t.advance pc clk).p = t.p := rfl
@[simp] theorem ThreadSet.advance_d (t : ThreadSet) (pc : BitVec 14) (clk : Nat) : (t.advance pc clk).d = t.d := rfl
@[simp] theorem ThreadSet.advance_sd (t : ThreadSet) (pc : BitVec 14) (clk : Nat) : (t.advance pc clk).sd = t.sd := rfl
@[simp] theorem ThreadSet.advance_tc (t : ThreadSet) (pc : BitVec 14) (clk : Nat) : (t.advance pc clk).tc = t.tc := rfl
@[simp] theorem ThreadSet.advance_eos (t : ThreadSet) (pc : BitVec 14) (clk : Nat) : (t.advance pc clk).eos = t.eos := rfl
@[simp] theorem ThreadSet.advance_prt (t : ThreadSet) (pc : BitVec 14) (clk : Nat) : (t.advance pc clk).prt = t.prt := rfl
@[simp] theorem ThreadSet.advance_cho (t : ThreadSet) (pc : BitVec 14) (clk : Nat) : (t.advance pc clk).cho = t.cho := rfl
@[simp] theorem ThreadSet.advance_fol (t : ThreadSet) (pc : BitVec 14) (clk : Nat) : (t.advance pc clk).fol = t.fol := rfl
@[simp] theorem ThreadSet.advance_sup (t : ThreadSet) (pc : BitVec 14) (clk : Nat) : (t.advance pc clk).sup = t.sup := rfl
@[simp] theorem ThreadSet.advance_priv (t : ThreadSet) (pc : BitVec 14) (clk : Nat) : (t.advance pc clk).priv = t.priv := rfl
@[simp] theorem ThreadSet.advance_kfflags (t : ThreadSet) (pc : BitVec 14) (clk : Nat) : (t.advance pc clk).kfflags = t.kfflags := rfl
@[simp] theorem ThreadSet.advance_kfmta (t : ThreadSet) (pc : BitVec 14) (clk : Nat) : (t.advance pc clk).kfmta = t.kfmta := rfl
@[simp] theorem ThreadSet.advance_kfmtb (t : ThreadSet) (pc : BitVec 14) (clk : Nat) : (t.advance pc clk).kfmtb = t.kfmtb := rfl
@[simp] theorem ThreadSet.advance_kscla (t : ThreadSet) (pc : BitVec 14) (clk : Nat) : (t.advance pc clk).kscla = t.kscla := rfl
@[simp] theorem ThreadSet.advance_ksclb (t : ThreadSet) (pc : BitVec 14) (clk : Nat) : (t.advance pc clk).ksclb = t.ksclb := rfl
@[simp] theorem ThreadSet.advance_kplanes (t : ThreadSet) (pc : BitVec 14) (clk : Nat) : (t.advance pc clk).kplanes = t.kplanes := rfl
@[simp] theorem ThreadSet.advance_kgpiv (t : ThreadSet) (pc : BitVec 14) (clk : Nat) : (t.advance pc clk).kgpiv = t.kgpiv := rfl
@[simp] theorem ThreadSet.advance_kepcPc (t : ThreadSet) (pc : BitVec 14) (clk : Nat) : (t.advance pc clk).kepcPc = t.kepcPc := rfl
@[simp] theorem ThreadSet.advance_kepcPriv (t : ThreadSet) (pc : BitVec 14) (clk : Nat) : (t.advance pc clk).kepcPriv = t.kepcPriv := rfl
@[simp] theorem ThreadSet.advance_kvec (t : ThreadSet) (pc : BitVec 14) (clk : Nat) : (t.advance pc clk).kvec = t.kvec := rfl
@[simp] theorem ThreadSet.advance_kfault (t : ThreadSet) (pc : BitVec 14) (clk : Nat) : (t.advance pc clk).kfault = t.kfault := rfl
@[simp] theorem ThreadSet.advance_krgn (t : ThreadSet) (pc : BitVec 14) (clk : Nat) : (t.advance pc clk).krgn = t.krgn := rfl
@[simp] theorem ThreadSet.advance_handler (t : ThreadSet) (pc : BitVec 14) (clk : Nat) : (t.advance pc clk).handler = t.handler := rfl
@[simp] theorem ThreadSet.advance_event (t : ThreadSet) (pc : BitVec 14) (clk : Nat) : (t.advance pc clk).event = t.event := rfl
@[simp] theorem ThreadSet.advance_followers (t : ThreadSet) (pc : BitVec 14) (clk : Nat) : (t.advance pc clk).followers = t.followers := rfl
@[simp] theorem ThreadSet.advance_lead (t : ThreadSet) (pc : BitVec 14) (clk : Nat) : (t.advance pc clk).lead = t.lead := rfl
@[simp] theorem ThreadSet.advance_desc (t : ThreadSet) (pc : BitVec 14) (clk : Nat) : (t.advance pc clk).desc = t.desc := rfl
@[simp] theorem ThreadSet.advance_cid (t : ThreadSet) (pc : BitVec 14) (clk : Nat) : (t.advance pc clk).cid = t.cid := rfl
@[simp] theorem ThreadSet.advance_pend (t : ThreadSet) (pc : BitVec 14) (clk : Nat) : (t.advance pc clk).pend = t.pend := rfl
@[simp] theorem ThreadSet.advance_far (t : ThreadSet) (pc : BitVec 14) (clk : Nat) : (t.advance pc clk).far = t.far := rfl
@[simp] theorem ThreadSet.advance_farRec (t : ThreadSet) (pc : BitVec 14) (clk : Nat) : (t.advance pc clk).farRec = t.farRec := rfl
@[simp] theorem ThreadSet.advance_farHdr (t : ThreadSet) (pc : BitVec 14) (clk : Nat) : (t.advance pc clk).farHdr = t.farHdr := rfl
@[simp] theorem ThreadSet.advance_tag (t : ThreadSet) (pc : BitVec 14) (clk : Nat) : (t.advance pc clk).tag = t.tag := rfl
@[simp] theorem ThreadSet.advance_holds (t : ThreadSet) (pc : BitVec 14) (clk : Nat) : (t.advance pc clk).holds = t.holds := rfl
@[simp] theorem ThreadSet.advance_notBefore (t : ThreadSet) (pc : BitVec 14) (clk : Nat) : (t.advance pc clk).notBefore = t.notBefore := rfl
@[simp] theorem ThreadSet.advance_due (t : ThreadSet) (pc : BitVec 14) (clk : Nat) : (t.advance pc clk).due = t.due := rfl
@[simp] theorem ThreadSet.advance_doneJoin (t : ThreadSet) (pc : BitVec 14) (clk : Nat) : (t.advance pc clk).doneJoin = t.doneJoin := rfl
@[simp] theorem ThreadSet.advance_dying (t : ThreadSet) (pc : BitVec 14) (clk : Nat) : (t.advance pc clk).dying = t.dying := rfl
@[simp] theorem ThreadSet.advance_leaving (t : ThreadSet) (pc : BitVec 14) (clk : Nat) : (t.advance pc clk).leaving = t.leaving := rfl
@[simp] theorem ThreadSet.advance_regErr (t : ThreadSet) (pc : BitVec 14) (clk : Nat) : (t.advance pc clk).regErr = t.regErr := rfl

/-! ## A thread set that waits in place -/

@[simp] theorem ThreadSet.stall_busy (t : ThreadSet) (k : WaitKind) (clk : Nat) : (t.stall k clk).busy = t.busy := rfl
@[simp] theorem ThreadSet.stall_pc (t : ThreadSet) (k : WaitKind) (clk : Nat) : (t.stall k clk).pc = t.pc := rfl
@[simp] theorem ThreadSet.stall_x (t : ThreadSet) (k : WaitKind) (clk : Nat) : (t.stall k clk).x = t.x := rfl
@[simp] theorem ThreadSet.stall_v (t : ThreadSet) (k : WaitKind) (clk : Nat) : (t.stall k clk).v = t.v := rfl
@[simp] theorem ThreadSet.stall_p (t : ThreadSet) (k : WaitKind) (clk : Nat) : (t.stall k clk).p = t.p := rfl
@[simp] theorem ThreadSet.stall_d (t : ThreadSet) (k : WaitKind) (clk : Nat) : (t.stall k clk).d = t.d := rfl
@[simp] theorem ThreadSet.stall_sd (t : ThreadSet) (k : WaitKind) (clk : Nat) : (t.stall k clk).sd = t.sd := rfl
@[simp] theorem ThreadSet.stall_tc (t : ThreadSet) (k : WaitKind) (clk : Nat) : (t.stall k clk).tc = t.tc := rfl
@[simp] theorem ThreadSet.stall_eos (t : ThreadSet) (k : WaitKind) (clk : Nat) : (t.stall k clk).eos = t.eos := rfl
@[simp] theorem ThreadSet.stall_prt (t : ThreadSet) (k : WaitKind) (clk : Nat) : (t.stall k clk).prt = t.prt := rfl
@[simp] theorem ThreadSet.stall_cho (t : ThreadSet) (k : WaitKind) (clk : Nat) : (t.stall k clk).cho = t.cho := rfl
@[simp] theorem ThreadSet.stall_fol (t : ThreadSet) (k : WaitKind) (clk : Nat) : (t.stall k clk).fol = t.fol := rfl
@[simp] theorem ThreadSet.stall_sup (t : ThreadSet) (k : WaitKind) (clk : Nat) : (t.stall k clk).sup = t.sup := rfl
@[simp] theorem ThreadSet.stall_priv (t : ThreadSet) (k : WaitKind) (clk : Nat) : (t.stall k clk).priv = t.priv := rfl
@[simp] theorem ThreadSet.stall_kfflags (t : ThreadSet) (k : WaitKind) (clk : Nat) : (t.stall k clk).kfflags = t.kfflags := rfl
@[simp] theorem ThreadSet.stall_kfmta (t : ThreadSet) (k : WaitKind) (clk : Nat) : (t.stall k clk).kfmta = t.kfmta := rfl
@[simp] theorem ThreadSet.stall_kfmtb (t : ThreadSet) (k : WaitKind) (clk : Nat) : (t.stall k clk).kfmtb = t.kfmtb := rfl
@[simp] theorem ThreadSet.stall_kscla (t : ThreadSet) (k : WaitKind) (clk : Nat) : (t.stall k clk).kscla = t.kscla := rfl
@[simp] theorem ThreadSet.stall_ksclb (t : ThreadSet) (k : WaitKind) (clk : Nat) : (t.stall k clk).ksclb = t.ksclb := rfl
@[simp] theorem ThreadSet.stall_kplanes (t : ThreadSet) (k : WaitKind) (clk : Nat) : (t.stall k clk).kplanes = t.kplanes := rfl
@[simp] theorem ThreadSet.stall_kgpiv (t : ThreadSet) (k : WaitKind) (clk : Nat) : (t.stall k clk).kgpiv = t.kgpiv := rfl
@[simp] theorem ThreadSet.stall_kepcPc (t : ThreadSet) (k : WaitKind) (clk : Nat) : (t.stall k clk).kepcPc = t.kepcPc := rfl
@[simp] theorem ThreadSet.stall_kepcPriv (t : ThreadSet) (k : WaitKind) (clk : Nat) : (t.stall k clk).kepcPriv = t.kepcPriv := rfl
@[simp] theorem ThreadSet.stall_kvec (t : ThreadSet) (k : WaitKind) (clk : Nat) : (t.stall k clk).kvec = t.kvec := rfl
@[simp] theorem ThreadSet.stall_kfault (t : ThreadSet) (k : WaitKind) (clk : Nat) : (t.stall k clk).kfault = t.kfault := rfl
@[simp] theorem ThreadSet.stall_krgn (t : ThreadSet) (k : WaitKind) (clk : Nat) : (t.stall k clk).krgn = t.krgn := rfl
@[simp] theorem ThreadSet.stall_handler (t : ThreadSet) (k : WaitKind) (clk : Nat) : (t.stall k clk).handler = t.handler := rfl
@[simp] theorem ThreadSet.stall_event (t : ThreadSet) (k : WaitKind) (clk : Nat) : (t.stall k clk).event = t.event := rfl
@[simp] theorem ThreadSet.stall_followers (t : ThreadSet) (k : WaitKind) (clk : Nat) : (t.stall k clk).followers = t.followers := rfl
@[simp] theorem ThreadSet.stall_lead (t : ThreadSet) (k : WaitKind) (clk : Nat) : (t.stall k clk).lead = t.lead := rfl
@[simp] theorem ThreadSet.stall_desc (t : ThreadSet) (k : WaitKind) (clk : Nat) : (t.stall k clk).desc = t.desc := rfl
@[simp] theorem ThreadSet.stall_cid (t : ThreadSet) (k : WaitKind) (clk : Nat) : (t.stall k clk).cid = t.cid := rfl
@[simp] theorem ThreadSet.stall_pend (t : ThreadSet) (k : WaitKind) (clk : Nat) : (t.stall k clk).pend = t.pend := rfl
@[simp] theorem ThreadSet.stall_far (t : ThreadSet) (k : WaitKind) (clk : Nat) : (t.stall k clk).far = t.far := rfl
@[simp] theorem ThreadSet.stall_farRec (t : ThreadSet) (k : WaitKind) (clk : Nat) : (t.stall k clk).farRec = t.farRec := rfl
@[simp] theorem ThreadSet.stall_farHdr (t : ThreadSet) (k : WaitKind) (clk : Nat) : (t.stall k clk).farHdr = t.farHdr := rfl
@[simp] theorem ThreadSet.stall_tag (t : ThreadSet) (k : WaitKind) (clk : Nat) : (t.stall k clk).tag = t.tag := rfl
@[simp] theorem ThreadSet.stall_holds (t : ThreadSet) (k : WaitKind) (clk : Nat) : (t.stall k clk).holds = t.holds := rfl
@[simp] theorem ThreadSet.stall_notBefore (t : ThreadSet) (k : WaitKind) (clk : Nat) : (t.stall k clk).notBefore = t.notBefore := rfl
@[simp] theorem ThreadSet.stall_issuedAt (t : ThreadSet) (k : WaitKind) (clk : Nat) : (t.stall k clk).issuedAt = t.issuedAt := rfl
@[simp] theorem ThreadSet.stall_due (t : ThreadSet) (k : WaitKind) (clk : Nat) : (t.stall k clk).due = t.due := rfl
@[simp] theorem ThreadSet.stall_doneJoin (t : ThreadSet) (k : WaitKind) (clk : Nat) : (t.stall k clk).doneJoin = t.doneJoin := rfl
@[simp] theorem ThreadSet.stall_dying (t : ThreadSet) (k : WaitKind) (clk : Nat) : (t.stall k clk).dying = t.dying := rfl
@[simp] theorem ThreadSet.stall_leaving (t : ThreadSet) (k : WaitKind) (clk : Nat) : (t.stall k clk).leaving = t.leaving := rfl
@[simp] theorem ThreadSet.stall_regErr (t : ThreadSet) (k : WaitKind) (clk : Nat) : (t.stall k clk).regErr = t.regErr := rfl

end Sys2Proof.Machine
end

