-- ==== Sys2Proof/Safety.lean ====
section
/-! DEFINITION. The terms that claims about runs use: an agent that runs alone and unhindered, what completing means, and the
invariants that every step keeps. -/

namespace Sys2Proof.Machine

/-- Thread set `t` of core `c` performs the instruction on its own: it stands in no chorus, holds no resumed context's record,
and no register of it has an ECC error. -/
def Alone (m : Mach) (c t : Nat) : Bool :=
  decide (m.cur = .core c t) && decide (c < 73732) && decide (t < 4) && !m.me.cho && !m.me.fol && m.me.holds.isNone &&
    decide (m.me.regErr = [])

/-- As `Alone`, with no stream slot bound: every name is a register (R57). -/
def Plain (m : Mach) (c t : Nat) : Bool := Alone m c t && !m.me.anyBound

/-- The state after an instruction whose own effect left the module at `m`: the agent of `s` stands at the next PC. -/
def State.after (s : State) (m : Mach) : State := { s with mach := m.complete s.mach.cur }

/-- Bit 0 of the predicate that governs the instruction (R55). -/
def State.on (s : State) (a : Args) : Bool := (s.mach.me.preg a.p.toNat).getLsbD 0

/-- The instruction completes with the scalar result `v` in xd, or with xd as it was where its predicate bit 0 is 0 (R55,
R172). -/
def State.gives (s : State) (a : Args) (v : Word) : Host.Outcome State Fault Refusal :=
  .next (s.after (if s.on a then s.mach.modMe (·.setX a.d v) else s.mach))

/-- The instruction completes and changes nothing but the PC (R15). -/
def State.passes (s : State) : Host.Outcome State Fault Refusal := .next (s.after s.mach)

/-- The instruction of thread set `t` of core `c` raises a precise trap with the record `r` at its own PC (R307, R308). -/
def State.traps (s : State) (c t : Nat) (r : FaultRec) : Host.Outcome State Fault Refusal :=
  .next { s with mach := s.mach.trapEntry c t { r with pc := s.mach.me.pc } s.mach.me.pc }

/-- The instruction of thread set `t` of core `c` stalls in place and has had no effect (R15, R22). -/
def State.waits (s : State) (k : WaitKind) : Host.Outcome State Fault Refusal :=
  .next { s with mach := s.mach.stall s.mach.cur k }

/-- An access of `n` bytes at own offset `off` meets none of the waits of R185, no word with an uncorrectable error, and, as a
store, no protected area and no frame header (R80, R184). -/
def Mach.admits (m : Mach) (c t off n : Nat) (store : Bool) : Bool :=
  (match m.gate c t off n store with
   | .open_ => true
   | _ => false) && ((m.core c).badRead off n).isNone && (!store || ((m.core c).protectedAt off n).isNone)

/-- `ea` names offset `off` of core `c` for the thread sets of that core: in space 0x0, or in space 0x1 by position (R75). -/
def ownAt (c : Nat) (ea : Word) (off : Nat) : Bool :=
  decide (off < 65536) &&
    (ea.toNat == off || ea.toNat == 2 ^ 60 + (posOf c).1 * 2 ^ 32 + (posOf c).2 * 2 ^ 24 + off)

/-- `ea` names offset `off` of the mesh core `q` in space 0x1 (R75). -/
def coreAt (q : Nat) (ea : Word) (off : Nat) : Bool :=
  decide (off < 65536) && decide (q < 73728) && (ea.toNat == 2 ^ 60 + (q % 512) * 2 ^ 32 + (q / 512) * 2 ^ 24 + off)

/-- The number that the `n` bytes from `off` hold, lowest address first (R33). -/
def Core.number (k : Core) (off n : Nat) : Nat := ((List.range n).map fun i => (k.mem.byte (off + i)).toNat * 256 ^ i).sum

/-- `n` bytes of `v`, lowest first, at successive addresses from `off` (R33). -/
def spread (off n : Nat) (v : Word) : List (Nat × Byte) := (List.range n).map fun i => (off + i, v.extractLsb' (8 * i) 8)

end Sys2Proof.Machine
end

