-- ==== Sys2Proof/Laws/Ops.lean ====
section
/-! SUPPORT. One lemma for each shared operation, saying what it does; meanings are reasoned about through these. -/

namespace Sys2Proof.Machine

/-! ## Reaching into the state -/

@[simp] theorem Mach.core_setCore (m : Mach) (c d : Nat) (k : Core) :
    (m.setCore c k).core d = if d = c then k else m.core d := by
  simp [Mach.core, Mach.setCore]

@[simp] theorem Mach.core_modCore (m : Mach) (c d : Nat) (f : Core → Core) :
    (m.modCore c f).core d = if d = c then f (m.core c) else m.core d := by
  simp [Mach.modCore]

@[simp] theorem Mach.hand_modHand (m : Mach) (s r : Nat) (f : Stagehand → Stagehand) :
    (m.modHand s f).hand r = if r = s then f (m.hand s) else m.hand r := by
  simp [Mach.hand, Mach.modHand]

theorem Mach.part_modPart (m : Mach) {p : Nat} (hp : p < 16) (q : Nat) (f : Partition → Partition) :
    (m.modPart p f).part q = if q = p then f (m.part p) else m.part q := by
  simp only [Mach.part, Mach.modPart]
  split
  · subst_vars; exact vget_vset_same _ _ _ hp
  · exact vget_vset_other _ _ _ (Ne.symm ‹_›)

theorem Core.tset_modTs (k : Core) {t : Nat} (ht : t < 4) (u : Nat) (f : ThreadSet → ThreadSet) :
    (k.modTs t f).tset u = if u = t then f (k.tset t) else k.tset u := by
  simp only [Core.tset, Core.modTs]
  split
  · subst_vars; exact vget_vset_same _ _ _ ht
  · exact vget_vset_other _ _ _ (Ne.symm ‹_›)

@[simp] theorem Mach.cur_modTs (m : Mach) (a : Agent) (f : ThreadSet → ThreadSet) : (m.modTs a f).cur = m.cur := by
  cases a <;> rfl

@[simp] theorem Mach.npc_modTs (m : Mach) (a : Agent) (f : ThreadSet → ThreadSet) : (m.modTs a f).npc = m.npc := by
  cases a <;> rfl

@[simp] theorem Mach.clk_modTs (m : Mach) (a : Agent) (f : ThreadSet → ThreadSet) : (m.modTs a f).clk = m.clk := by
  cases a <;> rfl

@[simp] theorem Mach.cur_modMe (m : Mach) (f : ThreadSet → ThreadSet) : (m.modMe f).cur = m.cur := m.cur_modTs _ f

@[simp] theorem Mach.npc_modMe (m : Mach) (f : ThreadSet → ThreadSet) : (m.modMe f).npc = m.npc := m.npc_modTs _ f

@[simp] theorem Mach.clk_modMe (m : Mach) (f : ThreadSet → ThreadSet) : (m.modMe f).clk = m.clk := m.clk_modTs _ f

/-- A changed thread set reads as changed, and every other one as before. -/
theorem Mach.tset_modTs (m : Mach) {c t : Nat} (ht : t < 4) (d u : Nat) (f : ThreadSet → ThreadSet) :
    (m.modTs (.core c t) f).tset (.core d u) = if d = c ∧ u = t then f (m.tset (.core c t)) else m.tset (.core d u) := by
  simp only [Mach.modTs, Mach.tset, Mach.core_modCore]
  split
  · subst_vars
    rw [Core.tset_modTs _ ht]
    by_cases hu : u = t <;> simp [hu]
  · rw [if_neg (fun h => ‹¬ d = c› h.1)]

/-! ## Registers -/

/-- A scalar register read after a write; x0 reads zero whatever is written (R54). -/
theorem ThreadSet.xreg_setX (t : ThreadSet) (n r : RegNo) (v : Word) :
    (t.setX n v).xreg r = if r = n ∧ n ≠ 0 then v else t.xreg r := by
  unfold ThreadSet.xreg ThreadSet.setX
  by_cases hr : r = 0
  · simp only [hr, if_pos]
    rw [if_neg]
    rintro ⟨h, h'⟩; exact h' h.symm
  · simp only [hr, if_neg, not_false_eq_true]
    by_cases hn : n = 0
    · simp [hn]
    · simp only [hn, if_neg, not_false_eq_true]
      by_cases h : r = n
      · subst h
        rw [if_pos ⟨rfl, hn⟩]
        exact vget_vset_same _ _ _ r.isLt
      · rw [if_neg (fun h' => h h'.1)]
        refine vget_vset_other _ _ _ fun h' => h (BitVec.eq_of_toNat_eq h'.symm)

/-- A vector register read after a write. -/
theorem ThreadSet.v_setV (t : ThreadSet) (n r : RegNo) (v : V128) :
    vget (t.setV n v).v 0 r.toNat = if r = n then v else vget t.v 0 r.toNat := by
  simp only [ThreadSet.setV]
  split
  · subst_vars; exact vget_vset_same _ _ _ r.isLt
  · refine vget_vset_other _ _ _ fun h => ‹¬ r = n› (BitVec.eq_of_toNat_eq h.symm)

/-- A predicate register read after a write; p7 reads all ones whatever is written (R54). -/
theorem ThreadSet.preg_setP (t : ThreadSet) {n r : Nat} (hn : n < 8) (v : BitVec 16) :
    (t.setP n v).preg r = if r = n ∧ n ≠ 7 then v else t.preg r := by
  unfold ThreadSet.preg ThreadSet.setP
  by_cases hr : r = 7
  · subst hr
    rw [if_pos rfl, if_neg, if_pos rfl]
    rintro ⟨h, h'⟩; exact h' h.symm
  · simp only [hr, if_neg, not_false_eq_true]
    by_cases h7 : n = 7
    · simp [h7]
    · simp only [h7, if_neg, not_false_eq_true]
      by_cases h : r = n
      · subst h; rw [if_pos ⟨rfl, h7⟩]; exact vget_vset_same _ _ _ hn
      · rw [if_neg (fun h' => h h'.1)]; exact vget_vset_other _ _ _ (Ne.symm h)

/-! ## An agent that runs alone -/

/-- What `Plain` says, part by part. -/
theorem Plain.iff {m : Mach} {c t : Nat} : Plain m c t = true ↔
    m.cur = .core c t ∧ c < 73732 ∧ t < 4 ∧ m.me.cho = false ∧ m.me.fol = false ∧ m.me.holds = none ∧
      m.me.anyBound = false ∧ m.me.regErr = [] := by
  simp only [Plain, Alone, Bool.and_eq_true, Bool.not_eq_true', decide_eq_true_eq, Option.isNone_iff_eq_none]
  constructor
  · rintro ⟨⟨⟨⟨⟨⟨⟨h1, h2⟩, h3⟩, h4⟩, h5⟩, h6⟩, h7⟩, h8⟩; exact ⟨h1, h2, h3, h4, h5, h6, h8, h7⟩
  · rintro ⟨h1, h2, h3, h4, h5, h6, h7, h8⟩; exact ⟨⟨⟨⟨⟨⟨⟨h1, h2⟩, h3⟩, h4⟩, h5⟩, h6⟩, h8⟩, h7⟩

/-- What `Alone` says, part by part. -/
theorem Alone.iff {m : Mach} {c t : Nat} : Alone m c t = true ↔
    m.cur = .core c t ∧ c < 73732 ∧ t < 4 ∧ m.me.cho = false ∧ m.me.fol = false ∧ m.me.holds = none ∧ m.me.regErr = [] := by
  simp [Alone, and_assoc]

theorem Plain.alone {m : Mach} {c t : Nat} (h : Plain m c t = true) : Alone m c t = true := by
  simp only [Plain, Bool.and_eq_true] at h; exact h.1

theorem ThreadSet.slot_unbound {t : ThreadSet} (h : t.anyBound = false) (i : Nat) : (t.slot i).bnd = false := by
  by_cases hi : i < 8
  · simp only [ThreadSet.anyBound, List.any_eq_false, Vector.mem_toList_iff] at h
    simpa using h (t.slot i) (by simp [ThreadSet.slot, vget, hi])
  · simp [ThreadSet.slot, vget, hi]

/-- With no slot bound, no name is a port (R57). -/
theorem ThreadSet.portOf_unbound {t : ThreadSet} (h : t.anyBound = false) (v : Bool) (n : RegNo) : t.portOf v n = none := by
  unfold ThreadSet.portOf
  split
  · rfl
  · rw [List.find?_eq_none]
    intro i _
    simp [ThreadSet.slot_unbound h i]

section
variable {m : Mach}

@[simp] theorem me_run (m : Mach) : me.run m = .ok m.me m := rfl
@[simp] theorem myCore_run (m : Mach) : myCore.run m = .ok m.myCore m := rfl
@[simp] theorem modMe_run (m : Mach) (f : ThreadSet → ThreadSet) : (modMe f).run m = .ok () (m.modMe f) := rfl
@[simp] theorem modMyCore_run (m : Mach) (f : Core → Core) : (modMyCore f).run m = .ok () (m.modCore m.here f) := rfl
@[simp] theorem goTo_run (m : Mach) (pc : BitVec 14) : (goTo pc).run m = .ok () { m with npc := pc, taken := true } := rfl
@[simp] theorem trap_run {α : Type} (m : Mach) (r : FaultRec) : (trap r : Act α).run m = .error (.trap r) m := rfl

/-- `require` passes or traps. -/
@[simp] theorem require_run (m : Mach) (b : Bool) (r : FaultRec) :
    (require b r).run m = if b then .ok () m else .error (.trap r) m := by
  cases b <;> rfl

/-- `stallUntil` passes or stalls in place. -/
@[simp] theorem stallUntil_run (m : Mach) (b : Bool) (k : WaitKind) :
    (stallUntil b k).run m = if b then .ok () m else .error (.wait k) m := by
  cases b <;> rfl

/-- The source check of an unbound name. -/
theorem srcPort_run (h : m.me.anyBound = false) (v : Bool) (n : RegNo) : (srcPort v n).run m = .ok () m := by
  simp [srcPort, EStateM.run_bind, ThreadSet.portOf_unbound h]

/-- The destination check of an unbound name. -/
theorem dstPort_run (h : m.me.anyBound = false) (v : Bool) (n : RegNo) : (dstPort v n).run m = .ok () m := by
  simp [dstPort, EStateM.run_bind, ThreadSet.portOf_unbound h]

/-- The check of an unbound name that is source and destination. -/
theorem bothPort_run (h : m.me.anyBound = false) (v : Bool) (n : RegNo) : (bothPort v n).run m = .ok () m := by
  simp [bothPort, EStateM.run_bind, ThreadSet.portOf_unbound h]

/-- The check of a group of unbound names. -/
theorem groupPort_run (h : m.me.anyBound = false) (v : Bool) (n : RegNo) (w : Nat) : (groupPort v n w).run m = .ok () m := by
  simp only [groupPort]
  split
  · rfl
  · have : ((List.range w).filterMap fun i => m.me.portOf v (n + BitVec.ofNat 5 i)) = [] := by
      rw [List.filterMap_eq_nil_iff]; exact fun i _ => ThreadSet.portOf_unbound h v _
    simp only [EStateM.run_bind, me_run, this]; rfl

theorem checkReg_run (h : m.me.regErr = []) (n : Nat) : (checkReg n).run m = .ok () m := by
  have hm : EStateM.run (get : Act Mach) m = .ok m m := rfl
  simp [checkReg, EStateM.run_bind, hm, h, Map.get, Map.find]

/-- An unbound x name reads the register. -/
theorem readX_run (h : m.me.anyBound = false) (hb : m.me.regErr = []) (n : RegNo) : (readX n).run m = .ok (m.me.xreg n) m := by
  simp [readX, EStateM.run_bind, ThreadSet.portOf_unbound h, checkReg_run hb]

/-- An unbound v name reads the register. -/
theorem readV_run (h : m.me.anyBound = false) (hb : m.me.regErr = []) (n : RegNo) :
    (readV n).run m = .ok (vget m.me.v 0 n.toNat) m := by
  simp [readV, EStateM.run_bind, ThreadSet.portOf_unbound h, checkReg_run hb]

/-- An unbound x name is written. -/
theorem writeX_run (h : m.me.anyBound = false) (n : RegNo) (v : Word) : (writeX n v).run m = .ok () (m.modMe (·.setX n v)) := by
  simp [writeX, EStateM.run_bind, ThreadSet.portOf_unbound h]

/-- An unbound v name is written. -/
theorem writeV_run (h : m.me.anyBound = false) (n : RegNo) (v : V128) : (writeV n v).run m = .ok () (m.modMe (·.setV n v)) := by
  simp [writeV, EStateM.run_bind, ThreadSet.portOf_unbound h]

theorem oldV_run (h : m.me.anyBound = false) (hb : m.me.regErr = []) (n : RegNo) : (oldV n).run m = .ok (vget m.me.v 0 n.toNat) m := by
  simp [oldV, EStateM.run_bind, ThreadSet.portOf_unbound h, checkReg_run hb]

theorem readP_run (hb : m.me.regErr = []) (n : Nat) : (readP n).run m = .ok (m.me.preg n) m := by
  simp [readP, EStateM.run_bind, checkReg_run hb]

theorem readPred_run (hb : m.me.regErr = []) (a : Args) : (readPred a).run m = .ok (m.me.preg a.p.toNat) m :=
  readP_run hb _

theorem predOn_run (hb : m.me.regErr = []) (a : Args) : (predOn a).run m = .ok ((m.me.preg a.p.toNat).getLsbD 0) m := by
  simp [predOn, readPred_run hb]

/-- A scalar result under the predicate: an inactive instruction leaves an unbound register (R55). -/
theorem writeRes_run (h : m.me.anyBound = false) (a : Args) (on : Bool) (v : Word) :
    (writeRes a on v).run m = .ok () (if on then m.modMe (·.setX a.d v) else m) := by
  cases on
  · simp [writeRes, EStateM.run_bind, ThreadSet.portOf_unbound h]
  · simp [writeRes, writeX_run h]

end

/-! ## Issue -/

theorem Agent.exists_core {c t : Nat} (hc : c < 73732) (ht : t < 4) : (Agent.core c t).exists = true := by
  simp [Agent.exists, hc, ht]

theorem Mach.unhold_none {m : Mach} {c t : Nat} (hc : m.cur = .core c t) (hh : m.me.holds = none) : m.unhold = m := by
  simp only [Mach.me, Mach.tset, hc] at hh
  simp [Mach.unhold, hc, hh]

/-- What issuing does for an agent that runs alone, whatever its effect ends in (R307). -/
theorem issue_alone {s : State} {c t : Nat} (h : Alone s.mach c t = true) (sem : Act Unit) :
    issue sem s = lift s (conclude s.mach s.mach.cur (sem.run s.mach)) := by
  obtain ⟨hc, h1, h2, h3, -, h4, -⟩ := Alone.iff.mp h
  have hcho : (s.mach.tset (.core c t)).cho = false := by simpa [Mach.me, hc] using h3
  simp [issue, issueMach, hc, Agent.exists_core h1 h2, Mach.unhold_none hc h4, hcho]

/-- An instruction whose effect completes. -/
theorem issue_ok {s : State} {c t : Nat} (h : Alone s.mach c t = true) {sem : Act Unit} {m : Mach}
    (hr : sem.run s.mach = .ok () m) : issue sem s = .next (s.after m) := by
  rw [issue_alone h, hr]; rfl

/-- An instruction that raises a precise trap: the entry from the machine before it (R307, R308). -/
theorem issue_trap {s : State} {c t : Nat} (h : Alone s.mach c t = true) {sem : Act Unit} {r : FaultRec} {m : Mach}
    (hr : sem.run s.mach = .error (.trap r) m) :
    issue sem s = .next { s with mach := s.mach.takeTrap s.mach.cur { r with pc := s.mach.me.pc } s.mach.me.pc } := by
  rw [issue_alone h, hr]; rfl

/-- An instruction that stalls in place (R15, R22). -/
theorem issue_wait {s : State} {c t : Nat} (h : Alone s.mach c t = true) {sem : Act Unit} {k : WaitKind} {m : Mach}
    (hr : sem.run s.mach = .error (.wait k) m) : issue sem s = .next { s with mach := s.mach.stall s.mach.cur k } := by
  rw [issue_alone h, hr]; rfl

/-- Issuing leaves fuses and flash as they are (R13, R337). -/
theorem issue_perm {sem : Act Unit} {s s' : State} (h : issue sem s = .next s') : s'.perm = s.perm := by
  simp only [issue, lift] at h
  split at h <;> cases h
  rfl

/-- An event of the machine leaves fuses and flash as they are. -/
theorem event_perm {f : Mach → Mach} {s s' : State} (h : event f s = .next s') : s'.perm = s.perm := by
  cases h; rfl

/-! ## Memory of a core -/

/-- Bytes written without a store keep the canonical form. -/
theorem Core.wf_poke {k : Core} (h : k.mem.wf = true) (cs : List (Nat × Byte)) : (k.poke cs).mem.wf = true :=
  Memory.wf_foldl_poke cs h

/-- Correcting a word leaves the bytes. -/
@[simp] theorem Core.mem_correctWord (k : Core) (w : Nat) : (k.correctWord w).mem = k.mem := by
  unfold Core.correctWord; dsimp only; split <;> rfl

/-- What a store does to one word's sidecar leaves the bytes. -/
@[simp] theorem Core.mem_storeWord (cs : List (Nat × Byte)) (k : Core) (w : Nat) : (Core.storeWord cs k w).mem = k.mem := by
  unfold Core.storeWord; split
  · rfl
  · exact k.mem_correctWord w

theorem Core.mem_foldl_storeWord (cs : List (Nat × Byte)) (ws : List Nat) (k : Core) :
    (ws.foldl (Core.storeWord cs) k).mem = k.mem := by
  induction ws generalizing k with
  | nil => rfl
  | cons w ws ih => rw [List.foldl_cons, ih, Core.mem_storeWord]

/-- A store writes its bytes and nothing else of the memory. -/
@[simp] theorem Core.mem_store (k : Core) (cs : List (Nat × Byte)) : (k.store cs).mem = (k.poke cs).mem :=
  Core.mem_foldl_storeWord cs _ _

/-- A store keeps the canonical form. -/
theorem Core.wf_store {k : Core} (h : k.mem.wf = true) (cs : List (Nat × Byte)) : (k.store cs).mem.wf = true := by
  rw [Core.mem_store]; exact Core.wf_poke h cs

/-- A byte outside the cells of a write reads as before. -/
theorem Memory.byte_foldl_other (cs : List (Nat × Byte)) (m : Memory) (b : Nat) (h : ∀ c ∈ cs, c.1 ≠ b) :
    (cs.foldl (fun m c => Memory.poke m c.1 c.2) m).byte b = m.byte b := by
  induction cs generalizing m with
  | nil => rfl
  | cons c cs ih =>
    rw [List.foldl_cons, ih _ fun d hd => h d (List.mem_cons_of_mem _ hd), Memory.byte_poke,
      if_neg (Ne.symm (h c List.mem_cons_self))]

/-! ## Trap entry and return (R308) -/

@[simp] theorem Core.tset_modRec (k : Core) (i u : Nat) (f : Rec → Rec) : (k.modRec i f).tset u = k.tset u := rfl

@[simp] theorem Core.tset_endFar (k : Core) (t u : Nat) : (k.endFar t).tset u = k.tset u := by
  unfold Core.endFar
  dsimp only
  split
  · unfold Core.freeReserved; split <;> rfl
  · rfl

@[simp] theorem Core.tset_dropSchur (k : Core) (t u : Nat) : (k.dropSchur t).tset u = k.tset u := by
  unfold Core.dropSchur; split <;> rfl

/-- Abandoned Schur operations leave every thread set as it is (R307). -/
@[simp] theorem Mach.tset_dropSchur (m : Mach) (c t d u : Nat) : ((m.dropSchur c t).core d).tset u = (m.core d).tset u := by
  unfold Mach.dropSchur
  generalize m.together c t = cs
  induction cs generalizing m with
  | nil => rfl
  | cons q cs ih =>
    rw [List.foldl_cons, ih, Mach.core_modCore]
    split
    · next h => rw [h, Core.tset_dropSchur]
    · rfl

/-- A core that performs nothing with thread set `t` of core `c` keeps its Schur operation (R23). -/
theorem Mach.core_dropSchur_other (m : Mach) {c t d : Nat} (h : d ∉ m.together c t) : (m.dropSchur c t).core d = m.core d := by
  unfold Mach.dropSchur
  generalize m.together c t = cs at h
  induction cs generalizing m with
  | nil => rfl
  | cons q cs ih =>
    rw [List.mem_cons, not_or] at h
    rw [List.foldl_cons, ih _ h.2, Mach.core_modCore, if_neg h.1]

/-- Trap entry with a handler: what is saved and where the thread set goes on (R308). -/
theorem Mach.enterTrap_tset (m : Mach) {c t : Nat} (ht : t < 4) (r : FaultRec) (pc : BitVec 14)
    (hk : ((m.core c).tset t).kvec ≠ 0) :
    let s := (m.core c).tset t
    ((m.enterTrap c t r pc).core c).tset t =
      { s with kfault := { r with ts := BitVec.ofNat 2 t, priv := BitVec.ofNat 2 s.priv.code }.words, kepcPc := pc,
               kepcPriv := BitVec.ofNat 2 s.priv.code, priv := if s.priv = .user then .supervisor else s.priv,
               pc := s.kvec, handler := true, wait := none, far := .idle, farRec := none, farHdr := none, tag := none,
               holds := none, elapsed := none } := by
  simp only [Mach.enterTrap, if_neg hk, Mach.core_modCore, if_pos]
  cases ((m.core c).tset t).holds <;> simp [Core.tset_modTs _ ht]

/-- Trap entry with a handler on one thread set leaves every core as it is that performs nothing with it (R23, R308). -/
theorem Mach.enterTrap_other (m : Mach) {c d t : Nat} (r : FaultRec) (pc : BitVec 14) (hk : ((m.core c).tset t).kvec ≠ 0)
    (hd : d ∉ m.together c t) : (m.enterTrap c t r pc).core d = m.core d := by
  have hc : d ≠ c := fun h => hd (h ▸ List.mem_cons_self)
  simp only [Mach.enterTrap, if_neg hk, Mach.core_modCore, if_neg hc, Mach.core_dropSchur_other m hd]

/-! ## Rings (R94) -/

/-- A raw push raises the count of its ring and no other. -/
theorem Core.rawPush_counts (k : Core) (b : Bool) (e : Word) :
    (k.rawPush b e).pushedA = (if b then k.pushedA else k.pushedA + 1) ∧
      (k.rawPush b e).pushedB = (if b then k.pushedB + 1 else k.pushedB) := by
  cases b <;> exact ⟨rfl, rfl⟩

/-- A kind-0 push with room stands on its ring (R95). -/
theorem Core.pushReady_room {k : Core} {b : Bool} (h : k.hasRoom b = true) (e : Word) : k.pushReady b e = some (k.rawPush b e) := by
  simp [Core.pushReady, h]

/-- A wake makes a parked record woken, its deadline gone; any other record stays (R98). -/
theorem Core.wake_st (k : Core) {i : Nat} (hi : i < 64) (h : (k.record i).st = .parked) : ((k.wake i).record i).st = .woken := by
  rw [Core.wake, if_pos h]
  exact congrArg Rec.st (vget_vset_same k.recTab {} _ hi)

theorem Core.wake_other (k : Core) (i : Nat) (h : (k.record i).st ≠ .parked) : k.wake i = k := by
  simp [Core.wake, h]

end Sys2Proof.Machine
end

