-- ==== Sys2Proof/WellFormed.lean ====
section
/-! DEFINITION. What an instruction of the syntax must be: operands legal for its form (08_encoding R144 to R150), or,
for an event, agents, thread sets, slots and numbers that exist (01_machine R9 to R14). -/

namespace Sys2Proof

/-- A core of the mesh, or a house core numbered after them (R9, R12). -/
def coreId (n : Nat) : Bool := n < 73732
/-- A thread set of a core (R14). -/
def tsNo (n : Nat) : Bool := n < 4
/-- A stagehand (R11). -/
def shNo (n : Nat) : Bool := n < 512
/-- A partition (R27). -/
def partNo (n : Nat) : Bool := n < 16
/-- A context record (R96). -/
def recNo (n : Nat) : Bool := n < 64
/-- A cast of a partition (R25). -/
def castNo (n : Nat) : Bool := n < 256
/-- A curtain context (R26). -/
def ctxNo (n : Nat) : Bool := n < 2
/-- A direction N, E, S or W (R107). -/
def dirNo (n : Nat) : Bool := n < 4
/-- An Ethernet port (R340). -/
def portNo (n : Nat) : Bool := n < 2
/-- A cluster row: 32 clusters across, 144 rows (R24). -/
def rowNo (n : Nat) : Bool := n < 4608
/-- A stream slot (R58). -/
def streamNo (n : Nat) : Bool := n < 8
/-- An overlay slot (R81). -/
def overlayNo (n : Nat) : Bool := n < 16

/-- What a wake names exists. -/
def WakeFor.ok : WakeFor → Bool
  | .record c r => coreId c && recNo r
  | .packet _ => true

/-- The event's operands name agents and places that exist; an encoded instruction has none of its own here. -/
def Instr.eventOk : Instr → Bool
  | .add _ => true
  | .sub _ => true
  | .and _ => true
  | .or _ => true
  | .xor _ => true
  | .shl _ => true
  | .shr _ => true
  | .sra _ => true
  | .mul _ => true
  | .seq _ => true
  | .slt _ => true
  | .sltu _ => true
  | .sel _ => true
  | .addImm _ => true
  | .shlImm _ => true
  | .shrImm _ => true
  | .sraImm _ => true
  | .andImm _ => true
  | .li _ => true
  | .mov _ => true
  | .ldD _ => true
  | .ldW _ => true
  | .stD _ => true
  | .stW _ => true
  | .vld _ => true
  | .vst _ => true
  | .ldfr _ => true
  | .stfr _ => true
  | .b _ => true
  | .jal _ => true
  | .beq _ => true
  | .bne _ => true
  | .blt _ => true
  | .bge _ => true
  | .bltu _ => true
  | .bgeu _ => true
  | .bz _ => true
  | .bnz _ => true
  | .jr _ => true
  | .loop _ => true
  | .kget _ => true
  | .kput _ => true
  | .cueDec _ => true
  | .send _ => true
  | .pstD _ => true
  | .pstv _ => true
  | .beos _ => true
  | .nop _ => true
  | .done _ => true
  | .ret _ => true
  | .eret _ => true
  | .halt _ => true
  | .trap _ => true
  | .ldSize _ => true
  | .stSize _ => true
  | .ldAcq _ => true
  | .stRel _ => true
  | .stS _ => true
  | .ldv _ => true
  | .stv _ => true
  | .rcl _ => true
  | .ver _ => true
  | .pstSize _ => true
  | .pstvP1 _ => true
  | .ldfar _ => true
  | .stfar _ => true
  | .vldfar _ => true
  | .vldP1 _ => true
  | .vstP1 _ => true
  | .vlds _ => true
  | .vsts _ => true
  | .vgat _ => true
  | .vsct _ => true
  | .amoAdd _ => true
  | .amoAnd _ => true
  | .amoOr _ => true
  | .amoXor _ => true
  | .amoMin _ => true
  | .amoMax _ => true
  | .amoMinu _ => true
  | .amoMaxu _ => true
  | .amoSwap _ => true
  | .cas _ => true
  | .fence _ => true
  | .cpy _ => true
  | .wmk _ => true
  | .job _ => true
  | .jwait _ => true
  | .tilePut _ => true
  | .tileGet _ => true
  | .sfill _ => true
  | .sdrain _ => true
  | .vaddInt _ => true
  | .vsubInt _ => true
  | .vmulInt _ => true
  | .vminInt _ => true
  | .vmaxInt _ => true
  | .vabsInt _ => true
  | .vnegInt _ => true
  | .vcmpInt _ => true
  | .vsel _ => true
  | .vand _ => true
  | .vor _ => true
  | .vxor _ => true
  | .vshl _ => true
  | .vshr _ => true
  | .vsra _ => true
  | .vperm _ => true
  | .vbcst _ => true
  | .vext _ => true
  | .vins _ => true
  | .vmov _ => true
  | .vredSumInt _ => true
  | .vredMaxInt _ => true
  | .vredMinInt _ => true
  | .andn _ => true
  | .rol _ => true
  | .mulh _ => true
  | .mulhu _ => true
  | .div _ => true
  | .divu _ => true
  | .rem _ => true
  | .remu _ => true
  | .min _ => true
  | .max _ => true
  | .minu _ => true
  | .maxu _ => true
  | .clz _ => true
  | .ctz _ => true
  | .popc _ => true
  | .bswap _ => true
  | .sext _ => true
  | .zext _ => true
  | .lih _ => true
  | .adds _ => true
  | .bfx _ => true
  | .bfi _ => true
  | .orImm _ => true
  | .xorImm _ => true
  | .vaddFloat _ => true
  | .vsubFloat _ => true
  | .vmulFloat _ => true
  | .vfma _ => true
  | .vfms _ => true
  | .vminFloat _ => true
  | .vmaxFloat _ => true
  | .vabsFloat _ => true
  | .vnegFloat _ => true
  | .vdiv _ => true
  | .vsqrt _ => true
  | .vcmpFloat _ => true
  | .vredSumFloat _ => true
  | .vredMaxFloat _ => true
  | .vredMinFloat _ => true
  | .vdot _ => true
  | .vcvt _ => true
  | .vbmand _ => true
  | .vpfx _ => true
  | .vpopc _ => true
  | .pand _ => true
  | .por _ => true
  | .pxor _ => true
  | .pnot _ => true
  | .pmov _ => true
  | .pset _ => true
  | .mma _ => true
  | .mmag _ => true
  | .mmix _ => true
  | .macz _ => true
  | .macr _ => true
  | .macw _ => true
  | .macst _ => true
  | .mreh _ => true
  | .mwait _ => true
  | .gacc _ => true
  | .gsub _ => true
  | .gschur _ => true
  | .gdamp _ => true
  | .gmean _ => true
  | .gres _ => true
  | .sendP7 _ => true
  | .sendc _ => true
  | .cueDecP7 _ => true
  | .cueArm _ => true
  | .cueBind _ => true
  | .cueStat _ => true
  | .ready _ => true
  | .park _ => true
  | .rpoll _ => true
  | .rwait _ => true
  | .rpop _ => true
  | .mbinc _ => true
  | .mbwait _ => true
  | .mbget _ => true
  | .sbind _ => true
  | .sclose _ => true
  | .sstat _ => true
  | .sseek _ => true
  | .beosP8 _ => true
  | .ldfrP8 _ => true
  | .stfrP8 _ => true
  | .vldfr _ => true
  | .vstfr _ => true
  | .enter _ => true
  | .leave _ => true
  | .dmov _ => true
  | .frref _ => true
  | .frrel _ => true
  | .cfetch _ => true
  | .cstat _ => true
  | .jf _ => true
  | .jfl _ => true
  | .curtain _ => true
  | .curtainArr _ => true
  | .curtainExcuse _ => true
  | .castq _ => true
  | .qenq _ => true
  | .qdeq _ => true
  | .qsteal _ => true
  | .qmint _ => true
  | .chorus _ => true
  | .chorusEnd _ => true
  | .partCfg _ => true
  | .partCfgRelease a => a.t == 0 && a.p == 7 && a.w == 0 && a.m == 0 && a.v == 0 && a.imm == 0 && !a.short
  | .partZero _ => true
  | .partRun _ => true
  | .partSusp _ => true
  | .slicePut _ => true
  | .sliceArm _ => true
  | .keyPut _ => true
  | .keyZero _ => true
  | .sysPageTableWrite _ _ => true
  | .asyncTrapDelivery core ts => coreId core && tsNo ts
  | .codeletStart core ts => coreId core && tsNo ts
  | .contextResume core ts => coreId core && tsNo ts
  | .faultResume core ts => coreId core && tsNo ts
  | .eventTake core => coreId core
  | .cueDecArrival _ => true
  | .messageAppend _ => true
  | .postedStoreArrival _ => true
  | .stvArrival _ => true
  | .mailboxIncrement _ => true
  | .deliveryAccepted _ => true
  | .deliveryRefused _ => true
  | .retransmit _ => true
  | .farRequest _ => true
  | .farAnswer _ => true
  | .contextWake w => w.ok
  | .faultWake w => w.ok
  | .versionWaitPark core ts => coreId core && tsNo ts
  | .parkTimeout core rec => coreId core && recNo rec
  | .quantumChoice sh => shNo sh
  | .fetchComplete sh part _ => shNo sh && partNo part
  | .fetchFault sh part _ => shNo sh && partNo part
  | .drainEnd sh part _ => shNo sh && partNo part
  | .writebackDone sh part _ => shNo sh && partNo part
  | .pinTimeout sh part _ => shNo sh && partNo part
  | .streamFill core ts slot => coreId core && tsNo ts && streamNo slot
  | .streamDrain core ts slot => coreId core && tsNo ts && streamNo slot
  | .linkElementArrival _ => true
  | .copyPush _ => true
  | .copyFault _ => true
  | .jobStart core _ => coreId core
  | .jobComplete core _ => coreId core
  | .jobFault core _ => coreId core
  | .stageTimeout sh part => shNo sh && partNo part
  | .matrixBegin core => coreId core
  | .matrixComplete core => coreId core
  | .gangBarrierComplete row _ => rowNo row
  | .gangTimeout row _ => rowNo row
  | .gangAbort row _ => rowNo row
  | .schurComplete core => coreId core
  | .curtainRelease part ctx => partNo part && ctxNo ctx
  | .curtainTimeout part ctx => partNo part && ctxNo ctx
  | .mailboxTimeout core ts => coreId core && tsNo ts
  | .chorusWaitTimeout core ts => coreId core && tsNo ts
  | .castRoundComplete part cast => partNo part && castNo cast
  | .collectiveTimeout part cast => partNo part && castNo cast
  | .overlayFetchDone core slot => coreId core && overlayNo slot
  | .energyUpdate => true
  | .budgetPeriod => true
  | .powerPeriod => true
  | .launchGo part => partNo part
  | .zeroingDone part => partNo part
  | .sliceSwitch => true
  | .linkResync core dir => coreId core && dirNo dir
  | .linkDead core dir => coreId core && dirNo dir
  | .routeChange => true
  | .moduleReset => true
  | .configurePartition r => r.tag.length == 16 && r.body.length ≤ 1024
  | .zeroPartition r => r.tag.length == 16 && r.body.length ≤ 1024
  | .launch r => r.tag.length == 16 && r.body.length ≤ 1024
  | .suspend r => r.tag.length == 16 && r.body.length ≤ 1024
  | .resume r => r.tag.length == 16 && r.body.length ≤ 1024
  | .sliceEntry r => r.tag.length == 16 && r.body.length ≤ 1024
  | .armSlices r => r.tag.length == 16 && r.body.length ≤ 1024
  | .setAllotment r => r.tag.length == 16 && r.body.length ≤ 1024
  | .readEnergy r => r.tag.length == 16 && r.body.length ≤ 1024
  | .attest r => r.tag.length == 16 && r.body.length ≤ 1024
  | .advanceRollback r => r.tag.length == 16 && r.body.length ≤ 1024
  | .readStatus r => r.tag.length == 16 && r.body.length ≤ 1024
  | .rdmaWrite _ _ _ => true
  | .rdmaRead _ _ _ => true
  | .roceSend _ _ => true
  | .ptpMessage m => portNo m.port
  | .ptpHoldover => true
  | .addressResolution port _ => portNo port
  | .illegalInstruction _ => true
  | .instructionFetch core ts => coreId core && tsNo ts
  | .droppedFrame port => portNo port
  | .priorityFlowControl port prio _ => portNo port && (prio == 3 || prio == 6)
  | .portLinkUpOrDown port _ => portNo port
  | .stage1FirmwareUpdate _ => true

/-- An instruction that the syntax admits. -/
def Instr.wf (i : Instr) : Bool :=
  match i.parts with
  | some (r, a) => r.argsOk a
  | none => i.eventOk

end Sys2Proof
end

