-- ==== Sys2Proof/Certificates/Slice0/Obligations.lean ====
section
/-! DEFINITION. The statements about the model, for the provers: what each family of the opcode table does and where it completes, what
the machine does on its own, decoding and encoding, reset, and what every step keeps. -/

open Sys2Proof Sys2Proof.Machine

/-- R172, R174: every binary scalar form completes with the result its table row gives, in the long and in the short form. -/
def Obligations.ScalarBinaryForms : Prop :=
  ∀ (s : State) (c t : Nat) (a : Args), Plain s.mach c t = true →
    let l := s.mach.me.xreg (if a.short then a.d else a.s)
    let r := s.mach.me.xreg (if a.short then a.s else a.t)
    let n := r.toNat % 64
    let least : Word := 0x8000000000000000
    let flag (b : Prop) [Decidable b] : Word := if b then 1 else 0
    exec (.add a) s = s.gives a (l + r) ∧
    exec (.sub a) s = s.gives a (l - r) ∧
    exec (.and a) s = s.gives a (l &&& r) ∧
    exec (.or a) s = s.gives a (l ||| r) ∧
    exec (.xor a) s = s.gives a (l ^^^ r) ∧
    exec (.andn a) s = s.gives a (l &&& ~~~r) ∧
    exec (.shl a) s = s.gives a (l <<< n) ∧
    exec (.shr a) s = s.gives a (l >>> n) ∧
    exec (.sra a) s = s.gives a (l.sshiftRight n) ∧
    exec (.rol a) s = s.gives a (l <<< n ||| l >>> (64 - n)) ∧
    exec (.mul a) s = s.gives a (BitVec.ofNat 64 (l.toNat * r.toNat)) ∧
    exec (.mulh a) s = s.gives a (BitVec.ofInt 64 (l.toInt * r.toInt / 2 ^ 64)) ∧
    exec (.mulhu a) s = s.gives a (BitVec.ofNat 64 (l.toNat * r.toNat / 2 ^ 64)) ∧
    exec (.seq a) s = s.gives a (flag (l = r)) ∧
    exec (.slt a) s = s.gives a (flag (l.toInt < r.toInt)) ∧
    exec (.sltu a) s = s.gives a (flag (l.toNat < r.toNat)) ∧
    exec (.min a) s = s.gives a (if l.toInt < r.toInt then l else r) ∧
    exec (.max a) s = s.gives a (if l.toInt < r.toInt then r else l) ∧
    exec (.minu a) s = s.gives a (if l.toNat < r.toNat then l else r) ∧
    exec (.maxu a) s = s.gives a (if l.toNat < r.toNat then r else l) ∧
    exec (.adds a) s = s.gives a (BitVec.ofInt 64 (max (-(2 ^ 63)) (min (2 ^ 63 - 1) (l.toInt + r.toInt)))) ∧
    exec (.div a) s = s.gives a (if r = 0 then BitVec.allOnes 64 else if l = least ∧ r = BitVec.allOnes 64 then least
      else BitVec.ofInt 64 (l.toInt.tdiv r.toInt)) ∧
    exec (.rem a) s = s.gives a (if r = 0 then l else if l = least ∧ r = BitVec.allOnes 64 then 0
      else BitVec.ofInt 64 (l.toInt.tmod r.toInt)) ∧
    exec (.divu a) s = s.gives a (if r = 0 then BitVec.allOnes 64 else BitVec.ofNat 64 (l.toNat / r.toNat)) ∧
    exec (.remu a) s = s.gives a (if r = 0 then l else BitVec.ofNat 64 (l.toNat % r.toNat))

/-- R173, R175, R176, R177: the forms of one source, of an immediate, of a field, and the select. -/
def Obligations.ScalarUnaryAndImmediateForms : Prop :=
  ∀ (s : State) (c t : Nat) (a : Args), Plain s.mach c t = true →
    let x := s.mach.me.xreg
    let v := x a.s
    let o := x a.d
    let bits := 8 * 2 ^ (a.v.toNat % 4)
    let pos := a.imm.toNat % 64
    let len := a.imm.toNat / 64 % 64 + 1
    exec (.mov a) s = s.gives a v ∧
    exec (.clz a) s = s.gives a (BitVec.ofNat 64 ((List.range 64).takeWhile fun i => !v.getMsbD i).length) ∧
    exec (.ctz a) s = s.gives a (BitVec.ofNat 64 ((List.range 64).takeWhile fun i => !v.getLsbD i).length) ∧
    exec (.popc a) s = s.gives a (BitVec.ofNat 64 ((List.range 64).filter v.getLsbD).length) ∧
    exec (.bswap a) s = s.gives a ((List.range (bits / 8)).foldl (fun (w : Word) j => w <<< 8 ||| (v >>> (8 * j) &&& 0xFF)) 0) ∧
    exec (.sext a) s = s.gives a ((v.setWidth bits).signExtend 64) ∧
    exec (.zext a) s = s.gives a ((v.setWidth bits).setWidth 64) ∧
    exec (.bfx a) s = s.gives a (((v >>> pos).setWidth len).setWidth 64) ∧
    (∃ w : Word, exec (.bfi a) s = s.gives a w ∧
      ∀ i < 64, w.getLsbD i = if pos ≤ i ∧ i < pos + len then v.getLsbD (i - pos) else o.getLsbD i) ∧
    exec (.sel a) s = s.gives a (if o ≠ 0 then (if a.short then o else v) else (if a.short then v else x a.t)) ∧
    exec (.addImm a) s = s.gives a (o + a.imm) ∧
    exec (.andImm a) s = s.gives a (o &&& a.imm) ∧
    exec (.orImm a) s = s.gives a (o ||| a.imm) ∧
    exec (.xorImm a) s = s.gives a (o ^^^ a.imm) ∧
    exec (.shlImm a) s = s.gives a (o <<< a.imm.toNat) ∧
    exec (.shrImm a) s = s.gives a (o >>> a.imm.toNat) ∧
    exec (.sraImm a) s = s.gives a (o.sshiftRight a.imm.toNat) ∧
    exec (.li a) s = s.gives a a.imm ∧
    exec (.lih a) s = s.gives a (o <<< 25 ||| (a.imm &&& 0x1FFFFFF))

/-- R178, R179: a branch goes to Start + 2 × imm modulo 16 KiB where its condition holds and to Next else; `loop` decrements first. -/
def Obligations.BranchForms : Prop :=
  ∀ (s : State) (c t : Nat) (a : Args), Plain s.mach c t = true →
    let l := s.mach.me.xreg a.d
    let r := s.mach.me.xreg a.s
    let target := BitVec.ofInt 14 (s.mach.me.pc.toNat + 2 * a.imm.toInt)
    let goes (m : Mach) (b : Prop) [Decidable b] : Host.Outcome State Fault Refusal :=
      .next (s.after (if b then { m with npc := target, taken := true } else m))
    exec (.b a) s = goes s.mach True ∧
    exec (.beq a) s = goes s.mach (l = r) ∧
    exec (.bne a) s = goes s.mach (l ≠ r) ∧
    exec (.blt a) s = goes s.mach (l.toInt < r.toInt) ∧
    exec (.bge a) s = goes s.mach (r.toInt ≤ l.toInt) ∧
    exec (.bltu a) s = goes s.mach (l.toNat < r.toNat) ∧
    exec (.bgeu a) s = goes s.mach (r.toNat ≤ l.toNat) ∧
    exec (.bz a) s = goes s.mach (l = 0) ∧
    exec (.bnz a) s = goes s.mach (l ≠ 0) ∧
    exec (.loop a) s = goes (s.mach.modMe (·.setX a.d (l - 1))) (l - 1 ≠ 0)

/-- R180: calls, indirect jumps and returns, with the trap of a target outside instruction memory or at an odd byte; `nop`. R181: a fenced jump
transfers control into a VALID slot, traps at an EMPTY one, and parks with WAIT 3 at one that is LOADING, or stalls in place where no
context record is free. -/
def Obligations.CallAndJumpForms : Prop :=
  (∀ (s : State) (c t : Nat) (a : Args), Plain s.mach c t = true →
    let target := BitVec.ofInt 14 (s.mach.me.pc.toNat + 2 * a.imm.toInt)
    let jumps (v : Word) : Host.Outcome State Fault Refusal :=
      if v.toNat < 2 ^ 14 ∧ v.toNat % 2 = 0 then .next (s.after { s.mach with npc := v.setWidth 14, taken := true })
      else s.traps c t { cause := 0x02, addr := v }
    exec (.nop a) s = s.passes ∧
    exec (.jal a) s = .next (s.after { s.mach.modMe (·.setX 5 (s.mach.npc.setWidth 64)) with npc := target, taken := true }) ∧
    exec (.jr a) s = jumps (s.mach.me.xreg a.s) ∧
    exec (.ret a) s = jumps (s.mach.me.xreg 5)) ∧
  (∀ (s : State) (c t r : Nat) (a : Args), Plain s.mach c t = true →
    let target := BitVec.ofInt 14 (s.mach.me.pc.toNat + 2 * a.imm.toInt)
    let g := target.toNat / 1024
    let st := (s.mach.myCore.slot g).st
    let both (o : Host.Outcome State Fault Refusal) : Prop := exec (.jf a) s = o ∧ exec (.jfl a) s = o
    (st = .valid →
      exec (.jf a) s = .next (s.after { s.mach with npc := target, taken := true }) ∧
      exec (.jfl a) s = .next (s.after { s.mach.modMe (·.setX 5 (s.mach.npc.setWidth 64)) with npc := target, taken := true })) ∧
    (st = .empty → both (s.traps c t { cause := 0x15, addr := target.setWidth 64, index := BitVec.ofNat 16 g })) ∧
    (st = .loading ∧ s.mach.myCore.freeRec = none → both (s.waits .other)) ∧
    (st = .loading ∧ s.mach.myCore.freeRec = some r ∧ s.mach.recHeld c r = false →
      both (.next (s.after (s.mach.parkIn c t r 3 (BitVec.ofNat 64 g) s.mach.me.pc none)))))

/-- R66 to R74, R182: `kget` gives the value of the control register its selector names, each field at its bits. R64, R182: where a control
register may not be read or written the form traps without effect, the record's address being the selector; a nonzero reserved field is an
illegal word, and the address is the offset of the instruction's base word (R311; that it is the base word is log entry 80). -/
def Obligations.ControlRegisterReads : Prop :=
  (∀ (s : State) (c t : Nat) (a : Args), Plain s.mach c t = true →
    let k := s.mach.myCore
    let m := s.mach.me
    let p := s.mach.part k.part.toNat
    let one (b : Bool) (i : Nat) : Nat := if b then 2 ^ i else 0
    let reads (sel : Nat) (v : Nat) : Prop := exec (.kget { a with imm := BitVec.ofNat 64 sel }) s = s.gives a (BitVec.ofNat 64 v)
    reads 0x00 (one m.tc 0 + one m.eos 1 + one m.prt 2 + m.priv.code * 2 ^ 3 + one m.cho 5 + one m.fol 6 + one m.sup 7) ∧
    reads 0x01 m.kfflags.toNat ∧ reads 0x02 m.kfmta.toNat ∧ reads 0x03 m.kfmtb.toNat ∧ reads 0x04 m.kscla.toNat ∧
    reads 0x05 m.ksclb.toNat ∧ reads 0x06 m.kplanes.toNat ∧ reads 0x07 m.kgpiv.toNat ∧
    (c < 73728 → reads 0x08 (p.toe.toNat + one p.pha 5 + one p.phb 6)) ∧
    reads 0x09 (k.period.toNat + k.fence.toNat * 2 ^ 16) ∧
    reads 0x0A (((List.range 4).map fun i => (vget k.owner 0 i).toNat * 2 ^ (2 * i) + one (k.mat.any (·.acc == i)) (8 + i)).sum) ∧
    (m.priv ≠ .user → reads 0x0B (m.kepcPc.toNat + m.kepcPriv.toNat * 2 ^ 14) ∧ reads 0x0C m.kvec.toNat) ∧
    reads 0x0D ((posOf c).1 + (posOf c).2 * 2 ^ 10 + t * 2 ^ 18 + k.part.toNat * 2 ^ 20 + k.log.toNat * 2 ^ 24) ∧
    reads 0x0E s.mach.clk ∧
    reads 0x0F (s.mach.ptpNs % 1000000000 + s.mach.ptpNs / 1000000000 * 2 ^ 30) ∧
    (c < 73728 → reads 0x10 (p.rem.toNat + one p.low 63) ∧
      reads 0x11 (p.stitch.toNat + p.cx0.toNat * 2 ^ 3 + p.cy0.toNat * 2 ^ 8 + p.w.toNat * 2 ^ 12 + p.h.toNat * 2 ^ 18)) ∧
    (∀ i < 8, reads (0x18 + i) (vget m.kfault 0 i).toNat ∧ reads (0x20 + i) (vget m.krgn 0 i).toNat)) ∧
  (∀ (s : State) (c t : Nat) (a : Args) (sel : Nat), Plain s.mach c t = true →
    let n := s.mach.me.xreg a.d
    let trapsGet (cause : Byte) : Prop :=
      exec (.kget { a with imm := BitVec.ofNat 64 sel }) s = s.traps c t { cause := cause, addr := BitVec.ofNat 64 sel }
    let trapsPut (cause : Byte) : Prop :=
      exec (.kput { a with imm := BitVec.ofNat 64 sel }) s = s.traps c t { cause := cause, addr := BitVec.ofNat 64 sel }
    let illegal : Prop := exec (.kput { a with imm := BitVec.ofNat 64 sel }) s =
      s.traps c t { cause := 0x01, addr := BitVec.ofNat 64 ((s.mach.npc.toNat + 2 ^ 14 - 2) % 2 ^ 14) }
    (s.mach.me.priv = .user → sel = 0x0B ∨ sel = 0x0C → trapsGet 0x03) ∧
    (s.on a = false → exec (.kput a) s = s.passes) ∧
    (s.on a = true →
      (sel = 0x0A ∨ (0x0D ≤ sel ∧ sel ≤ 0x11) ∨ (0x18 ≤ sel ∧ sel ≤ 0x1F) → trapsPut 0x02) ∧
      (s.mach.me.priv = .user → sel = 0x08 ∨ sel = 0x09 ∨ sel = 0x0B ∨ sel = 0x0C → trapsPut 0x03) ∧
      (sel = 0x00 → 256 ≤ n.toNat → illegal) ∧
      (sel = 0x00 → n.toNat < 256 → n.toNat / 4 ≠ s.mach.me.kmode.toNat / 4 → trapsPut 0x02) ∧
      (sel = 0x01 → 64 ≤ n.toNat → illegal) ∧
      (s.mach.me.priv ≠ .user → sel = 0x09 → n.toNat < 2 ^ 20 → n.toNat / 65536 = s.mach.myCore.fence.toNat →
        n.toNat % 65536 < 256 → trapsPut 0x02)))

/-- R66 to R68, R73, R78, R182: `kput` with its predicate bit 0 set writes the RW and W1C fields of the register, where the value has no
reserved bit, leaves the RO fields as they stand and keeps the register's limits. -/
def Obligations.ControlRegisterWrites : Prop :=
  ∀ (s : State) (c t : Nat) (a : Args), Plain s.mach c t = true → s.on a = true →
    let n := s.mach.me.xreg a.d
    let v := n.toNat
    let puts (sel : Nat) (m : Mach) : Prop := exec (.kput { a with imm := BitVec.ofNat 64 sel }) s = .next (s.after m)
    let mine (sel : Nat) (f : ThreadSet → ThreadSet) : Prop := puts sel (s.mach.modMe f)
    let p := s.mach.part s.mach.myCore.part.toNat
    (v < 256 → v / 4 = s.mach.me.kmode.toNat / 4 →
      mine 0x00 fun u => { u with tc := n.getLsbD 0, eos := u.eos && !n.getLsbD 1 }) ∧
    (v < 64 → mine 0x01 fun u => { u with kfflags := u.kfflags &&& ~~~(n.setWidth 6) }) ∧
    (v < 32 → mine 0x02 (fun u => { u with kfmta := n.setWidth 5 }) ∧ mine 0x03 (fun u => { u with kfmtb := n.setWidth 5 })) ∧
    (v < 65536 → mine 0x04 (fun u => { u with kscla := n.setWidth 16 }) ∧ mine 0x05 (fun u => { u with ksclb := n.setWidth 16 })) ∧
    (v < 16 → mine 0x06 fun u => { u with kplanes := n.setWidth 4 }) ∧
    (v < 2 ^ 32 → mine 0x07 fun u => { u with kgpiv := n.setWidth 32 }) ∧
    (s.mach.me.priv ≠ .user → c < 73728 → v < 128 → v / 32 = p.pha.toNat + 2 * p.phb.toNat → 8 ≤ v % 32 →
      puts 0x08 (s.mach.modPart s.mach.myCore.part.toNat fun q => { q with toe := n.setWidth 5 })) ∧
    (s.mach.me.priv ≠ .user → v / 65536 = s.mach.myCore.fence.toNat → 256 ≤ v % 65536 →
      puts 0x09 (s.mach.modCore c fun k => { k with period := n.setWidth 16 })) ∧
    (s.mach.me.priv ≠ .user → v < 65536 →
      mine 0x0B fun u => { u with kepcPriv := BitVec.ofNat 2 (v / 2 ^ 14), kepcPc := BitVec.ofNat 14 (v / 2 * 2) }) ∧
    (s.mach.me.priv ≠ .user → v < 2 ^ 14 → mine 0x0C fun u => { u with kvec := BitVec.ofNat 14 (v / 2 * 2) }) ∧
    (∀ i < 8, v / 2 ^ 54 % 32 = 0 → v / 2 ^ 59 % 8 < 6 → v % 2 ^ 9 ≤ v / 2 ^ 9 % 2 ^ 9 →
      mine (0x20 + i) fun u => { u with krgn := vset u.krgn i n })

/-- R308, R310: trap entry of a thread set with a handler saves the PC to return to and the level, writes the record with the thread set, the
level and the time, raises user level to supervisor level and goes to kvec.ENTRY; no register, no byte of memory, no other thread set and no
other core changes. R312: with kvec.ENTRY = 0 a trap of a codelet without a join cue kills it: the thread set is free, its slots are
unbound, and the codelet-killed event with the trap's cause as INNER joins the core's queue. -/
def Obligations.TrapEntryOrKill : Prop :=
  (∀ (m : Mach) (c t v d off : Nat) (r : FaultRec) (pc : BitVec 14), t < 4 → ((m.core c).tset t).kvec ≠ 0 →
    let k := m.core c
    let u := k.tset t
    let m' := m.trapEntry c t r pc
    let k' := m'.core c
    let u' := k'.tset t
    u'.kepcPc = pc ∧ u'.kepcPriv = BitVec.ofNat 2 u.priv.code ∧
    u'.priv = (if u.priv = .user then .supervisor else u.priv) ∧ u'.pc = u.kvec ∧ u'.handler = true ∧
    u'.kfault = { r with ts := BitVec.ofNat 2 t, priv := BitVec.ofNat 2 u.priv.code, time := BitVec.ofNat 64 m.clk }.words ∧
    u'.x = u.x ∧ u'.v = u.v ∧ u'.p = u.p ∧ u'.d = u.d ∧ u'.sd = u.sd ∧ u'.kfflags = u.kfflags ∧ u'.tc = u.tc ∧
    u'.eos = u.eos ∧ u'.kvec = u.kvec ∧ u'.krgn = u.krgn ∧
    (v ≠ t → k'.tset v = k.tset v) ∧ k'.mem.byte off = k.mem.byte off ∧ k'.acc = k.acc ∧ k'.imem = k.imem ∧
    (d ≠ c → m'.core d = m.core d) ∧ m'.hands = m.hands ∧ m'.parts = m.parts ∧ m'.net = m.net) ∧
  (∀ (m : Mach) (c t d : Nat) (r : FaultRec) (pc : BitVec 14), t < 4 → ((m.core c).tset t).kvec = 0 → ((m.core c).tset t).cho = false →
    (m.core c).joinOf t = 0 → (m.core c).events.length < 16 →
    let u := (m.core c).tset t
    let k' := (m.trapEntry c t r pc).core c
    let e := k'.events.getLastD {}
    ((k'.tset t).busy = false ∧ (k'.tset t).handler = false ∧ (k'.tset t).anyBound = false) ∧
    (k'.events = (m.core c).events ++ [e] ∧ e.cause = 0x4B ∧ e.inner = r.cause ∧ e.addr = u.desc.setWidth 64 ∧ e.data = r.addr ∧ e.evt = true) ∧
    (d ≠ c → (m.trapEntry c t r pc).core d = m.core d))

/-- R66, R68, R271: `trap n` enters the handler with n as INDEX and returns past itself; `eret` restores PC and level from kepc; below
supervisor level `eret` and `halt` raise the privilege trap; `halt` stops the core. -/
def Obligations.SystemForms : Prop :=
  ∀ (s : State) (c t off : Nat) (a : Args), Plain s.mach c t = true →
    let u := s.mach.me
    let r : FaultRec := { cause := 0x26, index := a.imm.setWidth 16, pc := u.pc }
    let back := s.mach.modMe fun v => { v with priv := Priv.ofCode u.kepcPriv.toNat, handler := false }
    (exec (.trap a) s = .next { s with mach := s.mach.trapEntry c t r s.mach.npc }) ∧
    (u.priv = .user → exec (.eret a) s = s.traps c t { cause := 0x03 } ∧ exec (.halt a) s = s.traps c t { cause := 0x03 }) ∧
    (u.priv ≠ .user ∧ u.kepcPriv = 3 → exec (.eret a) s = s.traps c t { cause := 0x02 }) ∧
    (u.priv ≠ .user ∧ u.kepcPriv ≠ 3 ∧ u.priv.code < u.kepcPriv.toNat → exec (.eret a) s = s.traps c t { cause := 0x03 }) ∧
    (u.priv ≠ .user ∧ u.kepcPriv.toNat ≤ u.priv.code → exec (.eret a) s = .next (s.after { back with npc := u.kepcPc, taken := true })) ∧
    (u.priv ≠ .user → ∃ v, exec (.halt a) s = .next v ∧ (v.mach.core c).halted = true ∧
      (v.mach.core c).mem.byte off = s.mach.myCore.mem.byte off ∧ (v.mach.core c).acc = s.mach.myCore.acc)

/-- R258: `done` leaves the frames held, sends the join decrement where slot 0 of the depth-3 frame names a cue, and frees the thread set; while
no send-window entry is free it waits, its frames left, and the join kept; a join that fails the checks of a decrement is reported. R97,
R259: `park` goes on at once where its event holds, else takes a free context record, and traps at the park limit; the context resumes at
Next. That it takes the lowest free record is the model's choice (log entry 17). -/
def Obligations.DoneAndParkForms : Prop :=
  (∀ (s : State) (c t q off : Nat) (a : Args) (code : Nat), Plain s.mach c t = true → s.mach.me.doneJoin = none →
    let k := s.mach.myCore
    let heads : List Nat := (([7, 6, 5, 4, 3].map fun i => vget s.mach.me.d 0 i).filter (· != 0)).map fun f => f.toNat % 65536 + 8
    let words : List Nat := heads ++ (if vget s.mach.me.d 0 3 = 0 then [] else [(vget s.mach.me.d 0 3).toNat % 65536 + 16])
    let calm : Bool := heads.all (fun h => !s.mach.heldRange c h 8) && words.all (fun w => w % 8 == 0 && (k.sideAt w).ecc == .good)
    let j := k.joinOf t
    let m := s.mach.modCore c (·.leaveAll t)
    let freed (m : Mach) : Mach := m.modCore c (·.modTs t ThreadSet.release)
    let lost : FaultRec :=
      { cause := 0x4D, addr := j, index := BitVec.ofNat 16 code, pc := s.mach.me.pc, priv := BitVec.ofNat 2 s.mach.me.priv.code }
    (calm = true ∧ j = 0 → exec (.done a) s = .next (s.after (freed m))) ∧
    (calm = true ∧ j ≠ 0 ∧ m.cueTarget c j = .ok (q, off) ∧ m.windowFree c = true → exec (.done a) s =
        .next (s.after (freed (m.post c t q (.cue off false (some j)) none true)))) ∧
    (calm = true ∧ j ≠ 0 ∧ m.cueTarget c j = .ok (q, off) ∧ m.windowFree c = false → exec (.done a) s =
        .next { s with mach := (m.modMe fun u => { u with doneJoin := some j }).stall s.mach.cur .other }) ∧
    (calm = true ∧ j ≠ 0 ∧ m.cueTarget c j = .error code → exec (.done a) s =
      .next (s.after (freed (m.event c lost (some t)))))) ∧
  (∀ (s : State) (c t i : Nat) (a : Args), Plain s.mach c t = true →
    let e := s.mach.me.xreg a.s
    let kind := e.toNat / 2 ^ 62
    let time := e.toNat / 2 ^ 40 % 2 ^ 20
    let fits := e.toNat / 2 ^ 60 % 4 = 0 ∧ e.toNat / 2 ^ 26 % 2 ^ 14 = 0
    let k := s.mach.myCore
    let reads : List Nat := if kind = 1 then [e.toNat % 2 ^ 16]
      else if kind = 2 then [k.inOff (e.toNat / 2 ^ 24 % 4), k.inOff (e.toNat / 2 ^ 24 % 4) + 8] else []
    let good := kind ≠ 3 ∧ fits ∧ (kind = 0 → time ≠ 0) ∧ (kind = 1 → e.toNat % 8 = 0) ∧
      reads.all (fun w => (k.sideAt w).ecc == .good) = true
    (kind = 3 ∨ ¬fits ∨ (kind = 0 ∧ time = 0) → exec (.park a) s = s.traps c t { cause := 0x02, addr := e }) ∧
    (kind = 1 ∧ fits ∧ e.toNat % 8 ≠ 0 → exec (.park a) s = s.traps c t { cause := 0x05, addr := BitVec.ofNat 64 (e.toNat % 2 ^ 16) }) ∧
    (good ∧ k.eventHolds e = true → exec (.park a) s = s.passes) ∧
    (good ∧ k.eventHolds e = false ∧ k.freeRec = none → exec (.park a) s = s.traps c t { cause := 0x17 }) ∧
    (good ∧ k.eventHolds e = false ∧ k.freeRec = some i ∧ s.mach.recHeld c i = false → exec (.park a) s = .next (s.after
      (s.mach.parkIn c t i 2 e s.mach.npc (if time = 0 then none else some (s.mach.clk + time * 256))))))

/-- R184, R187, R191: a scalar load of the own core or of a live core of the cluster gives the bytes at its address, lowest address first,
zero-extended; a load whose predicate bit 0 is 0 makes no access. -/
def Obligations.ScalarLoads : Prop :=
  ∀ (s : State) (c t off q : Nat) (a : Args) (i : Instr) (n : Nat), Plain s.mach c t = true →
    (i, n) ∈ [(Instr.ldD a, 8), (Instr.ldW a, 4), (Instr.ldSize a, 2 ^ (a.v.toNat % 4)), (Instr.ldAcq a, 2 ^ (a.v.toNat % 4))] →
    let ea := s.mach.me.xreg a.s + a.imm
    let runs := s.on a = true ∧ off % n = 0
    let gives (d : Nat) : Host.Outcome State Fault Refusal :=
      .next (s.after ((s.mach.modCore d (·.correct off n)).modMe (·.setX a.d (BitVec.ofNat 64 ((s.mach.core d).number off n)))))
    (s.on a = false → exec i s = s.passes) ∧
    (runs ∧ ownAt c ea off = true ∧ s.mach.admits c t off n false = true → exec i s = gives c) ∧
    (runs ∧ coreAt q ea off = true ∧ q ≠ c ∧ sameCluster c q = true ∧ s.mach.live q = true ∧ s.mach.injPaused = false ∧
      s.mach.gone.contains q = false ∧ s.mach.unaccepted c t q off n = false ∧
      (s.mach.core q).aboveMark off n = none ∧ (s.mach.core q).badRead off n = none → exec i s = gives q)

/-- R79, R184, R187, R190, R191: a scalar store of the own core writes its bytes and no other byte of any memory, and counts as one store of
each word it touches; to another core of the cluster it leaves as one posted store. -/
def Obligations.ScalarStores : Prop :=
  ∀ (s : State) (c t off q d b : Nat) (a : Args) (i : Instr) (n : Nat), Plain s.mach c t = true →
    (i, n) ∈ [(Instr.stD a, 8), (Instr.stW a, 4), (Instr.stSize a, 2 ^ (a.v.toNat % 4)), (Instr.stS a, 2 ^ (a.v.toNat % 4)),
      (Instr.stRel a, 2 ^ (a.v.toNat % 4))] →
    (i = .stRel a → s.mach.quiet c t = true) →
    let ea := s.mach.me.xreg a.s + a.imm
    let v := s.mach.me.xreg a.d
    let runs := s.on a = true ∧ off % n = 0
    let m := s.mach.modCore c (·.store (spread off n v))
    (s.on a = false → exec i s = s.passes) ∧
    (runs ∧ ownAt c ea off = true ∧ s.mach.admits c t off n true = true →
      exec i s = .next (s.after m) ∧
      ((s.after m).mach.core d).mem.byte b =
        (if d = c ∧ off ≤ b ∧ b < off + n then v.extractLsb' (8 * (b - off)) 8 else (s.mach.core d).mem.byte b) ∧
      ((s.after m).mach.core c).verAt b = (if b / 8 = off / 8 then (s.mach.core c).verAt b + 1 else (s.mach.core c).verAt b)) ∧
    (runs ∧ coreAt q ea off = true ∧ q ≠ c ∧ sameCluster c q = true ∧ s.mach.live q = true ∧ s.mach.windowFree c = true →
      exec i s = .next (s.after (s.mach.post c t q (.store (spread off n v)) none true)))

/-- R190, R191: a posted store to another core of the partition, and a release store that earlier deliveries hold back, leave as one delivery in
a send-window entry; while none is free they wait. R191, R280: a release store that an earlier delivery of its party holds back, whatever
its scope, is posted behind it and behind the stream elements that the party has pushed; its instruction completes. To the own core it takes
no send-window entry (log entry 21). What a release store to own memory leaves as, while deliveries are outstanding, is read by inference
(log entry 21). -/
def Obligations.PostedAndReleaseStores : Prop :=
  (∀ (s : State) (c t off q : Nat) (a : Args) (i : Instr) (n : Nat), Plain s.mach c t = true → s.on a = true → c < 73728 →
    (i, n) ∈ [(Instr.pstD a, 8), (Instr.pstSize a, 2 ^ (a.v.toNat % 4))] →
    let ea := s.mach.me.xreg a.s + a.imm
    let data := spread off n (s.mach.me.xreg a.d)
    let sends := off % n = 0 ∧ coreAt q ea off = true ∧ q ≠ c ∧ s.mach.live q = true ∧
      (s.mach.part s.mach.myCore.part.toNat).holds (q % 512) (q / 512) = true
    (off % n = 0 ∧ ownAt c ea off = true ∧ s.mach.admits c t off n true = true →
      exec i s = .next (s.after (s.mach.modCore c (·.store data)))) ∧
    (sends ∧ s.mach.windowFree c = true → exec i s = .next (s.after (s.mach.post c t q (.store data) none true))) ∧
    (sends ∧ s.mach.windowFree c = false → exec i s = s.waits .other)) ∧
  (∀ (s : State) (c t : Nat) (a : Args) (off q : Nat), Plain s.mach c t = true → s.on a = true → s.mach.quiet c t = false →
    let n := 2 ^ (a.v.toNat % 4)
    let ea := s.mach.me.xreg a.s + a.imm
    let data := Payload.store (spread off n (s.mach.me.xreg a.d))
    let sends := (clusterCores c).contains q = true ∧ coreAt q ea off = true ∧ off % n = 0 ∧ q ≠ c ∧ s.mach.live q = true ∧
      sameCluster c q = true ∧ (s.mach.core q).protectedAt off n = none ∧ (s.mach.core q).aboveMark off n = none
    (ownAt c ea off = true ∧ off % n = 0 ∧ (List.range n).all (fun i => s.mach.admits c t ((off + i) / 8 * 8) 8 true) = true →
      exec (.stRel a) s = .next (s.after (s.mach.post c t c data none false true s.mach.me.pushed))) ∧
    (sends ∧ s.mach.windowFree c = true → exec (.stRel a) s = .next (s.after (s.mach.post c t q data none true true s.mach.me.pushed))) ∧
    (sends ∧ s.mach.windowFree c = false → exec (.stRel a) s = s.waits .other))

/-- R184: the checks of a local access, in their order: the space and its zero bits, the alignment, the reach, and for a store the protected
areas and frame headers; each trap names the address, and the frame-header fault the base of the frame. -/
def Obligations.AddressChecks : Prop :=
  ∀ (s : State) (c t q off f : Nat) (a : Args), Plain s.mach c t = true → s.on a = true →
    let ea := s.mach.me.xreg a.s + a.imm
    let sp := ea.toNat / 2 ^ 60
    let traps (i : Instr) (cause : Byte) : Prop := exec i s = s.traps c t { cause := cause, addr := ea }
    let remote := coreAt q ea off = true ∧ off % 8 = 0 ∧ q ≠ c
    let aligned := ea.toNat < 65536 ∧ ea.toNat % 8 = 0
    (2 ≤ sp ∧ sp ≤ 14 → traps (.ldD a) 0x04 ∧ traps (.stD a) 0x04 ∧ traps (.ldW a) 0x04 ∧ traps (.pstD a) 0x04) ∧
    (sp = 15 ∧ s.mach.me.priv = .user → traps (.ldD a) 0x03 ∧ traps (.stD a) 0x03 ∧ traps (.ldW a) 0x03) ∧
    (sp = 15 ∧ s.mach.me.priv ≠ .user → traps (.ldW a) 0x04 ∧ traps (.pstD a) 0x04) ∧
    (sp = 0 ∧ 65536 ≤ ea.toNat → traps (.ldD a) 0x04 ∧ traps (.stD a) 0x04 ∧ traps (.stW a) 0x04) ∧
    (sp = 0 ∧ ea.toNat < 65536 ∧ ea.toNat % 8 ≠ 0 → traps (.ldD a) 0x05 ∧ traps (.stD a) 0x05 ∧ traps (.pstD a) 0x05) ∧
    (remote ∧ s.mach.live q = false → traps (.ldD a) 0x06 ∧ traps (.stD a) 0x06 ∧ traps (.pstD a) 0x06) ∧
    (remote ∧ s.mach.live q = true ∧ sameCluster c q = false → traps (.ldD a) 0x04 ∧ traps (.stD a) 0x04) ∧
    (remote ∧ s.mach.live q = true ∧ c < 73728 ∧ (s.mach.part s.mach.myCore.part.toNat).holds (q % 512) (q / 512) = false →
      traps (.pstD a) 0x07) ∧
    (aligned ∧ s.mach.myCore.inQueueArea ea.toNat = true → traps (.stD a) 0x08) ∧
    (aligned ∧ s.mach.myCore.inQueueArea ea.toNat = false ∧ s.mach.myCore.inQueueArea (ea.toNat + 7) = false ∧
      s.mach.myCore.headerOf ea.toNat = some f → exec (.stD a) s = s.traps c t { cause := 0x09, addr := BitVec.ofNat 64 f })

/-- R194: an atomic of the own core reads the old value at its size, stores the new one in the same step and gives the old one, zero-extended,
once earlier accesses of the party are performed; `cas` stores only on a match. -/
def Obligations.AtomicForms : Prop :=
  ∀ (s : State) (c t : Nat) (a : Args) (off : Nat) (i : Instr), Plain s.mach c t = true →
    let n := 2 ^ (a.v.toNat % 4)
    let trim (w : Word) : Word := (w.setWidth (8 * n)).setWidth 64
    let signed (w : Word) : Int := (w.setWidth (8 * n)).toInt
    let x : Word := BitVec.ofNat 64 (s.mach.myCore.number off n)
    let b := trim (s.mach.me.xreg a.t)
    let e := trim (s.mach.me.xreg a.d)
    let m := s.mach.modCore c (·.correct off n)
    let stores (w : Word) : Host.Outcome State Fault Refusal :=
      .next (s.after ((m.modCore c (·.store (spread off n w))).modMe (·.setX a.d x)))
    let forms := [Instr.amoAdd a, .amoAnd a, .amoOr a, .amoXor a, .amoSwap a, .amoMin a, .amoMax a, .amoMinu a, .amoMaxu a, .cas a]
    (s.on a = true ∧ off % n = 0 ∧ ownAt c (s.mach.me.xreg a.s + a.imm) off = true ∧ s.mach.quiet c t = true ∧
      s.mach.admits c t off n true = true →
      exec (.amoAdd a) s = stores (x + b) ∧ exec (.amoAnd a) s = stores (x &&& b) ∧ exec (.amoOr a) s = stores (x ||| b) ∧
      exec (.amoXor a) s = stores (x ^^^ b) ∧ exec (.amoSwap a) s = stores b ∧
      exec (.amoMin a) s = stores (if signed x < signed b then x else b) ∧
      exec (.amoMax a) s = stores (if signed x < signed b then b else x) ∧
      exec (.amoMinu a) s = stores (if x.toNat < b.toNat then x else b) ∧
      exec (.amoMaxu a) s = stores (if x.toNat < b.toNat then b else x) ∧
      exec (.cas a) s = if x = e then stores b else .next (s.after (m.modMe (·.setX a.d x)))) ∧
    (s.on a = false ∧ i ∈ forms → exec i s = s.passes)

/-- R133, R134, R192, R193: `ldv` gives word and version once the version has reached its target and stalls until then; `ver` gives version and
reclaim bit without a wait; `rcl` sets the reclaim bit on a match; `stv` leaves as a delivery. R195, R281: a fence of loads alone passes at
once; any other one passes when the party's earlier deliveries are accepted, and stalls in place until then. That .ls waits for the
deliveries of earlier stores too is read from R281 (log entry 49). -/
def Obligations.VersionedFormsAndFences : Prop :=
  (∀ (s : State) (c t : Nat) (a : Args) (off q : Nat) (i : Instr), Plain s.mach c t = true →
    let ea := s.mach.me.xreg a.s + a.imm
    let k := s.mach.myCore
    let ver := k.verAt off
    let m := s.mach.modCore c (·.correct off 8)
    let n := (s.mach.me.xreg a.t).setWidth 8
    let old := (s.mach.me.xreg a.d).setWidth 8
    let runs := s.on a = true ∧ off % 8 = 0
    let mine := runs ∧ ownAt c ea off = true ∧ s.mach.admits c t off 8 false = true
    let sends := runs ∧ ((ownAt c ea off = true ∧ q = c ∧ k.protectedAt off 8 = none) ∨
      (coreAt q ea off = true ∧ q ≠ c ∧ c < 73728 ∧ s.mach.live q = true ∧ (s.mach.part k.part.toNat).holds (q % 512) (q / 512) = true))
    (s.on a = false ∧ i ∈ [Instr.ldv a, .ver a, .rcl a, .stv a] → exec i s = s.passes) ∧
    (mine ∧ (ver - n).toNat < 128 → exec (.ldv a) s = .next (s.after
      ((m.modMe (·.setX a.d (BitVec.ofNat 64 (k.number off 8)))).modMe (·.setX a.t (ver.setWidth 64))))) ∧
    (mine ∧ 128 ≤ (ver - n).toNat → exec (.ldv a) s = s.waits (.version off n)) ∧
    (mine ∧ s.mach.quietOwner c t off = true → exec (.rcl a) s = .next (s.after (if ver = old
      then m.modCore c (fun q => q.setSide off { q.sideAt off with rcl := true }) else m.modCore c id))) ∧
    (runs ∧ ownAt c ea off = true ∧ k.badRead off 8 = none → exec (.ver a) s = .next (s.after (m.modMe (·.setX a.d
      (BitVec.ofNat 64 (ver.toNat + if (k.sideAt off).rcl then 256 else 0)))))) ∧
    (sends ∧ s.mach.windowFree c = true → exec (.stv a) s = .next (s.after
      (s.mach.post c t q (.stv off (s.mach.me.xreg a.d) ((s.mach.me.xreg a.t).setWidth 8)) none true))) ∧
    (sends ∧ s.mach.windowFree c = false → exec (.stv a) s = s.waits .other)) ∧
  (∀ (s : State) (c t : Nat) (a : Args), Plain s.mach c t = true →
    (a.v.toNat = 0 ∨ s.mach.quiet c t = true → exec (.fence a) s = s.passes) ∧
    (1 ≤ a.v.toNat → s.mach.quiet c t = false → exec (.fence a) s = s.waits .fence))

/-- R57, R106, R168, R169: a bound input name as a source pops the oldest element of its FIFO; an exhausted one gives zero and sets EOS of slot
and thread set; an empty one stalls; a bound output name as a destination is pushed; a bound name that is source and destination traps. A
form of the lists gives the result that it gives of the popped element, or pushes the result that it would have written. -/
def Obligations.StreamOperands : Prop :=
  ∀ (s : State) (c t : Nat) (a : Args) (i : Nat), Alone s.mach c t = true →
    let u := s.mach.me
    let p := u.slot i
    let k := s.mach.myCore
    let ended := match k.slotTotal p with
      | some n => decide (n ≤ p.pos.toNat)
      | none => false
    let res (f : Instr) (s0 : State) : Word := match exec f s0 with
      | .next v => (v.mach.tset (.core c t)).xreg a.d
      | .fault _ => 0
      | .refused _ => 0
    (a.p = 7 → u.portOf false a.s = some i → u.portOf false a.d = none → p.dir = false → p.kind < 7 →
      (ended = true → exec (.mov a) s = .next (s.after
        (s.mach.modMe fun v => { (v.setSlot i { p with eos := true }).setX a.d 0 with eos := true }))) ∧
      (ended = false → p.fifo ≠ [] → exec (.mov a) s = .next (s.after (s.mach.modMe fun v =>
        (v.setSlot i { p with fifo := p.fifo.tail, pos := p.pos + 1 }).setX a.d ((p.fifo.headD 0).setWidth 64)))) ∧
      (ended = false → p.fifo = [] → p.fault = none → exec (.mov a) s = s.waits .other)) ∧
    (a.p = 7 → u.portOf false a.d = some i → u.portOf false a.s = none → p.dir = true → p.kind = 1 →
      (ended = true → exec (.mov a) s = .next (s.after
        (s.mach.modMe fun v => { v.setSlot i { p with eos := true } with eos := true }))) ∧
      (ended = false → k.pushFault p ((u.xreg a.s).setWidth 128) = none → k.drainFault p = none → p.fifo.length < 8 →
        exec (.mov a) s = .next (s.after (s.mach.modMe fun v => v.setSlot i { p with fifo := p.fifo ++ [p.clip ((u.xreg a.s).setWidth 128)], pos := p.pos + 1, flt := false, fault := none, pushTc := u.tc }))) ∧
      (ended = false → k.pushFault p ((u.xreg a.s).setWidth 128) = none → k.drainFault p = none → 8 ≤ p.fifo.length →
        exec (.mov a) s = s.waits .other)) ∧
    (u.portOf false a.d = some i → exec (.addImm a) s = s.traps c t { cause := 0x02 }) ∧
    (∀ f ∈ [Instr.add a, .sub a, .and a, .or a, .xor a, .andn a, .shl a, .shr a, .sra a, .rol a] ++
        [Instr.mul a, .mulh a, .mulhu a, .seq a, .slt a, .sltu a, .min a, .max a, .minu a, .maxu a, .adds a] ++
        [Instr.div a, .rem a, .divu a, .remu a, .mov a, .clz a, .ctz a, .popc a, .bswap a, .sext a, .zext a, .bfx a],
      a.p = 7 → a.short = false → u.portOf false a.t = none →
      (u.portOf false a.s = some i → u.portOf false a.d = none → p.dir = false → p.kind < 7 → ended = false → p.fifo ≠ [] →
        let s0 := { s with mach := s.mach.modMe fun v => (v.setSlot i {}).setX a.s ((p.fifo.headD 0).setWidth 64) }
        let r := res f s0
        exec f s0 = s0.gives a r ∧ exec f s = .next (s.after (s.mach.modMe fun v =>
          (v.setSlot i { p with fifo := p.fifo.tail, pos := p.pos + 1 }).setX a.d r))) ∧
      (u.portOf false a.d = some i → u.portOf false a.s = none → p.dir = true → p.kind = 1 → ended = false → k.drainFault p = none →
        p.fifo.length < 8 →
        let s0 := { s with mach := s.mach.modMe fun v => v.setSlot i {} }
        let r := res f s0
        exec f s0 = s0.gives a r ∧ (k.pushFault p (r.setWidth 128) = none → exec f s = .next (s.after (s.mach.modMe fun v =>
          v.setSlot i { p with fifo := p.fifo ++ [p.clip (r.setWidth 128)], pos := p.pos + 1, flt := false, fault := none,
                               pushTc := u.tc })))))

/-- R58, R199 to R203: `sbind` takes a descriptor of any kind into a free slot, an expand-load's after its header, and one towards a neighbour
that the map has; `sclose`, which ends a compressed object with its header, `sstat`, `sseek` and `beos` of a bound slot. -/
def Obligations.StreamForms : Prop :=
  ∀ (s : State) (c t : Nat) (a : Args), Alone s.mach c t = true →
    let u := s.mach.me
    let k := s.mach.myCore
    let i := a.d.toNat
    let p := u.slot i
    let ea := u.xreg a.s
    let off := ea.toNat
    let word (j : Nat) : Word := BitVec.ofNat 64 (k.number (off + 8 * j) 8)
    let new : Slot := { bnd := true, w0 := word 0, w1 := word 1, w2 := word 2 }
    let target := BitVec.ofInt 14 (u.pc.toNat + 2 * a.imm.toInt)
    let one (b : Bool) (j : Nat) : Nat := if b then 2 ^ j else 0
    let readable := u.anyBound = false ∧ off + 32 ≤ 65536 ∧ off % 16 = 0 ∧
      (List.range 4).all (fun j => s.mach.admits c t (off + 8 * j) 8 false) = true
    let read := (List.range 4).foldl (fun m j => m.modCore c (·.correct (off + 8 * j) 8)) s.mach
    let open_ := readable ∧ new.bindable (word 3) = true ∧ (7 ≤ new.kind → s.mach.neighbour c (new.kind - 7) ≠ none)
    let head := k.number new.base 8
    let len (n : Nat) : Nat := (8 + 8 * ((p.n0 + 63) / 64) + (n * fmtBits p.fmt + 7) / 8 + 15) / 16 * 16
    let ends := p.endWords p.pos.toNat p.nnz
    (open_ ∧ new.kind ≠ 3 ∧ k.heldCount < 3 →
      exec (.sbind a) s = .next (s.after (read.modMe fun v => { v.setSlot i new with prt := true }))) ∧
    (open_ ∧ new.kind = 3 ∧ s.mach.admits c t new.base 8 false = true ∧ headerOk (BitVec.ofNat 64 head) new = true ∧ k.heldCount < 3 →
      exec (.sbind a) s = .next (s.after ((read.modCore c (·.correct new.base 8)).modMe fun v =>
        { v.setSlot i { new with mism := decide (head / 2 ^ 53 % 2 ≠ if u.tc then 1 else 0) } with prt := true }))) ∧
    (readable ∧ new.bindable (word 3) = true ∧ 7 ≤ new.kind ∧ s.mach.neighbour c (new.kind - 7) = none →
      exec (.sbind a) s = s.traps c t { cause := 0x02, addr := ea }) ∧
    (open_ ∧ new.kind ≠ 3 ∧ ¬k.heldCount < 3 → exec (.sbind a) s = s.traps c t { cause := 0x19, index := BitVec.ofNat 16 i }) ∧
    (p.bnd = true → (p.dir = false ∨ p.fifo = []) → p.kind ≠ 2 ∨ p.header = true ∨ p.flt = true →
      exec (.sclose a) s = .next (s.after (s.mach.modMe fun v => v.unbind i))) ∧
    (p.bnd = true → p.kind = 2 → p.fifo = [] → p.header = false → p.flt = false → k.wordsFault ends = none →
      s.mach.drainGate c t (ends.map (· / 8)) = true → ∃ v, exec (.sclose a) s = .next v ∧
      (v.mach.tset (.core c t)).slot i = {} ∧ (v.mach.tset (.core c t)).pc = s.mach.npc ∧ (v.mach.core c).number p.base 8 =
        (len p.nnzOut + p.nnzOut * 2 ^ 16 + p.n0 * 2 ^ 32 + p.fmt * 2 ^ 48 + one u.tc 53) % 2 ^ 64) ∧
    (p.bnd = false → exec (.sclose a) s = s.traps c t { cause := 0x02 }) ∧
    (u.anyBound = false ∨ a.d.toNat < 24 → s.on a = true →
      let q := u.slot a.imm.toNat
      exec (.sstat a) s = .next (s.after (s.mach.modMe (·.setX a.d (BitVec.ofNat 64 (if q.bnd then
        1 + q.port * 2 ^ 4 + one q.isV 7 + one q.dir 8 + q.kind * 2 ^ 9 + one q.eos 13 + one q.flt 14 + one q.mism 15 +
          q.pos.toNat * 2 ^ 32 else 0)))))) ∧
    (a.s.toNat < 24 → p.bnd = true → p.kind ∈ [0, 1, 4] → off ≤ (k.slotTotal p).getD 0 →
      exec (.sseek a) s = .next (s.after (s.mach.modMe fun v => v.setSlot i { p with fifo := [], pos := BitVec.ofNat 32 off, moved := off, eos := false, flt := false, fault := none }))) ∧
    (∀ j ∈ [Instr.beos a, .beosP8 a],
      exec j s = if u.eos then .next (s.after { s.mach with npc := target, taken := true }) else s.passes)

/-- R196: a far access asks its home stagehand, with a context record reserved for its wake, and waits; the instruction completes when the
stagehand has served it, a load with the bytes served; a store into the header of the launch frame traps; a fault of the stagehand, of
whatever code, is raised as the instruction's trap, and an answer that records no wait as the park-limit trap. -/
def Obligations.FarAccesses : Prop :=
  ∀ (s : State) (c t : Nat) (a : Args) (bs : List Byte) (h : Nat × Nat × Nat) (code : Byte) (e : Word),
    Plain s.mach c t = true → s.on a = true → c < 73728 →
    let u := s.mach.me
    let ea := u.xreg a.s + a.imm
    let n := 2 ^ (a.v.toNat % 4)
    let num := bs.foldr (fun b v => b.toNat + 256 * v) 0
    let near := ea.toNat / 2 ^ 62 = 1 ∧ ea.toNat % n = 0 ∧ (s.mach.part s.mach.myCore.part.toNat).home (ea.toNat % 2 ^ 60) = some h
    let clear := (s.mach.part s.mach.myCore.part.toNat).inFarHeader ea n = false
    let base := (s.mach.part s.mach.myCore.part.toNat).launch.d0.toNat % 2 ^ 60 + 2 ^ 62
    let near16 := ea.toNat / 2 ^ 62 = 1 ∧ ea.toNat % 16 = 0 ∧ (s.mach.part s.mach.myCore.part.toNat).home (ea.toNat % 2 ^ 60) = some h
    let freed (k : Core) : Core := match u.farRec with
      | some i => k.freeReserved i
      | none => k
    let ended := (s.mach.modCore c freed).modMe fun v => { v with far := .idle, farRec := none }
    let data := some ((List.range n).map fun i => (u.xreg a.d).extractLsb' (8 * i) 8)
    let asks (k : Nat) (d : Option (List Byte)) : Host.Outcome State Fault Refusal :=
      .next { s with mach := (s.mach.sendFar ea k h d).stall s.mach.cur .other }
    (u.far = .answered (.served bs) ∧ near →
      exec (.ldfar a) s = .next (s.after (ended.modMe (·.setX a.d (BitVec.ofNat 64 num))))) ∧
    (u.far = .answered (.served bs) ∧ near ∧ clear → exec (.stfar a) s = .next (s.after ended)) ∧
    (u.far = .answered (.served bs) ∧ near16 ∧ bs.length = 16 →
      exec (.vldfar a) s = .next (s.after (ended.modMe (·.setV a.d (BitVec.ofNat 128 num))))) ∧
    (u.far = .idle ∧ near ∧ s.mach.windowFree c = true → exec (.ldfar a) s = asks n none) ∧
    (u.far = .idle ∧ near ∧ clear ∧ s.mach.windowFree c = true → exec (.stfar a) s = asks n data) ∧
    (near ∧ ¬clear → exec (.stfar a) s = s.traps c t { cause := 0x09, addr := BitVec.ofNat 64 base }) ∧
    (u.far = .idle ∧ near16 ∧ s.mach.windowFree c = true → exec (.vldfar a) s = asks 16 none) ∧
    (u.far = .answered (.fault code e) →
      (near → exec (.ldfar a) s = s.traps c t { cause := code, addr := e }) ∧
      (near ∧ clear → exec (.stfar a) s = s.traps c t { cause := code, addr := e }) ∧
      (near16 → exec (.vldfar a) s = s.traps c t { cause := code, addr := e })) ∧
    (u.far = .answered .notRecorded →
      (near → exec (.ldfar a) s = s.traps c t { cause := 0x17 }) ∧ (near ∧ clear → exec (.stfar a) s = s.traps c t { cause := 0x17 }) ∧
      (near16 → exec (.vldfar a) s = s.traps c t { cause := 0x17 }))

/-- R83, R84, R197: a slot of a live frame of depth 1 to 7, in own memory or at another core of the cluster, stands 16 + 8 × slot bytes above
the frame's base; the header is read first. The forms of page 0, page 7 and page 8 complete; a slot beyond SIZE, a frame that is not live
and an empty display register trap. R83, R197: a slot of the launch frame at depth 0 is reached in far memory by two far accesses: the
header is asked for, and once it has been read the slot; with the answer of the second one the forms complete. -/
def Obligations.FrameSlots : Prop :=
  (∀ (s : State) (c t q o : Nat) (a : Args), Plain s.mach c t = true → s.on a = true → a.imm.toNat % 8 ≠ 0 →
    let u := s.mach.me
    let f := vget u.d 0 (a.imm.toNat % 8)
    let slot := a.imm.toNat / 8
    let off := o + 16 + 8 * slot
    let k := s.mach.core q
    let head := k.number (o + 8) 8
    let m := s.mach.modCore q (·.correct (o + 8) 8)
    let named := f ≠ 0 ∧ o % 8 = 0 ∧ o + 8 < 65536 ∧ slot < 2 ^ 60 ∧ ((q = c ∧ ownAt c f o = true) ∨ (q ≠ c ∧ coreAt q f o = true ∧
      sameCluster c q = true ∧ s.mach.live q = true ∧ s.mach.injPaused = false ∧ s.mach.gone.contains q = false))
    let opens (b n : Nat) : Prop := if q = c then s.mach.admits c t b n false = true
      else s.mach.unaccepted c t q b n = false ∧ k.aboveMark b n = none ∧ k.badRead b n = none
    let here := named ∧ opens (o + 8) 8
    let live := head / 2 ^ 31 % 2 = 1
    let size := head / 2 ^ 32 % 2 ^ 16
    let one := here ∧ live ∧ slot < size ∧ off + 8 ≤ 65536
    let two := here ∧ live ∧ slot + 1 < size ∧ slot % 2 = 0 ∧ o % 16 = 0 ∧ off + 16 ≤ 65536
    let v128 : BitVec 128 := vget u.v 0 a.d.toNat
    let loads : Host.Outcome State Fault Refusal :=
      .next (s.after ((m.modCore q (·.correct off 8)).modMe (·.setX a.d (BitVec.ofNat 64 (k.number off 8)))))
    let stores (cells : List (Nat × Byte)) : Host.Outcome State Fault Refusal :=
      .next (s.after (if q = c then m.modCore c (·.store cells) else m.post c t q (.store cells) none true))
    let cells16 := (List.range 16).map fun i => (off + i, v128.extractLsb' (8 * i) 8)
    let traps (cause : Byte) : Host.Outcome State Fault Refusal :=
      s.traps c t { cause := cause, addr := shown f, index := BitVec.ofNat 16 slot }
    (one ∧ opens off 8 → exec (.ldfr a) s = loads ∧ exec (.ldfrP8 a) s = loads) ∧
    (one ∧ (if q = c then s.mach.admits c t off 8 true = true else s.mach.windowFree c = true) →
      exec (.stfr a) s = stores (spread off 8 (u.xreg a.d)) ∧ exec (.stfrP8 a) s = stores (spread off 8 (u.xreg a.d))) ∧
    (two ∧ opens off 8 ∧ opens (off + 8) 8 →
      exec (.vldfr a) s = .next (s.after (((m.modCore q (·.correct off 8)).modCore q (·.correct (off + 8) 8)).modMe
        (·.setV a.d (BitVec.ofNat 128 (k.number off 16)))))) ∧
    (two ∧ (if q = c then s.mach.admits c t off 8 true = true ∧ s.mach.admits c t (off + 8) 8 true = true
        else s.mach.windowFree c = true) → exec (.vstfr a) s = stores cells16) ∧
    (f = 0 → ∀ i ∈ [Instr.ldfr a, .stfr a, .ldfrP8 a, .stfrP8 a, .vldfr a, .vstfr a], exec i s = s.traps c t { cause := 0x02 }) ∧
    (here ∧ ¬live → ∀ i ∈ [Instr.ldfr a, .stfr a, .ldfrP8 a, .stfrP8 a], exec i s = traps 0x0B) ∧
    (here ∧ live ∧ size ≤ slot → ∀ i ∈ [Instr.ldfr a, .stfr a, .ldfrP8 a, .stfrP8 a],
      exec i s = traps 0x0A)) ∧
  (∀ (s : State) (c t : Nat) (a : Args) (bs : List Byte) (h : Nat × Nat × Nat) (w : Word), Plain s.mach c t = true → s.on a = true →
    c < 73728 → a.imm.toNat % 8 = 0 →
    let u := s.mach.me
    let f := vget u.d 0 0
    let slot := a.imm.toNat / 8
    let ea (d : Nat) : Word := BitVec.ofNat 64 (f.toNat + d)
    let home (d : Nat) : Option (Nat × Nat × Nat) := (s.mach.part s.mach.myCore.part.toNat).home (f.toNat % 2 ^ 60 + d)
    let far (d : Nat) : Prop := f.toNat / 2 ^ 62 = 1 ∧ f.toNat % 16 = 0 ∧ f.toNat % 2 ^ 60 + d < 2 ^ 60 ∧ home d = some h
    let clear (d n : Nat) : Prop := (s.mach.part s.mach.myCore.part.toNat).inFarHeader (ea d) n = false
    let d := 16 + 8 * slot
    let num := bs.foldr (fun b v => b.toNat + 256 * v) 0
    let freed (k : Core) : Core := match u.farRec with
      | some i => k.freeReserved i
      | none => k
    let ended := (s.mach.modCore c freed).modMe fun v => { v with far := .idle, farRec := none, farHdr := none }
    let answered := u.far = .answered (.served bs) ∧ u.farHdr = some w ∧ far d
    (answered → exec (.ldfr a) s = .next (s.after (ended.modMe (·.setX a.d (BitVec.ofNat 64 num)))) ∧
      exec (.ldfrP8 a) s = .next (s.after (ended.modMe (·.setX a.d (BitVec.ofNat 64 num))))) ∧
    (answered ∧ clear d 8 → exec (.stfr a) s = .next (s.after ended) ∧ exec (.stfrP8 a) s = .next (s.after ended)) ∧
    (answered ∧ slot % 2 = 0 ∧ bs.length = 16 → exec (.vldfr a) s = .next (s.after (ended.modMe (·.setV a.d (BitVec.ofNat 128 num))))) ∧
    (answered ∧ slot % 2 = 0 ∧ clear d 16 → exec (.vstfr a) s = .next (s.after ended)) ∧
    (u.far = .idle ∧ u.farHdr = none ∧ far 8 ∧ s.mach.windowFree c = true → ∀ i ∈ [Instr.ldfr a, .stfr a, .ldfrP8 a, .stfrP8 a],
      exec i s = .next { s with mach := (s.mach.sendFar (ea 8) 8 h none).stall s.mach.cur .other }))

/-- R85, R198: `enter` makes a live frame of its slots in the pool at the next depth; `leave` marks the innermost codelet frame left, and
retires it where no reference stands; `dmov` copies a display register; `frref` and `frrel` count references. That the frame stands at the
lowest run of free blocks is the model's choice (log entry 28). -/
def Obligations.FrameForms : Prop :=
  ∀ (s : State) (c t : Nat) (a : Args) (off q o : Nat), Plain s.mach c t = true →
    let u := s.mach.me
    let k := s.mach.myCore
    let n := a.imm.toNat
    let f := u.xreg a.s
    let head (q : Core) (o : Nat) : Nat := q.number (o + 8) 8
    let fp := u.fp.toNat
    let depth := u.depth
    let blocks := (16 + 8 * n + 63) / 64
    let kq := s.mach.core q
    let counts := o % 8 = 0 ∧ o + 16 ≤ 65536 ∧ head kq o / 2 ^ 31 % 2 = 1 ∧ kq.badRead (o + 8) 8 = none ∧
      ((q = c ∧ ownAt c f o = true ∧ s.mach.admits c t (o + 8) 8 false = true) ∨ (q ≠ c ∧ coreAt q f o = true ∧
        sameCluster c q = true ∧ s.mach.live q = true ∧ s.mach.injPaused = false ∧ s.mach.gone.contains q = false)) ∧
      s.mach.heldRange q (o + 8) 8 = false ∧ kq.jobBlocks (o + 8) 8 true = false
    let refs := head kq o / 2 ^ 48
    let refers (i : Instr) (h : Nat) : Prop := ∃ v, exec i s = .next v ∧ head (v.mach.core q) o = h
    (1 ≤ n ∧ n ≤ 65535 ∧ depth < 7 ∧ k.poolFind blocks = some off ∧ s.mach.heldRange c off 16 = false → ∃ v, exec (.enter a) s = .next v ∧
      vget (v.mach.tset (.core c t)).d 0 (depth + 1) = BitVec.ofNat 64 off ∧ (v.mach.core c).number off 8 = fp ∧
      head (v.mach.core c) off = n * 2 ^ 32 + 2 ^ 31 + (depth + 1) * 2 ^ 27 + (posOf c).1 * 2 ^ 17 + (posOf c).2 * 2 ^ 9 ∧
      (v.mach.core c).poolUsed = k.poolUsed ++ (List.range blocks).map (off / 64 + ·)) ∧
    (1 ≤ n ∧ n ≤ 65535 ∧ depth < 7 ∧ k.poolFind blocks = none →
      exec (.enter a) s = s.traps c t { cause := 0x0C, addr := u.fp }) ∧
    (1 ≤ n ∧ n ≤ 65535 ∧ depth = 7 → exec (.enter a) s = s.traps c t { cause := 0x0D, addr := u.fp }) ∧
    (depth ≤ 3 → exec (.leave a) s = s.traps c t { cause := 0x0D, addr := u.fp }) ∧
    (3 < depth ∧ fp % 8 = 0 ∧ fp < 65528 ∧ s.mach.heldRange c (fp + 8) 8 = false ∧ k.badRead (fp + 8) 8 = none → ∃ v, exec (.leave a) s = .next v ∧
      vget (v.mach.tset (.core c t)).d 0 depth = 0 ∧
      head (v.mach.core c) fp = head k fp / 2 ^ 32 * 2 ^ 32 + (if head k fp / 2 ^ 48 = 0 then 0 else head k fp / 2 ^ 31 % 2 * 2 ^ 31) +
        2 ^ 30 + head k fp % 2 ^ 30) ∧
    exec (.dmov a) s = .next (s.after (s.mach.modMe (·.setX a.d (vget u.d 0 n)))) ∧
    (counts ∧ refs < 65535 → refers (.frref a) (head kq o + 2 ^ 48)) ∧
    (counts ∧ (2 ≤ refs ∨ (refs = 1 ∧ head kq o / 2 ^ 30 % 2 = 0)) → refers (.frrel a) (head kq o - 2 ^ 48)) ∧
    (counts ∧ refs = 1 ∧ head kq o / 2 ^ 30 % 2 = 1 → refers (.frrel a) (head kq o - 2 ^ 48 - 2 ^ 31)) ∧
    (counts ∧ refs = 0 → exec (.frrel a) s = s.traps c t { cause := 0x0E, addr := f })

/-- R137, R204, R205: `cpy` arms a channel that is not busy, its watermark at the base, and completes when the stagehands have been asked for
every part of its source; it waits for a busy channel, and a source outside every window is a far-placement fault. `wmk` reads the channel. -/
def Obligations.CopyForms : Prop :=
  ∀ (s : State) (c t : Nat) (a : Args) (base limit : Nat) (ps : List FarPart), Plain s.mach c t = true → c < 73728 →
    let u := s.mach.me
    let k := s.mach.myCore
    let src := u.xreg a.s
    let o := u.xreg a.t
    let i := (u.xreg a.d).toNat % 4
    let ch := k.channel i
    let far := src.toNat % 2 ^ 62 % 2 ^ 60
    let named := (u.xreg a.d).toNat = i + base * 2 ^ 16 + limit * 2 ^ 32 ∧ base < limit ∧ limit < 65536 ∧ base % 16 = 0 ∧
      limit % 16 = 0 ∧ o.toNat < 128 ∧ src.toNat / 2 ^ 62 = 1 ∧ src.toNat % 16 = 0
    let parts := (s.mach.part k.part.toNat).parts 20 far (limit - base)
    let r := k.channel (a.imm.toNat % 4)
    let want (q : FarPart) (n : Nat) : Move :=
      { id := n, part := k.part.toNat, kind := .copy c i (base + (q.addr - far)), addr := BitVec.ofNat 64 (2 ^ 62 + q.addr), win := q.win,
        off := q.off, len := q.len }
    let asked (m : Mach) (q : FarPart) : Bool := m.net.any fun d => d.src == c && d.dst == 100000 + q.hand && (match d.body with
      | .move v => decide (v = want q v.id)
      | _ => false)
    (named ∧ parts = some ps ∧ ch.busy = false ∧ s.mach.windowUsed c + ps.length ≤ 16 →
      ∃ v, exec (.cpy a) s = .next v ∧ (v.mach.core c).channel i =
          { base := BitVec.ofNat 16 base, limit := BitVec.ofNat 16 limit, wm := BitVec.ofNat 16 base, busy := true, todo := 0,
            left := limit - base, cv := o.getLsbD 6, cnt := o.setWidth 6, ts := t, cid := u.cid, pc := u.pc, priv := u.priv } ∧
        ps.all (asked v.mach) = true ∧ (v.mach.core c).mem = k.mem ∧ (v.mach.tset (.core c t)).x = u.x ∧
        (v.mach.tset (.core c t)).pc = s.mach.npc) ∧
    (named ∧ parts ≠ none ∧ ch.busy = true ∧ ch.todo = 0 → exec (.cpy a) s = s.waits .other) ∧
    (named ∧ parts = none → exec (.cpy a) s = s.traps c t { cause := 0x0F, addr := BitVec.ofNat 64 (2 ^ 62 + far) }) ∧
    (¬src.toNat / 2 ^ 62 = 1 → exec (.cpy a) s = s.traps c t { cause := 0x02, addr := src }) ∧
    exec (.wmk a) s = .next (s.after (s.mach.modMe (·.setX a.d (BitVec.ofNat 64 (r.wm.toNat + r.base.toNat * 2 ^ 16 +
      r.limit.toNat * 2 ^ 32 + r.busy.toNat * 2 ^ 48 + r.flt.toNat * 2 ^ 49)))))

/-- R206, R207: `job` takes a card that meets the checks of its KIND into the queue, that of a local copy among them, and returns the next job
number; it waits while 16 jobs stand there, and a reserved KIND traps; `jwait` waits while an unfinished job has the number. -/
def Obligations.JobForms : Prop :=
  ∀ (s : State) (c t : Nat) (a : Args) (off src dst len cnt : Nat) (cv : Bool), Plain s.mach c t = true → s.mach.net = [] →
    let u := s.mach.me
    let k := s.mach.myCore
    let n := (u.xreg a.s).toNat % 65536
    let card := [cv.toNat * 2 ^ 59 + cnt * 2 ^ 53 + 2 * 2 ^ 50, src + (src + len - 1) * 2 ^ 16,
      2 ^ 63 + dst + (dst + len - 1) * 2 ^ 16, 0, 0, src + dst * 2 ^ 16 + len * 2 ^ 32, 0, 0].map (BitVec.ofNat 64)
    let readable := ownAt c (u.xreg a.s) off = true ∧ off % 64 = 0 ∧
      (List.range 8).all (fun i => s.mach.admits c t (off + 8 * i) 8 false) = true
    let given := (List.range 8).map fun i => BitVec.ofNat 64 (k.number (off + 8 * i) 8)
    let any : Job :=
      { uid := s.mach.nextCid, num := k.jobNo, off := BitVec.ofNat 16 off, card := given, ts := t, cid := u.cid, pc := u.pc, priv := u.priv,
        sample := u.matSample }
    let copies := cnt < 64 ∧ 8 ≤ len ∧ len % 8 = 0 ∧ src % 8 = 0 ∧ dst % 8 = 0 ∧ src + len ≤ 65536 ∧ dst + len ≤ 65536 ∧
      (List.range 8).map (fun i => BitVec.ofNat 64 (k.number (off + 8 * i) 8)) = card
    let job : Job :=
      { uid := s.mach.nextCid, num := k.jobNo, off := BitVec.ofNat 16 off, card := card, ts := t, cid := u.cid, pc := u.pc, priv := u.priv,
        sample := u.matSample, round := Map.get k.rounds 0 ((src + dst * 2 ^ 16) % 256) }
    (readable ∧ copies ∧ len < 65536 ∧ k.jobs.length < 16 → ∃ v, exec (.job a) s = .next v ∧
      (v.mach.core c).jobs = k.jobs ++ [job] ∧
      (v.mach.core c).jobNo = k.jobNo + 1 ∧ (v.mach.core c).mem = k.mem ∧
      (v.mach.tset (.core c t)).x = (u.setX a.d (k.jobNo.setWidth 64)).x ∧ (v.mach.tset (.core c t)).pc = s.mach.npc) ∧
    (readable ∧ copies ∧ len < 65536 ∧ ¬k.jobs.length < 16 → exec (.job a) s = s.waits .other) ∧
    (readable ∧ 5 ≤ k.number off 8 / 2 ^ 60 → exec (.job a) s = s.traps c t { cause := 0x02, addr := u.xreg a.s }) ∧
    (readable ∧ cardOk given = true ∧ s.mach.kindOk c any = true ∧ any.misaligned = none ∧ k.jobs.length < 16 →
      ∃ v, exec (.job a) s = .next v ∧ (v.mach.core c).jobs.map (·.card) = k.jobs.map (·.card) ++ [given]) ∧
    exec (.jwait a) s = (if k.jobs.any (·.num.toNat == n) then s.waits .other else s.passes)

/-- R40, R210 to R212: a stage program moves tiles of rows of 384 bytes between its scratch area and its card's range, in linear layout as they
are and in planes with each bit plane's bytes together, the most significant plane first; a `tile.put` writes outside protected areas;
`sfill` and `sdrain` ask the stagehand for a move and complete with its end. That a transfer is applied whole when its instruction issues,
and that the protection of R84 and R93 holds for it, are the model's choices (log entries 58 and 82). -/
def Obligations.StageForms : Prop :=
  ∀ (s : State) (h p : Nat) (a : Args) (r : StageRun) (bs : List Byte) (id : Nat), h < 512 → p < 16 → s.mach.cur = .stage h p →
    (s.mach.unit h p).cards.head? = some r → s.mach.me.regErr = [] → s.mach.me.anyBound = false → s.mach.me.cho = false →
    let u := s.mach.me
    let w := s.mach.unit h p
    let k := s.mach.core r.core
    let o := (u.xreg a.t).toNat
    let n := o % 32
    let xd := (u.xreg a.d).toNat
    let xs := (u.xreg a.s).toNat
    let tile (loc scr : Nat) := 1 ≤ n ∧ n ≤ 16 ∧ (o = n ∨ o = n + 256) ∧ r.dst.toNat ≤ loc ∧
      loc + 384 * n ≤ r.dst.toNat + r.len.toNat ∧ r.dst.toNat + r.len.toNat ≤ 65536 ∧ loc % 16 = 0 ∧ scr + 384 * n ≤ 0x4000 ∧ scr % 16 = 0
    let plane (m : Memory) (a i q b : Nat) : Bool := (m.byte (a + 384 * i + q)).getLsbD b
    let gone (far scr len : Nat) : Bool := decide (far / 2 ^ 62 = 1 ∧ far % 16 = 0 ∧ scr % 16 = 0 ∧ len % 16 = 0 ∧ 16 ≤ len ∧
        len ≤ 16384 ∧ scr + len ≤ 0x4000) &&
      (match (s.mach.part p).parts 20 (far % 2 ^ 60) len with
       | some [q] => q.hand == h
       | _ => false)
    let clear := (s.mach.part p).inFarHeader (u.xreg a.d) o = false
    let ends := w.move = some id ∧ w.answer = some (.served bs) ∧ (s.mach.hand h).requests.any (·.id == id) = false
    (tile xd xs ∧ s.mach.heldRange r.core xd (384 * n) = false ∧ w.badRead xs (384 * n) = false ∧
        ((List.range (384 * n)).all fun i => !k.inQueueArea (xd + i) && (k.headerOf (xd + i)).isNone) = true → ∃ v, exec (.tilePut a) s = .next v ∧
      (v.mach.unit h p).scratch = w.scratch ∧ (v.mach.unit h p).ts.pc = s.mach.npc ∧
      ∀ i ∈ List.range n, ∀ q ∈ List.range 384, ∀ b ∈ List.range 8, plane (v.mach.core r.core).mem xd i q b =
        if o = n then plane w.scratch xs i q b else plane w.scratch xs i (8 * (q % 48) + b) (7 - q / 48)) ∧
    (tile xs xd ∧ k.badRead xs (384 * n) = none ∧ w.badWrite xd (384 * n) = false → ∃ v, exec (.tileGet a) s = .next v ∧
      (v.mach.core r.core).mem = k.mem ∧ (v.mach.unit h p).ts.pc = s.mach.npc ∧
      ∀ i ∈ List.range n, ∀ q ∈ List.range 384, ∀ b ∈ List.range 8, plane (v.mach.unit h p).scratch xd i q b =
        if o = n then plane k.mem xs i q b else plane k.mem xs i (48 * (7 - b) + q / 8) (q % 8)) ∧
    (gone xs xd o = true ∧ w.badWrite xd o = false ∧ ends ∧ bs.length = o → ∃ v, exec (.sfill a) s = .next v ∧ (v.mach.unit h p).move = none ∧
      (v.mach.unit h p).ts.pc = s.mach.npc ∧ ∀ i ∈ List.range 16384, (v.mach.unit h p).scratch.byte i =
        if xd ≤ i ∧ i < xd + o then bs.getD (i - xd) 0 else w.scratch.byte i) ∧
    (gone xd xs o = true ∧ w.badRead xs o = false ∧ clear ∧ ends → ∃ v, exec (.sdrain a) s = .next v ∧ (v.mach.unit h p).move = none ∧
      (v.mach.unit h p).ts.pc = s.mach.npc ∧ (v.mach.unit h p).scratch = w.scratch) ∧
    (gone xd xs o = true ∧ w.badRead xs o = false ∧ clear ∧ w.move = none ∧ (s.mach.hand h).queued < 256 → ∃ v, exec (.sdrain a) s = .next v ∧
      (v.mach.unit h p).move = some s.mach.nextId ∧ (v.mach.unit h p).ts.pc = u.pc) ∧
    (gone xs xd o = true ∧ w.badWrite xd o = false ∧ w.move = none ∧ (s.mach.hand h).queued < 256 → ∃ v, exec (.sfill a) s = .next v ∧
      (v.mach.unit h p).move = some s.mach.nextId ∧ (v.mach.unit h p).ts.pc = u.pc)

/-- R81, R82, R127, R213: `cfetch` sets an unused slot other than its own to loading and asks for the segment's directory entry; it completes at
any segment number below 4,096. A slot in use is an overlay-busy fault, its own slot and a larger number an illegal operation; a loading
slot and a full window make it wait. `cstat` completes with the slot's state. That a loading slot makes it wait is the model's choice (log
entry 54), and so is the order of its checks (log entry 76). -/
def Obligations.OverlayForms : Prop :=
  ∀ (s : State) (c t : Nat) (a : Args) (h : Nat × Nat × Nat), Plain s.mach c t = true → c < 73728 →
    let u := s.mach.me
    let k := s.mach.myCore
    let g := a.d.toNat % 16
    let seg := u.xreg a.s
    let ea := k.segDir + seg * 16
    let i := a.imm.toNat % 16
    let o := k.slot i
    let free := u.pc.toNat / 1024 ≠ g ∧ k.useCount g = 0
    let asks : Payload := .move { id := s.mach.nextId, part := k.part.toNat, kind := .fetch c g true, addr := BitVec.ofNat 64 (2 ^ 62 + ea.toNat % 2 ^ 60), win := h.1, off := h.2.2, len := 16 }
    (free ∧ seg.toNat < 4096 ∧ (k.slot g).st ≠ .loading ∧ s.mach.windowFree c = true →
      ∃ v, exec (.cfetch a) s = .next v ∧ (v.mach.tset (.core c t)).pc = s.mach.npc ∧
        (ea.toNat / 2 ^ 62 = 1 ∧ (s.mach.part k.part.toNat).home (ea.toNat % 2 ^ 60) = some h →
          (v.mach.core c).slot g = { st := .loading, seg := seg.setWidth 16 } ∧
          v.mach.net.any (fun d => d.src == c && d.dst == 100000 + h.2.1 && d.body == asks) = true)) ∧
    exec (.cstat a) s = .next (s.after (s.mach.modMe (·.setX a.d (BitVec.ofNat 64 ((match o.st with
      | .empty => 0
      | .loading => 1
      | .valid => 2) + o.flt.toNat * 4 + k.useCount i * 256 + o.seg.toNat * 2 ^ 16 + o.cause.toNat * 2 ^ 40))))) ∧
    (u.pc.toNat / 1024 = g → exec (.cfetch a) s = s.traps c t { cause := 0x02, addr := seg }) ∧
    (u.pc.toNat / 1024 ≠ g ∧ k.useCount g ≠ 0 →
      exec (.cfetch a) s = s.traps c t { cause := 0x16, index := BitVec.ofNat 16 g }) ∧
    (free ∧ 4096 ≤ seg.toNat → exec (.cfetch a) s = s.traps c t { cause := 0x02, addr := seg }) ∧
    (free ∧ seg.toNat < 4096 ∧ ((k.slot g).st = .loading ∨ s.mach.windowFree c = false) → exec (.cfetch a) s = s.waits .other)

/-- R55, R56, R188, R190: vector loads and stores of a group of 1, 2 or 4 registers in own memory: a load writes the active bytes of each
register, a store writes the active bytes as one store of each word it touches, and nothing else changes; with no active byte they make no
access. A store of one register to another core leaves as one posted store. -/
def Obligations.VectorLoadsAndStores : Prop :=
  ∀ (s : State) (c t : Nat) (a : Args) (off : Nat), Plain s.mach c t = true → a.w.toNat ≤ 2 → off % 16 = 0 →
    off + 16 * 2 ^ a.w.toNat ≤ 65536 →
    let u := s.mach.me
    let w := 2 ^ a.w.toNat
    let ea := u.xreg a.s + a.imm
    let mask := u.preg a.p.toNat
    let open' (store : Bool) : Bool := (List.range (2 * w)).all fun i => s.mach.admits c t (off + 8 * i) 8 store
    let cells (o : Nat) : List (Nat × Byte) := (List.range w).flatMap fun k =>
      ((List.range 16).filter fun j => mask.getLsbD j).map fun j =>
        (o + 16 * k + j, (vget u.v 0 (a.d + BitVec.ofNat 5 k).toNat).extractLsb' (8 * j) 8)
    (mask = 0 → ∀ i ∈ [Instr.vld a, .vldP1 a, .vst a, .vstP1 a, .pstv a, .pstvP1 a], exec i s = s.passes) ∧
    (mask ≠ 0 ∧ ownAt c ea off = true ∧ open' false = true → ∀ i ∈ [Instr.vld a, .vldP1 a], ∃ v, exec i s = .next v ∧
      (v.mach.tset (.core c t)).x = u.x ∧ (v.mach.core c).mem = s.mach.myCore.mem ∧ (v.mach.tset (.core c t)).pc = s.mach.npc ∧
      (∀ k ∈ List.range w, ∀ j ∈ List.range 16,
        (vget (v.mach.tset (.core c t)).v 0 (a.d + BitVec.ofNat 5 k).toNat).extractLsb' (8 * j) 8 =
          if mask.getLsbD j then s.mach.myCore.mem.byte (off + 16 * k + j)
          else (vget u.v 0 (a.d + BitVec.ofNat 5 k).toNat).extractLsb' (8 * j) 8) ∧
      (∀ r ∈ List.range 32, (List.range w).all (fun k => (a.d + BitVec.ofNat 5 k).toNat != r) = true →
        vget (v.mach.tset (.core c t)).v 0 r = vget u.v 0 r)) ∧
    (mask ≠ 0 ∧ ownAt c ea off = true ∧ open' true = true → ∀ i ∈ [Instr.vst a, .vstP1 a, .pstv a, .pstvP1 a],
      exec i s = .next (s.after (s.mach.modCore c (·.store (cells off))))) ∧
    (mask ≠ 0 ∧ w = 1 → ∀ q ∈ s.mach.liveCores s.mach.myCore.part.toNat, coreAt q ea off = true → q ≠ c → c < 73728 →
      s.mach.windowFree c = true →
      let sends (i : Instr) : Prop := exec i s = .next (s.after (s.mach.post c t q (.store (cells off)) none true))
      (s.mach.part s.mach.myCore.part.toNat).holds (q % 512) (q / 512) = true →
      (sends (.pstv a) ∧ sends (.pstvP1 a)) ∧ (sameCluster c q = true → sends (.vst a) ∧ sends (.vstP1 a)))

/-- R189: strided and indexed vector loads and stores access each active lane at its own address: the stride times the lane number, or the
zero-extended index times the size, above the base; inactive lanes access nothing and keep their bytes. -/
def Obligations.StridedAndIndexed : Prop :=
  ∀ (s : State) (c t : Nat) (a : Args), Plain s.mach c t = true → s.mach.me.preg a.p.toNat ≠ 0 →
    let u := s.mach.me
    let ea := u.xreg a.s + a.imm
    let mask := u.preg a.p.toNat
    let n := 2 ^ (a.v.toNat % 4)
    let k := s.mach.myCore
    let vt : BitVec 128 := vget u.v 0 a.t.toNat
    let vd : BitVec 128 := vget u.v 0 a.d.toNat
    let strided (l : Nat) : Nat := (ea + BitVec.ofNat 64 l * u.xreg a.t).toNat
    let indexed (l : Nat) : Nat := (ea + BitVec.ofNat 64 (n * (vt.toNat / 2 ^ (8 * n * l) % 2 ^ (8 * n)))).toNat
    let active (b : Nat) : List Nat := (List.range (16 / b)).filter fun l => mask.getLsbD (b * l)
    let good (b : Nat) (at_ : Nat → Nat) (store : Bool) : Bool := active b != [] &&
      (active b).all fun l => decide (at_ l < 65536) && decide (at_ l % b = 0) && s.mach.admits c t (at_ l) b store
    let loads (b : Nat) (at_ : Nat → Nat) (i : Instr) : Prop := ∃ v, exec i s = .next v ∧
      (v.mach.tset (.core c t)).x = u.x ∧ (v.mach.core c).mem = k.mem ∧ (v.mach.tset (.core c t)).pc = s.mach.npc ∧
      (∀ j ∈ List.range 16, (vget (v.mach.tset (.core c t)).v 0 a.d.toNat).extractLsb' (8 * j) 8 =
        if mask.getLsbD (j / b * b) then k.mem.byte (at_ (j / b) + j % b) else vd.extractLsb' (8 * j) 8) ∧
      (∀ r ∈ List.range 32, r ≠ a.d.toNat → vget (v.mach.tset (.core c t)).v 0 r = vget u.v 0 r)
    let stores (b : Nat) (at_ : Nat → Nat) (i : Instr) : Prop := exec i s = .next (s.after (s.mach.modCore c
      (·.store ((active b).flatMap fun l => (List.range b).map fun j => (at_ l + j, vd.extractLsb' (8 * (b * l + j)) 8)))))
    (good 4 strided false = true → loads 4 strided (.vlds a)) ∧
    (good 4 strided true = true → stores 4 strided (.vsts a)) ∧
    (good n indexed false = true → loads n indexed (.vgat a)) ∧
    (good n indexed true = true → stores n indexed (.vsct a)) ∧
    (active 4 = [] → exec (.vsts a) s = s.passes ∧ exec (.vlds a) s = s.passes)

/-- R55, R56, R214, R217, R219, R226: an element-wise integer or byte form computes each active lane of each register of its group from the
lanes of its sources and keeps the inactive lanes; it changes nothing else. -/
def Obligations.VectorElementForms : Prop :=
  ∀ (s : State) (c t : Nat) (a : Args), Plain s.mach c t = true → a.w.toNat ≤ 2 →
    let u := s.mach.me
    let w := 2 ^ a.w.toNat
    let ra := if a.short then a.d else a.s
    let rb := if a.short then a.s else a.t
    let fits (r : RegNo) : Prop := r.toNat + w ≤ 32 ∧ (r = a.d ∨ r.toNat + w ≤ a.d.toNat ∨ a.d.toNat + w ≤ r.toNat)
    let mask := u.preg a.p.toNat
    let reg (V : Vector V128 32) (r : RegNo) (k : Nat) : V128 := vget V 0 (r.toNat + k)
    let lane (n : Nat) (x : V128) (l : Nat) : Nat := x.toNat / 2 ^ (8 * n * l) % 2 ^ (8 * n)
    let does (i : Instr) (n : Nat) (x y : RegNo) (f : Nat → V128 → V128 → Int) : Prop := ∃ v, exec i s = .next v ∧
      let V := (v.mach.tset (.core c t)).v
      v = s.after (s.mach.modMe fun u => { u with v := V }) ∧
      (∀ k ∈ List.range w, ∀ l ∈ List.range (16 / n), lane n (reg V a.d k) l =
        if mask.getLsbD (n * l) then (f l (reg u.v x k) (reg u.v y k) % 2 ^ (8 * n)).toNat else lane n (reg u.v a.d k) l) ∧
      (∀ r ∈ List.range 32, r < a.d.toNat ∨ a.d.toNat + w ≤ r → vget V 0 r = vget u.v 0 r)
    let n := 2 ^ (a.v.toNat % 4)
    let num (l : Nat) (x : V128) : Int := if a.v.toNat < 4 ∧ 2 ^ (8 * n - 1) ≤ lane n x l then (lane n x l : Int) - 2 ^ (8 * n) else lane n x l
    let signed (l : Nat) (x : V128) : Int := if 2 ^ (8 * n - 1) ≤ lane n x l then (lane n x l : Int) - 2 ^ (8 * n) else lane n x l
    let cnt (l : Nat) (x : V128) : Nat := lane n x l % (8 * n)
    (fits a.d ∧ fits ra ∧ fits rb →
      does (.vaddInt a) n ra rb (fun l x y => num l x + num l y) ∧ does (.vsubInt a) n ra rb (fun l x y => num l x - num l y) ∧
      does (.vmulInt a) n ra rb (fun l x y => num l x * num l y) ∧
      does (.vminInt a) n ra rb (fun l x y => if num l x ≤ num l y then num l x else num l y) ∧
      does (.vmaxInt a) n ra rb (fun l x y => if num l x ≤ num l y then num l y else num l x) ∧
      does (.vshl a) n ra rb (fun l x y => lane n x l * 2 ^ cnt l y) ∧ does (.vshr a) n ra rb (fun l x y => lane n x l / 2 ^ cnt l y) ∧
      does (.vsra a) n ra rb (fun l x y => signed l x / 2 ^ cnt l y)) ∧
    (fits a.d ∧ fits a.s →
      does (.vabsInt a) n a.s a.s (fun l x _ => |signed l x|) ∧ does (.vnegInt a) n a.s a.s (fun l x _ => -signed l x) ∧
      does (.vmov a) 1 a.s a.s (fun l x _ => lane 1 x l) ∧
      does (.vpfx a) 1 a.s a.s (fun l x _ => ((List.range (8 * l)).filter fun j => x.getLsbD j).length)) ∧
    (fits a.d ∧ fits ra ∧ fits rb →
      does (.vand a) 1 ra rb (fun l x y => lane 1 (x &&& y) l) ∧ does (.vor a) 1 ra rb (fun l x y => lane 1 (x ||| y) l) ∧
      does (.vxor a) 1 ra rb (fun l x y => lane 1 (x ^^^ y) l) ∧ does (.vbmand a) 1 ra rb (fun l x y => lane 1 (x &&& y) l) ∧
      does (.vperm a) 1 ra rb (fun l x y => if 128 ≤ lane 1 y l then 0 else lane 1 x (lane 1 y l % 16))) ∧
    (fits a.d ∧ fits ra ∧ fits rb → ∃ v, exec (.vsel a) s = .next v ∧
      let V := (v.mach.tset (.core c t)).v
      v = s.after (s.mach.modMe fun u => { u with v := V }) ∧
      (∀ k ∈ List.range w, ∀ l ∈ List.range 16, lane 1 (reg V a.d k) l =
        if mask.getLsbD l then lane 1 (reg u.v ra k) l else lane 1 (reg u.v rb k) l) ∧
      (∀ r ∈ List.range 32, r < a.d.toNat ∨ a.d.toNat + w ≤ r → vget V 0 r = vget u.v 0 r))

/-- R218, R220, R221, R226: broadcasts, lane reads and writes, integer comparisons and reductions, and the bit count; a predicate field of a
decoded instruction is below 8 (R144). R54, R227: a predicate form computes the bits that its governing predicate selects and keeps the
others; writing p7 has no effect. -/
def Obligations.VectorLaneAndPredicateForms : Prop :=
  (∀ (s : State) (c t : Nat) (a : Args), Plain s.mach c t = true →
    let u := s.mach.me
    let mask := u.preg a.p.toNat
    let n := 2 ^ (a.v.toNat % 4)
    let x : V128 := vget u.v 0 a.s.toNat
    let y : V128 := vget u.v 0 a.t.toNat
    let d : V128 := vget u.v 0 a.d.toNat
    let lane (x : V128) (l : Nat) : Nat := x.toNat / 2 ^ (8 * n * l) % 2 ^ (8 * n)
    let num (x : V128) (l : Nat) : Int := if a.v.toNat < 4 ∧ 2 ^ (8 * n - 1) ≤ lane x l then (lane x l : Int) - 2 ^ (8 * n) else lane x l
    let part := ((List.range (16 / n)).filter fun l => mask.getLsbD (n * l)).map (num x)
    let i := a.imm.toNat
    let least : Int := if a.v.toNat < 4 then -2 ^ (8 * n - 1) else 0
    let greatest : Int := if a.v.toNat < 4 then 2 ^ (8 * n - 1) - 1 else 2 ^ (8 * n) - 1
    let vd (v : State) : V128 := vget (v.mach.tset (.core c t)).v 0 a.d.toNat
    let pd (v : State) : BitVec 16 := (v.mach.tset (.core c t)).preg a.d.toNat
    let gives (w : Word) : Host.Outcome State Fault Refusal := .next (s.after (s.mach.modMe (·.setX a.d w)))
    (∃ v, exec (.vbcst a) s = .next v ∧
      let V := vd v
      v = s.after (s.mach.modMe (·.setV a.d V)) ∧ ∀ l ∈ List.range 16, n * l < 16 →
      lane V l = if mask.getLsbD (n * l) then (u.xreg a.s).toNat % 2 ^ (8 * n) else lane d l) ∧
    (n * i < 16 → exec (.vext a) s = s.gives a (BitVec.ofInt 64 (num x i))) ∧
    (n * i < 16 ∧ mask.getLsbD (n * i) = true → ∃ v, exec (.vins a) s = .next v ∧
      let V := vd v
      v = s.after (s.mach.modMe (·.setV a.d V)) ∧ ∀ l ∈ List.range 16, n * l < 16 → lane V l = if l = i then (u.xreg a.s).toNat % 2 ^ (8 * n) else lane d l) ∧
    (mask.getLsbD (n * i) = false → exec (.vins a) s = s.passes) ∧
    exec (.vredSumInt a) s = gives (BitVec.ofInt 64 part.sum) ∧
    exec (.vredMaxInt a) s = gives (BitVec.ofInt 64 (part.foldl max least)) ∧
    exec (.vredMinInt a) s = gives (BitVec.ofInt 64 (part.foldl min greatest)) ∧
    exec (.vpopc a) s = gives (BitVec.ofNat 64 ((List.range 128).filter fun j => x.getLsbD j && mask.getLsbD (j / 8)).length) ∧
    (a.d.toNat < 8 → ∃ v, exec (.vcmpInt a) s = .next v ∧ v = s.after (s.mach.modMe (·.setP a.d.toNat (pd v))) ∧ ∀ j ∈ List.range 16,
      a.d ≠ 7 → (pd v).getLsbD j = if mask.getLsbD (j / n * n) then
        (match a.m.toNat with
         | 0 => decide (num x (j / n) = num y (j / n))
         | 1 => decide (num x (j / n) ≠ num y (j / n))
         | 2 => decide (num x (j / n) < num y (j / n))
         | _ => decide (num x (j / n) ≤ num y (j / n)))
      else (u.preg a.d.toNat).getLsbD j)) ∧
  (∀ (s : State) (c t : Nat) (a : Args), Plain s.mach c t = true → a.d.toNat < 8 →
    let u := s.mach.me
    let x := u.preg (if a.short then a.d else a.s).toNat
    let y := u.preg (if a.short then a.s else a.t).toNat
    let sets (i : Instr) (f : Nat → Bool) : Prop := ∃ v, exec i s = .next v ∧
      let P := vget (v.mach.tset (.core c t)).p 0 a.d.toNat
      v = s.after (if a.d = 7 then s.mach.modMe id else s.mach.modMe fun v => { v with p := vset v.p a.d.toNat P }) ∧
      ∀ j ∈ List.range 16, a.d ≠ 7 → P.getLsbD j = if (u.preg a.p.toNat).getLsbD j then f j else (u.preg a.d.toNat).getLsbD j
    sets (.pand a) (fun j => x.getLsbD j && y.getLsbD j) ∧
    sets (.por a) (fun j => x.getLsbD j || y.getLsbD j) ∧
    sets (.pxor a) (fun j => x.getLsbD j != y.getLsbD j) ∧
    sets (.pnot a) (fun j => !(u.preg a.s.toNat).getLsbD j) ∧
    sets (.pmov a) (fun j => (u.preg a.s.toNat).getLsbD j) ∧
    sets (.pset a) (fun j => a.imm.getLsbD j))

/-- R42, R55, R56, R214, R222: an element-wise float form computes each active lane of each register of its group with the float operation of
its format and rounding mode, keeps the inactive lanes, and ORs the flags of the active lanes into kfflags. -/
def Obligations.FloatElementForms : Prop :=
  ∀ (s : State) (c t : Nat) (a : Args) (fmt : FloatFmt), Plain s.mach c t = true → a.w.toNat ≤ 2 →
    [(0, fmtF64), (1, fmtF32), (2, fmtF16), (3, fmtBf16)].contains (a.v.toNat, fmt) = true →
    let u := s.mach.me
    let w := 2 ^ a.w.toNat
    let ra := if a.short then a.d else a.s
    let rb := if a.short then a.s else a.t
    let fits (r : RegNo) : Prop := r.toNat + w ≤ 32 ∧ (r = a.d ∨ r.toNat + w ≤ a.d.toNat ∨ a.d.toNat + w ≤ r.toNat)
    let n := (1 + fmt.eb + fmt.fb) / 8
    let mask := u.preg a.p.toNat
    let lane (r : RegNo) (k l : Nat) : Nat := (vget u.v 0 (r.toNat + k)).toNat / 2 ^ (8 * n * l) % 2 ^ (8 * n)
    let active := (List.range 16).filter fun l => decide (n * l < 16) && mask.getLsbD (n * l)
    let does (i : Instr) (x y : RegNo) (f : Nat → Nat → Nat → Nat × BitVec 6) : Prop := ∃ v, exec i s = .next v ∧
      let V := (v.mach.tset (.core c t)).v
      let res (k l : Nat) : Nat × BitVec 6 := f (lane x k l) (lane y k l) (lane a.d k l)
      let flags := (List.range w).flatMap fun k => active.map fun l => (res k l).2
      v = s.after (s.mach.modMe fun u => { u with v := V, kfflags := flags.foldl (· ||| ·) u.kfflags }) ∧
      (∀ k ∈ List.range w, ∀ l ∈ List.range 16, n * l < 16 →
        (vget V 0 (a.d.toNat + k)).toNat / 2 ^ (8 * n * l) % 2 ^ (8 * n) = if active.contains l then (res k l).1 else lane a.d k l) ∧
      (∀ r ∈ List.range 32, r < a.d.toNat ∨ a.d.toNat + w ≤ r → vget V 0 r = vget u.v 0 r)
    let mode := a.m.toNat
    (fits a.d ∧ fits ra ∧ fits rb →
      does (.vaddFloat a) ra rb (fun x y _ => fmt.add mode x y) ∧ does (.vsubFloat a) ra rb (fun x y _ => fmt.sub mode x y) ∧
      does (.vmulFloat a) ra rb (fun x y _ => fmt.mul mode x y) ∧ does (.vdiv a) ra rb (fun x y _ => fmt.div mode x y) ∧
      does (.vfma a) ra rb (fun x y z => fmt.fma false mode x y z) ∧ does (.vfms a) ra rb (fun x y z => fmt.fma true mode x y z) ∧
      does (.vminFloat a) ra rb (fun x y _ => fmt.pick false x y) ∧ does (.vmaxFloat a) ra rb (fun x y _ => fmt.pick true x y)) ∧
    (fits a.d ∧ fits a.s →
      does (.vabsFloat a) a.s a.s (fun x _ _ => fmt.signOp false x) ∧ does (.vnegFloat a) a.s a.s (fun x _ _ => fmt.signOp true x) ∧
      does (.vsqrt a) a.s a.s (fun x _ _ => fmt.sqrt mode x))

/-- R222: with no NaN, 0 ÷ 0 and ∞ ÷ ∞ give the default NaN and NV; a finite nonzero value by a zero gives an infinity of the product's sign and
DZ; ∞ by a zero gives ∞ with no flag. The first NaN operand is given quieted, a signalling one with NV. -/
def Obligations.FloatSpecialCases : Prop :=
  ∀ (mode x y : Nat), x < 2 ^ 32 → y < 2 ^ 32 →
    let mag (v : Nat) : Nat := v % 2 ^ 31
    let sign := (x / 2 ^ 31 + y / 2 ^ 31) % 2 * 2 ^ 31
    let nan (v : Nat) : Bool := decide (0x7F800000 < mag v)
    let quiet (v : Nat) : Nat := if v / 2 ^ 22 % 2 = 0 then v + 2 ^ 22 else v
    let nv := if (nan x && x / 2 ^ 22 % 2 == 0) || (nan y && y / 2 ^ 22 % 2 == 0) then 0x10#6 else 0
    (mag x = 0 ∧ mag y = 0 → fmtF32.div mode x y = (0x7FC00000, 0x10#6)) ∧
    (mag x = 0x7F800000 ∧ mag y = 0x7F800000 → fmtF32.div mode x y = (0x7FC00000, 0x10#6)) ∧
    (0 < mag x ∧ mag x < 0x7F800000 ∧ mag y = 0 → fmtF32.div mode x y = (sign + 0x7F800000, 0x08#6)) ∧
    (mag x = 0x7F800000 ∧ mag y = 0 → fmtF32.div mode x y = (sign + 0x7F800000, 0)) ∧
    (nan x = true → fmtF32.add mode x y = (quiet x, nv) ∧ fmtF32.mul mode x y = (quiet x, nv) ∧ fmtF32.div mode x y = (quiet x, nv)) ∧
    (nan x = false ∧ nan y = true →
      fmtF32.add mode x y = (quiet y, nv) ∧ fmtF32.mul mode x y = (quiet y, nv) ∧ fmtF32.div mode x y = (quiet y, nv)) ∧
    (nan x = false → fmtF32.signOp false x = (mag x, 0) ∧ fmtF32.signOp true x = ((x + 2 ^ 31) % 2 ^ 32, 0))

/-- R218, R223, R224, R225: float comparisons, reductions, the dot product and conversions of the active elements, their flags ORed into
kfflags; a predicate field of a decoded instruction is below 8 (R144). -/
def Obligations.FloatReductionForms : Prop :=
  ∀ (s : State) (c t : Nat) (a : Args) (fmt : FloatFmt), Plain s.mach c t = true →
    [(0, fmtF64), (1, fmtF32), (2, fmtF16), (3, fmtBf16)].contains (a.v.toNat, fmt) = true →
    let u := s.mach.me
    let n := (1 + fmt.eb + fmt.fb) / 8
    let sum := if a.v = 0 then fmtF64 else fmtF32
    let mask := u.preg a.p.toNat
    let reg (r : RegNo) : V128 := vget u.v 0 r.toNat
    let elem (x : V128) (w j : Nat) : Nat := x.toNat / 2 ^ (w * j) % 2 ^ w
    let active := (List.range 16).filter fun l => decide (n * l < 16) && mask.getLsbD (n * l)
    let lanes := active.map (elem (reg a.s) (8 * n))
    let whole (i : Instr) (r : Nat × BitVec 6) : Prop := exec i s = .next (s.after (s.mach.modMe fun u =>
      { u with v := vset u.v a.d.toNat (BitVec.ofNat 128 r.1), kfflags := u.kfflags ||| r.2 }))
    let vd (v : State) : V128 := vget (v.mach.tset (.core c t)).v 0 a.d.toNat
    let pd (v : State) : BitVec 16 := (v.mach.tset (.core c t)).preg a.d.toNat
    let src := a.imm.toNat % 32
    let tgt := a.imm.toNat / 32 % 32
    let ws := fmtBits src
    let wt := fmtBits tgt
    let m := 128 / max ws wt
    let cvt (j : Nat) : Nat × BitVec 6 := convertElem (numKind src) (numKind tgt) u.tc a.m.toNat (elem (reg a.s) ws j)
    let on := (List.range m).filter fun j => mask.getLsbD (j * wt / 8)
    whole (.vredSumFloat a) (reduceSum fmt sum a.m.toNat lanes (elem (reg a.t) (1 + sum.eb + sum.fb) 0)) ∧
    whole (.vredMaxFloat a) (reducePick fmt true lanes (elem (reg a.t) (8 * n) 0)) ∧
    whole (.vredMinFloat a) (reducePick fmt false lanes (elem (reg a.t) (8 * n) 0)) ∧
    whole (.vdot a) (dotSum fmt sum a.m.toNat (active.map fun l => (elem (reg a.s) (8 * n) l, elem (reg a.t) (8 * n) l))
      (elem (reg a.d) (1 + sum.eb + sum.fb) 0)) ∧
    (4 ≤ ws ∧ 4 ≤ wt → ∃ v, exec (.vcvt a) s = .next v ∧
      v = s.after (s.mach.modMe fun u =>
        { u with v := vset u.v a.d.toNat (vd v), kfflags := (on.map fun j => (cvt j).2).foldl (· ||| ·) u.kfflags }) ∧
      (vd v).toNat < 2 ^ (m * wt) ∧
      ∀ j ∈ List.range m, elem (vd v) wt j = if on.contains j then (cvt j).1 else elem (reg a.d) wt j) ∧
    (a.d.toNat < 8 → ∃ v, exec (.vcmpFloat a) s = .next v ∧
      v = s.after (s.mach.modMe fun u => { u.setP a.d.toNat (pd v) with kfflags :=
        (active.map fun l => (fmt.compare a.m.toNat (elem (reg a.s) (8 * n) l) (elem (reg a.t) (8 * n) l)).2).foldl (· ||| ·) u.kfflags }) ∧
      ∀ j ∈ List.range 16, a.d ≠ 7 → (pd v).getLsbD j = if active.contains (j / n)
        then (fmt.compare a.m.toNat (elem (reg a.s) (8 * n) (j / n)) (elem (reg a.t) (8 * n) (j / n))).1
        else (u.preg a.d.toNat).getLsbD j)

/-- R49, R61, R228, R229, R232 to R234: `mma`, `mmag` and `mmix` complete when their accumulator is idle, R49 accepts the formats and the
operands are aligned and lie in local memory: the operation joins the unit's list and its thread set owns the accumulator. A gang-issue one,
of a row or of a pair, arrives at the barrier of its gang, A and the index vector being its leader's alone. Where the record of a refused
format holds the register and its code is the model's choice (docstring of `MatSample.misfit`). -/
def Obligations.MatrixIssue : Prop :=
  ∀ (s : State) (c t : Nat) (a : Args), Plain s.mach c t = true →
    let u := s.mach.me
    let k := s.mach.myCore
    let n := a.d.toNat % 4
    let fa := u.kfmta.toNat
    let fb := u.kfmtb.toNat
    let accepted := (((fa = 12 ∨ fa = 13) ∧ (fb = 12 ∨ fb = 13)) ∨ (fa = 14 ∧ fb = 14) ∨ (fa = 15 ∧ fb = 15) ∨
      ((fa = 10 ∨ fa = 11) ∧ (fb = 10 ∨ fb = 11)) ∨ (fa = 0 ∧ fb = 16)) ∧ 2 ≤ u.kplanes.toNat ∧ u.kplanes.toNat ≤ 8
    let g := if fa = 12 ∨ fa = 13 then 12 else if fa = 14 then 16 else if fa = 15 then 24 else 0
    let sample : MatSample := { fmta := u.kfmta, fmtb := u.kfmtb, scla := u.kscla, sclb := u.ksclb, planes := u.kplanes, tc := u.tc }
    let fitsB (b : Nat) := b % 16 = 0 ∧ b + 3072 ≤ 65536 ∧ u.ksclb.toNat + 8 * g ≤ 65536
    let fitsA (x : Nat) := x % 16 = 0 ∧ x + 6144 ≤ 65536 ∧ u.kscla.toNat + 16 * g ≤ 65536
    let xs := (u.xreg a.s).toNat
    let xt := (u.xreg a.t).toNat
    let busy := k.mat.any fun o => o.acc == n
    let op (gang pair : Bool) (mix : Option V128) (x b : Nat) : MatOp :=
      { acc := n, gang := gang, pair := pair, mix := mix, a := BitVec.ofNat 16 x, b := BitVec.ofNat 16 b, sample := sample, ts := t,
        cid := u.cid, pc := u.pc, priv := u.priv, uid := s.mach.nextCid }
    let issued (v : State) (o : MatOp) : Prop := (v.mach.core c).mat = k.mat ++ [o] ∧
      (v.mach.core c).owner = vset k.owner n (BitVec.ofNat 2 t) ∧ (v.mach.core c).acc = k.acc ∧ (v.mach.core c).mem = k.mem ∧
      (v.mach.core c).sinceReh = k.sinceReh + 1 ∧
      (v.mach.tset (.core c t)).x = u.x ∧ (v.mach.tset (.core c t)).v = u.v ∧ (v.mach.tset (.core c t)).pc = s.mach.npc
    let row (pair : Bool) := (rowOf c pair).1
    let gangFree (pair : Bool) := c < 73728 ∧ busy = false ∧ k.mat.any (·.gang) = false ∧ k.gangOwed = none ∧ s.mach.pairOk c pair = true ∧
      (s.mach.round (row pair) pair).all (fun r => !r.live && r.cut.isNone) = true
    let leads := decide (s.mach.leaderOf c = c)
    let joins (pair : Bool) (v : State) : Prop := ((v.mach.round (row pair) pair).any fun r => r.arrived.contains c) = true
    let pairG := decide (xs / 65536 = 1)
    let pairX := decide (xt / 2 ^ 32 = 1)
    let aG := if leads then xs % 65536 else 0
    let bX := xt % 65536
    let aX := if leads then xt / 65536 % 65536 else 0
    let formsOk := accepted ∧ k.fence ≠ 0xF
    (busy = false ∧ xs < 65536 ∧ xt < 65536 ∧ fitsA xs ∧ fitsB xt ∧ formsOk →
      ∃ v, exec (.mma a) s = .next v ∧ issued v (op false false none xs xt)) ∧
    (gangFree pairG ∧ xs < 2 ^ 17 ∧ xt < 65536 ∧ (leads = true → fitsA (xs % 65536)) ∧ fitsB xt ∧ formsOk →
      ∃ v, exec (.mmag a) s = .next v ∧ issued v (op true pairG none aG xt) ∧ joins pairG v) ∧
    (gangFree pairX ∧ xt < 2 ^ 33 ∧ fitsB bX ∧ (leads = true → aX % 16 = 0 ∧ aX + 384 + g ≤ 65536) ∧ formsOk →
      ∃ v, exec (.mmix a) s = .next v ∧
        issued v (op true pairX (if leads then some (vget u.v 0 a.s.toNat) else none) aX bX) ∧ joins pairX v) ∧
    (busy = true → exec (.mma a) s = s.waits .other ∧ exec (.mmag a) s = s.waits .other ∧ exec (.mmix a) s = s.waits .other) ∧
    (busy = false ∧ xs < 65536 ∧ xt < 65536 ∧ fitsA xs ∧ fitsB xt ∧ ¬accepted → exec (.mma a) s =
      s.traps c t { cause := 0x02, addr := BitVec.ofNat 64 sample.misfit.1, data := BitVec.ofNat 64 sample.misfit.2 }) ∧
    (busy = false ∧ xs < 65536 ∧ xt < 65536 ∧ fitsA xs ∧ fitsB xt ∧ accepted ∧ k.fence = 0xF →
      exec (.mma a) s = s.traps c t { cause := 0x1C, data := 0xF })

/-- R61, R237 to R239: `macz`, `macr`, `macw`, `macst`, `mwait` and `mreh` wait for a busy accumulator or unit; reading one that another thread
set owns traps; `macz` and `macw` take ownership; a rehearsal fences what fails and leaves the accumulators. -/
def Obligations.AccumulatorForms : Prop :=
  ∀ (s : State) (c t : Nat) (a : Args) (off : Nat), Plain s.mach c t = true →
    let u := s.mach.me
    let k := s.mach.myCore
    let d := a.d.toNat % 4
    let r := a.s.toNat % 4
    let busy (n : Nat) := k.mat.any fun o => o.acc == n
    let acc (n i : Nat) : BitVec 32 := vget (vget k.acc (Vector.replicate 128 0) n) 0 i
    let owns (n : Nat) : Prop := (vget k.owner 0 n).toNat = t
    let i := a.imm.toNat % 32
    let quad := 8 * (i / 2) + 4 * (i % 2)
    let owned (n : Nat) : Vector (BitVec 2) 4 := vset k.owner n (BitVec.ofNat 2 t)
    let v128 : V128 := vget u.v 0 a.s.toNat
    let sa := k.mem.byte (u.kscla.toNat + i / 2)
    let sb (j : Nat) := k.mem.byte (u.ksclb.toNat + 4 * (i % 2) + j)
    let scaled (j : Nat) : BitVec 32 := if sa.toNat = 255 ∨ (sb j).toNat = 255 then 0x7FC00000 else
      BitVec.ofNat 32 (fmtF32.ofExact false 0 { m := (acc r (quad + j)).toInt, e := (sa.toNat : Int) + (sb j).toNat - 254 } false).1
    (busy d = true → exec (.macz a) s = s.waits .other ∧ exec (.macw a) s = s.waits .other ∧ exec (.macst a) s = s.waits .other ∧
      exec (.mwait a) s = s.waits .other) ∧
    (busy d = false → exec (.mwait a) s = s.passes ∧
      exec (.macz a) s = .next (s.after (s.mach.modCore c fun q =>
        { q with acc := vset q.acc d (Vector.replicate 128 0), owner := owned d })) ∧
      exec (.macw a) s = .next (s.after (s.mach.modCore c fun q =>
        { q with acc := vset q.acc d (Vector.ofFn fun e => if quad ≤ e.val ∧ e.val < quad + 4
            then v128.extractLsb' (32 * (e.val - quad)) 32 else acc d e.val),
                 owner := owned d }))) ∧
    (busy r = true → exec (.macr a) s = s.waits .other) ∧
    (busy d = false ∧ ¬owns d → exec (.macst a) s = s.traps c t { cause := 0x1B, reg := BitVec.ofNat 8 (80 + d) }) ∧
    (busy r = false ∧ ¬owns r → exec (.macr a) s = s.traps c t { cause := 0x1B, reg := BitVec.ofNat 8 (80 + r) }) ∧
    (busy r = false ∧ owns r ∧ a.imm.toNat / 32 % 2 = 0 → exec (.macr a) s = .next (s.after (s.mach.modMe
      (·.setV a.d (acc r (quad + 3) ++ acc r (quad + 2) ++ acc r (quad + 1) ++ acc r quad))))) ∧
    (busy r = false ∧ owns r ∧ a.imm.toNat / 32 % 2 = 1 ∧ u.kscla.toNat + 16 ≤ 65536 ∧ u.ksclb.toNat + 8 ≤ 65536 ∧
        s.mach.admits c t (u.kscla.toNat + i / 2) 1 false = true ∧
        (List.range 4).all (fun j => s.mach.admits c t (u.ksclb.toNat + 4 * (i % 2) + j) 1 false) = true →
      ∃ v, exec (.macr a) s = .next v ∧ (v.mach.core c).acc = k.acc ∧ (v.mach.core c).mem = k.mem ∧
        (v.mach.tset (.core c t)).v = vset u.v a.d.toNat (scaled 3 ++ scaled 2 ++ scaled 1 ++ scaled 0) ∧
        (v.mach.tset (.core c t)).x = u.x ∧ (v.mach.tset (.core c t)).pc = s.mach.npc) ∧
    (busy d = false ∧ owns d ∧ ownAt c (u.xreg a.s + a.imm) off = true ∧ off % 16 = 0 ∧ off + 512 ≤ 65536 ∧
        (List.range 64).all (fun j => s.mach.admits c t (off + 8 * j) 8 true) = true →
      exec (.macst a) s = .next (s.after (s.mach.modCore c (·.store ((List.range 512).map fun b =>
        (off + b, (acc d (b / 4)).extractLsb' (8 * (b % 4)) 8)))))) ∧
    (k.mat ≠ [] → exec (.mreh a) s = s.waits .other) ∧
    (k.mat = [] ∧ k.rehEnd ≤ s.mach.clk → ∃ v, exec (.mreh a) s = .next v ∧ (v.mach.core c).fence = k.fence ||| k.failing ∧
      (v.mach.core c).sinceReh = 0 ∧ (v.mach.core c).rehEnd = s.mach.clk + 24 ∧ (v.mach.core c).acc = k.acc ∧
      (v.mach.core c).mem = k.mem ∧ (v.mach.tset (.core c t)).pc = s.mach.npc ∧
      (k.failing &&& ~~~k.fence = 0 → (v.mach.core c).events = k.events))

/-- R243, R249: a belief-propagation instruction waits in place while the Schur unit works; it completes when its operation has ended, with its
register result, or traps with the singular block, and the unit is free. -/
def Obligations.SchurForms : Prop :=
  ∀ (s : State) (c t : Nat) (a : Args) (q : Schur) (w : Word) (p : Nat × BitVec 32), Plain s.mach c t = true → s.mach.myCore.schur = some q →
    let m := s.mach.modCore c fun k => { k with schur := none }
    let forms := [Instr.gacc a, .gsub a, .gschur a, .gdamp a, .gmean a, .gres a]
    (q.ts = t ∧ q.ended = true ∧ q.singular = none ∧ q.result = none → ∀ i ∈ forms, exec i s = .next (s.after m)) ∧
    (q.ts = t ∧ q.ended = true ∧ q.singular = none ∧ q.result = some w →
      exec (.gres a) s = .next (s.after (m.modMe (·.setX a.d w)))) ∧
    (q.ts = t ∧ q.ended = true ∧ q.singular = some p → ∀ i ∈ forms,
      let r : FaultRec := { cause := 0x1D, index := BitVec.ofNat 16 p.1, val := p.2, pc := s.mach.me.pc }
      exec i s = .next { s with mach := m.trapEntry c t r s.mach.me.pc }) ∧
    (q.ts ≠ t ∨ q.ended = false → ∀ i ∈ forms, exec i s = s.waits .other)

/-- R91, R242 to R244, R248: `gacc`, `gsub` and `gres` of two message slots of one dimension begin in the free unit: 24 cycles later the unit
has the sums, the differences, or the greatest magnitude of a difference. Slots of unlike dimensions trap. R245, R249: `gschur` of a joint
record of two variables that removes the second: L = Λ10 ÷ Λ11, and the output slot receives η0 − L × η1 and Λ00 − L × Λ01, each step
rounded; the header keeps all but its dimension. A pivot that does not exceed kgpiv times itself is singular. R245, R249: `gschur` of a
joint record of `n` variables eliminates the last `nb`, one pivot at a time in ascending order, from every remaining variable, each step
rounded; the output slot receives the first ones, and its header only its dimension. The first pivot that does not exceed the threshold is
singular, and nothing is then written. R246, R247, R249: `gdamp` mixes a slot with an old one, value by value, by the fraction DELTA of its
header, which the output slot receives; `gmean` eliminates the variables of a slot in order and solves for the means from the last variable
back. -/
def Obligations.SchurOperations : Prop :=
  (∀ (s : State) (c t : Nat) (a : Args) (n n' : Nat), Plain s.mach c t = true → s.mach.myCore.schur = none →
    let u := s.mach.me
    let k := s.mach.myCore
    let size (n : Nat) : Nat := 16 + 4 * n + 2 * n * (n + 1)
    let slot (x n : Nat) : Prop := 1 ≤ n ∧ n ≤ 6 ∧ x % 128 = 0 ∧ x + size n ≤ 65536 ∧ k.number x 8 / 2 ^ 27 % 8 = n ∧
      k.number x 8 / 2 ^ 19 % 2 ^ 7 = 0 ∧ k.number (x + 8) 8 % 2 ^ 32 = 0 ∧ s.mach.admits c t x 16 false = true ∧
      s.mach.admits c t x (size n) false = true
    let f (x i : Nat) : Nat := k.number (x + 16 + 4 * i) 4
    let d := (u.xreg a.d).toNat
    let x := (u.xreg a.s).toNat
    let y := (u.xreg a.t).toNat
    let apart (x y : Nat) : Prop := x = y ∨ x + size n ≤ y ∨ y + size n ≤ x
    let cnt := (size n - 16) / 4
    let writable := (List.range ((cnt + 1) / 2)).all fun i => s.mach.admits c t (d + 16 + 8 * i) 8 true
    let cells (op : Nat → Nat → Nat) : List (Nat × Byte) := (List.range cnt).flatMap fun i =>
      (List.range 4).map fun b => (d + 16 + 4 * i + b, BitVec.ofNat 8 (op (f d i) (f x i) / 256 ^ b))
    let begins (i : Instr) (w : List (Nat × Byte)) (r : Option Word) : Prop := ∃ v, exec i s = .next v ∧
      (v.mach.core c).schur.map (fun q => (q.ts, q.done, q.writes, q.result, q.singular, q.ended)) =
        some (t, s.mach.clk + 24, w, r, none, false) ∧
      (v.mach.core c).mem = k.mem ∧ (v.mach.tset (.core c t)).pc = u.pc ∧ (v.mach.tset (.core c t)).x = u.x
    let gap (x y : Nat) : Nat := let e := (fmtF32.sub 0 x y).1
      if 0x7F800000 < e % 2 ^ 31 then 0x7FC00000 else e % 2 ^ 31
    let num (r : Nat × BitVec 6) : Nat := if 0x7F800000 < r.1 % 2 ^ 31 then 0x7FC00000 else r.1
    (slot d n ∧ slot x n ∧ apart d x ∧ writable = true →
      begins (.gacc a) (cells fun x y => num (fmtF32.add 0 x y)) none ∧
      begins (.gsub a) (cells fun x y => num (fmtF32.sub 0 x y)) none) ∧
    (slot x n ∧ slot y n ∧ apart x y →
      begins (.gres a) [] (some (BitVec.ofNat 64 (((List.range cnt).map fun i => gap (f x i) (f y i)).foldl max 0)))) ∧
    (slot d n ∧ slot x n' ∧ n ≠ n' → exec (.gacc a) s = s.traps c t { cause := 0x02, addr := u.xreg a.s })) ∧
  (∀ (s : State) (c t : Nat) (a : Args), Plain s.mach c t = true → s.mach.myCore.schur = none →
    let u := s.mach.me
    let k := s.mach.myCore
    let o := (u.xreg a.d).toNat
    let j := (u.xreg a.s).toNat
    let num (r : Nat × BitVec 6) : Nat := if 0x7F800000 < r.1 % 2 ^ 31 then 0x7FC00000 else r.1
    let div (x y : Nat) := num (fmtF32.div 0 x y)
    let less (x l y : Nat) := num (fmtF32.sub 0 x (num (fmtF32.mul 0 l y)))
    let f (i : Nat) : Nat := k.number (j + 16 + 4 * i) 4
    let tau := num (fmtF32.mul 0 u.kgpiv.toNat (f 4))
    let pivots := (fmtF32.compare 2 tau (f 4)).1
    let named := u.xreg a.t = 1 ∧ u.kgpiv.toNat < 0x7F800000 ∧ j % 128 = 0 ∧ o % 128 = 0 ∧ j + 36 ≤ 65536 ∧ o + 24 ≤ 65536 ∧
      k.number j 8 = 2 ∧ k.number (j + 8) 8 = 0 ∧ s.mach.admits c t j 16 false = true ∧ s.mach.admits c t j 36 false = true ∧
      s.mach.admits c t o 8 false = true ∧ (List.range 3).all (fun i => s.mach.admits c t (o + 8 * i) 8 true) = true ∧
      f 4 % 2 ^ 31 ≤ 0x7F800000
    let head := k.number o 8 - k.number o 8 / 2 ^ 27 % 8 * 2 ^ 27 + 2 ^ 27
    let l := div (f 3) (f 4)
    let out := head + 2 ^ 64 * (less (f 0) l (f 1) + 2 ^ 32 * less (f 2) l (f 3))
    let begins (w : List (Nat × Byte)) (x : Option (Nat × BitVec 32)) : Prop := ∃ v, exec (.gschur a) s = .next v ∧
      (v.mach.core c).schur.map (fun q => (q.ts, q.writes, q.result, q.singular, q.ended)) = some (t, w, none, x, false) ∧
      (v.mach.core c).mem = k.mem ∧ (v.mach.tset (.core c t)).pc = u.pc
    (named ∧ pivots = true → begins ((List.range 16).map fun i =>
      (if i < 8 then o + i else o + 8 + i, BitVec.ofNat 8 (out / 256 ^ i))) none) ∧
    (named ∧ pivots = false → begins [] (some (0, BitVec.ofNat 32 (f 4))))) ∧
  (∀ (s : State) (c t : Nat) (a : Args) (n nb b : Nat), Plain s.mach c t = true → s.mach.myCore.schur = none →
    let u := s.mach.me
    let k := s.mach.myCore
    let na := n - nb
    let o := (u.xreg a.d).toNat
    let j := (u.xreg a.s).toNat
    let size (n : Nat) : Nat := 16 + 4 * n + 2 * n * (n + 1)
    let f (i : Nat) : Nat := k.number (j + 16 + 4 * i) 4
    let lam (i l : Nat) : Nat := f (n + min i l * n - min i l * (min i l - 1) / 2 + (max i l - min i l))
    let left (p i : Nat) : Bool := decide (i < na ∨ p < i)
    let drop (p : Nat) (r : (Nat → Nat → Nat) × (Nat → Nat)) : (Nat → Nat → Nat) × (Nat → Nat) :=
      (fun i l => if left p i && left p l
          then sub32 (r.1 i l) (mul32 (div32 (r.1 (min i l) p) (r.1 p p)) (r.1 p (max i l))) else r.1 i l,
        fun i => if left p i then sub32 (r.2 i) (mul32 (div32 (r.1 i p) (r.1 p p)) (r.2 p)) else r.2 i)
    let after (q : Nat) : (Nat → Nat → Nat) × (Nat → Nat) := (List.range q).foldl (fun r q => drop (na + q) r) (lam, f)
    let tau := mul32 u.kgpiv.toNat (max32 ((List.range nb).map fun q => lam (na + q) (na + q)))
    let pivot (q : Nat) : Nat := (after q).1 (na + q) (na + q)
    let cnt := (size na - 16) / 4
    let named := u.xreg a.t = BitVec.ofNat 64 nb ∧ n ≤ 12 ∧ 1 ≤ nb ∧ nb ≤ 6 ∧ nb < n ∧ na ≤ 6 ∧ u.kgpiv.toNat < 0x7F800000 ∧
      j % 128 = 0 ∧ o % 128 = 0 ∧ j + size n ≤ 65536 ∧ o + size na ≤ 65536 ∧ (o = j ∨ o + size na ≤ j ∨ j + size n ≤ o) ∧
      k.number j 8 = n ∧ k.number (j + 8) 8 = 0 ∧ s.mach.admits c t j 16 false = true ∧ s.mach.admits c t j (size n) false = true
    let writable := s.mach.admits c t o 8 false && s.mach.admits c t o 8 true &&
      (List.range ((cnt + 1) / 2)).all fun i => s.mach.admits c t (o + 16 + 8 * i) 8 true
    let word := k.number o 8 - k.number o 8 / 2 ^ 27 % 8 * 2 ^ 27 + na * 2 ^ 27
    let vals : List Nat := (List.range na).map (after nb).2 ++
      (List.range na).flatMap fun i => ((List.range na).filter (i ≤ ·)).map ((after nb).1 i)
    let cost (q : Nat) : Nat := 118 + ((List.range q).map fun i => (n - 1 - i) * (n + 2 - i) / 2).sum
    let begins (d : Nat) (w : List (Nat × Byte)) (x : Option (Nat × BitVec 32)) : Prop := ∃ v, exec (.gschur a) s = .next v ∧
      (v.mach.core c).schur.map (fun q => (q.ts, q.done, q.writes, q.result, q.singular, q.ended)) =
        some (t, s.mach.clk + d, w, none, x, false) ∧
      (v.mach.core c).mem = k.mem ∧ (v.mach.tset (.core c t)).pc = u.pc
    let good (q : Nat) : Bool := (List.range q).all fun i => gt32 (pivot i) tau
    (named ∧ writable = true ∧ good nb = true → begins (cost nb) (cellsAt o (leBytes word 8) ++ floatCells (o + 16) vals) none) ∧
    (named ∧ b < nb ∧ good b = true ∧ gt32 (pivot b) tau = false → begins (cost b) [] (some (b, BitVec.ofNat 32 (pivot b))))) ∧
  (∀ (s : State) (c t : Nat) (a : Args) (n b : Nat), Plain s.mach c t = true → s.mach.myCore.schur = none →
    let u := s.mach.me
    let k := s.mach.myCore
    let size (n : Nat) : Nat := 16 + 4 * n + 2 * n * (n + 1)
    let slot (x : Nat) : Prop := 1 ≤ n ∧ n ≤ 6 ∧ x % 128 = 0 ∧ x + size n ≤ 65536 ∧ k.number x 8 / 2 ^ 27 % 8 = n ∧
      k.number x 8 / 2 ^ 19 % 2 ^ 7 = 0 ∧ k.number (x + 8) 8 % 2 ^ 32 = 0 ∧ s.mach.admits c t x 16 false = true ∧
      s.mach.admits c t x (size n) false = true
    let f (x i : Nat) : Nat := k.number (x + 16 + 4 * i) 4
    let o := (u.xreg a.d).toNat
    let x := (u.xreg a.s).toNat
    let y := (u.xreg a.t).toNat
    let apart (x n y m : Nat) : Prop := x + n ≤ y ∨ y + m ≤ x
    let cnt := (size n - 16) / 4
    let writes (from_ words : Nat) : Bool := (List.range words).all fun i => s.mach.admits c t (from_ + 8 * i) 8 true
    let begins (i : Instr) (d : Nat) (w : List (Nat × Byte)) (r : Option (Nat × BitVec 32)) : Prop := ∃ v, exec i s = .next v ∧
      (v.mach.core c).schur.map (fun q => (q.ts, q.done, q.writes, q.result, q.singular, q.ended)) =
        some (t, s.mach.clk + d, w, none, r, false) ∧
      (v.mach.core c).mem = k.mem ∧ (v.mach.tset (.core c t)).pc = u.pc
    let delta := k.number x 8 % 65536
    let share (m : Nat) : Nat := (fmtF32.ofExact false 0 { m := m, e := -16 } false).1
    let mixed (i : Nat) : Nat := if delta = 0 then f x i
      else add32 (mul32 (share (65536 - delta)) (f x i)) (mul32 (share delta) (f y i))
    let lam (i l : Nat) : Nat := f x (n + min i l * n - min i l * (min i l - 1) / 2 + (max i l - min i l))
    let drop (p : Nat) (r : (Nat → Nat → Nat) × (Nat → Nat)) : (Nat → Nat → Nat) × (Nat → Nat) :=
      (fun i l => if p < i && p < l then sub32 (r.1 i l) (mul32 (div32 (r.1 (min i l) p) (r.1 p p)) (r.1 p (max i l))) else r.1 i l,
        fun i => if p < i then sub32 (r.2 i) (mul32 (div32 (r.1 i p) (r.1 p p)) (r.2 p)) else r.2 i)
    let after (q : Nat) : (Nat → Nat → Nat) × (Nat → Nat) := (List.range q).foldl (fun r p => drop p r) (lam, f x)
    let tau := mul32 u.kgpiv.toNat (max32 ((List.range n).map fun i => lam i i))
    let pivot (q : Nat) : Nat := (after q).1 q q
    let good (q : Nat) : Bool := (List.range q).all fun i => gt32 (pivot i) tau
    let solve (mu : List Nat) (i : Nat) : List Nat :=
      div32 ((mu.zipIdx.foldl fun r v => sub32 r (mul32 ((after n).1 i (i + 1 + v.2)) v.1)) ((after n).2 i)) ((after n).1 i i) :: mu
    let means : List Nat := ((List.range n).reverse).foldl solve []
    let cost (q : Nat) : Nat := 64 + ((List.range q).map fun i => (n - 1 - i) * (n + 2 - i) / 2).sum
    let solves := slot x ∧ o % 8 = 0 ∧ o + 4 * n ≤ 65536 ∧ apart x (size n) o (4 * n) ∧ u.kgpiv.toNat < 0x7F800000
    (slot x ∧ slot y ∧ apart x (size n) y (size n) ∧ o % 128 = 0 ∧ o + size n ≤ 65536 ∧ (o = x ∨ apart x (size n) o (size n)) ∧
      (o = y ∨ apart y (size n) o (size n)) ∧ writes o (2 + (cnt + 1) / 2) = true →
      begins (.gdamp a) 32 ((List.range 16).map (fun i => (o + i, k.mem.byte (x + i))) ++
        floatCells (o + 16) ((List.range cnt).map mixed)) none) ∧
    (solves ∧ writes o ((n + 1) / 2) = true ∧ good n = true →
      begins (.gmean a) (cost n + n * (n + 1) / 2) (floatCells o means) none) ∧
    (solves ∧ b < n ∧ good b = true ∧ gt32 (pivot b) tau = false →
      begins (.gmean a) (cost b) [] (some (b, BitVec.ofNat 32 (pivot b)))))

/-- R100, R253: `send` reads its payload from own memory and leaves as one message with the sender's position, the next message number and its
top-code bit; a target that is no mesh core is unroutable, one outside the partition a partition fault, an ill-formed header or payload
operand an illegal operation, a misaligned cue or payload an alignment fault, and a payload that ends outside memory an address fault. While
no send-window entry is free it waits. R120, R254: `sendc` sends one copy, over the root, to every member that the cast's tree reaches and
that is not lost, all in one send-window entry and with one message number; a cast that is not valid is an illegal operation. -/
def Obligations.SendForms : Prop :=
  (∀ (s : State) (c t : Nat) (a : Args) (q : Nat), Plain s.mach c t = true → c < 73728 →
    let u := s.mach.me
    let k := s.mach.myCore
    let h := u.xreg a.d
    let p := (u.xreg a.s).toNat
    let n := h.toNat / 2 ^ 29 % 256
    let x := h.toNat / 2 ^ 54
    let y := h.toNat / 2 ^ 46 % 256
    let forms := [Instr.send a, .sendP7 a]
    let cue := h.toNat / 2 ^ 43 % 2 = 1
    let good := h.toNat / 2 ^ 37 % 4 = 0 ∧ h.toNat / 2 ^ 16 % 2 ^ 13 = 0 ∧ n ≤ 128 ∧ p < 65536 ∧ (¬cue → h.toNat % 65536 = 0) ∧
      (cue → h.toNat % 8 = 0) ∧ (n ≠ 0 → p % 8 = 0 ∧ p + n ≤ 65536)
    let formed := h.toNat / 2 ^ 37 % 4 = 0 ∧ h.toNat / 2 ^ 16 % 2 ^ 13 = 0 ∧ n ≤ 128 ∧ p < 65536 ∧ (¬cue → h.toNat % 65536 = 0)
    let here := x = q % 512 ∧ y = q / 512 ∧ q < 73728
    let holds := (s.mach.part k.part.toNat).holds x y
    let readable := (List.range ((n + 7) / 8)).all fun i => s.mach.admits c t (p + 8 * i) 8 false
    let body := (List.range n).map fun i => k.mem.byte (p + i)
    let m := (if n = 0 then s.mach else s.mach.modCore c (·.correct p n)).modCore c fun k => { k with msgNo := k.msgNo + 1 }
    let head := if u.tc then BitVec.ofNat 64 (h.toNat + 2 ^ 38) else h
    let word1 := BitVec.ofNat 64 ((posOf c).1 * 2 ^ 54 + (posOf c).2 * 2 ^ 46 + k.msgNo.toNat)
    (good ∧ here ∧ holds = true ∧ s.mach.windowFree c = true ∧ readable = true →
      ∀ i ∈ forms, exec i s = .next (s.after (m.post c t q (.msg head word1 body) none true))) ∧
    (good ∧ here ∧ holds = true ∧ s.mach.windowFree c = false → ∀ i ∈ forms, exec i s = s.waits .other) ∧
    (good ∧ ¬(x < 512 ∧ y < 144) → ∀ i ∈ forms, exec i s = s.traps c t { cause := 0x06, addr := h }) ∧
    (good ∧ here ∧ holds = false → ∀ i ∈ forms, exec i s = s.traps c t { cause := 0x07, addr := h }) ∧
    (128 < n → ∀ i ∈ forms, exec i s = s.traps c t { cause := 0x02, addr := h }) ∧
    (¬formed → ∀ i ∈ forms, exec i s = s.traps c t { cause := 0x02, addr := h }) ∧
    (formed ∧ cue ∧ h.toNat % 8 ≠ 0 → ∀ i ∈ forms, exec i s = s.traps c t { cause := 0x05, addr := BitVec.ofNat 64 (h.toNat % 65536) }) ∧
    (formed ∧ (cue → h.toNat % 8 = 0) ∧ n ≠ 0 ∧ p % 8 ≠ 0 → ∀ i ∈ forms, exec i s = s.traps c t { cause := 0x05, addr := u.xreg a.s }) ∧
    (formed ∧ (cue → h.toNat % 8 = 0) ∧ n ≠ 0 ∧ p % 8 = 0 ∧ 65536 < p + n →
      ∀ i ∈ forms, exec i s = s.traps c t { cause := 0x04, addr := u.xreg a.s })) ∧
  (∀ (s : State) (c t : Nat) (a : Args), Plain s.mach c t = true → c < 73728 →
    let u := s.mach.me
    let k := s.mach.myCore
    let h := u.xreg a.d
    let p := (u.xreg a.s).toNat
    let n := h.toNat / 2 ^ 29 % 256
    let cast := vget (s.mach.part k.part.toNat).casts {} a.imm.toNat
    let cue := h.toNat / 2 ^ 43 % 2 = 1
    let good := h.toNat / 2 ^ 37 % 4 = 0 ∧ h.toNat / 2 ^ 16 % 2 ^ 13 = 0 ∧ n ≤ 128 ∧ p < 65536 ∧ (¬cue → h.toNat % 65536 = 0) ∧
      (cue → h.toNat % 8 = 0) ∧ (n ≠ 0 → p % 8 = 0 ∧ p + n ≤ 65536) ∧ h.toNat / 2 ^ 46 = 0
    let readable := (List.range ((n + 7) / 8)).all fun i => s.mach.admits c t (p + 8 * i) 8 false
    let body := (List.range n).map fun i => k.mem.byte (p + i)
    let m := (if n = 0 then s.mach else s.mach.modCore c (·.correct p n)).modCore c fun k => { k with msgNo := k.msgNo + 1 }
    let head := if u.tc then BitVec.ofNat 64 (h.toNat + 2 ^ 38) else h
    let word1 := BitVec.ofNat 64 ((posOf c).1 * 2 ^ 54 + (posOf c).2 * 2 ^ 46 + k.msgNo.toNat)
    let copies := cast.copies s.mach a.imm.toNat c
    (good ∧ cast.v = true ∧ s.mach.windowFree c = true ∧ readable = true → exec (.sendc a) s =
      .next (s.after (copies.foldl (fun m q => m.post c t q.1 (.msg head word1 body) (some s.mach.nextId)
        (cast := some (a.imm.toNat, q.2)) (lead := (copies.head?.map (·.1)) == some q.1)) m)) ∧ ∀ q ∈ copies, cast.lostAt.contains q.1 = false) ∧
    (good ∧ cast.v = true ∧ s.mach.windowFree c = false → exec (.sendc a) s = s.waits .other) ∧
    (good ∧ cast.v = false → exec (.sendc a) s = s.traps c t { cause := 0x02, addr := h }) ∧
    (h.toNat / 2 ^ 37 % 4 ≠ 0 ∨ h.toNat / 2 ^ 16 % 2 ^ 13 ≠ 0 ∨ 128 < n ∨ 65536 ≤ p ∨ (¬cue ∧ h.toNat % 65536 ≠ 0) →
      exec (.sendc a) s = s.traps c t { cause := 0x02, addr := h }) ∧
    (h.toNat / 2 ^ 46 ≠ 0 ∧ h.toNat % 2 ^ 16 = 0 ∧ n = 0 → exec (.sendc a) s = s.traps c t { cause := 0x02, addr := h }))

/-- R131, R132, R255: `cue.dec` of a cue of the own core counts down in one store; at zero the cue is disarmed, marked fired, and its descriptor
stands on its ring; a cue that is not armed or at zero is an underflow, which is reported and changes no memory. A single-bit error of its
word is corrected first (R80). To another core of the partition the decrement is a delivery. R131, R256, R257: `cue.arm` writes the cue
word, fired at once with count 0; `cue.bind` writes ring and descriptor and keeps the rest; `cue.stat` reads a cue of the own core or
cluster; `ready` pushes a descriptor. A push that finds ring and buffer full traps. -/
def Obligations.CueForms : Prop :=
  (∀ (s : State) (c t : Nat) (a : Args) (off : Nat) (ring : Bool), Plain s.mach c t = true → off % 8 = 0 →
    let ea := s.mach.me.xreg a.s
    let k := s.mach.myCore.correctWord (off / 8)
    let w := k.number off 8
    let n := w % 2 ^ 32
    let armed := w / 2 ^ 39 % 2 = 1 ∧ w / 2 ^ 32 % 32 = 0 ∧ n ≠ 0
    let here := ownAt c ea off = true ∧ s.mach.admits c t off 8 true = true
    let forms := [Instr.cueDec a, .cueDecP7 a]
    let word (x : Nat) : Core := k.store (spread off 8 (BitVec.ofNat 64 x))
    let zero := word (w / 2 ^ 40 * 2 ^ 40 + w / 2 ^ 38 % 2 * 2 ^ 38 + 2 ^ 37)
    let pushes (i : Instr) (k : Core) (b : Bool) (e : Nat) : Prop := exec i s = match k.pushReady b (BitVec.ofNat 64 e) with
      | some q => .next (s.after (s.mach.modCore c fun _ => q))
      | none => s.traps c t { cause := 0x18, addr := ea }
    (here ∧ armed ∧ 2 ≤ n → ∀ i ∈ forms, exec i s = .next (s.after (s.mach.modCore c fun _ => word (w - 1)))) ∧
    (here ∧ armed ∧ n = 1 ∧ w / 2 ^ 38 % 2 = ring.toNat ∧ s.mach.pushHeld c ring = false → pushes (.cueDec a) zero ring (off * 2 ^ 16 + w / 2 ^ 48) ∧
      pushes (.cueDecP7 a) zero ring (off * 2 ^ 16 + w / 2 ^ 48)) ∧
    (here ∧ ¬armed → ∀ i ∈ forms, ∃ v, exec i s = .next v ∧ (v.mach.core c).mem = k.mem ∧ (v.mach.core c).side = k.side ∧
      (v.mach.core c).count.underflow = satInc k.count.underflow ∧ (v.mach.tset (.core c t)).pc = s.mach.npc ∧
      (k.events.length < 16 → (v.mach.core c).events.map (fun r => (r.cause, r.addr)) =
        k.events.map (fun r => (r.cause, r.addr)) ++ [(0x41, BitVec.ofNat 64 off)])) ∧
    (∀ q ∈ s.mach.liveCores k.part.toNat, coreAt q ea off = true → q ≠ c → c < 73728 →
      (s.mach.part k.part.toNat).holds (q % 512) (q / 512) = true → ∀ i ∈ forms,
        (s.mach.windowFree c = true → exec i s = .next (s.after (s.mach.post c t q (.cue off false none) none true))) ∧
        (s.mach.windowFree c = false → exec i s = s.waits .other))) ∧
  (∀ (s : State) (c t : Nat) (a : Args) (off : Nat) (ring : Bool), Plain s.mach c t = true → off % 8 = 0 →
    let u := s.mach.me
    let k := s.mach.myCore
    let v := (u.xreg a.s).toNat
    let n := v % 2 ^ 32
    let here := ownAt c (u.xreg a.d) off = true ∧ s.mach.admits c t off 8 true = true
    let word (x : Nat) : Core := k.store (spread off 8 (BitVec.ofNat 64 x))
    let pushes (i : Instr) (k : Core) (b : Bool) (e : Nat) (ea : Word) : Prop := exec i s = match k.pushReady b (BitVec.ofNat 64 e) with
      | some q => .next (s.after (s.mach.modCore c fun _ => q))
      | none => s.traps c t { cause := 0x18, addr := ea }
    let w := k.number off 8
    let m := s.mach.modCore c (·.correct off 8)
    (here ∧ v / 2 ^ 39 % 2 ^ 9 = 0 ∧ v / 2 ^ 32 % 64 = 0 ∧ n ≠ 0 →
      exec (.cueArm a) s = .next (s.after (s.mach.modCore c fun _ => word (v + 2 ^ 39)))) ∧
    (here ∧ v / 2 ^ 39 % 2 ^ 9 = 0 ∧ v / 2 ^ 32 % 64 = 0 ∧ n = 0 ∧ v / 2 ^ 38 % 2 = ring.toNat ∧ s.mach.pushHeld c ring = false →
      pushes (.cueArm a) (word (v + 2 ^ 37)) ring (off * 2 ^ 16 + v / 2 ^ 48) (u.xreg a.d)) ∧
    (here ∧ v % 2 ^ 38 = 0 ∧ v / 2 ^ 39 % 2 ^ 9 = 0 →
      exec (.cueBind a) s = .next (s.after (m.modCore c fun k => k.store (spread off 8 (BitVec.ofNat 64
        (v + w % 2 ^ 38 + w / 2 ^ 39 % 2 ^ 9 * 2 ^ 39)))))) ∧
    (ownAt c (u.xreg a.s) off = true ∧ s.mach.admits c t off 8 false = true →
      exec (.cueStat a) s = .next (s.after (m.modMe (·.setX a.d (BitVec.ofNat 64 w))))) ∧
    (∀ q ∈ clusterCores c, coreAt q (u.xreg a.s) off = true → q ≠ c → sameCluster c q = true → s.mach.live q = true →
      s.mach.injPaused = false → s.mach.gone.contains q = false → s.mach.unaccepted c t q off 8 = false → (s.mach.core q).aboveMark off 8 = none → (s.mach.core q).badRead off 8 = none →
      exec (.cueStat a) s = .next (s.after ((s.mach.modCore q (·.correct off 8)).modMe
        (·.setX a.d (BitVec.ofNat 64 ((s.mach.core q).number off 8)))))) ∧
    (v = ring.toNat * 2 ^ 16 + v % 2 ^ 16 ∧ v % 16 = 0 ∧ s.mach.pushHeld c ring = false →
      pushes (.ready a) k ring (v % 2 ^ 16) (BitVec.ofNat 64 (v % 2 ^ 16))) ∧
    (2 ^ 17 ≤ v → exec (.ready a) s = s.traps c t { cause := 0x02, addr := u.xreg a.s }))

/-- R75, R135, R250, R261: `mbinc` adds modulo 2^32 to a counter of the own core at once and to one of another core of the partition by a
delivery; `mbget` reads a counter of the own cluster; `mbwait` passes when its counter has reached the target and waits, with its time-out,
until then; an address outside the counter space is an address fault. R102, R103, R260: `rpoll` gives the offset of the slot at HEAD, or 0
for an empty ring; `rwait` waits for the next store to the ring's TAIL word and then gives the slot; `rpop` moves HEAD on by one store and
traps on an empty ring. -/
def Obligations.MailboxAndRingForms : Prop :=
  (∀ (s : State) (c t : Nat) (a : Args) (i : Nat), Plain s.mach c t = true → i < 64 →
    let u := s.mach.me
    let k := s.mach.myCore
    let named (q : Nat) (ea : Word) : Prop := ea.toNat = 2 ^ 61 + (posOf q).1 * 2 ^ 32 + (posOf q).2 * 2 ^ 24 + 4 * i
    let n := (u.xreg a.s).setWidth 32
    let limit := (u.xreg a.t).toNat
    let v := vget k.mb 0 i
    (named c (u.xreg a.d) → exec (.mbinc a) s = .next (s.after (s.mach.modCore c fun q => { q with mb := vset q.mb i (v + n) }))) ∧
    (∀ q ∈ s.mach.liveCores k.part.toNat, named q (u.xreg a.d) → q ≠ c → c < 73728 →
      (s.mach.part k.part.toNat).holds (q % 512) (q / 512) = true →
      (s.mach.windowFree c = true → exec (.mbinc a) s = .next (s.after (s.mach.post c t q (.inc i n) none true))) ∧
      (s.mach.windowFree c = false → exec (.mbinc a) s = s.waits .other)) ∧
    (∀ q ∈ clusterCores c, (named q (u.xreg a.s) ∧ (q = c ∨ (sameCluster c q = true ∧ s.mach.live q = true)) →
      exec (.mbget a) s = .next (s.after (s.mach.modMe (·.setX a.d ((vget (s.mach.core q).mb 0 i).setWidth 64)))))) ∧
    (named c (u.xreg a.d) ∧ u.xreg a.s = n.setWidth 64 ∧ limit < 2 ^ 32 ∧ (v - n).toNat < 2 ^ 31 →
      exec (.mbwait a) s = s.passes) ∧
    (named c (u.xreg a.d) ∧ u.xreg a.s = n.setWidth 64 ∧ limit < 2 ^ 32 ∧ ¬(v - n).toNat < 2 ^ 31 →
      exec (.mbwait a) s = s.waits (.counter i n (if limit = 0 then 2 ^ 20 else limit))) ∧
    ((u.xreg a.d).toNat / 2 ^ 60 ≠ 2 → exec (.mbinc a) s = s.traps c t { cause := 0x04, addr := u.xreg a.d } ∧
      exec (.mbwait a) s = s.traps c t { cause := 0x04, addr := u.xreg a.d })) ∧
  (∀ (s : State) (c t : Nat) (a : Args), Plain s.mach c t = true →
    let k := s.mach.myCore
    let n := a.imm.toNat % 4
    let base := (vget k.inBase 0 n).toNat
    let tail := (k.mem.byte base).toNat
    let head := (k.mem.byte (base + 8)).toNat
    let slots := (vget k.inSlots 0 n).toNat
    let m := s.mach.modCore c (·.correct base 16)
    let gives (i : Instr) (v : Nat) : Prop := exec i s = .next (s.after (m.modMe (·.setX a.d (BitVec.ofNat 64 v))))
    let good := k.badRead base 16 = none
    let slot := base + 16 + 144 * head
    (good ∧ head = tail → gives (.rpoll a) 0) ∧
    (good ∧ head ≠ tail ∧ 0 < slot ∧ slot < 65536 → gives (.rpoll a) slot ∧ gives (.rwait a) slot ∧
      (s.mach.heldRange c (base + 8) 8 = false → exec (.rpop a) s = .next (s.after (m.modCore c
        (·.store (spread (base + 8) 8 (BitVec.ofNat 64 ((head + 1) % slots)))))))) ∧
    (k.badRead base 16 ≠ none → exec (.rpoll a) s = s.traps c t { cause := 0x12, addr := BitVec.ofNat 64 base }) ∧
    (good ∧ head = tail → exec (.rwait a) s = s.waits (.version base (k.verAt base + 1)) ∧
      exec (.rpop a) s = s.traps c t { cause := 0x02 }))

/-- R26, R120, R262 to R265: `curtain` sends a fill of a context, which reaches the cores 6 + ⌈(w + h) / 8⌉ cycles later and clears the phase
bit there, and holds its issuer as long; `curtain.arr` counts its core in, waits for the phase it arrived in, and passes when that phase has
been released, traps when it has timed out and arrives in the new phase when a fill has ended its own; `curtain.excuse` excuses a core;
`castq` reads a cast that the core is a member of. `curtain` and `curtain.excuse` need supervisor level. That a fill reaches all cores of
its rectangle in one cycle is the model's choice (log entry 59). -/
def Obligations.CurtainForms : Prop :=
  ∀ (s : State) (c t : Nat) (a : Args) (n since : Nat), Plain s.mach c t = true → c < 73728 →
    let u := s.mach.me
    let k := s.mach.myCore
    let q := k.part.toNat
    let p := s.mach.part q
    let i := a.d.toNat % 2
    let v := (u.xreg a.s).toNat
    let x0 := v % 2 ^ 10
    let y0 := v / 2 ^ 10 % 2 ^ 8
    let x1 := v / 2 ^ 18 % 2 ^ 10
    let y1 := v / 2 ^ 28 % 2 ^ 8
    let cycles := 6 + (x1 + 1 - x0 + (y1 + 1 - y0) + 7) / 8
    let ctx := p.ctx i
    let phase (v : State) : Bool := if i = 0 then (v.mach.part q).pha else (v.mach.part q).phb
    let same (v : State) : Prop := (v.mach.tset (.core c t)).x = u.x ∧ (v.mach.core c).mem = k.mem
    let goesOn (v : State) : Prop := (v.mach.tset (.core c t)).pc = s.mach.npc ∧ same v
    let inside (x y : Nat) : Prop := ctx.filled = true ∧ ctx.x0 ≤ x ∧ x ≤ ctx.x1 ∧ ctx.y0 ≤ y ∧ y ≤ ctx.y1
    let member := inside (c % 512) (c / 512)
    let castWord : Word := match vget k.casts none (a.imm.toNat % 4) with
      | none => 0
      | some n =>
        let cast := vget p.casts {} n.toNat
        BitVec.ofNat 64 (2 ^ 63 + n.toNat * 2 ^ 52 + cast.rx.toNat * 2 ^ 42 + cast.ry.toNat * 2 ^ 34 + cast.count.toNat * 2 ^ 17 + cast.lost.toNat)
    (u.priv = .user → exec (.curtain a) s = s.traps c t { cause := 0x03 } ∧
      exec (.curtainExcuse a) s = s.traps c t { cause := 0x03 }) ∧
    (u.priv ≠ .user ∧ v < 2 ^ 36 ∧ x0 ≤ x1 ∧ y0 ≤ y1 ∧ p.holds x0 y0 = true ∧ p.holds x1 y1 = true ∧ ctx.arrived = [] ∧ q < 16 →
      ∃ v, exec (.curtain a) s = .next v ∧ goesOn v ∧
        (v.mach.part q).ctx i = { ctx with refills := ctx.refills ++ [(s.mach.clk, x0, y0, x1, y1)] } ∧
        (v.mach.tset (.core c t)).notBefore = s.mach.clk + cycles) ∧
    (ctx.refills = [(s.mach.clk - cycles, x0, y0, x1, y1)] ∧ cycles ≤ s.mach.clk ∧ x0 ≤ x1 ∧ y0 ≤ y1 ∧ q < 16 →
      ∃ m, s.mach.curtainRefill q i = some m ∧ phase { s with mach := m } = false ∧ (m.part q).ctx i =
        { filled := true, x0 := x0, y0 := y0, x1 := x1, y1 := y1, phase := ctx.phase + 1, timedOut := ctx.timedOut ++ [(ctx.phase, { cause := 0x02 }, [])] }) ∧
    (u.priv ≠ .user ∧ v < 2 ^ 18 ∧ inside x0 y0 ∧ q < 16 → ∃ v, exec (.curtainExcuse a) s = .next v ∧ goesOn v ∧
      ((v.mach.part q).ctx i).excused.contains (y0 * 512 + x0) = true ∧ ((v.mach.part q).ctx i).arrived = ctx.arrived) ∧
    (u.wait = none ∧ member ∧ s.mach.quiet c t = true ∧ q < 16 → ∃ v, exec (.curtainArr a) s = .next v ∧
      ((v.mach.part q).ctx i).arrived.contains c = true ∧ (v.mach.tset (.core c t)).pc = u.pc ∧ same v ∧
      (v.mach.tset (.core c t)).wait = some { kind := .curtain i ctx.phase, since := s.mach.clk - u.elapsed.getD 0 }) ∧
    (u.wait = some { kind := .curtain i n, since := since } ∧ member ∧ n ≠ ctx.phase ∧ ctx.timedOut.find? (·.1 == n) = none →
      exec (.curtainArr a) s = s.passes) ∧
    (u.wait = some { kind := .curtain i n, since := since } ∧ member ∧ n = ctx.phase →
      exec (.curtainArr a) s = s.waits (.curtain i n)) ∧
    (∀ e ∈ ctx.timedOut, u.wait = some { kind := .curtain i n, since := since } ∧ member ∧ n ≠ ctx.phase ∧ ctx.timedOut.find? (·.1 == n) = some e →
      (e.2.1.cause = 0x20 → exec (.curtainArr a) s = s.traps c t e.2.1) ∧
      (e.2.1.cause = 0x02 ∧ q < 16 → ∃ v, exec (.curtainArr a) s = .next v ∧ ((v.mach.part q).ctx i).arrived.contains c = true ∧
        (v.mach.tset (.core c t)).pc = u.pc ∧ same v ∧
        (v.mach.tset (.core c t)).wait.map (·.kind) = some (.curtain i ctx.phase))) ∧
    (u.wait = none ∧ s.mach.quiet c t = false ∧ member → exec (.curtainArr a) s = s.waits (.arriving i ctx.phase)) ∧
    (u.wait = none ∧ ¬member → exec (.curtainArr a) s = s.traps c t { cause := 0x02 }) ∧
    exec (.castq a) s = .next (s.after (s.mach.modMe (·.setX a.d castWord)))

/-- R109, R267, R268: `qmint` makes a handle whose CHECK the cluster's queue key gives; `qenq` appends at the tail of a queue of 64 and gives 0,
or 1 when it is full; `qdeq` takes the tail and `qsteal` the head, 0 from an empty queue. A handle that fails its check or lacks the right
is a capability fault, one of a cluster outside the partition a partition fault. That a queue form acts when it is issued and holds its
thread set afterwards is the model's choice (log entry 59). -/
def Obligations.QueueForms : Prop :=
  ∀ (s : State) (c t : Nat) (a : Args), Plain s.mach c t = true → c < 73728 →
    let u := s.mach.me
    let k := s.mach.myCore
    let q := k.part.toNat
    let v := u.xreg a.s
    let w := u.xreg a.t
    let n := v.toNat / 2 ^ 23 % 16 * 32 + v.toNat / 2 ^ 27 % 32
    let holds := (s.mach.part q).holds (v.toNat / 2 ^ 27 % 32 * 16) (v.toNat / 2 ^ 23 % 16 * 12)
    let cl := s.mach.cluster n
    let i := v.toNat % 64
    let queue (m : Mach) : CapQueue := Map.get (m.cluster n).queues {} i
    let old := queue s.mach
    let right (b : Nat) : Prop := v.toNat / 2 ^ 48 = cl.check v ∧ v.toNat / 2 ^ 32 % 2 ^ 16 = old.gen.toNat ∧
      v.toNat / 2 ^ 16 % 16 = q ∧ v.getLsbD b = true
    let does (i : Instr) (es : List Word) (x : Word) : Prop := ∃ v, exec i s = .next v ∧ (queue v.mach).entries = es ∧
      (queue v.mach).gen = old.gen ∧ (v.mach.tset (.core c t)).x = (u.setX a.d x).x ∧ (v.mach.core c).mem = k.mem ∧
      (v.mach.tset (.core c t)).pc = s.mach.npc
    let handle := BitVec.ofNat 64 (old.gen.toNat * 2 ^ 32 + q * 2 ^ 16 + v.toNat)
    let es := old.entries
    (holds = true ∧ right 8 ∧ w ≠ 0 ∧ es.length < 64 → does (.qenq a) (es ++ [w]) 0) ∧
    (holds = true ∧ right 8 ∧ w ≠ 0 ∧ ¬es.length < 64 → does (.qenq a) es 1) ∧
    (holds = true ∧ right 9 → does (.qdeq a) es.dropLast (es.getLastD 0)) ∧
    (holds = true ∧ right 10 → does (.qsteal a) es.tail (es.headD 0)) ∧
    (holds = true ∧ ¬right 8 ∧ w ≠ 0 → exec (.qenq a) s = s.traps c t { cause := 0x23, addr := v }) ∧
    (holds = true ∧ ¬right 9 → exec (.qdeq a) s = s.traps c t { cause := 0x23, addr := v }) ∧
    (holds = false → exec (.qdeq a) s = s.traps c t { cause := 0x07, addr := v } ∧
      exec (.qsteal a) s = s.traps c t { cause := 0x07, addr := v }) ∧
    (v.toNat < 2 ^ 32 ∧ v.toNat / 2 ^ 6 % 4 = 0 ∧ v.toNat / 2 ^ 11 % 2 ^ 12 = 0 ∧ w = 0 →
      (u.priv = .user → exec (.qmint a) s = s.traps c t { cause := 0x03, addr := v }) ∧
      (u.priv ≠ .user ∧ holds = true → does (.qmint a) es (handle + BitVec.ofNat 64 (cl.check handle * 2 ^ 48))))

/-- R22, R23, R269, R270: `chorus` makes the free thread sets of the cores of its mask followers of the lead, waits while one is busy or has a
bound port, and traps where one takes part in another chorus or the mask names the lead; `chorus.end` frees every follower. R23: a word of a
chorus is performed by the lead and by every follower, each on its own registers, and all go on at the next PC. -/
def Obligations.ChorusForms : Prop :=
  (∀ (s : State) (c t : Nat) (a : Args) (fs : List Nat), c < 73728 →
    fs = ((List.range 16).filter fun i => (s.mach.me.xreg a.s).getLsbD i).map (fun i => c / 16 * 16 + i) →
    let u := s.mach.me
    let v := u.xreg a.s
    let sets := fs.map fun q => (s.mach.core q).tset t
    let named := v.toNat < 2 ^ 16 ∧ v ≠ 0 ∧ fs.contains c = false ∧ fs.all s.mach.live = true ∧
      (c :: fs).all (fun q => (s.mach.core q).heldBut t < 3) = true
    let leads := s.mach.cur = .core c t ∧ t < 4 ∧ u.cho = true ∧ u.fol = false ∧ u.holds = none ∧
      (s.mach.followersOf c t).all (fun q => ((s.mach.core q).tset t).fol) = true
    (Plain s.mach c t = true ∧ named ∧ sets.all (fun f => !f.busy && !f.anyBound && !f.choral) = true →
      ∃ v, exec (.chorus a) s = .next v ∧ (v.mach.tset (.core c t)).cho = true ∧
        (v.mach.tset (.core c t)).followers = (u.xreg a.s).setWidth 16 ∧ (v.mach.tset (.core c t)).pc = s.mach.npc ∧
        ∀ q ∈ fs, let f := v.mach.tset (.core q t)
          f.fol = true ∧ f.lead = c ∧ f.busy = true ∧ f.priv = u.priv ∧ f.pc = s.mach.npc ∧ f.x = (s.mach.tset (.core q t)).x) ∧
    (Plain s.mach c t = true ∧ named ∧ sets.any (fun f => f.busy || f.anyBound) = true ∧ sets.all (!·.choral) = true →
      exec (.chorus a) s = s.waits (.chorus (v.setWidth 16))) ∧
    (Plain s.mach c t = true ∧ v.toNat < 2 ^ 16 ∧ fs.contains c = true →
      exec (.chorus a) s = s.traps c t { cause := 0x02, addr := v }) ∧
    (leads → ∃ v, exec (.chorusEnd a) s = .next v ∧ (v.mach.tset (.core c t)).cho = false ∧
      (v.mach.tset (.core c t)).followers = 0 ∧ (v.mach.tset (.core c t)).pc = s.mach.npc ∧
      ∀ q ∈ s.mach.followersOf c t, let f := v.mach.tset (.core q t)
        f.fol = false ∧ f.busy = false ∧ f.x = (s.mach.tset (.core q t)).x)) ∧
  (∀ (s : State) (c t : Nat) (a : Args) (fs : List Nat) (o : Nat), c < 73728 → t < 4 → s.mach.cur = .core c t →
    fs = c :: s.mach.followersOf c t → s.mach.me.cho = true → s.mach.me.holds = none → a.short = false → a.p = 7 →
    let set (s : State) (q : Nat) : ThreadSet := s.mach.tset (.core q t)
    (fs.all (fun q => !(set s q).anyBound && (set s q).regErr == []) = true →
      ∃ v, exec (.add a) s = .next v ∧ (∀ q ∈ fs, (set v q).pc = s.mach.npc ∧
          (set v q).x = ((set s q).setX a.d ((set s q).xreg a.s + (set s q).xreg a.t)).x) ∧
        (fs.contains o = false → v.mach.core o = s.mach.core o)))

/-- R125, R272, R303: the partition forms need house level. `part.cfg` of a free partition with a well-formed record zeroes it and waits until
it is configured; with W = 0 it releases a configured one; `part.zero` zeroes and then gives its report; `part.susp` stops a running one and
waits; each that waits completes when its partition has reached its state. That the bytes are cleared whole at the start of the zeroing,
whose end is reported later, is the model's choice (log entry 64). R272, R294: `part.run` resumes a suspended partition, and else launches
by its record: a launch that succeeds is the instruction's end, one that is refused, as for a partition that is not configured, is an
illegal operation, with ADDR the save area where that is refused, and the host receives its step and cause. The cause of a refusal that the
spec does not number is a free value (log entry 9). -/
def Obligations.PartitionForms : Prop :=
  (∀ (s : State) (c t : Nat) (a : Args) (off since core : Nat), Plain s.mach c t = true → 73728 ≤ c →
    let u := s.mach.me
    let k := s.mach.myCore
    let q := (u.xreg a.d).toNat
    let p := s.mach.part q
    let house := u.priv = .house ∧ q < 16
    let waits := u.wait = some { kind := .partition q, since := since }
    let named (n : Nat) : Prop := (u.xreg a.s).toNat = off ∧ off + n ≤ 65536 ∧ s.mach.admits c t off n false = true
    let w0 := k.number off 8
    let w1 := k.number (off + 8) 8
    let new := Partition.ofRecord (k.mem.bytes off 144)
    let inside := 1 ≤ new.w.toNat ∧ 1 ≤ new.h.toNat ∧ new.cx0.toNat + new.w.toNat ≤ 32 ∧ new.cy0.toNat + new.h.toNat ≤ 12
    let legal := w0 / 2 ^ 61 = 0 ∧ w0 / 2 ^ 12 % 16 = 0 ∧ w1 / 2 ^ 9 % 2 ^ 7 = 0 ∧ new.stitch.toNat ≤ 3 ∧ new.ncast.toNat ≤ 256 ∧
      16 ≤ new.strv.toNat ∧ new.strv.toNat ≤ 24 ∧ new.quota.toNat ≤ 3072 ∧ new.hbmbase.toNat + new.hbmpg.toNat ≤ 32768 ∧
      (List.range 128).all (fun i => k.mem.byte (off + 16 + i) == 0) = true
    let alone := (List.range 16).all (fun i => (s.mach.part i).st == .free) = true
    let held (v : State) : Prop := (v.mach.tset (.core c t)).pc = u.pc ∧
      (v.mach.tset (.core c t)).wait.map (·.kind) = some (.partition q)
    let goesOn (v : State) : Prop := (v.mach.tset (.core c t)).pc = s.mach.npc ∧ (v.mach.tset (.core c t)).x = u.x
    let corner := (new.cy0.toNat * 12) * 512 + new.cx0.toNat * 16
    (u.priv ≠ .house → ∀ i ∈ [Instr.partCfg a, .partCfgRelease a, .partZero a, .partRun a, .partSusp a, .slicePut a, .sliceArm a,
      .keyPut a, .keyZero a], exec i s = s.traps c t { cause := 0x03 }) ∧
    (house ∧ named 144 ∧ off % 8 = 0 ∧ inside ∧ legal ∧ alone ∧ u.wait = none → ∃ v, exec (.partCfg a) s = .next v ∧ held v ∧
      (v.mach.part q).st = .zeroing ∧ (v.mach.part q).rect = (new.cx0.toNat * 16, new.cy0.toNat * 12, new.w.toNat * 16, new.h.toNat * 12) ∧
      (v.mach.part q).quota = new.quota ∧
      (v.mach.part q).zeroDone = some (s.mach.clk + max 512 (max (64 * new.quota.toNat) (1394 * new.hbmpg.toNat))) ∧
      (s.mach.live corner = true → (v.mach.core corner).part.toNat = q ∧ (v.mach.core corner).placed = false ∧ (v.mach.core corner).mem = [])) ∧
    (house ∧ waits ∧ p.st ≠ .zeroing → exec (.partCfg a) s = s.passes) ∧
    (house ∧ waits ∧ p.st ≠ .zeroing ∧ u.xreg a.s = 0 → exec (.partZero a) s = s.passes) ∧
    (house ∧ waits ∧ p.st = .zeroing → ∃ v, exec (.partCfg a) s = .next v ∧ held v) ∧
    (house ∧ named 144 ∧ off % 8 = 0 ∧ w0 / 2 ^ 43 % 2 ^ 6 = 0 ∧ legal ∧ p.st = .configured → ∃ v,
      exec (.partCfgRelease a) s = .next v ∧ v.mach.part q = {} ∧ goesOn v) ∧
    (house ∧ u.xreg a.s = 0 ∧ u.wait = none ∧ (p.st = .running ∨ p.st = .suspended ∨ p.st = .configured) → ∃ v,
      exec (.partZero a) s = .next v ∧ held v ∧ (v.mach.part q).st = .zeroing ∧
      (s.mach.live core = true ∧ p.holds (core % 512) (core / 512) = true → (v.mach.core core).mem = [])) ∧
    (house ∧ waits ∧ p.st ≠ .zeroing ∧ (u.xreg a.s).toNat = off ∧ 0 < off ∧ off + 1024 ≤ 65536 ∧ off % 64 = 0 → ∃ v,
      exec (.partZero a) s = .next v ∧ goesOn v ∧ (v.mach.core c).number off 4 = (p.report.map (·.2)).sum % 2 ^ 32) ∧
    (house ∧ waits ∧ p.st = .suspended → exec (.partSusp a) s = s.passes) ∧
    (house ∧ u.wait = none ∧ p.st = .running → ∃ v, exec (.partSusp a) s = .next v ∧ held v ∧ (v.mach.part q).stopping = true)) ∧
  (∀ (s : State) (c t : Nat) (a : Args) (off : Nat), Plain s.mach c t = true → 73728 ≤ c →
    let u := s.mach.me
    let k := s.mach.myCore
    let q := (u.xreg a.d).toNat
    let p := s.mach.part q
    let house := u.priv = .house ∧ q < 16
    let named := (u.xreg a.s).toNat = off ∧ off + 64 ≤ 65536 ∧ off % 8 = 0 ∧ s.mach.admits c t off 64 false = true
    let record (i : Nat) : Word := if i < 8 then BitVec.ofNat 64 (k.number (off + 8 * i) 8) else 0
    let m' := s.mach.modCore c (·.correct off 64)
    let ends (e : LaunchEnd) : Host.Outcome State Fault Refusal := match e with
      | .done m => .next (s.after m)
      | .refused step cause m =>
        let r : FaultRec := { cause := 0x02, data := BitVec.ofNat 64 cause, pc := u.pc, addr := if m'.saveOk q (record 7) then 0 else record 7 }
        .next { s with mach := (m.send (.launchRefused q step cause)).trapEntry c t r u.pc }
    (house ∧ u.xreg a.s = 0 ∧ p.st = .suspended → ∃ v, exec (.partRun a) s = .next v ∧ (v.mach.part q).st = .running ∧
      (v.mach.tset (.core c t)).pc = s.mach.npc ∧ (v.mach.tset (.core c t)).x = u.x) ∧
    (house ∧ named ∧ ¬(off = 0 ∧ p.st = .suspended) → exec (.partRun a) s = ends (m'.launchBy s.perm q record)) ∧
    (house ∧ named ∧ (p.st ≠ .configured ∨ k.number off 8 / 2 ^ 56 ≠ q ∨ k.number (off + 8) 8 / 2 ^ 62 ≠ 1) →
      m'.launchBy s.perm q record = .refused 1 ((m'.freeWord.1).toNat % 256) m'.freeWord.2))

/-- R88, R126, R273, R274, R303: `slice.put` writes a slice entry; `slice.arm` arms the valid entries still to come when their instants rise and
their partitions have a save area; that the bits above the named fields of an operand register are ignored is the model's choice (log entry
61); `key.put` writes and `key.zero` clears a key slot at the stagehands named, unless its partition runs or is suspended. DATA of a refusal
is a cause code that the spec does not number (a free value, log entry 9). -/
def Obligations.SliceAndKeyForms : Prop :=
  ∀ (s : State) (c t : Nat) (a : Args) (off hand : Nat), Plain s.mach c t = true → s.mach.me.priv = .house →
    let u := s.mach.me
    let k := s.mach.myCore
    let why := Config.refusalCause c s.mach.clk
    let i := (u.xreg a.d).toNat % 16
    let v := u.xreg a.s
    let w := u.xreg a.t
    let es := ((List.range 16).filter fun i => (s.mach.slice i).v).map fun i =>
      (i, (s.mach.slice i).instant, (s.mach.slice i).part.toNat)
    let rises := (List.range (es.length - 1)).all fun j => (es.getD j (0, 0, 0)).2.1.toNat < (es.getD (j + 1) (0, 0, 0)).2.1.toNat
    let saved := es.all fun e => (s.mach.part e.2.2).launch.save != 0
    let idle := (s.mach.part i).st ≠ .running ∧ (s.mach.part i).st ≠ .suspended
    let named := hand = v.toNat % 512 ∧ v.getLsbD 9 = false
    let share := v.getLsbD 9 = true ∧ (s.mach.part i).hands.contains hand = true
    let key (v : State) (h : Nat) : Option (BitVec 512) := Map.find (v.mach.hand h).keys i
    let goesOn (v : State) : Prop := (v.mach.tset (.core c t)).pc = s.mach.npc ∧ (v.mach.tset (.core c t)).x = u.x
    let reads := (w.toNat = off ∧ off + 64 ≤ 65536 ∧ off % 64 = 0 ∧ s.mach.admits c t off 64 false = true)
    let new : SliceEntry := { v := w.getLsbD 63, instant := v, part := w.setWidth 4 }
    (w.toNat / 16 % 2 ^ 59 = 0 →
      exec (.slicePut a) s = .next (s.after { s.mach with slices := vset s.mach.slices i new })) ∧
    (w.toNat / 16 % 2 ^ 59 ≠ 0 → exec (.slicePut a) s = s.traps c t { cause := 0x02, addr := w, data := why }) ∧
    (rises = true ∧ saved = true → exec (.sliceArm a) s = .next (s.after
      { s.mach with armed := es.filter (fun e => s.mach.kptp.toNat < e.2.1.toNat), sliceSet := (es.map (·.2.2)).eraseDups })) ∧
    (rises = false ∨ saved = false → exec (.sliceArm a) s = s.traps c t { cause := 0x02, data := why }) ∧
    (idle ∧ reads ∧ (named ∨ share) → ∃ v, exec (.keyPut a) s = .next v ∧ goesOn v ∧
      key v hand = some (BitVec.ofNat 512 (k.number off 64)) ∧ (v.mach.core c).mem = k.mem) ∧
    (idle ∧ (named ∨ share) → ∃ v, exec (.keyZero a) s = .next v ∧ goesOn v ∧ key v hand = none) ∧
    (¬idle → exec (.keyZero a) s = s.traps c t { cause := 0x02, data := why } ∧ exec (.keyPut a) s = s.traps c t { cause := 0x02, data := why })

/-- R18, R20, R59, R94, R252, R307, R308, R313: a free thread set that takes a descriptor starts its codelet, with a fresh frame, X1 the
descriptor and X2 the cue; a woken context goes on where it parked; a fault wake enters the handler; the supervisor thread set takes the
oldest event; and an asynchronous trap enters the handler at a boundary. The place of the fresh frame is the model's choice (log entry 28),
and so is the answer to a misaligned descriptor (log entry 60). -/
def Obligations.EntriesAreTaken : Prop :=
  ∀ (s : State) (c t desc i off other x : Nat) (ring : Bool) (e : Word) (r : FaultRec) (rs : List FaultRec), c < 73732 → t < 4 →
    let m := s.mach
    let k := m.core c
    let u := k.tset t
    let picked (kind : Nat) : Prop := m.mayTakeEntry c t = true ∧ k.nextEntry = some (ring, e) ∧ fld e 63 62 = kind ∧
      (k.badRead (k.entryOff ring) 8).isNone = true
    let w0 := k.mem64 desc
    let usable := desc % 16 = 0 ∧ (k.badRead desc 16).isNone = true ∧ fld w0 63 32 = 0 ∧ fld w0 15 14 = 0 ∧ fld w0 31 16 ≠ 0 ∧
      w0.getLsbD 0 = false
    let named := i < 64 ∧ fld e 15 0 = k.recs.toNat + 128 * i ∧ m.resumeBad c i = none
    let h := k.recWord i 0
    let level : Priv := if 73728 ≤ c then .house else if k.uprivSup then .supervisor else .user
    let rest (v : State) : Prop := (other ≠ c → (v.mach.core other).mem = (m.core other).mem ∧ (v.mach.core other).ts = (m.core other).ts) ∧
      v.mach.parts = m.parts ∧ v.mach.net = m.net ∧ v.mach.clk = m.clk
    let handled (v : State) (pc : BitVec 14) (p : Priv) : Prop :=
      let n := (v.mach.core c).tset t
      n.pc = u.kvec ∧ n.kepcPc = pc ∧ n.kepcPriv.toNat = p.code ∧ n.handler = true ∧ n.priv = (if p = .user then .supervisor else p)
    let framed (v : State) : Prop := x < off ∨ off + 24 ≤ x → (v.mach.core c).mem.byte x = k.mem.byte x
    (picked 0 ∧ fld e 15 0 = desc ∧ usable ∧ k.deferred = [] ∧ k.poolFind (frameBlocks (fld w0 31 16)) = some off ∧ m.heldRange c off 24 = false → ∃ v,
      exec (.codeletStart c t) s = .next v ∧ rest v ∧ framed v ∧ v.mach.nextCid = m.nextCid + 1 ∧
      let n := (v.mach.core c).tset t
      n.busy = true ∧ n.pc = w0.extractLsb' 0 14 ∧ n.priv = level ∧ n.desc.toNat = desc ∧ n.handler = false ∧ n.eos = false ∧
      n.x = vset (vset u.x 1 (BitVec.ofNat 64 desc)) 2 (BitVec.ofNat 64 (fld e 31 16)) ∧ n.v = u.v ∧ n.p = u.p ∧ n.tc = u.tc ∧
      n.kfflags = u.kfflags ∧ n.kvec = u.kvec ∧ n.kfault = u.kfault ∧ n.krgn = u.krgn ∧ n.sup = u.sup ∧
      vget n.d 0 0 = vget k.bases 0 0 ∧ vget n.d 0 1 = vget k.bases 0 1 ∧ vget n.d 0 2 = vget k.bases 0 2 ∧ vget n.d 0 3 = BitVec.ofNat 64 off ∧
      vget n.d 0 4 = 0 ∧ vget n.d 0 5 = 0 ∧ vget n.d 0 6 = 0 ∧ vget n.d 0 7 = 0 ∧
      (v.mach.core c).takenA = (if ring then k.takenA else k.takenA + 1) ∧ (v.mach.core c).takenB = (if ring then k.takenB + 1 else k.takenB) ∧
      (off % 8 = 0 → (v.mach.core c).mem64 off = (if vget k.bases 0 2 = 0 then vget k.bases 0 1 else vget k.bases 0 2))) ∧
    (picked 0 ∧ fld e 15 0 = desc ∧ desc % 16 ≠ 0 ∧ u.leaving = false ∧ m.windowFree c = true ∧ k.deferred = [] ∧ k.events = [] ∧ k.mem64 (desc / 8 * 8 + 8) = 0 →
      ∃ v, exec (.codeletStart c t) s = .next v ∧ rest v ∧ (v.mach.core c).tset t = u.release ∧
        (v.mach.core c).events.map (fun r => (r.cause.toNat, r.inner.toNat, r.addr.toNat, r.data.toNat)) = [(0x4B, 0x05, desc, desc)]) ∧
    (picked 1 ∧ named ∧ k.deferred = [] → ∃ v, exec (.contextResume c t) s = .next v ∧ rest v ∧ (v.mach.core c).mem = k.mem ∧
      let n := (v.mach.core c).tset t
      n.busy = true ∧ n.pc = h.extractLsb' 0 14 ∧ n.tc = h.getLsbD 14 ∧ n.kfflags = h.extractLsb' 15 6 ∧
      n.priv = Priv.ofCode (h.toNat / 2 ^ 21 % 4) ∧ n.holds = some i ∧ ((v.mach.core c).record i).st = .taken ∧
      vget n.x 0 1 = k.recWord i 2 ∧ vget n.x 0 2 = k.recWord i 3 ∧ vget n.x 0 3 = k.recWord i 4 ∧ vget n.x 0 4 = k.recWord i 5 ∧
      vget n.x 0 5 = k.recWord i 6 ∧ n.kvec = u.kvec ∧ n.sup = u.sup) ∧
    (picked 2 ∧ named ∧ k.deferred = [] ∧ u.kvec ≠ 0 → ∃ v, exec (.faultResume c t) s = .next v ∧ rest v ∧ (v.mach.core c).mem = k.mem ∧
      handled v (h.extractLsb' 0 14) (Priv.ofCode (h.toNat / 2 ^ 21 % 4)) ∧
      let n := (v.mach.core c).tset t
      (vget n.kfault 0 0).toNat / 2 ^ 48 = (k.recWord i 8).toNat / 2 ^ 48 ∧ vget n.kfault 0 1 = k.recWord i 9 ∧
      vget n.kfault 0 4 = k.recWord i 12 ∧ vget n.kfault 0 7 = k.recWord i 15 ∧ ((v.mach.core c).record i).st = .free) ∧
    (k.events = r :: rs ∧ m.mayTake c k.supTs = true ∧ (k.tset k.supTs).kvec ≠ 0 ∧ k.poolFind 2 = some off ∧ m.heldRange c off 24 = false → ∃ v,
      exec (.eventTake c) s = .next v ∧ rest v ∧ framed v ∧ (v.mach.core c).events = rs ∧
      let o := k.tset k.supTs
      let n := (v.mach.core c).tset k.supTs
      n.busy = true ∧ n.pc = o.kvec ∧ n.kfault = r.words ∧ n.event = true ∧ n.handler = false ∧
      n.priv = (if 73728 ≤ c then .house else .supervisor) ∧ vget n.d 0 3 = BitVec.ofNat 64 off ∧ n.v = o.v ∧ n.p = o.p) ∧
    (k.events = r :: rs ∧ m.mayTake c k.supTs = true ∧ (k.tset k.supTs).kvec = 0 → exec (.eventTake c) s =
      .next { s with mach := m.setCore c { k with events := rs } }) ∧
    (u.dying = none ∧ u.pend = r :: rs ∧ m.coreRuns c = true ∧ k.halted = false ∧ u.busy = true ∧ u.fol = false ∧
      k.schur.any (fun o => o.ts == t && o.ended) = false ∧
      u.kvec ≠ 0 → ∃ v, exec (.asyncTrapDelivery c t) s = .next v ∧ rest v ∧ (v.mach.core c).mem = k.mem ∧ handled v u.pc u.priv ∧
      let n := (v.mach.core c).tset t
      n.pend = rs ∧ n.wait = none ∧ n.x = u.x ∧ n.v = u.v ∧ n.p = u.p ∧ n.d = u.d ∧
      n.kfault = ({ r with ts := BitVec.ofNat 2 t, priv := BitVec.ofNat 2 u.priv.code } : FaultRec).words)

/-- R101, R104, R105, R107, R132, R134, R135, R190: a delivery at its target is applied, in the order of its arrival where two conflict, and its
acceptance goes back: a posted store writes its bytes, or is a queue-area fault; an `stv` is applied at the version before its own and held
otherwise; a decrement counts a cue down; a message takes a slot of its ring; an increment adds modulo 2^32. An acceptance ends the delivery
at its sender, a refusal is followed by a wait that doubles up to 4,096 cycles and by a retransmission; and a pushed element enters its link
buffer. That a delivery with a fault is not applied, is answered with the fault, and has its ADDR in space 0x1 is the model's choice (log
entry 46). -/
def Obligations.DeliveriesAreReceived : Prop :=
  ∀ (s : State) (id off x other : Nat) (val head word1 : Word) (n : Byte) (dir sdir : Nat) (el : V128) (body : List Byte) (inc : BitVec 32)
    (due : Nat) (d : Delivery) (join : Option Word) (r : FaultRec), s.mach.delivery id = some d →
    let m := s.mach
    let q := d.dst
    let k := m.core q
    let place := 2 ^ 60 + (posOf q).1 * 2 ^ 32 + (posOf q).2 * 2 ^ 24
    let here := d.standing m.clk = true ∧ (m.part d.part).st ≠ .zeroing ∧ q < 73732 ∧ (q < 73728 → m.live q = true) ∧
      ((k.hold.takeWhile (· != id)).any fun i => (m.delivery i).any (·.conflicts d)) = false
    let clear (a n : Nat) : Prop := m.heldRange q a n = false ∧ (k.badRead a n).isNone = true
    let back := if d.rel && d.src == q then 0 else 4 + d.hops
    let answer (v : State) (f : Option FaultRec) : Prop :=
      v.mach.delivery id = some { d with phase := .accepting (m.clk + back) f } ∧
      (v.mach.core q).hold = k.hold.filter (· != id) ∧ v.mach.parts = m.parts ∧ (other ≠ q → v.mach.core other = m.core other)
    let byte (v : State) : Byte := (v.mach.core q).mem.byte x
    let wrote (v : State) (a : Nat) (bs : List Byte) : Prop :=
      (v.mach.core q).ts = k.ts ∧ byte v = (if a ≤ x ∧ x < a + bs.length then bs.getD (x - a) 0 else k.mem.byte x) ∧
      (v.mach.core q).verAt x = k.verAt x + (if a / 8 ≤ x / 8 ∧ x / 8 < (a + bs.length + 7) / 8 then 1 else 0)
    let bs := leBytes val.toNat 8
    let clean := off % 8 = 0 ∧ off < 65536 ∧ clear off 8
    let cells := cellsAt off bs
    let w := k.number off 8
    let ring := head.toNat / 2 ^ 44 % 4
    let slot := k.slotOff ring (k.ringTail ring)
    let bytes := leBytes head.toNat 8 ++ leBytes word1.toNat 8 ++ body
    (here ∧ d.body = .store cells ∧ clean ∧ (k.protectedCells cells).isNone = true → ∃ v,
      exec (.postedStoreArrival id) s = .next v ∧ answer v none ∧ wrote v off bs) ∧
    (here ∧ d.body = .store cells ∧ k.inQueueArea off = true → ∃ v, exec (.postedStoreArrival id) s = .next v ∧
      answer v (some { cause := 0x08, addr := BitVec.ofNat 64 (if q = d.src then off else place + off) }) ∧ (v.mach.core q).mem = k.mem) ∧
    (here ∧ d.body = .stv off val n ∧ clean ∧ (k.protectedCells [(off, 0)]).isNone = true ∧ k.verAt off + 1 = n ∧
      (k.sideAt off).rcl = true → ∃ v, exec (.stvArrival id) s = .next v ∧ answer v none ∧ wrote v off bs ∧
        (v.mach.core q).verAt off = n) ∧
    (here ∧ d.body = .stv off val n ∧ clean ∧ (k.protectedCells [(off, 0)]).isNone = true ∧ k.verAt off + 1 ≠ n ∧ d.phase ≠ .held ∧
      k.hold.length < 8 → ∃ v, exec (.stvArrival id) s = .next v ∧ v.mach.delivery id = some { d with phase := .held } ∧
        (v.mach.core q).hold = k.hold ++ [id] ∧ (v.mach.core q).mem = k.mem) ∧
    (here ∧ d.body = .cue off false join ∧ clean ∧ (k.protectedCells [(off, 0)]).isNone = true ∧ m.cueHeld q off = false ∧ w / 2 ^ 39 % 2 = 1 ∧ w / 2 ^ 32 % 32 = 0 ∧ 2 ≤ w % 2 ^ 32 → ∃ v,
      exec (.cueDecArrival id) s = .next v ∧ answer v none ∧ wrote v off (leBytes (w - 1) 8)) ∧
    (here ∧ d.body = .cue off false join ∧ clean ∧ (k.protectedCells [(off, 0)]).isNone = true ∧ m.cueHeld q off = false ∧ w / 2 ^ 39 % 2 = 1 ∧ w / 2 ^ 32 % 32 = 0 ∧ w % 2 ^ 32 = 1 ∧ k.pushedA = k.takenA ∧
      w / 2 ^ 38 % 2 = 0 → ∃ v, exec (.cueDecArrival id) s = .next v ∧ answer v none ∧ (v.mach.core q).pushedA = k.pushedA + 1) ∧
    (here ∧ d.body = .msg head word1 body ∧ k.ringFull ring = false ∧ clear slot (16 + body.length) ∧ clear (k.inOff ring) 8 ∧
      head.toNat / 2 ^ 43 % 2 = 0 ∧ head.toNat / 2 ^ 39 % 2 = 0 → ∃ v, exec (.messageAppend id) s = .next v ∧ answer v none ∧
        (v.mach.core q).ringTail ring = (k.ringTail ring + 1) % k.ringSlots ring ∧
        (slot % 8 = 0 ∧ k.inOff ring + 8 ≤ slot ∧ slot ≤ x ∧ x < slot + 16 + body.length → byte v = bytes.getD (x - slot) 0)) ∧
    (here ∧ d.body = .inc off inc → ∃ v, exec (.mailboxIncrement id) s = .next v ∧ answer v none ∧
      (off < 64 → vget (v.mach.core q).mb 0 off = vget k.mb 0 off + inc) ∧ (v.mach.core q).mem = k.mem ∧ (v.mach.core q).ts = k.ts) ∧
    (d.phase = .accepting due none ∧ due ≤ m.clk → ∃ v, exec (.deliveryAccepted id) s = .next v ∧ v.mach.delivery id = none ∧
      (v.mach.core other).ts = (m.core other).ts ∧ (v.mach.core other).mem = (m.core other).mem ∧ v.mach.clk = m.clk) ∧
    (d.phase = .accepting due (some r) ∧ due ≤ m.clk ∧ d.body = .store cells ∧ d.src < 73728 ∧ d.ts < 4 ∧
      ((m.core d.src).tset d.ts).busy = true ∧ ((m.core d.src).tset d.ts).cid = d.cid ∧ ((m.core d.src).tset d.ts).fol = false ∧
      (List.range d.ts).all (fun t => ((m.core d.src).tset t).cid != d.cid) = true → ∃ v,
      exec (.deliveryAccepted id) s = .next v ∧ v.mach.delivery id = none ∧ ((v.mach.core d.src).tset d.ts).pend =
        ((m.core d.src).tset d.ts).pend ++ [{ r with pc := d.pc, priv := BitVec.ofNat 2 d.priv.code, async := true, time := BitVec.ofNat 64 m.clk }]) ∧
    (d.phase = .refusing due ∧ due ≤ m.clk → ∃ v, exec (.deliveryRefused id) s = .next v ∧
      v.mach.delivery id = some { d with phase := .backoff (m.clk + min 4096 (64 * 2 ^ d.refusals)), refusals := d.refusals + 1 } ∧
      (d.src < 100000 → (v.mach.core d.src).count.refusals = satInc (m.core d.src).count.refusals)) ∧
    (d.phase = .backoff due ∧ due ≤ m.clk ∧ d.cast = none ∧ m.injectOpen d = true → ∃ v, exec (.retransmit id) s = .next v ∧
      v.mach.delivery id = some { d with phase := .flying (m.clk + d.flight) } ∧ v.mach.cores = m.cores) ∧
    (d.phase = .flying due ∧ due ≤ m.clk ∧ d.body = .element dir sdir el ∧ dir < 4 → ∃ v, exec (.linkElementArrival id) s = .next v ∧
      v.mach.delivery id = none ∧ vget (v.mach.core q).link [] dir = vget k.link [] dir ++ [el] ∧ (v.mach.core q).mem = k.mem ∧
      (v.mach.core q).ts = k.ts)

/-- R19, R22, R26, R96 to R98, R108, R133, R135, R259, R263, R269: a wake puts the entry of a parked context on ring A, and a fault wake its
record and a fault entry; a versioned wait of 64 cycles parks; the time-out of a `park` is a wake, that of `mbwait`, and that of a lead that
waits for its followers, a trap; and a curtain's phase ends with its bit flipped, or in a time-out that its arrived members find. That the
lowest free record is taken is the model's choice (log entry 17), and so are the fault wake of a failed overlay fetch (log entry 54) and the
time-out record (log entry 59). -/
def Obligations.WaitsEnd : Prop :=
  ∀ (s : State) (c t i id since limit off due other : Nat) (n : Byte) (target : BitVec 32) (mask : BitVec 16) (r : FaultRec), c < 73732 →
    t < 4 → i < 64 →
    let m := s.mach
    let k := m.core c
    let u := k.tset t
    let rc := k.record i
    let w0 := k.recWord i 0
    let arg := k.recWord i 7
    let parked := rc.st = .parked ∧ rc.pend = [] ∧ m.slotHeld c false = false ∧ m.wakeHeld c i = false
    let frame (v : State) : Prop := v.mach.clk = m.clk ∧ (other ≠ c → v.mach.core other = m.core other)
    let woken (v : State) (kind : Nat) : Prop := frame v ∧ (v.mach.core c).ts = k.ts ∧ ((v.mach.core c).record i).st = .woken ∧
      (v.mach.core c).pushedA = k.pushedA + 1 ∧ (v.mach.core c).pushedB = k.pushedB ∧
      (k.ringA.toNat % 8 = 0 → (v.mach.core c).ringEntryAt false k.pushedA = BitVec.ofNat 64 (kind * 2 ^ 62 + k.recOff i))
    let packet (f : Option FaultRec) : Prop := (m.delivery id).any (fun d => d.body == .wake { core := c, idx := i, stall := false } f &&
      d.phase == .flying due && d.dst == c) = true ∧ due ≤ m.clk ∧ m.answerComing { core := c, idx := i, stall := false } = false
    let trapped (v : State) (r : FaultRec) : Prop := frame v ∧ v.mach.net = m.net ∧
      let n := (v.mach.core c).tset t
      n.pc = u.kvec ∧ n.kepcPc = u.pc ∧ n.kepcPriv.toNat = u.priv.code ∧ n.handler = true ∧ n.wait = none ∧ n.x = u.x ∧
      n.kfault = ({ r with pc := u.pc, ts := BitVec.ofNat 2 t, priv := BitVec.ofNat 2 u.priv.code, time := BitVec.ofNat 64 m.clk } : FaultRec).words
    let waits (w : WaitKind) : Prop := m.coreRuns c = true ∧ u.wait = some { kind := w, since := since }
    let p := m.part i
    let x := p.ctx t
    (parked ∧ w0.toNat / 2 ^ 60 = 1 ∧ verReached (k.verAt (arg.toNat % 65536)) (arg.extractLsb' 16 8) = true → ∃ v,
      exec (.contextWake (.record c i)) s = .next v ∧ woken v 1) ∧
    (parked ∧ w0.toNat / 2 ^ 60 = 3 ∧ (k.slot (arg.toNat % 16)).st = .valid → ∃ v,
      exec (.contextWake (.record c i)) s = .next v ∧ woken v 1) ∧
    (parked ∧ packet none → ∃ v, exec (.contextWake (.packet id)) s = .next v ∧ woken v 1 ∧ v.mach.delivery id = none) ∧
    (parked ∧ w0.toNat / 2 ^ 60 = 3 ∧ (k.slot (arg.toNat % 16)).st = .empty → ∃ v,
      exec (.faultWake (.record c i)) s = .next v ∧ woken v 2) ∧
    (parked ∧ packet (some r) ∧ r.async = false → ∃ v, exec (.faultWake (.packet id)) s = .next v ∧ woken v 2 ∧ v.mach.delivery id = none ∧
      (k.recs.toNat % 128 = 0 ∧ k.recs.toNat + 8192 ≤ k.ringA.toNat ∧ k.ringA.toNat + 2048 ≤ 65536 →
        (v.mach.core c).recWord i 9 = r.addr ∧ ((v.mach.core c).recWord i 0).getLsbD 23 = true)) ∧
    (waits (.version off n) ∧ since + 64 ≤ m.clk ∧ u.held = false ∧ verReached (k.verAt off) n = false ∧ off < 65536 ∧ k.freeRec = some i ∧
      m.recHeld c i = false ∧ u.regErr = [] ∧ k.recs.toNat % 8 = 0 → ∃ v, exec (.versionWaitPark c t) s = .next v ∧ frame v ∧
        ((v.mach.core c).record i).st = .parked ∧ ((v.mach.core c).tset t).busy = false ∧
        ((v.mach.core c).recWord i 0).toNat / 2 ^ 60 = 1 ∧ (v.mach.core c).recWord i 7 = BitVec.ofNat 64 (n.toNat * 2 ^ 16 + off) ∧
        ((v.mach.core c).recWord i 0).extractLsb' 0 14 = u.pc ∧ (v.mach.core c).recWord i 2 = vget u.x 0 1) ∧
    (waits (.version off n) ∧ since + 64 ≤ m.clk ∧ u.held = false ∧ verReached (k.verAt off) n = false ∧ k.freeRec = none ∧ u.kvec ≠ 0 →
      ∃ v, exec (.versionWaitPark c t) s = .next v ∧ trapped v { cause := 0x17 }) ∧
    (m.coreRuns c = true ∧ parked ∧ rc.deadline = some due ∧ due ≤ m.clk → ∃ v, exec (.parkTimeout c i) s = .next v ∧ woken v 1) ∧
    (waits (.counter i target limit) ∧ since + limit ≤ m.clk ∧ 2 ^ 31 ≤ (vget k.mb 0 i - target).toNat ∧ u.cho = false ∧ u.followers = 0 ∧
      u.kvec ≠ 0 → ∃ v, exec (.mailboxTimeout c t) s = .next v ∧
        trapped v { cause := 0x21, index := BitVec.ofNat 16 i, val := target, data := (vget k.mb 0 i).setWidth 64 }) ∧
    (waits (.chorus mask) ∧ since + 65536 < m.clk ∧
      (chorusCores c (mask.setWidth 64)).any (fun q => ((m.core q).tset t).busy || ((m.core q).tset t).anyBound) = true ∧ u.kvec ≠ 0 → ∃ v, exec (.chorusWaitTimeout c t) s = .next v ∧ frame v ∧
      let n := (v.mach.core c).tset t
      n.pc = u.kvec ∧ n.kepcPc = u.pc ∧ n.handler = true ∧ (vget n.kfault 0 0).toNat / 2 ^ 56 = 0x22) ∧
    (i < 16 ∧ t < 2 ∧ x.release = some due ∧ due ≤ m.clk ∧ m.curtainFence i t none = false → ∃ v, exec (.curtainRelease i t) s = .next v ∧
      v.mach.cores = m.cores ∧
      (v.mach.part i).pha = (if t = 0 then !p.pha else p.pha) ∧ (v.mach.part i).phb = (if t = 0 then p.phb else !p.phb) ∧
      (v.mach.part i).ctx t = { x with arrived := [], first := none, release := none, phase := x.phase + 1 } ∧
      (v.mach.part i).ctx (1 - t) = p.ctx (1 - t)) ∧
    (i < 16 ∧ t < 2 ∧ p.st = .running ∧ x.release = none ∧ m.curtainMissing x ≠ [] ∧ x.first = some since ∧ since + 2 ^ x.toe.toNat ≤ m.clk → ∃ v,
      exec (.curtainTimeout i t) s = .next v ∧ v.mach.cores = m.cores ∧
      ((v.mach.part i).ctx t).arrived = [] ∧ ((v.mach.part i).ctx t).phase = x.phase + 1 ∧ (v.mach.part i).pha = p.pha ∧
      ((v.mach.part i).ctx t).timedOut.map (fun e => (e.1, e.2.1.cause.toNat, e.2.1.index.toNat, e.2.2)) =
        x.timedOut.map (fun e => (e.1, e.2.1.cause.toNat, e.2.1.index.toNat, e.2.2)) ++ [(x.phase, 0x20, t, x.arrived)])

/-- R89, R98, R108, R114 to R119, R125, R196, R209, R300, R347, R362: at a stagehand the picked block's fetch begins with a quantum of its
channel; a fetched block stands on stage under the partition's key, drains, and wakes its waiter; a failed fetch wakes it into the fault; a
drained block is kept while it is pinned; a write-back leaves its bytes in HBM; pins fall after their time. A far access of a block on stage
is answered with its bytes, and one of an absent block parks its context, recorded at the callboard. A page-table word is written, and what
was translated through it is forgotten. -/
def Obligations.StagehandsServe : Prop :=
  ∀ (s : State) (sh q id i c t off : Nat) (b : Blk) (w : Wing) (y : Xlat) (f : Byte) (d : Delivery) (r : FarReq) (v : Move)
    (addr data : Word) (run : StageRun) (cards : List StageRun) (ans : FarAns), q < 16 → sh < 512 →
    let m := s.mach
    let h := m.hand sh
    let p := m.part q
    let due := b.due.any (· ≤ m.clk) = true
    let board := h.onBoard q b.blk = some (i, b)
    let dir := h.inDir q b.blk = some b
    let quanta := (b.size + 4095) / 4096
    let ends := if quanta = 1 then some (m.clk + 87) else none
    let begun : Blk := { b with st := .fetching, waits := false, hbm := y.hbm + b.off % 65536, fault := none, quanta := quanta - 1, due := ends }
    let pin : Pin := { who := some w.who, expires := m.clk + 65536 }
    let drains : Blk :=
      { b with
        st := .draining, wings := [], first := 0, key := Map.get h.keys 0 q, due := some m.clk, pins := [pin]
        data := Memory.pokes [] 0 (h.hbmRead sh q b.hbm b.size) }
    let sent (v : State) (g : Option FaultRec) : Prop := v.mach.net.drop m.net.length =
      [{ id := m.nextId, src := 100000 + sh, ts := 0, cid := 0, pc := 0, dst := w.who.core, part := w.part, body := .wake w.who g,
         phase := .flying (m.clk + (4 + hops (100000 + sh) w.who.core)), win := none, sendAt := m.clk }]
    let frame (v : State) : Prop := v.mach.cores = m.cores ∧ (v.mach.part q).st = p.st ∧ (v.mach.hand (sh + 1)).board = (m.hand (sh + 1)).board
    let alone := h.overflow = [] ∧ h.requests = [] ∧ m.injPaused = false ∧ b.wings = [w] ∧ h.wakeAt ≤ m.clk
    let pairs := b.pins.filter (m.clk < ·.expires)
    let coming := m.delivery id = some d ∧ d.phase = .flying off ∧ off ≤ m.clk ∧ d.dst = 100000 + sh ∧ (m.part d.part).st ≠ .zeroing ∧ h.queued < 256
    let blk := (m.part r.part).blockOf r.win (r.addr.toNat % 2 ^ 60)
    let answered (v : State) (a : FarAns) : Prop :=
      v.mach.delivery id = some { d with phase := .answering (m.clk + 16 + hops d.src d.dst) a } ∧ v.mach.cores = m.cores
    let u := (m.core d.src).tset r.ts
    (h.chanFree ≤ m.clk ∧ m.nextPart sh = some q ∧ Map.get h.place 0 q = 0 ∧ m.underWay sh q .fetch = none ∧ m.waitingPick sh q = none ∧ board ∧
      m.pick sh q = some b ∧ m.hasQuota sh q (b.size / 4096) = true ∧
      (h.cache.find? fun x => x.part == q && x.win == b.win && x.page == b.off / 65536) = some y ∧
      h.hbmBad (y.hbm + b.off % 65536) b.size = false → ∃ z, exec (.quantumChoice sh) s = .next z ∧ frame z ∧
        (z.mach.hand sh).onBoard q b.blk = some (i, begun) ∧
        (z.mach.hand sh).chanFree = m.clk + 87 ∧ Map.get (z.mach.hand sh).used 0 q = Map.get h.used 0 q + 87) ∧
    (board ∧ b.st = .fetching ∧ b.fault = none ∧ due ∧ alone ∧ w.write = false ∧ h.inDir q b.blk = none → ∃ z,
      exec (.fetchComplete sh q b.blk) s = .next z ∧ frame z ∧ sent z none ∧ (z.mach.hand sh).onBoard q b.blk = none ∧
      (z.mach.hand sh).inDir q b.blk = some drains) ∧
    (board ∧ b.fault = some f ∧ due ∧ alone → ∃ z, exec (.fetchFault sh q b.blk) s = .next z ∧ frame z ∧
      sent z (some { cause := f, addr := farAddr w.addr }) ∧ (z.mach.hand sh).onBoard q b.blk = none) ∧
    (dir ∧ b.st = .draining ∧ due ∧ p.st = .running ∧ b.pins ≠ [] ∧ h.dir = [b] → ∃ z, exec (.drainEnd sh q b.blk) s = .next z ∧ frame z ∧
      z.mach.net = m.net ∧ (z.mach.hand sh).dir = [{ b with st := .onStage, last := m.clk, due := none }]) ∧
    (dir ∧ b.part = q ∧ b.st = .evicting ∧ due ∧ b.wings = [] → ∃ z, exec (.writebackDone sh q b.blk) s = .next z ∧ frame z ∧
      (z.mach.hand sh).inDir q b.blk = none ∧ z.mach.net = m.net ∧
      (z.mach.hand sh).hbm = (h.hbmWrite sh q b.hbm (b.read sh (Map.get h.keys 0 q) 0 b.size)).hbm) ∧
    (dir ∧ h.dir = [b] ∧ p.st = .running ∧ b.pins.any (·.expires ≤ m.clk) = true ∧ pairs ≠ [] → ∃ z,
      exec (.pinTimeout sh q b.blk) s = .next z ∧ frame z ∧ z.mach.net = m.net ∧ (z.mach.hand sh).dir = [{ b with pins := pairs }]) ∧
    (coming ∧ d.body = .far r ∧ r.data = none ∧ r.part = q ∧ h.served_ q blk = some b ∧
      b.badRead (r.addr.toNat % 2 ^ 60 - 4096 * blk) r.size = false ∧ r.tag = none ∧ h.dir = [b] ∧ b.pins ≠ [] → ∃ z,
      exec (.farRequest id) s = .next z ∧
      answered z (.served (b.read sh (Map.get h.keys 0 q) (r.addr.toNat % 2 ^ 60 - 4096 * blk) r.size)) ∧
      (z.mach.hand sh).dir = h.dir) ∧
    (coming ∧ d.body = .far r ∧ r.part = q ∧ h.served_ q blk = none ∧ r.tgt = none → ∃ z, exec (.farRequest id) s = .next z ∧
      answered z .notRecorded ∧ z.mach.hands = m.hands) ∧
    (coming ∧ d.body = .far r ∧ r.part = q ∧ r.tgt = some w.who ∧ h.dir = [] ∧ h.board = [] → ∃ z, exec (.farRequest id) s = .next z ∧
      answered z .absent ∧ (z.mach.hand sh).board.map (fun e => (e.1, e.2.part, e.2.st, e.2.first, e.2.wings.map (fun x => (x.addr, x.who)))) =
        [(0, q, .absent, r.kclk, [(r.addr, w.who)])]) ∧
    (coming ∧ d.body = .move v ∧ v.part = q ∧ h.dir = [] → ∃ z, exec (.farRequest id) s = .next z ∧
      (z.mach.hand sh).requests = h.requests ++ [v] ∧ z.mach.cores = m.cores ∧
      z.mach.delivery id = some { d with phase := .accepting (m.clk + 4 + hops d.src d.dst) none }) ∧
    (m.delivery id = some d ∧ d.body = .far r ∧ d.phase = .answering off ans ∧ off ≤ m.clk ∧ u.far = .asked id ∧ r.ts < 4 ∧ ans ≠ .absent →
      ∃ z, exec (.farAnswer id) s = .next z ∧ z.mach.delivery id = none ∧ ((z.mach.core d.src).tset r.ts).far = .answered ans ∧
        ((z.mach.core d.src).tset r.ts).pc = u.pc ∧ ((z.mach.core d.src).tset r.ts).x = u.x) ∧
    (m.delivery id = some d ∧ d.body = .far r ∧ d.phase = .answering off .absent ∧ off ≤ m.clk ∧ u.far = .asked id ∧ r.ts < 4 ∧ i < 64 ∧
      u.regErr = [] ∧ m.recHeld d.src i = false ∧
      r.tgt = some { core := d.src, idx := i, stall := false } → ∃ z, exec (.farAnswer id) s = .next z ∧ z.mach.delivery id = none ∧
        ((z.mach.core d.src).tset r.ts).busy = false ∧ ((z.mach.core d.src).record i).st = .parked ∧
        ((m.core d.src).recs.toNat % 8 = 0 → (z.mach.core d.src).recWord i 7 = r.addr ∧
          ((z.mach.core d.src).recWord i 0).toNat / 2 ^ 60 = 0 ∧ ((z.mach.core d.src).recWord i 0).extractLsb' 0 14 = u.pc)) ∧
    (Alone m c t = true ∧ c < 73728 ∧ (m.core c).part.toNat = q ∧ p.hands.contains sh = true ∧ off % 8 = 0 ∧ off < p.tableArea ∧
      off < 2 ^ 24 ∧ addr.toNat = 15 * 2 ^ 60 + 2 * 2 ^ 56 + sh * 2 ^ 40 + 2 ^ 36 + off → ∃ z,
      exec (.sysPageTableWrite addr data) s = .next z ∧ (z.mach.core c).mem = (m.core c).mem ∧ (z.mach.tset (.core c t)).pc = m.npc ∧
      z.mach.tableWord sh q off = data ∧ z.mach.tableWord sh (q + 1) off = m.tableWord sh (q + 1) off ∧
      (z.mach.hand sh).cache = h.cache.filter fun x => !(x.part == q && (p.walkPath (m.tableWord sh q) sh x.win (x.page * 65536)).contains off)) ∧
    ((m.unit sh q).cards = run :: cards ∧ (m.unit sh q).ts.busy = true ∧ p.st = .running ∧ run.started + 2 ^ 24 ≤ m.clk → ∃ z,
      exec (.stageTimeout sh q) s = .next z ∧ (z.mach.unit sh q).cards = cards ∧ (z.mach.unit sh q).ts.busy = false ∧
      (z.mach.core run.core).jobs = (m.core run.core).jobs.map fun j => if j.uid = run.job then
        { j with phase := .faulted 0x28 0 (BitVec.ofNat 32 (m.unit sh q).ts.pc.toNat) 0 0 } else j)

/-- R79, R106, R107, R136, R137, R186, R204, R206, R207, R213, R266, R297: the stream hardware reads the next element of an affine input into
its FIFO, and writes the oldest element of an affine output, or hands it to the neighbour; bytes that a stagehand pushes for a copy are
stored and raise the watermark, and a fault stops it and is told to the issuer; a queued job starts while fewer than four run, and at its
end writes, raises its counter and leaves the queue, or its fault goes to its issuer; a collective combines the members' contributions; an
overlay fetch fills its slot, or leaves it empty with its cause. The time of a collective's result is the model's choice (log entry 53). -/
def Obligations.EnginesWork : Prop :=
  ∀ (s : State) (c t i id ea due q x n : Nat) (j : Job) (d : Delivery) (bs : List Byte) (v : Move) (f : Byte) (r : CastRound) (e : V128),
    c < 73728 → t < 4 → i < 8 →
    let m := s.mach
    let k := m.core c
    let u := k.tset t
    let p := u.slot i
    let idx (a : Nat) : Int := (a : Int)
    let addr : Int := p.base + idx (p.moved % p.n0) * p.stride 0 + idx (p.moved / p.n0 % p.n1) * p.stride 1 +
      idx (p.moved / (p.n0 * p.n1)) * p.stride 2
    let calm (p : Partition) : Partition := { p with active := 0 }
    let frame (v : State) : Prop := v.mach.parts.map calm = m.parts.map calm ∧ v.mach.clk = m.clk ∧ (q ≠ c → v.mach.core q = m.core q)
    let byte (v : State) (a : Nat) (bs : List Byte) : Prop :=
      (v.mach.core c).mem.byte x = if a ≤ x ∧ x < a + bs.length then bs.getD (x - a) 0 else k.mem.byte x
    let fifo (v : State) (l : List V128) (moved : Nat) : Prop := let o := ((v.mach.core c).tset t).slot i
      o.fifo = l ∧ o.moved = moved ∧ o.pos = p.pos ∧ ((v.mach.core c).tset t).x = u.x ∧ ((v.mach.core c).tset t).v = u.v
    let arrives (b : Payload) : Prop := m.delivery id = some d ∧ d.body = b ∧ d.phase = .flying due ∧ due ≤ m.clk ∧ d.dst = c
    let ch := k.channel i
    let job := k.jobs = [j]
    let w0 := j.word 0
    let w5 := j.word 5
    let gone (v : State) : Prop := (v.mach.core c).jobs = []
    let told (v : State) : List Nat := (((v.mach.core c).tset t).pend.drop u.pend.length).map (·.cause.toNat)
    let issuer := u.busy = true ∧ u.fol = false ∧ (List.range t).all (fun y => (k.tset y).cid != u.cid) = true
    let pp := m.part k.part.toNat
    let cast := pp.cast n
    let mine := pp.rounds = [r] ∧ r.cast = n
    (p.bnd = true ∧ p.dir = false ∧ p.kind = 0 ∧ p.flt = false ∧ p.fault = none ∧ (k.badRead ea 8).isNone = true ∧ p.fifo.length < 8 ∧ p.moved < p.n0 * p.n1 * p.n2 ∧ addr = ea ∧
      p.esize = 8 ∧ ea % 8 = 0 ∧ ea + 8 ≤ 65536 ∧ m.admits c t ea 8 false = true → ∃ v, exec (.streamFill c t i) s = .next v ∧ frame v ∧
        fifo v (p.fifo ++ [BitVec.ofNat 128 (k.number ea 8)]) (p.moved + 1) ∧ (v.mach.core c).mem = k.mem) ∧
    (p.bnd = true ∧ p.dir = true ∧ p.kind = 1 ∧ p.fifo = [e] ∧ addr = ea ∧ p.esize = 8 ∧ ea % 8 = 0 ∧ ea + 8 ≤ 65536 ∧
      (k.badRead ea 8).isNone = true ∧ m.drainGate c t [ea / 8] = true → ∃ v, exec (.streamDrain c t i) s = .next v ∧ frame v ∧
        fifo v [] (p.moved + 1) ∧ byte v ea (leBytes e.toNat 8)) ∧
    (p.bnd = true ∧ p.dir = true ∧ 7 ≤ p.kind ∧ p.kind ≤ 10 ∧ p.fifo = [e] ∧ m.net = [] ∧ m.neighbour c (p.kind - 7) = some q ∧ q ≠ c ∧
      (vget (m.core q).link [] (m.linkBuffer c q (p.kind - 7))).length < 8 → ∃ v, exec (.streamDrain c t i) s = .next v ∧
        fifo v [] p.moved ∧ v.mach.net.map (fun d => (d.src, d.dst, d.body)) =
          [(c, q, .element (m.linkBuffer c q (p.kind - 7)) (p.kind - 7) e)]) ∧
    (arrives (.push v bs) ∧ v.kind = .copy c i ea ∧ i < 4 ∧ m.heldRange c ea bs.length = false ∧
      (k.protectedCells (cellsAt ea bs)).isNone = true ∧ ch.flt = false ∧ ch.filled = [] ∧
      ch.wm.toNat = ea ∧ bs ≠ [] ∧ ea + bs.length < 65536 ∧ ch.limit.toNat ≠ ea + bs.length → ∃ v, exec (.copyPush id) s = .next v ∧ frame v ∧
        byte v ea bs ∧ v.mach.delivery id = none ∧ ((v.mach.core c).channel i).wm.toNat = ea + bs.length ∧
        ((v.mach.core c).channel i).left = ch.left - bs.length ∧ (v.mach.core c).mb = k.mb ∧ (v.mach.core c).ts = k.ts) ∧
    (arrives (.moveFault v f) ∧ v.kind = .copy c i ea ∧ i < 4 ∧ ch.flt = false ∧ ch.cid = u.cid ∧ ch.ts = t ∧ issuer → ∃ v,
      exec (.copyFault id) s = .next v ∧ frame v ∧ v.mach.delivery id = none ∧ ((v.mach.core c).channel i).flt = true ∧
      ((v.mach.core c).channel i).wm = ch.wm ∧ told v = [0x24] ∧ (v.mach.core c).mem = k.mem) ∧
    (job ∧ m.coreStarts c = true ∧ j.phase = .queued ∧ j.kind = 0 → ∃ v, exec (.jobStart c j.uid) s = .next v ∧ frame v ∧
      (v.mach.core c).jobs = [{ j with phase := .running (some (m.clk + w5.toNat / 2 ^ 32 % 2 ^ 16 / 8)) }] ∧ (v.mach.core c).mem = k.mem) ∧
    (job ∧ j.kind = 0 ∧ j.phase = .running (some due) ∧ due ≤ m.clk ∧ w5.toNat / 2 ^ 16 % 2 ^ 16 = ea ∧ n = w5.toNat / 2 ^ 32 % 2 ^ 16 ∧
      (k.badRead (w5.toNat % 2 ^ 16) n).isNone = true ∧ m.heldRange c ea n = false ∧
      (k.protectedCells (cellsAt ea (k.mem.bytes (w5.toNat % 2 ^ 16) n))).isNone = true → ∃ v, exec (.jobComplete c j.uid) s = .next v ∧ frame v ∧
        gone v ∧ byte v ea (k.mem.bytes (w5.toNat % 2 ^ 16) n) ∧ (v.mach.core c).ts = k.ts ∧
        (w0.getLsbD 59 = true → vget (v.mach.core c).mb 0 (w0.toNat / 2 ^ 53 % 64) = vget k.mb 0 (w0.toNat / 2 ^ 53 % 64) + 1) ∧
        (w0.getLsbD 59 = false → (v.mach.core c).mb = k.mb)) ∧
    (job ∧ j.phase = .faulted f 0 0 0 0 ∧ j.ts = t ∧ j.cid = u.cid ∧ issuer → ∃ v, exec (.jobFault c j.uid) s = .next v ∧ frame v ∧ gone v ∧
      told v = [0x25] ∧ (v.mach.core c).mb = k.mb ∧ (v.mach.core c).mem = k.mem) ∧
    (m.net = [d] ∧ arrives (.push v bs) ∧ v.kind = .fetch c i false ∧ bs.length = v.len ∧ (k.slot i).got = 0 → ∃ v, exec (.overlayFetchDone c i) s = .next v ∧ frame v ∧
      v.mach.net = [] ∧ ((v.mach.core c).slot i).st = .valid ∧ ((v.mach.core c).slot i).flt = false ∧ (v.mach.core c).ts = k.ts ∧
      (x < 1024 → (v.mach.core c).imem.byte (1024 * i + x) = (bs.take 1024).getD x 0)) ∧
    (m.net = [d] ∧ arrives (.moveFault v f) ∧ v.kind = .fetch c i true → ∃ v, exec (.overlayFetchDone c i) s = .next v ∧ frame v ∧
      v.mach.net = [] ∧ ((v.mach.core c).slot i).st = .empty ∧ ((v.mach.core c).slot i).flt = true ∧
      ((v.mach.core c).slot i).cause = (if f = 0x12 then 2 else 1) ∧ (v.mach.core c).imem = k.imem) ∧
    (mine ∧ job ∧ cast.members = [c] ∧ cast.lostAt = [] ∧ cast.root = some c ∧ r.fault = none ∧ r.value = none ∧ r.form = some (0, 1) ∧
      r.joined = [c] ∧ r.parts = [{ core := c, job := j.uid, op := 0, src := [BitVec.ofNat 64 x], num := j.num, ts := j.ts, cid := j.cid, pc := j.pc }] ∧
      m.treeAt n c = 0xE000 → ∃ v, exec (.castRoundComplete k.part.toNat n) s = .next v ∧
        (v.mach.part k.part.toNat).rounds = [] ∧
        (v.mach.core c).jobs = [{ j with result := [BitVec.ofNat 64 x], phase := .running (some (m.clk + 4)) }]) ∧
    (mine ∧ cast.members = [c, q] ∧ cast.lostAt = [] ∧ r.fault = none ∧ r.joined = [c] ∧ q ≠ c ∧ r.first = some due ∧ due + 2 ^ 20 ≤ m.clk →
      ∃ v, exec (.collectiveTimeout k.part.toNat n) s = .next v ∧ v.mach.cores = m.cores ∧
        (v.mach.part k.part.toNat).rounds = [{ r with fault := some (0x27, 1) }])

/-- R24, R52, R61, R228, R230, R231, R234, R235, R243: a matrix operation begins when its ranges are ready, with its accumulator kept in the
shadow, and ends after the cycles of R231 with its tile in the accumulator: for i8 × bp each element gains, modulo 2^32, the exact sum of
its products over the planes in use. A gang begins 14 cycles of broadcast earlier than it ends when every member has arrived; a round that
misses a member, or is cut, ends in the trap of the arrived members and the record owed to the others. A Schur operation writes its results
at its end. -/
def Obligations.MatrixOperationsRun : Prop :=
  ∀ (s : State) (c t q row i j cyc : Nat) (pair : Bool) (o : MatOp) (r : Round) (tile : List (BitVec 32)) (z : Schur) (cut : Byte) (lane : Byte),
    c < 73728 → t < 4 →
    let m := s.mach
    let k := m.core c
    let u := k.tset t
    let frame (v : State) : Prop := v.mach.parts = m.parts ∧ v.mach.clk = m.clk ∧ v.mach.net = m.net ∧ (v.mach.core c).mem = k.mem
    let p := o.sample.planes.toNat
    let n := k.healthy
    let ceil (a b : Nat) : Nat := (a + b - 1) / b
    let fa := o.sample.fmta.toNat
    let cycles : Nat := if fa = 0 then ceil (49152 * p) (1024 * n) else if fa = 14 then ceil 65536 (128 * n)
      else if fa = 15 then (if n = 4 then 96 else ceil 98304 (128 * n)) else if fa = 10 ∨ fa = 11 then ceil 24576 (64 * n)
      else ceil 49152 (128 * n)
    let acc (l : Nat) : BitVec 32 := vget (vget k.acc (Vector.replicate 128 0) o.acc) 0 l
    let aElem (e : Nat) : Int := (k.mem.byte (o.a.toNat + 384 * i + e)).toInt
    let plane (e l : Nat) : Int := ((k.mem.byte (o.b.toNat + 384 * j + 48 * l + e / 8)).toNat / 2 ^ (e % 8) % 2 : Nat)
    let bElem (e : Nat) : Int := ((List.range p).map fun l => if l = 0 then -128 * plane e 0 else 2 ^ (7 - l) * plane e l).sum
    let total : Int := ((List.range 384).map fun e => aElem e * bElem e).sum
    let solo := k.mat = [o] ∧ o.gang = false ∧ o.acc < 4
    let began (v : State) (d : Nat) : Prop := (v.mach.core c).mat.map (fun o => (o.uid, (match o.phase with | .running d _ => some d | .issued => none))) = [(o.uid, some d)]
    let issuer := o.ts = t ∧ o.cid = u.cid ∧ u.busy = true ∧ u.fol = false ∧ (List.range t).all (fun y => (k.tset y).cid != u.cid) = true
    let told (v : State) : List (Nat × Nat × Nat) :=
      (((v.mach.core c).tset t).pend.drop u.pend.length).map fun r => (r.cause.toNat, r.inner.toNat, r.pc.toNat)
    let gang := m.rounds = [r] ∧ r.row = row ∧ r.pair = pair ∧ r.live = false ∧ k.mat = [o] ∧ o.gang = true ∧ o.acc < 4 ∧ o.job = none
    let ms := m.members row pair
    (solo ∧ o.phase = .issued ∧ m.unitFree c = true ∧ k.sinceReh ≤ k.period.toNat ∧ k.failing = 0 ∧
      (o.sources c (o.rows c)).all (m.rangeReady o) = true ∧ m.badSource (o.reads c (o.rows c)) = none → ∃ v,
      exec (.matrixBegin c) s = .next v ∧ frame v ∧ began v (m.clk + cycles) ∧ (v.mach.core c).acc = k.acc ∧
      (v.mach.core c).sinceReh = k.sinceReh ∧
      vget (v.mach.core c).shadow (Vector.replicate 128 0) o.acc = vget k.acc (Vector.replicate 128 0) o.acc ∧
      (fa = 0 ∧ o.sample.fmtb = 16 ∧ 2 ≤ p ∧ p ≤ 8 ∧ o.mix = none ∧ i < 16 ∧ j < 8 →
        (v.mach.core c).mat.map (fun o => (match o.phase with | .running _ l => l[8 * i + j]? | .issued => none)) = [some (BitVec.ofInt 32 ((acc (8 * i + j)).toInt + total))])) ∧
    (solo ∧ o.phase = .running cyc tile ∧ cyc ≤ m.clk ∧ tile.length = 128 ∧ o.job = none → ∃ v, exec (.matrixComplete c) s = .next v ∧
      frame v ∧ (v.mach.core c).mat = [] ∧ (vget (v.mach.core c).acc (Vector.replicate 128 0) o.acc).toList = tile ∧
      (q < 4 ∧ q ≠ o.acc → vget (v.mach.core c).acc (Vector.replicate 128 0) q = vget k.acc (Vector.replicate 128 0) q) ∧
      (v.mach.core c).ts = k.ts) ∧
    (gang ∧ r.cut = none ∧ ms.all r.arrived.contains = true ∧ ms.contains c = true ∧ m.gangFlaw row pair = none ∧ ms.all m.unitFree = true ∧
      (ms.all fun x => (m.nextMat x).any (·.gang) && (m.gangOp x).any fun y =>
        m.badSource (y.reads x (m.supplied row pair x)) == none && y.sample.cycles (m.core x).healthy == cyc &&
        !((m.core x).rehDue y)) = true → ∃ v, exec (.gangBarrierComplete row pair) s = .next v ∧
      v.mach.rounds = [{ r with live := true }] ∧ began v (m.clk + cyc + 14) ∧ (v.mach.core c).acc = k.acc) ∧
    (gang ∧ r.cut = none ∧ r.arrived = [c] ∧ ms.contains c = true ∧ ms.contains q = true ∧ q ≠ c ∧ r.first + 65536 ≤ m.clk ∧
      (m.part k.part.toNat).st = .running ∧ o.phase = .issued ∧ issuer → ∃ v, exec (.gangTimeout row pair) s = .next v ∧
      v.mach.rounds = [] ∧ (v.mach.core c).mat = [] ∧ (v.mach.core c).acc = k.acc ∧ told v = [(0x1E, 0, o.pc.toNat)] ∧
      (v.mach.core q).gangOwed.map (fun r => (r.cause.toNat, r.mask.toNat)) = some (0x1E, 2 ^ ((posOf c).1 - row % 32 * 16))) ∧
    (gang ∧ r.cut = some (cut, q, lane) ∧ r.arrived = [c] ∧ ms.contains c = true ∧ q ≠ c ∧ o.phase = .issued ∧ issuer → ∃ v,
      exec (.gangAbort row pair) s = .next v ∧ v.mach.rounds = [] ∧ (v.mach.core c).mat = [] ∧ (v.mach.core c).acc = k.acc ∧
      told v = [(0x1F, cut.toNat, o.pc.toNat)]) ∧
    (k.schur = some z ∧ z.done ≤ m.clk ∧ z.ended = false → ∃ v, exec (.schurComplete c) s = .next v ∧
      (v.mach.core c).schur = some { z with ended := true } ∧ (v.mach.core c).mem = (k.store z.writes).mem ∧ (v.mach.core c).ts = k.ts ∧
      (q ≠ c → v.mach.core q = m.core q) ∧ v.mach.parts = m.parts)

/-- R90, R122, R125, R138, R139, R295, R302, R303, R314, R345: each 65,536 cycles the energy of a running partition is charged, every USED count
returns to 0, and the power gate rises by one above 15 kW and falls to 0 at 14.25 kW; at the go instant the initial entries are pushed; a
zeroed partition is configured; at an armed instant the outgoing partition stops, and the incoming one runs when it has; a dead link pauses
injection until exceptions lead around it, and a resync delays what crosses its link and fails where nothing comes back from the receiver.
What a period counts and draws are free values, for every value of which this holds, but the events of class 5, which are idle cycles. The
model's choices: the energy of a class and the package power (log entry 10), that an allotment given stands as it is (log entry 81), the
report of a skipped slice (log entry 71), the exceptions around a dead link, when a resync fails and what it delays (log entry 72), and LOW,
which the go instant judges (log entry 77). -/
def Obligations.ModuleEvents : Prop :=
  ∀ (s : State) (q i c dir cls other g : Nat) (time : Word) (rest : List (Nat × Word × Nat)) (d : Delivery), q < 16 → cls < 6 →
    let m := s.mach
    let p := m.part q
    let n := m.energyPeriod + 1
    let act := m.activeIn q
    let idled := (m.liveCores q).foldl (fun x k => x + (m.core k).idled) 0
    let inc (y : Nat) : Nat := (if y = 5 then idled else if act.getLsbD y then Config.activity q y n else 0) * m.weights.getD y 0
    let sum := (List.range 6).foldl (fun x y => x + inc y) 0
    let apart : Bool := (List.range 16).all fun o => o == q || (m.liveCores o).all fun x => !(m.liveCores q).contains x
    let taken := ((p.pending.filter (·.1 < m.clk)).getLast?).map (·.2)
    let rem := match taken with
      | some x => x.1
      | none => BitVec.ofNat 63 (p.rem.toNat - sum)
    let warn := match taken with
      | some x => x.2
      | none => p.warn
    let mw := Config.power (m.powerPeriod + 1) + (1700 * m.charged + 65535) / 65536
    let frame (v : State) : Prop := v.perm = s.perm ∧ v.mach.clk = m.clk ∧ v.mach.ptpNs = m.ptpNs ∧ v.mach.clusters = m.clusters
    let runs (x : Nat) : Prop := (m.part x).st = .running ∨ (m.part x).st = .suspended
    let armed := m.armed = (i, time, q) :: rest
    let one := m.sliceSet = [other, q] ∧ other ≠ q ∧ other < 16 ∧ (m.part other).st = .running
    let link (v : State) : Link := (v.mach.router c).link dir
    let old := (m.router c).link dir
    let lost := old.silent
    let live := c < 73728 ∧ dir < 4 ∧ onMesh (c % 512) (c / 512) dir = true ∧ old.dead = false
    (65536 * n ≤ m.clk ∧ apart = true → ∃ v, exec .energyUpdate s = .next v ∧ frame v ∧ v.mach.energyPeriod = n ∧
      vget (v.mach.part q).energy 0 cls = vget p.energy 0 cls + BitVec.ofNat 64 (inc cls) ∧ (v.mach.part q).active = 0 ∧
      (v.mach.part q).rem = rem ∧ (v.mach.part q).warn = warn ∧ (v.mach.part q).low = decide (rem.toNat < warn.toNat) ∧
      (v.mach.part q).pending = p.pending.filter (m.clk ≤ ·.1) ∧ (v.mach.part q).st = p.st ∧ v.mach.net = m.net ∧
      ((m.liveCores q).contains c = true → (v.mach.core c).active = 0 ∧ (v.mach.core c).idled = 0)) ∧
    (65536 * (m.budgetPeriod + 1) ≤ m.clk → ∃ v, exec .budgetPeriod s = .next v ∧ frame v ∧ v.mach.budgetPeriod = m.budgetPeriod + 1 ∧
      (v.mach.hand i).used = [] ∧ (v.mach.router i).used = [] ∧ (v.mach.hand i).board = (m.hand i).board ∧ v.mach.cores = m.cores ∧
      v.mach.parts = m.parts) ∧
    (65536 * (m.powerPeriod + 1) ≤ m.clk ∧ m.powerPeriod + 1 ≤ m.energyPeriod → ∃ v, exec .powerPeriod s = .next v ∧ frame v ∧ v.mach.powerPeriod = m.powerPeriod + 1 ∧
      v.mach.powerMw = mw ∧ v.mach.cores = m.cores ∧ v.mach.parts = m.parts ∧
      v.mach.pgate.toNat = (if 15000000 < mw then min 3 (m.pgate.toNat + 1) else if mw ≤ 14250000 then 0 else m.pgate.toNat)) ∧
    (p.launch.go = some g ∧ g ≤ m.clk ∧ p.holds (c % 512) (c / 512) = true ∧ m.live c = true → ∃ v,
      exec (.launchGo q) s = .next v ∧ frame v ∧
      let k := m.core c
      let k' := v.mach.core c
      k'.placed = true ∧ k'.initial = [] ∧ k'.ts = k.ts ∧ k'.pushedA = k.pushedA + (k.initial.filter (!·.1)).length ∧
      k'.pushedB = k.pushedB + (k.initial.filter (·.1)).length ∧ (v.mach.part q).launch.go = none ∧
      (v.mach.part q).low = decide (p.rem.toNat < p.warn.toNat)) ∧
    (p.st = .zeroing ∧ p.zeroDone = some g ∧ g ≤ m.clk ∧ m.requests = [] → exec (.zeroingDone q) s =
      .next { s with mach := m.modPart q fun p => { p with st := .configured, zeroDone := none } }) ∧
    (armed ∧ one ∧ m.switching = none ∧ time.toNat ≤ m.kptp.toNat ∧ runs q ∧ m.ptpNs ≤ instantNs time → ∃ v,
      exec .sliceSwitch s = .next v ∧ frame v ∧ v.mach.switching = some (time, q, [other]) ∧ (v.mach.part other).stopping = true ∧
      (v.mach.part other).st = .running ∧ v.mach.part q = p ∧ v.mach.armed = rest ∧ v.mach.cores = m.cores) ∧
    (armed ∧ m.switching = none ∧ time.toNat ≤ m.kptp.toNat ∧ ¬runs q → ∃ v, exec .sliceSwitch s = .next v ∧ frame v ∧
      v.mach.armed = rest ∧ v.mach.parts = m.parts ∧ v.mach.switching = none ∧
      ((m.core 73728).events = [] → (v.mach.core 73728).events.map (fun r => (r.cause.toNat, r.index.toNat)) = [(0x4A, i % 65536)])) ∧
    (m.switching = some (time, q, [other]) ∧ one ∧ (m.part other).stopping = true ∧ m.stopped other = true ∧ p.st = .suspended → ∃ v, exec .sliceSwitch s = .next v ∧ frame v ∧
      (v.mach.part other).st = .suspended ∧ (v.mach.part q).st = .running ∧ v.mach.switching = none ∧ v.mach.armed = m.armed ∧
      v.mach.replies = (m.send (.sliceDone time q)).replies ++ (match m.runtimeCore q with
        | some h => [Reply.sliceDoneCore h time q]
        | none => [])) ∧
    (live ∧ (lost = false ∨ old.resyncs < 2) ∧ m.net = [d] → ∃ v, exec (.linkResync c dir) s = .next v ∧ frame v ∧ v.mach.cores = m.cores ∧
      v.mach.parts = m.parts ∧ link v = (if lost then { old with resyncs := old.resyncs + 1, retry := m.clk + 40 }
        else { old with resyncs := 0, audit := 0, expect := old.seq, window := [], pending := none }) ∧
      v.mach.net = [match d.phase with
        | .flying due => if m.crosses d c dir then { d with phase := .flying (due + 40) } else d
        | _ => d]) ∧
    (live ∧ lost = true ∧ 2 ≤ old.resyncs → ∃ v, exec (.linkResync c dir) s = .next v ∧ (link v).dead = true ∧ v.mach.injPaused = true) ∧
    (live ∧ m.net = [d] → ∃ v, exec (.linkDead c dir) s = .next v ∧ frame v ∧ v.mach.cores = m.cores ∧ v.mach.parts = m.parts ∧
      link v = { old with dead := true } ∧ v.mach.injPaused = true ∧ v.mach.deadLinks = m.deadLinks ++ [(c, dir)] ∧
      v.mach.net = [match d.phase with
        | .flying _ => if m.crosses d c dir = true ∨ m.clk < d.sendAt then { d with phase := .queued } else d
        | _ => d]) ∧
    (m.deadLinks = [(c, 1)] ∧ c < 73728 ∧ c / 512 < 143 ∧ m.suspects.filter m.isolated = [] ∧ m.net = [] ∧ (m.router c).routes = [] →
      ∃ v, exec .routeChange s = .next v ∧ frame v ∧ v.mach.injPaused = false ∧ v.mach.deadLinks = [] ∧
        (v.mach.router c).routes = [{ port := 2, x0 := c % 512 + 1, x1 := 511, y0 := 0, y1 := 255 }] ∧
        (p.st = .running ∧ m.runtimeCore q = some other → (v.mach.core other).events ≠ []))

/-- R340, R341, R348, R349: a port counts a dropped frame, sends nothing of a paused priority 3 or 6 until it goes on, resolves the address that
it sends to, goes up and down, and answers for its own address and to an echo; the best master's offset steps kptp forward beyond 1 ms,
holds it below −1 ms and slews it otherwise, and after 16 s without a master the clock is in holdover; a RoCE write or read of a block on
stage moves its bytes under the partition's key and is answered, one of a partition that is FREE or in ZEROING, or into an image that a
launch reads, fails, and a SEND is acknowledged. What a step of the clock does below −1 ms, and that |offset| ≤ 1 ms slews, is the reading
of log entry 88. -/
def Obligations.EthernetPorts : Prop :=
  ∀ (s : State) (i j prio q qp win sh off len : Nat) (b : Bool) (x : PtpMsg) (bs : List Byte) (addr : Word) (e : Blk) (y : Xlat), i < 2 → j < 2 →
    let m := s.mach
    let o := m.port_ i
    let calm (p : Partition) : Partition := { p with active := 0 }
    let frame (v : State) : Prop := v.perm = s.perm ∧ v.mach.cores = m.cores ∧ v.mach.parts.map calm = m.parts.map calm ∧ v.mach.clk = m.clk ∧
      (i ≠ j → v.mach.port_ j = m.port_ j)
    let clock (v : State) : Prop := v.mach.ptpNs = m.ptpNs ∧ v.mach.ptpFrac = m.ptpFrac ∧ v.mach.ptp = m.ptp ∧ v.mach.hands = m.hands
    let own := vget s.perm.flash.addr 0 i
    let tells (v : State) (l : List Reply) : Prop := v.mach.replies = m.replies ++ l
    let answers (n : Mach) (r : Reply) : Prop := n.replies = (m.send r).replies ∧ n.outbox = (m.send r).outbox
    let heard (v : State) : Prop := (v.mach.port_ i).rank = some x.rank ∧ (v.mach.port_ i).heard = m.clk
    let best := o.up = true ∧ x.port = i ∧ m.heardOn (1 - i) = false
    let onNet := m.booted = true ∧ o.up = true ∧ m.qpPart qp = some q ∧ m.rdma = []
    let p := m.part q
    let a := addr.toNat % 2 ^ 60
    let h := m.hand sh
    let served := q < 16 ∧ p.st = .running ∧ addr.toNat / 2 ^ 62 = 1 ∧ p.home a = some (win, sh, off) ∧ h.served_ q (p.blockOf win a) = some e ∧
      h.requests = [] ∧ h.queued < 256 ∧ e.bad = [] ∧ 0 < len ∧ a % 4096 + len ≤ 4096 ∧ off % 4096 = a % 4096
    let inBlk := a - 4096 * (p.blockOf win a)
    (exec (.droppedFrame i) s = .next { s with mach := m.modPort i fun p => { p with drops := o.drops + 1 } }) ∧
    (prio = 3 ∧ m.outbox = [] → exec (.priorityFlowControl i prio b) s = .next { s with mach := m.modPort i fun p => { p with pause3 := b } }) ∧
    (prio = 6 ∧ m.outbox = [] → exec (.priorityFlowControl i prio b) s = .next { s with mach := m.modPort i fun p => { p with pause6 := b } }) ∧
    (prio = 3 ∧ o.up = true ∧ i = 0 ∧ o.resolved = true ∧ m.outbox = [.sent qp bs] → ∃ v, exec (.priorityFlowControl i prio false) s = .next v ∧
      frame v ∧ clock v ∧ tells v [.sent qp bs] ∧ v.mach.outbox = []) ∧
    (m.outbox = [] → ∃ v, exec (.portLinkUpOrDown i b) s = .next v ∧ frame v ∧ clock v ∧
      v.mach.port_ i = { o with up := b && m.booted, resolved := b && m.booted && o.resolved }) ∧
    (o.up = true → ∃ v, exec (.addressResolution i (.arpRequest own)) s = .next v ∧ frame v ∧ clock v ∧ tells v [.arp i]) ∧
    (o.up = true → ∃ v, exec (.addressResolution i (.neighborSolicitation own)) s = .next v ∧ frame v ∧ tells v [.advertisement i]) ∧
    (o.up = true → ∃ v, exec (.addressResolution i (.echoRequest bs)) s = .next v ∧ frame v ∧ clock v ∧ tells v [.echo i bs]) ∧
    (o.up = true ∧ prio ≠ own → ∃ v, exec (.addressResolution i (.arpRequest prio)) s = .next v ∧ frame v ∧ clock v ∧ tells v []) ∧
    (best ∧ 1000000 < x.offset → ∃ v, exec (.ptpMessage x) s = .next v ∧ frame v ∧ heard v ∧ v.mach.ptp.toNat = i + 1 ∧
      (v.mach.ptpNs : Int) = m.ptpNs + x.offset ∧ v.mach.ptpSlew = 0 ∧ v.mach.ptpHold = 0) ∧
    (best ∧ x.offset < -1000000 → ∃ v, exec (.ptpMessage x) s = .next v ∧ frame v ∧ heard v ∧ v.mach.ptp.toNat = i + 1 ∧
      v.mach.ptpNs = m.ptpNs ∧ (v.mach.ptpHold : Int) = -x.offset * 170000) ∧
    (best ∧ -1000000 ≤ x.offset ∧ x.offset ≤ 1000000 → ∃ v, exec (.ptpMessage x) s = .next v ∧ frame v ∧ heard v ∧
      v.mach.ptp.toNat = i + 1 ∧ v.mach.ptpNs = m.ptpNs ∧ v.mach.ptpSlew = x.offset * 170000) ∧
    (o.up = true ∧ x.port = i ∧ m.heardOn (1 - i) = true ∧ (m.port_ (1 - i)).rank.any (· < x.rank) = true → ∃ v,
      exec (.ptpMessage x) s = .next v ∧ frame v ∧ heard v ∧ clock v) ∧
    (m.booted = true ∧ m.ptp.toNat < 3 ∧ (m.port_ 0).heard + 27200000000 ≤ m.clk ∧ (m.port_ 1).heard + 27200000000 ≤ m.clk → ∃ v, exec .ptpHoldover s = .next v ∧ frame v ∧
      v.mach.ptp = 3 ∧ v.mach.ptpNs = m.ptpNs ∧ v.mach.ptpSlew = 0) ∧
    (onNet ∧ i = 0 ∧ o.pause3 = false → ∃ v, exec (.roceSend qp bs) s = .next v ∧ frame v ∧ clock v ∧
      tells v (if o.resolved then [.sent qp bs] else [.solicit i, .sent qp bs]) ∧ v.mach.outbox = m.outbox ∧
      (v.mach.port_ i).resolved = true) ∧
    (onNet ∧ o.pause3 = true ∧ ((m.port_ (1 - i)).up = false ∨ (m.port_ (1 - i)).pause3 = true) → ∃ v, exec (.roceSend qp bs) s = .next v ∧
      frame v ∧ clock v ∧ tells v [] ∧ v.mach.outbox = m.outbox ++ [.sent qp bs]) ∧
    (onNet ∧ served ∧ m.imageClosed q a len = false → ∃ v, exec (.rdmaRead qp addr len) s = .next v ∧ frame v ∧ clock v ∧ tells v [] ∧
      ∃ n, v.mach.rdmaQueue sh = some n ∧ n.rdma = [] ∧ answers n
        (.rdma m.nextCid true (Memory.bytes (Memory.pokes [] 0 (e.read sh (Map.get h.keys 0 q) inBlk len)) 0 len))) ∧
    (onNet ∧ served ∧ m.imageClosed q a len = false ∧ bs.length = len ∧ h.dir = [e] ∧
      (h.cache.find? fun z => z.part == q && z.win == win && z.page == off / 65536) = some y ∧ y.wr = true → ∃ v,
      exec (.rdmaWrite qp addr bs) s = .next v ∧ frame v ∧ tells v [] ∧
      ∃ n, v.mach.rdmaQueue sh = some n ∧ n.rdma = [] ∧ answers n (.rdma m.nextCid true []) ∧
        (n.hand sh).dir = [{ e with data := Memory.pokes e.data inBlk bs, dirty := true }] ∧ (n.hand sh).requests = []) ∧
    (onNet ∧ p.imageLock = some (m.clk, a, off) ∧ 0 < off ∧ bs ≠ [] → ∃ v, exec (.rdmaWrite qp addr bs) s = .next v ∧ frame v ∧ clock v ∧
      answers v.mach (.rdma m.nextCid false [])) ∧
    (onNet ∧ (p.st = .zeroing ∨ p.st = .free) → ∃ v, exec (.rdmaRead qp addr len) s = .next v ∧ frame v ∧ clock v ∧ answers v.mach (.rdma m.nextCid false [])) ∧
    (onNet ∧ (p.st = .zeroing ∨ p.st = .free) → ∃ v, exec (.rdmaWrite qp addr bs) s = .next v ∧ frame v ∧ clock v ∧ answers v.mach (.rdma m.nextCid false []))

/-- R125, R272, R273, R303, R337, R338, R342 to R344: a management request with the operator's tag and a SEQ above the last accepted one is
performed and answered: it configures, zeroes, launches, suspends and resumes a partition, writes and arms slices, sets an allotment, reads
energy and status, attests, and moves the fused counter up to the image's SVN, at most to 64. One with another tag is answered with status
2, one with an old SEQ with status 3, and neither does anything. An answer has the operator's tag over itself. The cause of a refusal that
the spec does not number is a free value (log entry 9); the layouts of the bodies are the model's choice (log entries 69 and 73). -/
def Obligations.ManagementRequests : Prop :=
  ∀ (s : State) (r : MgmtReq) (off other : Nat) (n : Mach), s.mach.booted = true → s.mach.ports.toList.all (!·.up) = false → r.flags = 0 →
    let m := s.mach
    let q := r.part.toNat
    let p := m.part q
    let body (i : Nat) : Word := imgW r.body (8 * i)
    let fresh (ty : Nat) : Prop := tagOk r s.perm.flash.opKey ty = true ∧ m.lastSeq < r.seq.toNat ∧ m.requests = []
    let accepted (v : State) : Prop := v.mach.lastSeq = r.seq.toNat ∧ r.seq.toNat ≤ v.perm.flash.ceiling ∧ v.perm.fused = s.perm.fused ∧
      v.perm.flash.copyA = s.perm.flash.copyA ∧ v.perm.flash.opKey = s.perm.flash.opKey ∧ v.mach.clk = m.clk
    let kept (v : State) : Prop := v.perm.ctr = s.perm.ctr
    let answer (ty : Nat) (st : Byte) (b : List Byte) : Reply :=
      .mgmt (BitVec.ofNat 8 ty) r.part st r.seq (tagOf s.perm.flash.opKey ty r.part 1 st r.seq b) b
    let told (v : State) (m : Mach) (x : Reply) : Prop := v.mach.requests = [] ∧ v.mach.replies = (m.send x).replies ∧
      v.mach.outbox = (m.send x).outbox
    let done (v : State) (ty : Nat) (b : List Byte) : Prop := accepted v ∧ told v m (answer ty 0 b)
    let later (v : State) (ty : Nat) : Prop := accepted v ∧ kept v ∧ v.mach.requests = [(ty, r)] ∧ v.mach.replies = m.replies
    let others (v : State) : Prop := other ≠ q → other < 16 → v.mach.part other = m.part other
    let words (l : List Word) : List Byte := l.flatMap fun w => leBytes w.toNat 8
    let waiting := m.requests = [(4, r)]
    let slices := m.validSlices
    let ceiling := if s.perm.flash.ceiling < r.seq.toNat then r.seq.toNat + 2 ^ 32 else s.perm.flash.ceiling
    let perm : Perm := { s.perm with flash := { s.perm.flash with ceiling := ceiling } }
    let begun : Mach := { m with lastSeq := r.seq.toNat, requests := [(3, r)] }
    (q < 16 ∧ fresh 1 ∧ r.body.length = 144 ∧ p.st = .free ∧ (m.configure q r.body).isSome = true → ∃ v,
      exec (.configurePartition r) s = .next v ∧ later v 1 ∧ others v ∧ (v.mach.part q).st = .zeroing ∧
      (v.mach.part q).quota = (Partition.ofRecord r.body).quota ∧ (v.mach.part q).rect = (Partition.ofRecord r.body).rect) ∧
    (q < 16 ∧ fresh 2 ∧ (p.st = .running ∨ p.st = .suspended ∨ p.st = .configured) → ∃ v, exec (.zeroPartition r) s = .next v ∧ later v 2 ∧
      others v ∧ (v.mach.part q).st = .zeroing ∧
      (m.live off = true ∧ p.holds (off % 512) (off / 512) = true → (v.mach.core off).mem = [])) ∧
    (q < 16 ∧ fresh 3 ∧ r.body.length = 64 ∧ p.st ≠ .configured → ∃ v, exec (.launch r) s = .next v ∧ accepted v ∧ kept v ∧
      v.mach.parts = m.parts ∧ v.mach.cores = m.cores ∧
      told v m (answer 3 1 [1, BitVec.ofNat 8 ((Config.freeWord m.fresh).toNat % 256)])) ∧
    (q < 16 ∧ fresh 3 ∧ r.body.length = 64 → ∃ v, exec (.launch r) s = .next v ∧ accepted v ∧ kept v ∧
      (begun.launchBy perm q body = .done n → told v n (answer 3 0 []) ∧ v.mach.parts = n.parts ∧ v.mach.cores = n.cores ∧
        (v.mach.part q).st = .running ∧ (v.mach.part q).launch.verified = true ∧ (v.mach.part q).launch.go.isSome = true)) ∧
    (q < 16 ∧ fresh 4 ∧ p.st = .running → ∃ v, exec (.suspend r) s = .next v ∧ later v 4 ∧ others v ∧
      v.mach.part q = { p with stopping := true } ∧ v.mach.cores = m.cores) ∧
    (q < 16 ∧ waiting ∧ p.st = .running ∧ p.stopping = true ∧ m.stopped q = true ∧ (m.saveAll q).2 = none → let v := s.suspendReq r
      kept v ∧ (v.mach.part q).st = .suspended ∧ (v.mach.part q).stopping = false ∧ (v.mach.part q).stopped = m.clk ∧
      told v m (answer 4 0 [])) ∧
    (q < 16 ∧ waiting ∧ p.st = .running ∧ p.stopping = true ∧ m.stopped q = true ∧ (m.saveAll q).2.isSome = true →
      let v := s.suspendReq r
      kept v ∧ v.mach.part q = { p with stopping := false } ∧ v.mach.cores = m.cores ∧
      told v m (answer 4 1 [0, BitVec.ofNat 8 ((Config.freeWord m.fresh).toNat % 256)])) ∧
    (waiting ∧ tagOk r s.perm.flash.opKey 4 = true ∧ r.seq.toNat ≤ m.lastSeq → exec (.suspend r) s =
      .next { s with mach := m.send (answer 4 3 (leBytes m.lastSeq 8)) }) ∧
    (q < 16 ∧ fresh 5 ∧ p.st = .suspended → ∃ v, exec (.resume r) s = .next v ∧ done v 5 [] ∧ kept v ∧ others v ∧
      (v.mach.part q).st = .running) ∧
    (fresh 6 ∧ r.body.length = 24 ∧ (body 0).toNat < 16 ∧ (body 2).toNat / 2 ^ 4 % 2 ^ 59 = 0 → ∃ v, exec (.sliceEntry r) s = .next v ∧
      done v 6 [] ∧ kept v ∧ v.mach.parts = m.parts ∧
      v.mach.slice (body 0).toNat = { v := (body 2).getLsbD 63, instant := body 1, part := (body 2).setWidth 4 } ∧
      (other ≠ (body 0).toNat → v.mach.slice other = m.slice other)) ∧
    (fresh 7 ∧ risingInstants slices = true ∧ (slices.all fun e => (m.part e.2.2).launch.save != 0) = true → ∃ v,
      exec (.armSlices r) s = .next v ∧ done v 7 [] ∧ kept v ∧ v.mach.parts = m.parts ∧
      v.mach.armed = slices.filter (fun e => m.kptp.toNat < e.2.1.toNat)) ∧
    (q < 16 ∧ fresh 8 ∧ r.body.length = 16 ∧ (body 0).toNat < 2 ^ 63 ∧ (body 1).toNat < 2 ^ 63 → ∃ v,
      exec (.setAllotment r) s = .next v ∧ done v 8 [] ∧ kept v ∧ others v ∧
      v.mach.part q = { p with pending := p.pending ++ [(m.clk, (body 0).setWidth 63, (body 1).setWidth 63)] }) ∧
    (q < 16 ∧ fresh 9 → ∃ v, exec (.readEnergy r) s = .next v ∧
      done v 9 (words (p.energy.toList ++ [p.rem.setWidth 64])) ∧ kept v ∧ v.mach.parts = m.parts) ∧
    (q < 16 ∧ fresh 10 ∧ r.body.length = 32 → ∃ v, exec (.attest r) s = .next v ∧ done v 10 (attestation s.perm m q r.body) ∧ kept v ∧
      v.mach.parts = m.parts) ∧
    (q < 16 ∧ fresh 11 ∧ p.launch.verified = true → ∃ v, exec (.advanceRollback r) s = .next v ∧ done v 11 [] ∧
      v.perm.ctr = min 64 (max s.perm.ctr p.launch.svn.toNat) ∧ v.mach.parts = m.parts ∧ v.mach.cores = m.cores) ∧
    (fresh 12 → ∃ v, exec (.readStatus r) s = .next v ∧ done v 12 (words (statusWords s.perm m)) ∧ kept v ∧
      (statusWords s.perm m).take 2 = [m.status s.perm.ctr, BitVec.ofNat 64 m.powerMw]) ∧
    (tagOk r s.perm.flash.opKey 12 = false → exec (.readStatus r) s =
      .next { s with mach := m.send (answer 12 2 []) }) ∧
    (tagOk r s.perm.flash.opKey 12 = true ∧ r.seq.toNat ≤ m.lastSeq → exec (.readStatus r) s =
      .next { s with mach := m.send (answer 12 3 (leBytes m.lastSeq 8)) })

/-- R12, R13, R88, R342, R350: module reset runs the ROM, which boots copy A or else copy B where its signature and version pass, leaves the
module as State.reset has it but for what the boot sets up, and raises the ceiling of accepted SEQ numbers; with no good copy every house
core halts. Whether a port comes up at the boot is a free value. A firmware update is written to the copy not running, and one with the
Nealis key's signature and a version not below the fused counter's brings the trusted keys and the operator key; any other leaves them. The
model's choices: that keys are replaced at once and SEQ then starts from 0 (log entry 75), that HBM keeps its bytes over a reset and what
else a reset leaves (log entries 1 and 75). What State.reset holds beside the reset values of the spec is the model's choice (log entries 1
and 3). -/
def Obligations.BootAndFirmware : Prop :=
  ∀ (s : State) (f g : Firmware) (c sh : Nat) (key : List Byte),
    let m := s.mach
    let fl := s.perm.flash
    let ctr := s.perm.ctr
    let good (x : Option Firmware) (f : Firmware) : Prop := x = some f ∧ bootable f ctr = true
    let bad (x : Option Firmware) : Prop := (x.filter (bootable · ctr)).isNone = true
    let fused (v : State) : Prop := v.perm.ctr = ctr ∧ v.perm.fused = s.perm.fused ∧ v.perm.flash.trusted = fl.trusted ∧
      v.perm.flash.copyA = fl.copyA ∧ v.perm.flash.copyB = fl.copyB ∧ v.perm.flash.opKey = fl.opKey
    let cleared (v : State) : Prop := v.mach.clk = 0 ∧ v.mach.parts = Vector.replicate 16 {} ∧ v.mach.net = [] ∧ v.mach.slices = Vector.replicate 16 {} ∧
      v.mach.ptpNs = 0 ∧ v.mach.ptp = 0 ∧ v.mach.clusters = [] ∧ (v.mach.core c).mem = [] ∧ (v.mach.core c).fence = 0 ∧
      (v.mach.hand sh).hbm = (m.hand sh).hbm ∧ (v.mach.hand sh).keys = [] ∧ (v.mach.hand sh).dir = []
    let boots (v : State) (f : Firmware) (b : Bool) : Prop := v.mach.booted = true ∧ v.mach.fwVersion = f.version ∧ v.mach.fwB = b ∧
      v.mach.fusedCopy = s.perm.fused ∧ v.mach.lastSeq = fl.ceiling ∧ v.perm.flash.ceiling = fl.ceiling + 2 ^ 32 ∧
      ((v.mach.core 73728).tset 0).busy = true ∧ ((v.mach.core 73728).tset 0).priv = .house ∧ (v.mach.core 73728).halted = false ∧
      (vget v.mach.ports {} 0).up = Config.portUp m.fresh 0 ∧ (vget v.mach.ports {} 1).up = Config.portUp m.fresh 1
    let trusted := f.trusted.take 8
    let passes : Bool := ecdsaVerify Config.romKey f.body f.sigR f.sigS && ctr * 65536 ≤ f.version
    (∃ v, exec .moduleReset s = .next v ∧ cleared v ∧ (good fl.copyA f → fused v ∧ boots v f false) ∧
      (bad fl.copyA ∧ good fl.copyB g → fused v ∧ boots v g true) ∧
      (bad fl.copyA ∧ bad fl.copyB → v.perm = s.perm ∧ v.mach.booted = false ∧ (v.mach.core 73728).halted = true ∧
        (v.mach.core 73731).halted = true)) ∧
    (m.fwB = false ∧ f.opKey = none → exec (.stage1FirmwareUpdate f) s = .next { s with perm := { s.perm with flash :=
      { fl with copyB := some f, trusted := if passes then trusted else fl.trusted } } }) ∧
    (m.fwB = true ∧ f.opKey = none → exec (.stage1FirmwareUpdate f) s = .next { s with perm := { s.perm with flash :=
      { fl with copyA := some f, trusted := if passes then trusted else fl.trusted } } }) ∧
    (m.fwB = false ∧ f.opKey = some key → exec (.stage1FirmwareUpdate f) s = .next
      { perm := { s.perm with flash := if passes then { fl with copyB := some f, trusted := trusted, opKey := key, ceiling := 0 }
                                       else { fl with copyB := some f } }
        mach := { m with lastSeq := if passes then 0 else m.lastSeq } })

/-- R15, R16, R142, R146, R153: a step in which a thread set issues, by a turn of the environment or as the next agent of the cycle, whose slot
is valid and whose words decode to an instruction, performs exactly that instruction, with the PC of the next one in sequence after the
words decoded; `Mach.retire` then notes what it leaves to wait for, and `Mach.noted` that its unit has issued; an access whose answer has
come ends so too, without another issue. Words that encode nothing raise the illegal-instruction trap. Which agent issues next is given by
the environment's turn or by the order of log entry 5. -/
def Obligations.StepRunsDecoded : Prop :=
  ∀ (s : State) (c t n place : Nat) (rest : List Turn) (d : Decoded),
    let a := Agent.core c t
    let m : Mach := { s.mach with agenda := rest }
    let k := m.core c
    let u := k.tset t
    let decoded := decode false (u.priv == .house) (k.wordsAt u.pc.toNat)
    let ready := (k.slot (u.pc.toNat / 1024)).st = .valid ∧ k.imemEcc = []
    let chosen := s.mach.agenda = .issue c t :: rest ∧ m.ready c t = true
    let next := s.mach.agenda = [] ∧ rest = [] ∧ s.settle = none ∧ m.phase ≠ .ends ∧ m.nextTurn = some (a, place)
    let ends := s.mach.agenda = [] ∧ rest = [] ∧ s.settle = none ∧ m.phase = .ends ∧ m.nextEnding = some a
    let runs (w : BitVec 14) (i : Instr) : Host.Outcome State Fault Refusal :=
      exec i { s with mach := { m with cur := a, npc := u.pc + w, taken := false } }
    let after (i : Instr) (m' : Mach) : Mach := m'.retire { m with cur := a, npc := u.pc + BitVec.ofNat 14 (2 * d.words), taken := false } a i
    (chosen ∧ ready ∧ decoded = .ok d →
      step s = onNext (fun m' => (after d.instr m').noted m a) (runs (BitVec.ofNat 14 (2 * d.words)) d.instr)) ∧
    (next ∧ ready ∧ decoded = .ok d →
      step s = onNext (fun m' => ((after d.instr m').noted m a).turned m a place) (runs (BitVec.ofNat 14 (2 * d.words)) d.instr)) ∧
    (ends ∧ ready ∧ decoded = .ok d →
      step s = onNext (fun m' => (after d.instr m').ended_ m a) (runs (BitVec.ofNat 14 (2 * d.words)) d.instr)) ∧
    (chosen ∧ ready ∧ decoded = .error (.illegal n) →
      step s = onNext (fun m' => m'.noted m a) (exec (.illegalInstruction (u.pc.toNat + 2 * n)) { s with mach := { m with cur := a, npc := u.pc } }))

/-- R81, R82, R97, R153: words that encode nothing trap with the offset of the word found illegal; a fetch from an EMPTY slot traps, one from a
LOADING slot parks the context until its segment has come, and one from a VALID slot has no error to report and changes no register. -/
def Obligations.FetchEvents : Prop :=
  ∀ (s : State) (c t off i : Nat), Plain s.mach c t = true →
    let m := s.mach
    let k := m.core c
    let u := m.me
    let g := u.pc.toNat / 1024
    let runs := u.busy = true ∧ u.fol = false
    let bad := k.badFetch u.pc.toNat (chainLen (k.wordsAt u.pc.toNat))
    let frame (v : State) : Prop := (v.mach.core c).mem = k.mem ∧ (v.mach.core c).imem = k.imem ∧ v.mach.parts = m.parts ∧ v.mach.net = m.net
    (exec (.illegalInstruction off) s = s.traps c t { cause := 0x01, addr := BitVec.ofNat 64 off }) ∧
    (runs ∧ (k.slot g).st = .empty ∧ u.pc ≠ u.kvec → exec (.instructionFetch c t) s =
      s.traps c t { cause := 0x15, addr := u.pc.setWidth 64, index := BitVec.ofNat 16 g }) ∧
    (runs ∧ (k.slot g).st = .valid ∧ bad = some off ∧ u.pc ≠ u.kvec → exec (.instructionFetch c t) s =
      s.traps c t { cause := 0x14, addr := BitVec.ofNat 64 off }) ∧
    (runs ∧ (k.slot g).st = .loading ∧ u.held = false ∧ k.freeRec = some i → ∃ v, exec (.instructionFetch c t) s = .next v ∧
      (v.mach.tset (.core c t)).busy = false ∧ ((v.mach.core c).record i).st = .parked ∧
      (k.recs.toNat % 8 = 0 → ((v.mach.core c).recWord i 0).toNat / 2 ^ 60 = 3 ∧ (v.mach.core c).recWord i 7 = BitVec.ofNat 64 g ∧
        ((v.mach.core c).recWord i 0).extractLsb' 0 14 = u.pc)) ∧
    (runs ∧ (k.slot g).st = .valid ∧ bad = none → ∃ v, exec (.instructionFetch c t) s = .next v ∧ frame v ∧ (v.mach.core c).ts = k.ts)

/-- R145, R152: a prefix word's kind is bits [11:10] and its payload bits [9:0]; a word from 0xD000 on is illegal wherever a chain reaches it. A
chain of prefixes before a base word is read exactly when each prefix but the first is of a higher kind than the one before it, or the
second of two IMM, and none is a fifth; else the first prefix that breaks this is the word found illegal, and a chain that reaches the end
of its slot is illegal at its last word. -/
def Obligations.PrefixChains : Prop :=
  ∀ (ps : List IWord) (w : IWord) (rest : List IWord) (i : Nat), ps.all (fun p => 0xC000 ≤ p.toNat && p.toNat < 0xD000) = true →
    let kind (j : Nat) : Nat := (ps.getD j 0).toNat / 1024 % 4
    let payload (j : Nat) : BitVec 10 := (ps.getD j 0).setWidth 10
    let legal (j : Nat) : Prop := j < 4 ∧
      (j = 0 ∨ kind (j - 1) < kind j ∨ (kind (j - 1) = 2 ∧ kind j = 2 ∧ (j = 1 ∨ kind (j - 2) ≠ 2)))
    let places := List.range ps.length
    let sound := ∀ j ∈ places, legal j
    let only (k : Nat) : List (BitVec 10) := (places.filter fun j => kind j = k).map payload
    (w.toNat < 0xC000 ∧ sound → Chain.read {} (ps ++ w :: rest) = .ok { page := (only 0).head?, reg := (only 1).head?, imms := only 2, hint := (only 3).head?, base := w, pfx := ps.length }) ∧
    (i < ps.length ∧ ¬legal i ∧ (∀ j ∈ List.range i, legal j) → Chain.read {} (ps ++ w :: rest) = .error (.illegal i)) ∧
    (0xD000 ≤ w.toNat ∧ sound → Chain.read {} (ps ++ w :: rest) = .error (.illegal ps.length)) ∧
    (ps ≠ [] ∧ sound → Chain.read {} ps = .error (.illegal (ps.length - 1)))

/-- R142 to R155: for every encoded instruction with operands its form admits, every stall count and every unit that admits the form, decode of
the words the encoder writes gives the instruction back, with every operand, its length in words, and the stall count unless four prefixes
stand without it; whatever words follow. -/
def Obligations.RoundTrip : Prop :=
  ∀ (i : Instr) (r : Row) (a : Args) (stage house : Bool) (h : BitVec 3) (rest : List IWord),
    i.parts = some (r, a) → i.wf = true → r.home.admits stage = true → (r.page = 15 → house = true) →
      decode stage house (encodeRow r a h ++ rest) = .ok
        { instr := i, words := (encodeRow r a h).length,
          stall := if (encodeRow r a 0).length = maxWords then 0 else h.toNat }

/-- R159: the sub10 field of page 0 op 0x2F selects the forms of the system group, every other value is illegal, and every other S form, on any
page, requires sub10 = 0. R142 to R155: the worked encodings of R155 and one word of each further page written out from R143, R146 and R149:
what each chain of words decodes to, with its length and stall count, and at which word decode finds an illegal chain illegal. -/
def Obligations.DecodeWords : Prop :=
  ∀ (n : Nat), n < 1024 →
    let ok (i : Instr) (n stall : Nat) : Except DecodeError Decoded := .ok { instr := i, words := n, stall := stall }
    let user := decode false false
    let house := decode false true
    let stage := decode true false
    let other (x : BitVec 16 × Nat) := house [x.1, BitVec.ofNat 16 (0x400 * x.2 + n)]
    let sub := user [BitVec.ofNat 16 (0xBC00 + n)]
    (n = 0 → sub = ok (.nop {}) 1 0) ∧ (n = 1 → sub = ok (.done {}) 1 0) ∧ (n = 2 → sub = ok (.ret {}) 1 0) ∧
    (n = 3 → sub = ok (.eret {}) 1 0) ∧ (n = 4 → sub = ok (.halt {}) 1 0) ∧
    (0x100 ≤ n ∧ n ≤ 0x1FF → sub = ok (.trap { imm := BitVec.ofNat 64 (n % 256) }) 1 0) ∧
    (4 < n ∧ (n < 0x100 ∨ 0x1FF < n) → sub = .error (.illegal 0)) ∧
    (∀ x ∈ ([(0xC040, 0x1E), (0xC140, 0x07), (0xC200, 0x0A), (0xC240, 0x09), (0xC3C0, 0x05)] : List (BitVec 16 × Nat)),
      (n = 0 → (other x).toOption.isSome = true) ∧ (n ≠ 0 → other x = .error (.illegal 1))) ∧
    (user [0x018D] = ok (.add { short := true, d := 12, s := 13 }) 1 0) ∧
    (user [0xC801, 0xCA80, 0x39B0] = ok (.li { d := 13, imm := 53264 }) 3 0) ∧
    (user [0xC040, 0xC55C, 0xC801, 0xC800, 0x1560] = ok (.ldv { d := 11, s := 0, t := 10, imm := 1024 }) 5 0) ∧
    (user [0xC0C1, 0xC509, 0xCD80, 0x0084] = ok (.vaddFloat { d := 4, s := 4, t := 8, p := 2, w := 1, v := 1 }) 4 3) ∧
    (user [0x73FD] = ok (.b { imm := -3 }) 1 0) ∧
    (user [0xCC7F, 0x018D] = ok (.add { short := true, d := 12, s := 13 }) 2 0) ∧
    (user [0xC801, 0xC040, 0x1560] = .error (.illegal 1) ∧ user [0xC040, 0xC040, 0x1560] = .error (.illegal 1)) ∧
    (user [0xD000] = .error (.illegal 0) ∧ user [0xC280, 0x0000] = .error (.illegal 0) ∧ user [0xC0C1, 0x4484] = .error (.illegal 1)) ∧
    (user [0xC0E9, 0xC509, 0x0084] = .error (.illegal 0) ∧ user [0xC403, 0x018D] = .error (.illegal 0)) ∧
    (user [0xC3C0, 0x0000] = .error .privilege ∧ user [0xC040] = .error (.illegal 0)) ∧
    (user [0xBC05] = .error (.illegal 0) ∧ user [0xBD07] = ok (.trap { imm := 7 }) 1 0) ∧
    (house [0xC3C0, 0b000000_00011_00100] = ok (.partCfg { d := 3, s := 4 }) 2 0) ∧
    (user [0b110000_0010_000_011, 0b110001_00111_111_00, 0b000010_00001_00010] = ok (.vmulInt { d := 1, s := 2, t := 7, v := 3 }) 3 0) ∧
    (user [0b110000_0101_000_000, 0b110001_00010_111_00, 0b000000_00001_00011] = ok (.mma { d := 1, s := 3, t := 2 }) 3 0) ∧
    (user [0b110000_0100_000_000, 0b110001_00111_010_00, 0b000000_00001_00010] = ok (.vbmand { d := 1, s := 2, t := 7, p := 2 }) 3 0) ∧
    (user [0b110000_0110_000_000, 0b000000_00100_01000] = ok (.gacc { d := 4, s := 8 }) 2 0) ∧
    (user [0b110000_0111_000_000, 0b001000_00101_00010] = ok (.rpoll { d := 5, imm := 2 }) 2 0) ∧
    (user [0b110000_1000_000_000, 0b000000_00111_01001] = ok (.sbind { d := 7, s := 9 }) 2 0) ∧
    (user [0b110000_1001_000_000, 0b000000_00001_00110] = ok (.curtain { d := 1, s := 6 }) 2 0) ∧
    (stage [0b110000_0001_000_000, 0b110001_01001_111_00, 0b100011_00001_00010] = ok (.tilePut { d := 1, s := 2, t := 9 }) 3 0) ∧
    (user [0b110000_0001_000_000, 0b110001_01001_111_00, 0b100011_00001_00010] = .error (.illegal 2))

/-- R53, R58, R59, R66, R67, R68, R70, R73, R79, R86, R89, R350: the module right after reset. Every thread set of every core holds the reset
values of the field maps, every byte of local memory is zero at version 0 with its reclaim bit set, every slot of instruction memory is
EMPTY but those the ROM fills, no key slot and no directory entry is in use, every partition is FREE, and thread set 0 of house core (1023,
0) alone runs, at house level from offset 0. Where the spec gives a value none, it is the model's choice: d0 to d7, the anti-rollback
counter, the last SEQ and its ceiling (log entry 3), what memory holds before a zeroing (log entry 12), and at which point of the boot chain
this state stands (log entry 1). R33, R337: what the invariants of `RollbackInvariant` and the canonical form of memory ask holds right
after reset. -/
def Obligations.ResetState : Prop :=
  (∀ (c t n off q sh : Nat) (r : RegNo), t < 4 → q < 16 →
    let m := State.reset.mach
    let k := m.core c
    let u := k.tset t
    let runner := c = 73728 ∧ t = 0
    (u.xreg r = 0 ∧ u.v = Vector.replicate 32 0 ∧ (n < 7 → u.preg n = 0) ∧ u.preg 7 = 0xFFFF ∧ u.d = Vector.replicate 8 0 ∧ u.anyBound = false) ∧
    (u.kfmta = 0x0C ∧ u.kfmtb = 0x0C ∧ u.kscla = 0 ∧ u.ksclb = 0 ∧ u.kplanes = 8 ∧ u.kgpiv = 0x35800000) ∧
    (u.kepcPc = 0 ∧ u.kepcPriv = 0 ∧ u.kvec = 0 ∧ u.tc = false ∧ u.eos = false ∧ u.cho = false ∧ u.fol = false ∧ u.kfflags = 0) ∧
    (k.period = 4096 ∧ k.fence = 0 ∧ (m.part q).toe = 20 ∧ (m.part q).pha = false ∧ (m.part q).phb = false ∧ m.clk = 0 ∧ m.ptpNs = 0) ∧
    (k.mem.byte off = 0 ∧ (k.sideAt off).ver = 0 ∧ (k.sideAt off).rcl = true ∧ (m.part q).st = .free ∧ m.net = []) ∧
    ((m.hand sh).keys = [] ∧ (m.hand sh).dir = [] ∧ (m.hand sh).board = [] ∧ k.events = [] ∧ k.acc = Vector.replicate 4 (Vector.replicate 128 0)) ∧
    (runner → u.busy = true ∧ u.priv = .house ∧ u.pc = 0 ∧ k.halted = false) ∧
    (¬runner → u.busy = false ∧ u.priv = .user)) ∧
  (State.reset.perm.ctr ≤ 64 ∧ State.reset.mach.lastSeq ≤ State.reset.perm.flash.ceiling ∧
    (∀ c, Memory.wf (State.reset.mach.core c).mem = true ∧ Memory.wf (State.reset.mach.core c).imem = true) ∧
    (∀ sh, Memory.wf (State.reset.mach.hand sh).hbm = true))

/-- R13, R337, R342, R350, of every step from every state: the fuses of the fused-core list never change, and the anti-rollback counter never
falls and never passes 64; in a step that is no firmware update, the trusted-key list, the operator key and both firmware copies stay as
they are, and the stored ceiling of accepted request numbers never falls. -/
def Obligations.RollbackInvariant : Prop :=
  ∀ (s s' : State), s.perm.ctr ≤ 64 → step s = .next s' →
    s.perm.ctr ≤ s'.perm.ctr ∧ s'.perm.ctr ≤ 64 ∧ s'.perm.fused = s.perm.fused ∧
    ((∀ f, s.mach.agenda.head? ≠ some (.event (.stage1FirmwareUpdate f))) →
      s'.perm.flash.trusted = s.perm.flash.trusted ∧ s'.perm.flash.opKey = s.perm.flash.opKey ∧
      s'.perm.flash.copyA = s.perm.flash.copyA ∧ s'.perm.flash.copyB = s.perm.flash.copyB ∧
      s'.perm.flash.addr = s.perm.flash.addr ∧ s'.perm.flash.weights = s.perm.flash.weights ∧
      s.perm.flash.ceiling ≤ s'.perm.flash.ceiling)
end

