-- ==== Sys2Proof/Laws/PerInstr.lean ====
section
/-! SUPPORT. Per instruction: its row of the opcode maps names it (08_encoding R156 to R165). -/

namespace Sys2Proof.Laws.MapEntry

/-- The page, operation value and low bits of the instruction's row lead back to the instruction, with its operands, and, with no
operands, to its row. -/
def Statement (i : Instr) : Prop :=
  ∀ r a, i.parts = some (r, a) → r.argsOk a = true →
    formAt r.page r.op (r.low a).toNat a = some i ∧ (formAt r.page r.op (r.low a).toNat {}).bind (·.row?) = some r ∧
      r.op < 0x30 ∧ (r.page < 10 ∨ (r.page = 15 ∧ r.home = .core))

/-- A form of no operands carries the empty operands. -/
theorem args_empty {op : Nat} {n : Nat} {h : Home} {a : Args}
    (ok : Row.argsOk ⟨0, op, .s, .none, 0, 0, 0, .none, false, false, .none, .none, .none, .sub n, h⟩ a = true) : a = {} := by
  obtain ⟨sh, d, s, t, p, w, m, v, imm⟩ := a
  simp [Row.argsOk, Row.pageOk, Row.regOk, Row.limitsOk, Limit.holds, Row.immOk, fits] at ok
  obtain ⟨⟨⟨⟨⟨⟨⟨hm, hv⟩, hr⟩, hl⟩, hi⟩, hx⟩, hsh⟩, hd⟩ := ok
  have hm : m = 0 := BitVec.eq_of_toNat_eq hm
  have hv : v = 0 := BitVec.eq_of_toNat_eq hv
  simp_all

/-- `trap n` carries its number alone. -/
theorem args_trap {op : Nat} {h : Home} {a : Args}
    (ok : Row.argsOk ⟨0, op, .s, .none, 0, 0, 0, .none, false, false, .none, .none, .none, .trapNo, h⟩ a = true) :
    a = { imm := a.imm } ∧ a.imm.toNat < 256 := by
  obtain ⟨sh, d, s, t, p, w, m, v, imm⟩ := a
  simp [Row.argsOk, Row.pageOk, Row.regOk, Row.limitsOk, Limit.holds, Row.immOk] at ok
  obtain ⟨⟨⟨⟨⟨⟨⟨hm, hv⟩, hr⟩, hl⟩, hi⟩, hx⟩, hsh⟩, hd⟩ := ok
  have hm : m = 0 := BitVec.eq_of_toNat_eq hm
  have hv : v = 0 := BitVec.eq_of_toNat_eq hv
  simp_all

theorem add (a : Args) : Statement (.add a) := by
  rintro r a' ⟨⟩ -; exact ⟨rfl, rfl, by decide, by decide⟩
theorem sub (a : Args) : Statement (.sub a) := by
  rintro r a' ⟨⟩ -; exact ⟨rfl, rfl, by decide, by decide⟩
theorem and (a : Args) : Statement (.and a) := by
  rintro r a' ⟨⟩ -; exact ⟨rfl, rfl, by decide, by decide⟩
theorem or (a : Args) : Statement (.or a) := by
  rintro r a' ⟨⟩ -; exact ⟨rfl, rfl, by decide, by decide⟩
theorem xor (a : Args) : Statement (.xor a) := by
  rintro r a' ⟨⟩ -; exact ⟨rfl, rfl, by decide, by decide⟩
theorem shl (a : Args) : Statement (.shl a) := by
  rintro r a' ⟨⟩ -; exact ⟨rfl, rfl, by decide, by decide⟩
theorem shr (a : Args) : Statement (.shr a) := by
  rintro r a' ⟨⟩ -; exact ⟨rfl, rfl, by decide, by decide⟩
theorem sra (a : Args) : Statement (.sra a) := by
  rintro r a' ⟨⟩ -; exact ⟨rfl, rfl, by decide, by decide⟩
theorem mul (a : Args) : Statement (.mul a) := by
  rintro r a' ⟨⟩ -; exact ⟨rfl, rfl, by decide, by decide⟩
theorem seq (a : Args) : Statement (.seq a) := by
  rintro r a' ⟨⟩ -; exact ⟨rfl, rfl, by decide, by decide⟩
theorem slt (a : Args) : Statement (.slt a) := by
  rintro r a' ⟨⟩ -; exact ⟨rfl, rfl, by decide, by decide⟩
theorem sltu (a : Args) : Statement (.sltu a) := by
  rintro r a' ⟨⟩ -; exact ⟨rfl, rfl, by decide, by decide⟩
theorem sel (a : Args) : Statement (.sel a) := by
  rintro r a' ⟨⟩ -; exact ⟨rfl, rfl, by decide, by decide⟩
theorem addImm (a : Args) : Statement (.addImm a) := by
  rintro r a' ⟨⟩ -; exact ⟨rfl, rfl, by decide, by decide⟩
theorem shlImm (a : Args) : Statement (.shlImm a) := by
  rintro r a' ⟨⟩ -; exact ⟨rfl, rfl, by decide, by decide⟩
theorem shrImm (a : Args) : Statement (.shrImm a) := by
  rintro r a' ⟨⟩ -; exact ⟨rfl, rfl, by decide, by decide⟩
theorem sraImm (a : Args) : Statement (.sraImm a) := by
  rintro r a' ⟨⟩ -; exact ⟨rfl, rfl, by decide, by decide⟩
theorem andImm (a : Args) : Statement (.andImm a) := by
  rintro r a' ⟨⟩ -; exact ⟨rfl, rfl, by decide, by decide⟩
theorem li (a : Args) : Statement (.li a) := by
  rintro r a' ⟨⟩ -; exact ⟨rfl, rfl, by decide, by decide⟩
theorem mov (a : Args) : Statement (.mov a) := by
  rintro r a' ⟨⟩ -; exact ⟨rfl, rfl, by decide, by decide⟩
theorem ldD (a : Args) : Statement (.ldD a) := by
  rintro r a' ⟨⟩ -; exact ⟨rfl, rfl, by decide, by decide⟩
theorem ldW (a : Args) : Statement (.ldW a) := by
  rintro r a' ⟨⟩ -; exact ⟨rfl, rfl, by decide, by decide⟩
theorem stD (a : Args) : Statement (.stD a) := by
  rintro r a' ⟨⟩ -; exact ⟨rfl, rfl, by decide, by decide⟩
theorem stW (a : Args) : Statement (.stW a) := by
  rintro r a' ⟨⟩ -; exact ⟨rfl, rfl, by decide, by decide⟩
theorem vld (a : Args) : Statement (.vld a) := by
  rintro r a' ⟨⟩ -; exact ⟨rfl, rfl, by decide, by decide⟩
theorem vst (a : Args) : Statement (.vst a) := by
  rintro r a' ⟨⟩ -; exact ⟨rfl, rfl, by decide, by decide⟩
theorem ldfr (a : Args) : Statement (.ldfr a) := by
  rintro r a' ⟨⟩ -; exact ⟨rfl, rfl, by decide, by decide⟩
theorem stfr (a : Args) : Statement (.stfr a) := by
  rintro r a' ⟨⟩ -; exact ⟨rfl, rfl, by decide, by decide⟩
theorem b (a : Args) : Statement (.b a) := by
  rintro r a' ⟨⟩ -; exact ⟨rfl, rfl, by decide, by decide⟩
theorem jal (a : Args) : Statement (.jal a) := by
  rintro r a' ⟨⟩ -; exact ⟨rfl, rfl, by decide, by decide⟩
theorem beq (a : Args) : Statement (.beq a) := by
  rintro r a' ⟨⟩ -; exact ⟨rfl, rfl, by decide, by decide⟩
theorem bne (a : Args) : Statement (.bne a) := by
  rintro r a' ⟨⟩ -; exact ⟨rfl, rfl, by decide, by decide⟩
theorem blt (a : Args) : Statement (.blt a) := by
  rintro r a' ⟨⟩ -; exact ⟨rfl, rfl, by decide, by decide⟩
theorem bge (a : Args) : Statement (.bge a) := by
  rintro r a' ⟨⟩ -; exact ⟨rfl, rfl, by decide, by decide⟩
theorem bltu (a : Args) : Statement (.bltu a) := by
  rintro r a' ⟨⟩ -; exact ⟨rfl, rfl, by decide, by decide⟩
theorem bgeu (a : Args) : Statement (.bgeu a) := by
  rintro r a' ⟨⟩ -; exact ⟨rfl, rfl, by decide, by decide⟩
theorem bz (a : Args) : Statement (.bz a) := by
  rintro r a' ⟨⟩ -; exact ⟨rfl, rfl, by decide, by decide⟩
theorem bnz (a : Args) : Statement (.bnz a) := by
  rintro r a' ⟨⟩ -; exact ⟨rfl, rfl, by decide, by decide⟩
theorem jr (a : Args) : Statement (.jr a) := by
  rintro r a' ⟨⟩ -; exact ⟨rfl, rfl, by decide, by decide⟩
theorem loop (a : Args) : Statement (.loop a) := by
  rintro r a' ⟨⟩ -; exact ⟨rfl, rfl, by decide, by decide⟩
theorem kget (a : Args) : Statement (.kget a) := by
  rintro r a' ⟨⟩ -; exact ⟨rfl, rfl, by decide, by decide⟩
theorem kput (a : Args) : Statement (.kput a) := by
  rintro r a' ⟨⟩ -; exact ⟨rfl, rfl, by decide, by decide⟩
theorem cueDec (a : Args) : Statement (.cueDec a) := by
  rintro r a' ⟨⟩ -; exact ⟨rfl, rfl, by decide, by decide⟩
theorem send (a : Args) : Statement (.send a) := by
  rintro r a' ⟨⟩ -; exact ⟨rfl, rfl, by decide, by decide⟩
theorem pstD (a : Args) : Statement (.pstD a) := by
  rintro r a' ⟨⟩ -; exact ⟨rfl, rfl, by decide, by decide⟩
theorem pstv (a : Args) : Statement (.pstv a) := by
  rintro r a' ⟨⟩ -; exact ⟨rfl, rfl, by decide, by decide⟩
theorem beos (a : Args) : Statement (.beos a) := by
  rintro r a' ⟨⟩ -; exact ⟨rfl, rfl, by decide, by decide⟩
theorem nop (a : Args) : Statement (.nop a) := by
  rintro r a' h ok
  simp only [Instr.parts, Option.some.injEq, Prod.mk.injEq] at h
  obtain ⟨rfl, rfl⟩ := h
  cases args_empty ok
  exact ⟨rfl, rfl, by decide, by decide⟩

theorem done (a : Args) : Statement (.done a) := by
  rintro r a' h ok
  simp only [Instr.parts, Option.some.injEq, Prod.mk.injEq] at h
  obtain ⟨rfl, rfl⟩ := h
  cases args_empty ok
  exact ⟨rfl, rfl, by decide, by decide⟩

theorem ret (a : Args) : Statement (.ret a) := by
  rintro r a' h ok
  simp only [Instr.parts, Option.some.injEq, Prod.mk.injEq] at h
  obtain ⟨rfl, rfl⟩ := h
  cases args_empty ok
  exact ⟨rfl, rfl, by decide, by decide⟩

theorem eret (a : Args) : Statement (.eret a) := by
  rintro r a' h ok
  simp only [Instr.parts, Option.some.injEq, Prod.mk.injEq] at h
  obtain ⟨rfl, rfl⟩ := h
  cases args_empty ok
  exact ⟨rfl, rfl, by decide, by decide⟩

theorem halt (a : Args) : Statement (.halt a) := by
  rintro r a' h ok
  simp only [Instr.parts, Option.some.injEq, Prod.mk.injEq] at h
  obtain ⟨rfl, rfl⟩ := h
  cases args_empty ok
  exact ⟨rfl, rfl, by decide, by decide⟩

theorem trap (a : Args) : Statement (.trap a) := by
  intro r a' h ok
  simp only [Instr.parts, Option.some.injEq, Prod.mk.injEq] at h
  obtain ⟨rfl, rfl⟩ := h
  obtain ⟨ha, hlt⟩ := args_trap ok
  have hlow : (Row.low ⟨0, 0x2F, .s, .none, 0, 0, 0, .none, false, false, .none, .none, .none, .trapNo, .both⟩ a).toNat =
      0x100 + a.imm.toNat := by
    have h8 : (a.imm.extractLsb' 0 8).toNat = a.imm.toNat := by
      rw [BitVec.extractLsb'_toNat, Nat.shiftRight_zero, Nat.mod_eq_of_lt (by omega)]
    simp only [Row.low, BitVec.toNat_or, BitVec.toNat_setWidth, h8, Nat.mod_eq_of_lt (show a.imm.toNat < 2 ^ 10 by omega)]
    exact (Nat.two_pow_add_eq_or_of_lt (i := 8) hlt 1).symm
  have hsys : systemForm (0x100 + a.imm.toNat) = some (.trap { imm := a.imm }) := by
    simp only [systemForm]
    split <;> first | omega | skip
    rw [if_pos ⟨by omega, by omega⟩, Nat.add_sub_cancel_left, BitVec.ofNat_toNat, BitVec.setWidth_eq]
  refine ⟨?_, ?_, by decide, by decide⟩
  · simp only [formAt, if_pos, hlow, hsys]
    rw [← ha]
  · simp only [formAt, if_pos, hlow, hsys]
    rfl

theorem ldSize (a : Args) : Statement (.ldSize a) := by
  rintro r a' ⟨⟩ -; exact ⟨rfl, rfl, by decide, by decide⟩
theorem stSize (a : Args) : Statement (.stSize a) := by
  rintro r a' ⟨⟩ -; exact ⟨rfl, rfl, by decide, by decide⟩
theorem ldAcq (a : Args) : Statement (.ldAcq a) := by
  rintro r a' ⟨⟩ -; exact ⟨rfl, rfl, by decide, by decide⟩
theorem stRel (a : Args) : Statement (.stRel a) := by
  rintro r a' ⟨⟩ -; exact ⟨rfl, rfl, by decide, by decide⟩
theorem stS (a : Args) : Statement (.stS a) := by
  rintro r a' ⟨⟩ -; exact ⟨rfl, rfl, by decide, by decide⟩
theorem ldv (a : Args) : Statement (.ldv a) := by
  rintro r a' ⟨⟩ -; exact ⟨rfl, rfl, by decide, by decide⟩
theorem stv (a : Args) : Statement (.stv a) := by
  rintro r a' ⟨⟩ -; exact ⟨rfl, rfl, by decide, by decide⟩
theorem rcl (a : Args) : Statement (.rcl a) := by
  rintro r a' ⟨⟩ -; exact ⟨rfl, rfl, by decide, by decide⟩
theorem ver (a : Args) : Statement (.ver a) := by
  rintro r a' ⟨⟩ -; exact ⟨rfl, rfl, by decide, by decide⟩
theorem pstSize (a : Args) : Statement (.pstSize a) := by
  rintro r a' ⟨⟩ -; exact ⟨rfl, rfl, by decide, by decide⟩
theorem pstvP1 (a : Args) : Statement (.pstvP1 a) := by
  rintro r a' ⟨⟩ -; exact ⟨rfl, rfl, by decide, by decide⟩
theorem ldfar (a : Args) : Statement (.ldfar a) := by
  rintro r a' ⟨⟩ -; exact ⟨rfl, rfl, by decide, by decide⟩
theorem stfar (a : Args) : Statement (.stfar a) := by
  rintro r a' ⟨⟩ -; exact ⟨rfl, rfl, by decide, by decide⟩
theorem vldfar (a : Args) : Statement (.vldfar a) := by
  rintro r a' ⟨⟩ -; exact ⟨rfl, rfl, by decide, by decide⟩
theorem vldP1 (a : Args) : Statement (.vldP1 a) := by
  rintro r a' ⟨⟩ -; exact ⟨rfl, rfl, by decide, by decide⟩
theorem vstP1 (a : Args) : Statement (.vstP1 a) := by
  rintro r a' ⟨⟩ -; exact ⟨rfl, rfl, by decide, by decide⟩
theorem vlds (a : Args) : Statement (.vlds a) := by
  rintro r a' ⟨⟩ -; exact ⟨rfl, rfl, by decide, by decide⟩
theorem vsts (a : Args) : Statement (.vsts a) := by
  rintro r a' ⟨⟩ -; exact ⟨rfl, rfl, by decide, by decide⟩
theorem vgat (a : Args) : Statement (.vgat a) := by
  rintro r a' ⟨⟩ -; exact ⟨rfl, rfl, by decide, by decide⟩
theorem vsct (a : Args) : Statement (.vsct a) := by
  rintro r a' ⟨⟩ -; exact ⟨rfl, rfl, by decide, by decide⟩
theorem amoAdd (a : Args) : Statement (.amoAdd a) := by
  rintro r a' ⟨⟩ -; exact ⟨rfl, rfl, by decide, by decide⟩
theorem amoAnd (a : Args) : Statement (.amoAnd a) := by
  rintro r a' ⟨⟩ -; exact ⟨rfl, rfl, by decide, by decide⟩
theorem amoOr (a : Args) : Statement (.amoOr a) := by
  rintro r a' ⟨⟩ -; exact ⟨rfl, rfl, by decide, by decide⟩
theorem amoXor (a : Args) : Statement (.amoXor a) := by
  rintro r a' ⟨⟩ -; exact ⟨rfl, rfl, by decide, by decide⟩
theorem amoMin (a : Args) : Statement (.amoMin a) := by
  rintro r a' ⟨⟩ -; exact ⟨rfl, rfl, by decide, by decide⟩
theorem amoMax (a : Args) : Statement (.amoMax a) := by
  rintro r a' ⟨⟩ -; exact ⟨rfl, rfl, by decide, by decide⟩
theorem amoMinu (a : Args) : Statement (.amoMinu a) := by
  rintro r a' ⟨⟩ -; exact ⟨rfl, rfl, by decide, by decide⟩
theorem amoMaxu (a : Args) : Statement (.amoMaxu a) := by
  rintro r a' ⟨⟩ -; exact ⟨rfl, rfl, by decide, by decide⟩
theorem amoSwap (a : Args) : Statement (.amoSwap a) := by
  rintro r a' ⟨⟩ -; exact ⟨rfl, rfl, by decide, by decide⟩
theorem cas (a : Args) : Statement (.cas a) := by
  rintro r a' ⟨⟩ -; exact ⟨rfl, rfl, by decide, by decide⟩
theorem fence (a : Args) : Statement (.fence a) := by
  rintro r a' ⟨⟩ -; exact ⟨rfl, rfl, by decide, by decide⟩
theorem cpy (a : Args) : Statement (.cpy a) := by
  rintro r a' ⟨⟩ -; exact ⟨rfl, rfl, by decide, by decide⟩
theorem wmk (a : Args) : Statement (.wmk a) := by
  rintro r a' ⟨⟩ -; exact ⟨rfl, rfl, by decide, by decide⟩
theorem job (a : Args) : Statement (.job a) := by
  rintro r a' ⟨⟩ -; exact ⟨rfl, rfl, by decide, by decide⟩
theorem jwait (a : Args) : Statement (.jwait a) := by
  rintro r a' ⟨⟩ -; exact ⟨rfl, rfl, by decide, by decide⟩
theorem tilePut (a : Args) : Statement (.tilePut a) := by
  rintro r a' ⟨⟩ -; exact ⟨rfl, rfl, by decide, by decide⟩
theorem tileGet (a : Args) : Statement (.tileGet a) := by
  rintro r a' ⟨⟩ -; exact ⟨rfl, rfl, by decide, by decide⟩
theorem sfill (a : Args) : Statement (.sfill a) := by
  rintro r a' ⟨⟩ -; exact ⟨rfl, rfl, by decide, by decide⟩
theorem sdrain (a : Args) : Statement (.sdrain a) := by
  rintro r a' ⟨⟩ -; exact ⟨rfl, rfl, by decide, by decide⟩
theorem vaddInt (a : Args) : Statement (.vaddInt a) := by
  rintro r a' ⟨⟩ -; exact ⟨rfl, rfl, by decide, by decide⟩
theorem vsubInt (a : Args) : Statement (.vsubInt a) := by
  rintro r a' ⟨⟩ -; exact ⟨rfl, rfl, by decide, by decide⟩
theorem vmulInt (a : Args) : Statement (.vmulInt a) := by
  rintro r a' ⟨⟩ -; exact ⟨rfl, rfl, by decide, by decide⟩
theorem vminInt (a : Args) : Statement (.vminInt a) := by
  rintro r a' ⟨⟩ -; exact ⟨rfl, rfl, by decide, by decide⟩
theorem vmaxInt (a : Args) : Statement (.vmaxInt a) := by
  rintro r a' ⟨⟩ -; exact ⟨rfl, rfl, by decide, by decide⟩
theorem vabsInt (a : Args) : Statement (.vabsInt a) := by
  rintro r a' ⟨⟩ -; exact ⟨rfl, rfl, by decide, by decide⟩
theorem vnegInt (a : Args) : Statement (.vnegInt a) := by
  rintro r a' ⟨⟩ -; exact ⟨rfl, rfl, by decide, by decide⟩
theorem vcmpInt (a : Args) : Statement (.vcmpInt a) := by
  rintro r a' ⟨⟩ -; exact ⟨rfl, rfl, by decide, by decide⟩
theorem vsel (a : Args) : Statement (.vsel a) := by
  rintro r a' ⟨⟩ -; exact ⟨rfl, rfl, by decide, by decide⟩
theorem vand (a : Args) : Statement (.vand a) := by
  rintro r a' ⟨⟩ -; exact ⟨rfl, rfl, by decide, by decide⟩
theorem vor (a : Args) : Statement (.vor a) := by
  rintro r a' ⟨⟩ -; exact ⟨rfl, rfl, by decide, by decide⟩
theorem vxor (a : Args) : Statement (.vxor a) := by
  rintro r a' ⟨⟩ -; exact ⟨rfl, rfl, by decide, by decide⟩
theorem vshl (a : Args) : Statement (.vshl a) := by
  rintro r a' ⟨⟩ -; exact ⟨rfl, rfl, by decide, by decide⟩
theorem vshr (a : Args) : Statement (.vshr a) := by
  rintro r a' ⟨⟩ -; exact ⟨rfl, rfl, by decide, by decide⟩
theorem vsra (a : Args) : Statement (.vsra a) := by
  rintro r a' ⟨⟩ -; exact ⟨rfl, rfl, by decide, by decide⟩
theorem vperm (a : Args) : Statement (.vperm a) := by
  rintro r a' ⟨⟩ -; exact ⟨rfl, rfl, by decide, by decide⟩
theorem vbcst (a : Args) : Statement (.vbcst a) := by
  rintro r a' ⟨⟩ -; exact ⟨rfl, rfl, by decide, by decide⟩
theorem vext (a : Args) : Statement (.vext a) := by
  rintro r a' ⟨⟩ -; exact ⟨rfl, rfl, by decide, by decide⟩
theorem vins (a : Args) : Statement (.vins a) := by
  rintro r a' ⟨⟩ -; exact ⟨rfl, rfl, by decide, by decide⟩
theorem vmov (a : Args) : Statement (.vmov a) := by
  rintro r a' ⟨⟩ -; exact ⟨rfl, rfl, by decide, by decide⟩
theorem vredSumInt (a : Args) : Statement (.vredSumInt a) := by
  rintro r a' ⟨⟩ -; exact ⟨rfl, rfl, by decide, by decide⟩
theorem vredMaxInt (a : Args) : Statement (.vredMaxInt a) := by
  rintro r a' ⟨⟩ -; exact ⟨rfl, rfl, by decide, by decide⟩
theorem vredMinInt (a : Args) : Statement (.vredMinInt a) := by
  rintro r a' ⟨⟩ -; exact ⟨rfl, rfl, by decide, by decide⟩
theorem andn (a : Args) : Statement (.andn a) := by
  rintro r a' ⟨⟩ -; exact ⟨rfl, rfl, by decide, by decide⟩
theorem rol (a : Args) : Statement (.rol a) := by
  rintro r a' ⟨⟩ -; exact ⟨rfl, rfl, by decide, by decide⟩
theorem mulh (a : Args) : Statement (.mulh a) := by
  rintro r a' ⟨⟩ -; exact ⟨rfl, rfl, by decide, by decide⟩
theorem mulhu (a : Args) : Statement (.mulhu a) := by
  rintro r a' ⟨⟩ -; exact ⟨rfl, rfl, by decide, by decide⟩
theorem div (a : Args) : Statement (.div a) := by
  rintro r a' ⟨⟩ -; exact ⟨rfl, rfl, by decide, by decide⟩
theorem divu (a : Args) : Statement (.divu a) := by
  rintro r a' ⟨⟩ -; exact ⟨rfl, rfl, by decide, by decide⟩
theorem rem (a : Args) : Statement (.rem a) := by
  rintro r a' ⟨⟩ -; exact ⟨rfl, rfl, by decide, by decide⟩
theorem remu (a : Args) : Statement (.remu a) := by
  rintro r a' ⟨⟩ -; exact ⟨rfl, rfl, by decide, by decide⟩
theorem min (a : Args) : Statement (.min a) := by
  rintro r a' ⟨⟩ -; exact ⟨rfl, rfl, by decide, by decide⟩
theorem max (a : Args) : Statement (.max a) := by
  rintro r a' ⟨⟩ -; exact ⟨rfl, rfl, by decide, by decide⟩
theorem minu (a : Args) : Statement (.minu a) := by
  rintro r a' ⟨⟩ -; exact ⟨rfl, rfl, by decide, by decide⟩
theorem maxu (a : Args) : Statement (.maxu a) := by
  rintro r a' ⟨⟩ -; exact ⟨rfl, rfl, by decide, by decide⟩
theorem clz (a : Args) : Statement (.clz a) := by
  rintro r a' ⟨⟩ -; exact ⟨rfl, rfl, by decide, by decide⟩
theorem ctz (a : Args) : Statement (.ctz a) := by
  rintro r a' ⟨⟩ -; exact ⟨rfl, rfl, by decide, by decide⟩
theorem popc (a : Args) : Statement (.popc a) := by
  rintro r a' ⟨⟩ -; exact ⟨rfl, rfl, by decide, by decide⟩
theorem bswap (a : Args) : Statement (.bswap a) := by
  rintro r a' ⟨⟩ -; exact ⟨rfl, rfl, by decide, by decide⟩
theorem sext (a : Args) : Statement (.sext a) := by
  rintro r a' ⟨⟩ -; exact ⟨rfl, rfl, by decide, by decide⟩
theorem zext (a : Args) : Statement (.zext a) := by
  rintro r a' ⟨⟩ -; exact ⟨rfl, rfl, by decide, by decide⟩
theorem lih (a : Args) : Statement (.lih a) := by
  rintro r a' ⟨⟩ -; exact ⟨rfl, rfl, by decide, by decide⟩
theorem adds (a : Args) : Statement (.adds a) := by
  rintro r a' ⟨⟩ -; exact ⟨rfl, rfl, by decide, by decide⟩
theorem bfx (a : Args) : Statement (.bfx a) := by
  rintro r a' ⟨⟩ -; exact ⟨rfl, rfl, by decide, by decide⟩
theorem bfi (a : Args) : Statement (.bfi a) := by
  rintro r a' ⟨⟩ -; exact ⟨rfl, rfl, by decide, by decide⟩
theorem orImm (a : Args) : Statement (.orImm a) := by
  rintro r a' ⟨⟩ -; exact ⟨rfl, rfl, by decide, by decide⟩
theorem xorImm (a : Args) : Statement (.xorImm a) := by
  rintro r a' ⟨⟩ -; exact ⟨rfl, rfl, by decide, by decide⟩
theorem vaddFloat (a : Args) : Statement (.vaddFloat a) := by
  rintro r a' ⟨⟩ -; exact ⟨rfl, rfl, by decide, by decide⟩
theorem vsubFloat (a : Args) : Statement (.vsubFloat a) := by
  rintro r a' ⟨⟩ -; exact ⟨rfl, rfl, by decide, by decide⟩
theorem vmulFloat (a : Args) : Statement (.vmulFloat a) := by
  rintro r a' ⟨⟩ -; exact ⟨rfl, rfl, by decide, by decide⟩
theorem vfma (a : Args) : Statement (.vfma a) := by
  rintro r a' ⟨⟩ -; exact ⟨rfl, rfl, by decide, by decide⟩
theorem vfms (a : Args) : Statement (.vfms a) := by
  rintro r a' ⟨⟩ -; exact ⟨rfl, rfl, by decide, by decide⟩
theorem vminFloat (a : Args) : Statement (.vminFloat a) := by
  rintro r a' ⟨⟩ -; exact ⟨rfl, rfl, by decide, by decide⟩
theorem vmaxFloat (a : Args) : Statement (.vmaxFloat a) := by
  rintro r a' ⟨⟩ -; exact ⟨rfl, rfl, by decide, by decide⟩
theorem vabsFloat (a : Args) : Statement (.vabsFloat a) := by
  rintro r a' ⟨⟩ -; exact ⟨rfl, rfl, by decide, by decide⟩
theorem vnegFloat (a : Args) : Statement (.vnegFloat a) := by
  rintro r a' ⟨⟩ -; exact ⟨rfl, rfl, by decide, by decide⟩
theorem vdiv (a : Args) : Statement (.vdiv a) := by
  rintro r a' ⟨⟩ -; exact ⟨rfl, rfl, by decide, by decide⟩
theorem vsqrt (a : Args) : Statement (.vsqrt a) := by
  rintro r a' ⟨⟩ -; exact ⟨rfl, rfl, by decide, by decide⟩
theorem vcmpFloat (a : Args) : Statement (.vcmpFloat a) := by
  rintro r a' ⟨⟩ -; exact ⟨rfl, rfl, by decide, by decide⟩
theorem vredSumFloat (a : Args) : Statement (.vredSumFloat a) := by
  rintro r a' ⟨⟩ -; exact ⟨rfl, rfl, by decide, by decide⟩
theorem vredMaxFloat (a : Args) : Statement (.vredMaxFloat a) := by
  rintro r a' ⟨⟩ -; exact ⟨rfl, rfl, by decide, by decide⟩
theorem vredMinFloat (a : Args) : Statement (.vredMinFloat a) := by
  rintro r a' ⟨⟩ -; exact ⟨rfl, rfl, by decide, by decide⟩
theorem vdot (a : Args) : Statement (.vdot a) := by
  rintro r a' ⟨⟩ -; exact ⟨rfl, rfl, by decide, by decide⟩
theorem vcvt (a : Args) : Statement (.vcvt a) := by
  rintro r a' ⟨⟩ -; exact ⟨rfl, rfl, by decide, by decide⟩
theorem vbmand (a : Args) : Statement (.vbmand a) := by
  rintro r a' ⟨⟩ -; exact ⟨rfl, rfl, by decide, by decide⟩
theorem vpfx (a : Args) : Statement (.vpfx a) := by
  rintro r a' ⟨⟩ -; exact ⟨rfl, rfl, by decide, by decide⟩
theorem vpopc (a : Args) : Statement (.vpopc a) := by
  rintro r a' ⟨⟩ -; exact ⟨rfl, rfl, by decide, by decide⟩
theorem pand (a : Args) : Statement (.pand a) := by
  rintro r a' ⟨⟩ -; exact ⟨rfl, rfl, by decide, by decide⟩
theorem por (a : Args) : Statement (.por a) := by
  rintro r a' ⟨⟩ -; exact ⟨rfl, rfl, by decide, by decide⟩
theorem pxor (a : Args) : Statement (.pxor a) := by
  rintro r a' ⟨⟩ -; exact ⟨rfl, rfl, by decide, by decide⟩
theorem pnot (a : Args) : Statement (.pnot a) := by
  rintro r a' ⟨⟩ -; exact ⟨rfl, rfl, by decide, by decide⟩
theorem pmov (a : Args) : Statement (.pmov a) := by
  rintro r a' ⟨⟩ -; exact ⟨rfl, rfl, by decide, by decide⟩
theorem pset (a : Args) : Statement (.pset a) := by
  rintro r a' ⟨⟩ -; exact ⟨rfl, rfl, by decide, by decide⟩
theorem mma (a : Args) : Statement (.mma a) := by
  rintro r a' ⟨⟩ -; exact ⟨rfl, rfl, by decide, by decide⟩
theorem mmag (a : Args) : Statement (.mmag a) := by
  rintro r a' ⟨⟩ -; exact ⟨rfl, rfl, by decide, by decide⟩
theorem mmix (a : Args) : Statement (.mmix a) := by
  rintro r a' ⟨⟩ -; exact ⟨rfl, rfl, by decide, by decide⟩
theorem macz (a : Args) : Statement (.macz a) := by
  rintro r a' ⟨⟩ -; exact ⟨rfl, rfl, by decide, by decide⟩
theorem macr (a : Args) : Statement (.macr a) := by
  rintro r a' ⟨⟩ -; exact ⟨rfl, rfl, by decide, by decide⟩
theorem macw (a : Args) : Statement (.macw a) := by
  rintro r a' ⟨⟩ -; exact ⟨rfl, rfl, by decide, by decide⟩
theorem macst (a : Args) : Statement (.macst a) := by
  rintro r a' ⟨⟩ -; exact ⟨rfl, rfl, by decide, by decide⟩
theorem mreh (a : Args) : Statement (.mreh a) := by
  rintro r a' ⟨⟩ -; exact ⟨rfl, rfl, by decide, by decide⟩
theorem mwait (a : Args) : Statement (.mwait a) := by
  rintro r a' ⟨⟩ -; exact ⟨rfl, rfl, by decide, by decide⟩
theorem gacc (a : Args) : Statement (.gacc a) := by
  rintro r a' ⟨⟩ -; exact ⟨rfl, rfl, by decide, by decide⟩
theorem gsub (a : Args) : Statement (.gsub a) := by
  rintro r a' ⟨⟩ -; exact ⟨rfl, rfl, by decide, by decide⟩
theorem gschur (a : Args) : Statement (.gschur a) := by
  rintro r a' ⟨⟩ -; exact ⟨rfl, rfl, by decide, by decide⟩
theorem gdamp (a : Args) : Statement (.gdamp a) := by
  rintro r a' ⟨⟩ -; exact ⟨rfl, rfl, by decide, by decide⟩
theorem gmean (a : Args) : Statement (.gmean a) := by
  rintro r a' ⟨⟩ -; exact ⟨rfl, rfl, by decide, by decide⟩
theorem gres (a : Args) : Statement (.gres a) := by
  rintro r a' ⟨⟩ -; exact ⟨rfl, rfl, by decide, by decide⟩
theorem sendP7 (a : Args) : Statement (.sendP7 a) := by
  rintro r a' ⟨⟩ -; exact ⟨rfl, rfl, by decide, by decide⟩
theorem sendc (a : Args) : Statement (.sendc a) := by
  rintro r a' ⟨⟩ -; exact ⟨rfl, rfl, by decide, by decide⟩
theorem cueDecP7 (a : Args) : Statement (.cueDecP7 a) := by
  rintro r a' ⟨⟩ -; exact ⟨rfl, rfl, by decide, by decide⟩
theorem cueArm (a : Args) : Statement (.cueArm a) := by
  rintro r a' ⟨⟩ -; exact ⟨rfl, rfl, by decide, by decide⟩
theorem cueBind (a : Args) : Statement (.cueBind a) := by
  rintro r a' ⟨⟩ -; exact ⟨rfl, rfl, by decide, by decide⟩
theorem cueStat (a : Args) : Statement (.cueStat a) := by
  rintro r a' ⟨⟩ -; exact ⟨rfl, rfl, by decide, by decide⟩
theorem ready (a : Args) : Statement (.ready a) := by
  rintro r a' ⟨⟩ -; exact ⟨rfl, rfl, by decide, by decide⟩
theorem park (a : Args) : Statement (.park a) := by
  rintro r a' ⟨⟩ -; exact ⟨rfl, rfl, by decide, by decide⟩
theorem rpoll (a : Args) : Statement (.rpoll a) := by
  rintro r a' ⟨⟩ -; exact ⟨rfl, rfl, by decide, by decide⟩
theorem rwait (a : Args) : Statement (.rwait a) := by
  rintro r a' ⟨⟩ -; exact ⟨rfl, rfl, by decide, by decide⟩
theorem rpop (a : Args) : Statement (.rpop a) := by
  rintro r a' ⟨⟩ -; exact ⟨rfl, rfl, by decide, by decide⟩
theorem mbinc (a : Args) : Statement (.mbinc a) := by
  rintro r a' ⟨⟩ -; exact ⟨rfl, rfl, by decide, by decide⟩
theorem mbwait (a : Args) : Statement (.mbwait a) := by
  rintro r a' ⟨⟩ -; exact ⟨rfl, rfl, by decide, by decide⟩
theorem mbget (a : Args) : Statement (.mbget a) := by
  rintro r a' ⟨⟩ -; exact ⟨rfl, rfl, by decide, by decide⟩
theorem sbind (a : Args) : Statement (.sbind a) := by
  rintro r a' ⟨⟩ -; exact ⟨rfl, rfl, by decide, by decide⟩
theorem sclose (a : Args) : Statement (.sclose a) := by
  rintro r a' ⟨⟩ -; exact ⟨rfl, rfl, by decide, by decide⟩
theorem sstat (a : Args) : Statement (.sstat a) := by
  rintro r a' ⟨⟩ -; exact ⟨rfl, rfl, by decide, by decide⟩
theorem sseek (a : Args) : Statement (.sseek a) := by
  rintro r a' ⟨⟩ -; exact ⟨rfl, rfl, by decide, by decide⟩
theorem beosP8 (a : Args) : Statement (.beosP8 a) := by
  rintro r a' ⟨⟩ -; exact ⟨rfl, rfl, by decide, by decide⟩
theorem ldfrP8 (a : Args) : Statement (.ldfrP8 a) := by
  rintro r a' ⟨⟩ -; exact ⟨rfl, rfl, by decide, by decide⟩
theorem stfrP8 (a : Args) : Statement (.stfrP8 a) := by
  rintro r a' ⟨⟩ -; exact ⟨rfl, rfl, by decide, by decide⟩
theorem vldfr (a : Args) : Statement (.vldfr a) := by
  rintro r a' ⟨⟩ -; exact ⟨rfl, rfl, by decide, by decide⟩
theorem vstfr (a : Args) : Statement (.vstfr a) := by
  rintro r a' ⟨⟩ -; exact ⟨rfl, rfl, by decide, by decide⟩
theorem enter (a : Args) : Statement (.enter a) := by
  rintro r a' ⟨⟩ -; exact ⟨rfl, rfl, by decide, by decide⟩
theorem leave (a : Args) : Statement (.leave a) := by
  rintro r a' ⟨⟩ -; exact ⟨rfl, rfl, by decide, by decide⟩
theorem dmov (a : Args) : Statement (.dmov a) := by
  rintro r a' ⟨⟩ -; exact ⟨rfl, rfl, by decide, by decide⟩
theorem frref (a : Args) : Statement (.frref a) := by
  rintro r a' ⟨⟩ -; exact ⟨rfl, rfl, by decide, by decide⟩
theorem frrel (a : Args) : Statement (.frrel a) := by
  rintro r a' ⟨⟩ -; exact ⟨rfl, rfl, by decide, by decide⟩
theorem cfetch (a : Args) : Statement (.cfetch a) := by
  rintro r a' ⟨⟩ -; exact ⟨rfl, rfl, by decide, by decide⟩
theorem cstat (a : Args) : Statement (.cstat a) := by
  rintro r a' ⟨⟩ -; exact ⟨rfl, rfl, by decide, by decide⟩
theorem jf (a : Args) : Statement (.jf a) := by
  rintro r a' ⟨⟩ -; exact ⟨rfl, rfl, by decide, by decide⟩
theorem jfl (a : Args) : Statement (.jfl a) := by
  rintro r a' ⟨⟩ -; exact ⟨rfl, rfl, by decide, by decide⟩
theorem curtain (a : Args) : Statement (.curtain a) := by
  rintro r a' ⟨⟩ -; exact ⟨rfl, rfl, by decide, by decide⟩
theorem curtainArr (a : Args) : Statement (.curtainArr a) := by
  rintro r a' ⟨⟩ -; exact ⟨rfl, rfl, by decide, by decide⟩
theorem curtainExcuse (a : Args) : Statement (.curtainExcuse a) := by
  rintro r a' ⟨⟩ -; exact ⟨rfl, rfl, by decide, by decide⟩
theorem castq (a : Args) : Statement (.castq a) := by
  rintro r a' ⟨⟩ -; exact ⟨rfl, rfl, by decide, by decide⟩
theorem qenq (a : Args) : Statement (.qenq a) := by
  rintro r a' ⟨⟩ -; exact ⟨rfl, rfl, by decide, by decide⟩
theorem qdeq (a : Args) : Statement (.qdeq a) := by
  rintro r a' ⟨⟩ -; exact ⟨rfl, rfl, by decide, by decide⟩
theorem qsteal (a : Args) : Statement (.qsteal a) := by
  rintro r a' ⟨⟩ -; exact ⟨rfl, rfl, by decide, by decide⟩
theorem qmint (a : Args) : Statement (.qmint a) := by
  rintro r a' ⟨⟩ -; exact ⟨rfl, rfl, by decide, by decide⟩
theorem chorus (a : Args) : Statement (.chorus a) := by
  rintro r a' ⟨⟩ -; exact ⟨rfl, rfl, by decide, by decide⟩
theorem chorusEnd (a : Args) : Statement (.chorusEnd a) := by
  rintro r a' ⟨⟩ -; exact ⟨rfl, rfl, by decide, by decide⟩
theorem partCfg (a : Args) : Statement (.partCfg a) := by
  rintro r a' ⟨⟩ -; exact ⟨rfl, rfl, by decide, by decide⟩
theorem partCfgRelease : ∀ x0, Statement (.partCfgRelease x0) := by
  rintro - r a' ⟨⟩
theorem partZero (a : Args) : Statement (.partZero a) := by
  rintro r a' ⟨⟩ -; exact ⟨rfl, rfl, by decide, by decide⟩
theorem partRun (a : Args) : Statement (.partRun a) := by
  rintro r a' ⟨⟩ -; exact ⟨rfl, rfl, by decide, by decide⟩
theorem partSusp (a : Args) : Statement (.partSusp a) := by
  rintro r a' ⟨⟩ -; exact ⟨rfl, rfl, by decide, by decide⟩
theorem slicePut (a : Args) : Statement (.slicePut a) := by
  rintro r a' ⟨⟩ -; exact ⟨rfl, rfl, by decide, by decide⟩
theorem sliceArm (a : Args) : Statement (.sliceArm a) := by
  rintro r a' ⟨⟩ -; exact ⟨rfl, rfl, by decide, by decide⟩
theorem keyPut (a : Args) : Statement (.keyPut a) := by
  rintro r a' ⟨⟩ -; exact ⟨rfl, rfl, by decide, by decide⟩
theorem keyZero (a : Args) : Statement (.keyZero a) := by
  rintro r a' ⟨⟩ -; exact ⟨rfl, rfl, by decide, by decide⟩
theorem sysPageTableWrite : ∀ x0 x1, Statement (.sysPageTableWrite x0 x1) := by
  rintro - - r a' ⟨⟩
theorem asyncTrapDelivery : ∀ x0 x1, Statement (.asyncTrapDelivery x0 x1) := by
  rintro - - r a' ⟨⟩
theorem codeletStart : ∀ x0 x1, Statement (.codeletStart x0 x1) := by
  rintro - - r a' ⟨⟩
theorem contextResume : ∀ x0 x1, Statement (.contextResume x0 x1) := by
  rintro - - r a' ⟨⟩
theorem faultResume : ∀ x0 x1, Statement (.faultResume x0 x1) := by
  rintro - - r a' ⟨⟩
theorem eventTake : ∀ x0, Statement (.eventTake x0) := by
  rintro - r a' ⟨⟩
theorem cueDecArrival : ∀ x0, Statement (.cueDecArrival x0) := by
  rintro - r a' ⟨⟩
theorem messageAppend : ∀ x0, Statement (.messageAppend x0) := by
  rintro - r a' ⟨⟩
theorem postedStoreArrival : ∀ x0, Statement (.postedStoreArrival x0) := by
  rintro - r a' ⟨⟩
theorem stvArrival : ∀ x0, Statement (.stvArrival x0) := by
  rintro - r a' ⟨⟩
theorem mailboxIncrement : ∀ x0, Statement (.mailboxIncrement x0) := by
  rintro - r a' ⟨⟩
theorem deliveryAccepted : ∀ x0, Statement (.deliveryAccepted x0) := by
  rintro - r a' ⟨⟩
theorem deliveryRefused : ∀ x0, Statement (.deliveryRefused x0) := by
  rintro - r a' ⟨⟩
theorem retransmit : ∀ x0, Statement (.retransmit x0) := by
  rintro - r a' ⟨⟩
theorem farRequest : ∀ x0, Statement (.farRequest x0) := by
  rintro - r a' ⟨⟩
theorem farAnswer : ∀ x0, Statement (.farAnswer x0) := by
  rintro - r a' ⟨⟩
theorem contextWake : ∀ x0, Statement (.contextWake x0) := by
  rintro - r a' ⟨⟩
theorem faultWake : ∀ x0, Statement (.faultWake x0) := by
  rintro - r a' ⟨⟩
theorem versionWaitPark : ∀ x0 x1, Statement (.versionWaitPark x0 x1) := by
  rintro - - r a' ⟨⟩
theorem parkTimeout : ∀ x0 x1, Statement (.parkTimeout x0 x1) := by
  rintro - - r a' ⟨⟩
theorem quantumChoice : ∀ x0, Statement (.quantumChoice x0) := by
  rintro - r a' ⟨⟩
theorem fetchComplete : ∀ x0 x1 x2, Statement (.fetchComplete x0 x1 x2) := by
  rintro - - - r a' ⟨⟩
theorem fetchFault : ∀ x0 x1 x2, Statement (.fetchFault x0 x1 x2) := by
  rintro - - - r a' ⟨⟩
theorem drainEnd : ∀ x0 x1 x2, Statement (.drainEnd x0 x1 x2) := by
  rintro - - - r a' ⟨⟩
theorem writebackDone : ∀ x0 x1 x2, Statement (.writebackDone x0 x1 x2) := by
  rintro - - - r a' ⟨⟩
theorem pinTimeout : ∀ x0 x1 x2, Statement (.pinTimeout x0 x1 x2) := by
  rintro - - - r a' ⟨⟩
theorem streamFill : ∀ x0 x1 x2, Statement (.streamFill x0 x1 x2) := by
  rintro - - - r a' ⟨⟩
theorem streamDrain : ∀ x0 x1 x2, Statement (.streamDrain x0 x1 x2) := by
  rintro - - - r a' ⟨⟩
theorem linkElementArrival : ∀ x0, Statement (.linkElementArrival x0) := by
  rintro - r a' ⟨⟩
theorem copyPush : ∀ x0, Statement (.copyPush x0) := by
  rintro - r a' ⟨⟩
theorem copyFault : ∀ x0, Statement (.copyFault x0) := by
  rintro - r a' ⟨⟩
theorem jobStart : ∀ x0 x1, Statement (.jobStart x0 x1) := by
  rintro - - r a' ⟨⟩
theorem jobComplete : ∀ x0 x1, Statement (.jobComplete x0 x1) := by
  rintro - - r a' ⟨⟩
theorem jobFault : ∀ x0 x1, Statement (.jobFault x0 x1) := by
  rintro - - r a' ⟨⟩
theorem stageTimeout : ∀ x0 x1, Statement (.stageTimeout x0 x1) := by
  rintro - - r a' ⟨⟩
theorem matrixBegin : ∀ x0, Statement (.matrixBegin x0) := by
  rintro - r a' ⟨⟩
theorem matrixComplete : ∀ x0, Statement (.matrixComplete x0) := by
  rintro - r a' ⟨⟩
theorem gangBarrierComplete : ∀ x0 x1, Statement (.gangBarrierComplete x0 x1) := by
  rintro - - r a' ⟨⟩
theorem gangTimeout : ∀ x0 x1, Statement (.gangTimeout x0 x1) := by
  rintro - - r a' ⟨⟩
theorem gangAbort : ∀ x0 x1, Statement (.gangAbort x0 x1) := by
  rintro - - r a' ⟨⟩
theorem schurComplete : ∀ x0, Statement (.schurComplete x0) := by
  rintro - r a' ⟨⟩
theorem curtainRelease : ∀ x0 x1, Statement (.curtainRelease x0 x1) := by
  rintro - - r a' ⟨⟩
theorem curtainTimeout : ∀ x0 x1, Statement (.curtainTimeout x0 x1) := by
  rintro - - r a' ⟨⟩
theorem mailboxTimeout : ∀ x0 x1, Statement (.mailboxTimeout x0 x1) := by
  rintro - - r a' ⟨⟩
theorem chorusWaitTimeout : ∀ x0 x1, Statement (.chorusWaitTimeout x0 x1) := by
  rintro - - r a' ⟨⟩
theorem castRoundComplete : ∀ x0 x1, Statement (.castRoundComplete x0 x1) := by
  rintro - - r a' ⟨⟩
theorem collectiveTimeout : ∀ x0 x1, Statement (.collectiveTimeout x0 x1) := by
  rintro - - r a' ⟨⟩
theorem overlayFetchDone : ∀ x0 x1, Statement (.overlayFetchDone x0 x1) := by
  rintro - - r a' ⟨⟩
theorem energyUpdate : Statement .energyUpdate := by rintro r a ⟨⟩
theorem budgetPeriod : Statement .budgetPeriod := by rintro r a ⟨⟩
theorem powerPeriod : Statement .powerPeriod := by rintro r a ⟨⟩
theorem launchGo : ∀ x0, Statement (.launchGo x0) := by
  rintro - r a' ⟨⟩
theorem zeroingDone : ∀ x0, Statement (.zeroingDone x0) := by
  rintro - r a' ⟨⟩
theorem sliceSwitch : Statement .sliceSwitch := by rintro r a ⟨⟩
theorem linkResync : ∀ x0 x1, Statement (.linkResync x0 x1) := by
  rintro - - r a' ⟨⟩
theorem linkDead : ∀ x0 x1, Statement (.linkDead x0 x1) := by
  rintro - - r a' ⟨⟩
theorem routeChange : Statement .routeChange := by rintro r a ⟨⟩
theorem moduleReset : Statement .moduleReset := by rintro r a ⟨⟩
theorem configurePartition : ∀ x0, Statement (.configurePartition x0) := by
  rintro - r a' ⟨⟩
theorem zeroPartition : ∀ x0, Statement (.zeroPartition x0) := by
  rintro - r a' ⟨⟩
theorem launch : ∀ x0, Statement (.launch x0) := by
  rintro - r a' ⟨⟩
theorem suspend : ∀ x0, Statement (.suspend x0) := by
  rintro - r a' ⟨⟩
theorem resume : ∀ x0, Statement (.resume x0) := by
  rintro - r a' ⟨⟩
theorem sliceEntry : ∀ x0, Statement (.sliceEntry x0) := by
  rintro - r a' ⟨⟩
theorem armSlices : ∀ x0, Statement (.armSlices x0) := by
  rintro - r a' ⟨⟩
theorem setAllotment : ∀ x0, Statement (.setAllotment x0) := by
  rintro - r a' ⟨⟩
theorem readEnergy : ∀ x0, Statement (.readEnergy x0) := by
  rintro - r a' ⟨⟩
theorem attest : ∀ x0, Statement (.attest x0) := by
  rintro - r a' ⟨⟩
theorem advanceRollback : ∀ x0, Statement (.advanceRollback x0) := by
  rintro - r a' ⟨⟩
theorem readStatus : ∀ x0, Statement (.readStatus x0) := by
  rintro - r a' ⟨⟩
theorem rdmaWrite : ∀ x0 x1 x2, Statement (.rdmaWrite x0 x1 x2) := by
  rintro - - - r a' ⟨⟩
theorem rdmaRead : ∀ x0 x1 x2, Statement (.rdmaRead x0 x1 x2) := by
  rintro - - - r a' ⟨⟩
theorem roceSend : ∀ x0 x1, Statement (.roceSend x0 x1) := by
  rintro - - r a' ⟨⟩
theorem ptpMessage : ∀ x0, Statement (.ptpMessage x0) := by
  rintro - r a' ⟨⟩
theorem ptpHoldover : Statement .ptpHoldover := by rintro r a ⟨⟩
theorem addressResolution : ∀ x0 x1, Statement (.addressResolution x0 x1) := by
  rintro - - r a' ⟨⟩
theorem illegalInstruction : ∀ x0, Statement (.illegalInstruction x0) := by
  rintro - r a' ⟨⟩
theorem instructionFetch : ∀ x0 x1, Statement (.instructionFetch x0 x1) := by
  rintro - - r a' ⟨⟩
theorem droppedFrame : ∀ x0, Statement (.droppedFrame x0) := by
  rintro - r a' ⟨⟩
theorem priorityFlowControl : ∀ x0 x1 x2, Statement (.priorityFlowControl x0 x1 x2) := by
  rintro - - - r a' ⟨⟩
theorem portLinkUpOrDown : ∀ x0 x1, Statement (.portLinkUpOrDown x0 x1) := by
  rintro - - r a' ⟨⟩
theorem stage1FirmwareUpdate : ∀ x0, Statement (.stage1FirmwareUpdate x0) := by
  rintro - r a' ⟨⟩

end Sys2Proof.Laws.MapEntry
end

