-- ==== Sys2Proof/Tests/Base.lean ====
section
/-! SUPPORT. Small states for the witnesses. -/

namespace Sys2Proof.Tests
open Sys2Proof.Machine

/-- A word that depends on `i`. -/
def rnd (i : Nat) : Word := BitVec.ofNat 64 (i * 0x9E3779B97F4A7C15)

/-- A thread set that runs a codelet at 0x400, with a trap handler, at user or supervisor level. -/
def ts (i : Nat) : ThreadSet :=
  { busy := true, kvec := 0x2000, pc := 0x400, cid := 7, priv := if i % 2 = 0 then .user else .supervisor
    x := Vector.ofFn fun j => if j.val = 0 then 0 else rnd (i + j + 3)
    v := Vector.ofFn fun j => rnd (i + j) ++ rnd (i + 100 + j), p := Vector.ofFn fun j => (rnd (i + j)).setWidth 16 }

/-- A core of partition 3 whose four thread sets run. -/
def kk (i : Nat) : Core := { ts := Vector.replicate 4 (ts i), part := 3, placed := true, side := [(0x200, { ver := 5 })] }

/-- Cores 5, 6, 20 and 40 live; thread set `t` of core `c` performs its next instruction; partition 3 of two clusters runs. -/
def mkS (i c t : Nat) : State :=
  let p : Partition := { st := .running, w := 2, h := 1 }
  { mach := { cores := [(5, kk i), (6, kk (i + 50)), (20, kk (i + 90)), (40, kk (i + 95))]
              parts := (Vector.replicate 16 ({} : Partition)).set 3 p, cur := .core c t, npc := 0x404, clk := 1000000 + i
              fusedCopy := [7] } }

/-- The state with scalar register `n` of the current thread set set. -/
def setX (s : State) (n : Nat) (v : Word) : State :=
  { s with mach := s.mach.modMe fun u => u.setX (BitVec.ofNat 5 n) v }

/-- The address of offset `off` of core `q` in space 0x1. -/
def ca (q off : Nat) : Word := BitVec.ofNat 64 (2 ^ 60 + (q % 512) * 2 ^ 32 + (q / 512) * 2 ^ 24 + off)

end Sys2Proof.Tests
end

