-- ==== Sys2Proof/Tests/Hyps.lean ====
section
/-! SUPPORT. The hypotheses of the statements of `Sys2Proof/Certificates/Slice0/Obligations.lean`, as lists of Booleans, for the
witnesses. -/

namespace Sys2Proof.Tests
open Sys2Proof.Machine
set_option linter.unusedVariables false

/-- The hypotheses under which `ScalarBinaryForms` states something, each set of them once. -/
def hypsScalarBinaryForms (s : State) (c t : Nat) (a : Args) : List Bool :=
  [decide (Plain s.mach c t = true)]

/-- The hypotheses under which `ScalarUnaryAndImmediateForms` states something, each set of them once. -/
def hypsScalarUnaryAndImmediateForms (s : State) (c t : Nat) (a : Args) : List Bool :=
  [decide (Plain s.mach c t = true)]

/-- The hypotheses under which `BranchForms` states something, each set of them once. -/
def hypsBranchForms (s : State) (c t : Nat) (a : Args) : List Bool :=
  [decide (Plain s.mach c t = true)]

/-- The hypotheses under which `JumpForms` states something, each set of them once. -/
def hypsJumpForms (s : State) (c t : Nat) (a : Args) : List Bool :=
  [decide (Plain s.mach c t = true)]

/-- The hypotheses under which `FencedJumps` states something, each set of them once. -/
def hypsFencedJumps (s : State) (c t r : Nat) (a : Args) : List Bool :=
  let target := BitVec.ofInt 14 (s.mach.me.pc.toNat + 2 * a.imm.toInt)
  let g := target.toNat / 1024
  let st := (s.mach.myCore.slot g).st
  [decide (Plain s.mach c t = true ∧ st = .valid),
   decide (Plain s.mach c t = true ∧ st = .empty),
   decide (Plain s.mach c t = true ∧ st = .loading ∧ s.mach.myCore.freeRec = none),
   decide (Plain s.mach c t = true ∧ st = .loading ∧ s.mach.myCore.freeRec = some r ∧ s.mach.recHeld c r = false)]

/-- The hypotheses under which `ControlRegisterReads` states something, each set of them once. -/
def hypsControlRegisterReads (s : State) (c t : Nat) (a : Args) : List Bool :=
  let m := s.mach.me
  [decide (Plain s.mach c t = true),
   decide (Plain s.mach c t = true ∧ c < 73728),
   decide (Plain s.mach c t = true ∧ m.priv ≠ .user)]

/-- The hypotheses under which `ControlRegisterTraps` states something, each set of them once. -/
def hypsControlRegisterTraps (s : State) (c t : Nat) (a : Args) (sel : Nat) : List Bool :=
  [decide (Plain s.mach c t = true ∧ (s.mach.me.priv = .user ∧ (sel = 0x0B ∨ sel = 0x0C))),
   decide (Plain s.mach c t = true ∧ s.on a = false),
   decide (Plain s.mach c t = true ∧ s.on a = true)]

/-- The hypotheses under which `ControlRegisterWrites` states something, each set of them once. -/
def hypsControlRegisterWrites (s : State) (c t : Nat) (a : Args) : List Bool :=
  let n := s.mach.me.xreg a.d
  let v := n.toNat
  let p := s.mach.part s.mach.myCore.part.toNat
  [decide (Plain s.mach c t = true ∧ s.on a = true ∧ v < 256 ∧ v / 4 = s.mach.me.kmode.toNat / 4),
   decide (Plain s.mach c t = true ∧ s.on a = true ∧ v < 64),
   decide (Plain s.mach c t = true ∧ s.on a = true ∧ v < 32),
   decide (Plain s.mach c t = true ∧ s.on a = true ∧ v < 65536),
   decide (Plain s.mach c t = true ∧ s.on a = true ∧ v < 16),
   decide (Plain s.mach c t = true ∧ s.on a = true ∧ v < 2 ^ 32),
   decide (Plain s.mach c t = true ∧ s.on a = true ∧ s.mach.me.priv ≠ .user ∧ c < 73728 ∧ v < 128 ∧ v / 32 = p.pha.toNat + 2 * p.phb.toNat ∧ 8 ≤ v % 32),
   decide (Plain s.mach c t = true ∧ s.on a = true ∧ s.mach.me.priv ≠ .user ∧ v / 65536 = s.mach.myCore.fence.toNat ∧ 256 ≤ v % 65536),
   decide (Plain s.mach c t = true ∧ s.on a = true ∧ s.mach.me.priv ≠ .user ∧ v < 65536),
   decide (Plain s.mach c t = true ∧ s.on a = true ∧ s.mach.me.priv ≠ .user ∧ v < 2 ^ 14),
   decide (Plain s.mach c t = true ∧ s.on a = true ∧ ∀ i < 8, v / 2 ^ 54 % 32 = 0 ∧ v / 2 ^ 59 % 8 < 6 ∧ v % 2 ^ 9 ≤ v / 2 ^ 9 % 2 ^ 9)]

/-- The hypotheses under which `TrapEntry` states something, each set of them once. -/
def hypsTrapEntry (m : Mach) (c t v d off : Nat) (r : FaultRec) (pc : BitVec 14) : List Bool :=
  [decide (t < 4 ∧ ((m.core c).tset t).kvec ≠ 0),
   decide (t < 4 ∧ ((m.core c).tset t).kvec ≠ 0 ∧ v ≠ t),
   decide (t < 4 ∧ ((m.core c).tset t).kvec ≠ 0 ∧ d ≠ c)]

/-- The hypotheses under which `TrapKills` states something, each set of them once. -/
def hypsTrapKills (m : Mach) (c t d : Nat) (r : FaultRec) (pc : BitVec 14) : List Bool :=
  [decide (t < 4 ∧ ((m.core c).tset t).kvec = 0 ∧ ((m.core c).tset t).cho = false ∧ (m.core c).joinOf t = 0 ∧ (m.core c).events.length < 16),
   decide (t < 4 ∧ ((m.core c).tset t).kvec = 0 ∧ ((m.core c).tset t).cho = false ∧ (m.core c).joinOf t = 0 ∧ (m.core c).events.length < 16 ∧ d ≠ c)]

/-- The hypotheses under which `SystemForms` states something, each set of them once. -/
def hypsSystemForms (s : State) (c t off : Nat) (a : Args) : List Bool :=
  let u := s.mach.me
  [decide (Plain s.mach c t = true),
   decide (Plain s.mach c t = true ∧ u.priv = .user),
   decide (Plain s.mach c t = true ∧ u.priv ≠ .user ∧ u.kepcPriv = 3),
   decide (Plain s.mach c t = true ∧ u.priv ≠ .user ∧ u.kepcPriv ≠ 3 ∧ u.priv.code < u.kepcPriv.toNat),
   decide (Plain s.mach c t = true ∧ u.priv ≠ .user ∧ u.kepcPriv.toNat ≤ u.priv.code),
   decide (Plain s.mach c t = true ∧ u.priv ≠ .user)]

/-- The hypotheses under which `DoneEndsTheCodelet` states something, each set of them once. -/
def hypsDoneEndsTheCodelet (s : State) (c t q off : Nat) (a : Args) (code : Nat) : List Bool :=
  let k := s.mach.myCore
  let heads : List Nat := (([7, 6, 5, 4, 3].map fun i => vget s.mach.me.d 0 i).filter (· != 0)).map fun f => f.toNat % 65536 + 8
  let words : List Nat := heads ++ (if vget s.mach.me.d 0 3 = 0 then [] else [(vget s.mach.me.d 0 3).toNat % 65536 + 16])
  let calm : Bool := heads.all (fun h => !s.mach.heldRange c h 8) && words.all (fun w => w % 8 == 0 && (k.sideAt w).ecc == .good)
  let j := k.joinOf t
  let m := s.mach.modCore c (·.leaveAll t)
  [decide (Plain s.mach c t = true ∧ s.mach.me.doneJoin = none ∧ calm = true ∧ j = 0),
   decide (Plain s.mach c t = true ∧ s.mach.me.doneJoin = none ∧ calm = true ∧ j ≠ 0 ∧ m.cueTarget c j = .ok (q, off) ∧ m.windowFree c = true),
   decide (Plain s.mach c t = true ∧ s.mach.me.doneJoin = none ∧ calm = true ∧ j ≠ 0 ∧ m.cueTarget c j = .ok (q, off) ∧ m.windowFree c = false),
   decide (Plain s.mach c t = true ∧ s.mach.me.doneJoin = none ∧ calm = true ∧ j ≠ 0 ∧ m.cueTarget c j = .error code)]

/-- The hypotheses under which `ParkForms` states something, each set of them once. -/
def hypsParkForms (s : State) (c t i : Nat) (a : Args) : List Bool :=
  let e := s.mach.me.xreg a.s
  let kind := e.toNat / 2 ^ 62
  let time := e.toNat / 2 ^ 40 % 2 ^ 20
  let fits := e.toNat / 2 ^ 60 % 4 = 0 ∧ e.toNat / 2 ^ 26 % 2 ^ 14 = 0
  let k := s.mach.myCore
  let reads : List Nat := if kind = 1 then [e.toNat % 2 ^ 16]
    else if kind = 2 then [k.inOff (e.toNat / 2 ^ 24 % 4), k.inOff (e.toNat / 2 ^ 24 % 4) + 8] else []
  let good := kind ≠ 3 ∧ fits ∧ (kind = 0 → time ≠ 0) ∧ (kind = 1 → e.toNat % 8 = 0) ∧
    reads.all (fun w => (k.sideAt w).ecc == .good) = true
  [decide (Plain s.mach c t = true ∧ (kind = 3 ∨ ¬fits ∨ (kind = 0 ∧ time = 0))),
   decide (Plain s.mach c t = true ∧ kind = 1 ∧ fits ∧ e.toNat % 8 ≠ 0),
   decide (Plain s.mach c t = true ∧ good ∧ k.eventHolds e = true),
   decide (Plain s.mach c t = true ∧ good ∧ k.eventHolds e = false ∧ k.freeRec = none),
   decide (Plain s.mach c t = true ∧ good ∧ k.eventHolds e = false ∧ k.freeRec = some i ∧ s.mach.recHeld c i = false)]

/-- The hypotheses under which `ScalarLoads` states something, each set of them once. -/
def hypsScalarLoads (s : State) (c t off q : Nat) (a : Args) (i : Instr) (n : Nat) : List Bool :=
  let ea := s.mach.me.xreg a.s + a.imm
  let runs := s.on a = true ∧ off % n = 0
  [decide (Plain s.mach c t = true ∧ (i, n) ∈ [(Instr.ldD a, 8), (Instr.ldW a, 4), (Instr.ldSize a, 2 ^ (a.v.toNat % 4)), (Instr.ldAcq a, 2 ^ (a.v.toNat % 4))] ∧ s.on a = false),
   decide (Plain s.mach c t = true ∧ (i, n) ∈ [(Instr.ldD a, 8), (Instr.ldW a, 4), (Instr.ldSize a, 2 ^ (a.v.toNat % 4)), (Instr.ldAcq a, 2 ^ (a.v.toNat % 4))] ∧ runs ∧ ownAt c ea off = true ∧ s.mach.admits c t off n false = true),
   decide (Plain s.mach c t = true ∧ (i, n) ∈ [(Instr.ldD a, 8), (Instr.ldW a, 4), (Instr.ldSize a, 2 ^ (a.v.toNat % 4)), (Instr.ldAcq a, 2 ^ (a.v.toNat % 4))] ∧ runs ∧ coreAt q ea off = true ∧ q ≠ c ∧ sameCluster c q = true ∧ s.mach.live q = true ∧ s.mach.injPaused = false ∧ s.mach.gone.contains q = false ∧ s.mach.unaccepted c t q off n = false ∧ (s.mach.core q).aboveMark off n = none ∧ (s.mach.core q).badRead off n = none)]

/-- The hypotheses under which `ScalarStores` states something, each set of them once. -/
def hypsScalarStores (s : State) (c t off q d b : Nat) (a : Args) (i : Instr) (n : Nat) : List Bool :=
  let ea := s.mach.me.xreg a.s + a.imm
  let v := s.mach.me.xreg a.d
  let runs := s.on a = true ∧ off % n = 0
  [decide (Plain s.mach c t = true ∧ (i, n) ∈ [(Instr.stD a, 8), (Instr.stW a, 4), (Instr.stSize a, 2 ^ (a.v.toNat % 4)), (Instr.stS a, 2 ^ (a.v.toNat % 4)), (Instr.stRel a, 2 ^ (a.v.toNat % 4))] ∧ (i = .stRel a → s.mach.quiet c t = true) ∧ s.on a = false),
   decide (Plain s.mach c t = true ∧ (i, n) ∈ [(Instr.stD a, 8), (Instr.stW a, 4), (Instr.stSize a, 2 ^ (a.v.toNat % 4)), (Instr.stS a, 2 ^ (a.v.toNat % 4)), (Instr.stRel a, 2 ^ (a.v.toNat % 4))] ∧ (i = .stRel a → s.mach.quiet c t = true) ∧ runs ∧ ownAt c ea off = true ∧ s.mach.admits c t off n true = true),
   decide (Plain s.mach c t = true ∧ (i, n) ∈ [(Instr.stD a, 8), (Instr.stW a, 4), (Instr.stSize a, 2 ^ (a.v.toNat % 4)), (Instr.stS a, 2 ^ (a.v.toNat % 4)), (Instr.stRel a, 2 ^ (a.v.toNat % 4))] ∧ (i = .stRel a → s.mach.quiet c t = true) ∧ runs ∧ coreAt q ea off = true ∧ q ≠ c ∧ sameCluster c q = true ∧ s.mach.live q = true ∧ s.mach.windowFree c = true)]

/-- The hypotheses under which `PostedStores` states something, each set of them once. -/
def hypsPostedStores (s : State) (c t off q : Nat) (a : Args) (i : Instr) (n : Nat) : List Bool :=
  let ea := s.mach.me.xreg a.s + a.imm
  let sends := off % n = 0 ∧ coreAt q ea off = true ∧ q ≠ c ∧ s.mach.live q = true ∧
    (s.mach.part s.mach.myCore.part.toNat).holds (q % 512) (q / 512) = true
  [decide (Plain s.mach c t = true ∧ s.on a = true ∧ c < 73728 ∧ (i, n) ∈ [(Instr.pstD a, 8), (Instr.pstSize a, 2 ^ (a.v.toNat % 4))] ∧ off % n = 0 ∧ ownAt c ea off = true ∧ s.mach.admits c t off n true = true),
   decide (Plain s.mach c t = true ∧ s.on a = true ∧ c < 73728 ∧ (i, n) ∈ [(Instr.pstD a, 8), (Instr.pstSize a, 2 ^ (a.v.toNat % 4))] ∧ sends ∧ s.mach.windowFree c = true),
   decide (Plain s.mach c t = true ∧ s.on a = true ∧ c < 73728 ∧ (i, n) ∈ [(Instr.pstD a, 8), (Instr.pstSize a, 2 ^ (a.v.toNat % 4))] ∧ sends ∧ s.mach.windowFree c = false)]

/-- The hypotheses under which `ReleaseBehindDeliveries` states something, each set of them once. -/
def hypsReleaseBehindDeliveries (s : State) (c t : Nat) (a : Args) (off q : Nat) : List Bool :=
  let n := 2 ^ (a.v.toNat % 4)
  let ea := s.mach.me.xreg a.s + a.imm
  let sends := (clusterCores c).contains q = true ∧ coreAt q ea off = true ∧ off % n = 0 ∧ q ≠ c ∧ s.mach.live q = true ∧
    sameCluster c q = true ∧ (s.mach.core q).protectedAt off n = none ∧ (s.mach.core q).aboveMark off n = none
  [decide (Plain s.mach c t = true ∧ s.on a = true ∧ s.mach.quiet c t = false ∧ ownAt c ea off = true ∧ off % n = 0 ∧ (List.range n).all (fun i => s.mach.admits c t ((off + i) / 8 * 8) 8 true) = true),
   decide (Plain s.mach c t = true ∧ s.on a = true ∧ s.mach.quiet c t = false ∧ sends ∧ s.mach.windowFree c = true),
   decide (Plain s.mach c t = true ∧ s.on a = true ∧ s.mach.quiet c t = false ∧ sends ∧ s.mach.windowFree c = false)]

/-- The hypotheses under which `AddressChecks` states something, each set of them once. -/
def hypsAddressChecks (s : State) (c t q off f : Nat) (a : Args) : List Bool :=
  let ea := s.mach.me.xreg a.s + a.imm
  let sp := ea.toNat / 2 ^ 60
  let remote := coreAt q ea off = true ∧ off % 8 = 0 ∧ q ≠ c
  let aligned := ea.toNat < 65536 ∧ ea.toNat % 8 = 0
  [decide (Plain s.mach c t = true ∧ s.on a = true ∧ 2 ≤ sp ∧ sp ≤ 14),
   decide (Plain s.mach c t = true ∧ s.on a = true ∧ sp = 15 ∧ s.mach.me.priv = .user),
   decide (Plain s.mach c t = true ∧ s.on a = true ∧ sp = 15 ∧ s.mach.me.priv ≠ .user),
   decide (Plain s.mach c t = true ∧ s.on a = true ∧ sp = 0 ∧ 65536 ≤ ea.toNat),
   decide (Plain s.mach c t = true ∧ s.on a = true ∧ sp = 0 ∧ ea.toNat < 65536 ∧ ea.toNat % 8 ≠ 0),
   decide (Plain s.mach c t = true ∧ s.on a = true ∧ remote ∧ s.mach.live q = false),
   decide (Plain s.mach c t = true ∧ s.on a = true ∧ remote ∧ s.mach.live q = true ∧ sameCluster c q = false),
   decide (Plain s.mach c t = true ∧ s.on a = true ∧ remote ∧ s.mach.live q = true ∧ c < 73728 ∧ (s.mach.part s.mach.myCore.part.toNat).holds (q % 512) (q / 512) = false),
   decide (Plain s.mach c t = true ∧ s.on a = true ∧ aligned ∧ s.mach.myCore.inQueueArea ea.toNat = true),
   decide (Plain s.mach c t = true ∧ s.on a = true ∧ aligned ∧ s.mach.myCore.inQueueArea ea.toNat = false ∧ s.mach.myCore.inQueueArea (ea.toNat + 7) = false ∧ s.mach.myCore.headerOf ea.toNat = some f)]

/-- The hypotheses under which `AtomicForms` states something, each set of them once. -/
def hypsAtomicForms (s : State) (c t : Nat) (a : Args) (off : Nat) (i : Instr) : List Bool :=
  let n := 2 ^ (a.v.toNat % 4)
  let forms := [Instr.amoAdd a, .amoAnd a, .amoOr a, .amoXor a, .amoSwap a, .amoMin a, .amoMax a, .amoMinu a, .amoMaxu a, .cas a]
  [decide (Plain s.mach c t = true ∧ s.on a = true ∧ off % n = 0 ∧ ownAt c (s.mach.me.xreg a.s + a.imm) off = true ∧ s.mach.quiet c t = true ∧ s.mach.admits c t off n true = true),
   decide (Plain s.mach c t = true ∧ s.on a = false ∧ i ∈ forms)]

/-- The hypotheses under which `VersionedForms` states something, each set of them once. -/
def hypsVersionedForms (s : State) (c t : Nat) (a : Args) (off q : Nat) (i : Instr) : List Bool :=
  let ea := s.mach.me.xreg a.s + a.imm
  let k := s.mach.myCore
  let ver := k.verAt off
  let n := (s.mach.me.xreg a.t).setWidth 8
  let runs := s.on a = true ∧ off % 8 = 0
  let mine := runs ∧ ownAt c ea off = true ∧ s.mach.admits c t off 8 false = true
  let sends := runs ∧ ((ownAt c ea off = true ∧ q = c ∧ k.protectedAt off 8 = none) ∨
    (coreAt q ea off = true ∧ q ≠ c ∧ c < 73728 ∧ s.mach.live q = true ∧ (s.mach.part k.part.toNat).holds (q % 512) (q / 512) = true))
  [decide (Plain s.mach c t = true ∧ s.on a = false ∧ i ∈ [Instr.ldv a, .ver a, .rcl a, .stv a]),
   decide (Plain s.mach c t = true ∧ mine ∧ (ver - n).toNat < 128),
   decide (Plain s.mach c t = true ∧ mine ∧ 128 ≤ (ver - n).toNat),
   decide (Plain s.mach c t = true ∧ mine ∧ s.mach.quietOwner c t off = true),
   decide (Plain s.mach c t = true ∧ runs ∧ ownAt c ea off = true ∧ k.badRead off 8 = none),
   decide (Plain s.mach c t = true ∧ sends ∧ s.mach.windowFree c = true),
   decide (Plain s.mach c t = true ∧ sends ∧ s.mach.windowFree c = false)]

/-- The hypotheses under which `FencePasses` states something, each set of them once. -/
def hypsFencePasses (s : State) (c t : Nat) (a : Args) : List Bool :=
  [decide (Plain s.mach c t = true ∧ (a.v.toNat = 0 ∨ s.mach.quiet c t = true)),
   decide (Plain s.mach c t = true ∧ 1 ≤ a.v.toNat ∧ s.mach.quiet c t = false)]

/-- The hypotheses under which `StreamOperands` states something, each set of them once. -/
def hypsStreamOperands (s : State) (c t : Nat) (a : Args) (i : Nat) : List Bool :=
  let u := s.mach.me
  let p := u.slot i
  [decide (Alone s.mach c t = true ∧ a.p = 7 ∧ u.portOf false a.s = some i ∧ u.portOf false a.d = none ∧ p.dir = false ∧ p.kind < 7),
   decide (Alone s.mach c t = true ∧ a.p = 7 ∧ u.portOf false a.d = some i ∧ u.portOf false a.s = none ∧ p.dir = true ∧ p.kind = 1),
   decide (Alone s.mach c t = true ∧ u.portOf false a.d = some i),
   decide (Alone s.mach c t = true ∧ ∀ f ∈ [Instr.add a, .sub a, .and a, .or a, .xor a, .andn a, .shl a, .shr a, .sra a, .rol a] ++ [Instr.mul a, .mulh a, .mulhu a, .seq a, .slt a, .sltu a, .min a, .max a, .minu a, .maxu a, .adds a] ++ [Instr.div a, .rem a, .divu a, .remu a, .mov a, .clz a, .ctz a, .popc a, .bswap a, .sext a, .zext a, .bfx a], a.p = 7 ∧ a.short = false ∧ u.portOf false a.t = none)]

/-- The hypotheses under which `StreamForms` states something, each set of them once. -/
def hypsStreamForms (s : State) (c t : Nat) (a : Args) : List Bool :=
  let u := s.mach.me
  let k := s.mach.myCore
  let i := a.d.toNat
  let p := u.slot i
  let ea := u.xreg a.s
  let off := ea.toNat
  let word (j : Nat) : Word := BitVec.ofNat 64 (k.number (off + 8 * j) 8)
  let new : Slot := { bnd := true, w0 := word 0, w1 := word 1, w2 := word 2 }
  let readable := u.anyBound = false ∧ off + 32 ≤ 65536 ∧ off % 16 = 0 ∧
    (List.range 4).all (fun j => s.mach.admits c t (off + 8 * j) 8 false) = true
  let open_ := readable ∧ new.bindable (word 3) = true ∧ (7 ≤ new.kind → s.mach.neighbour c (new.kind - 7) ≠ none)
  let head := k.number new.base 8
  let ends := p.endWords p.pos.toNat p.nnz
  [decide (Alone s.mach c t = true ∧ open_ ∧ new.kind ≠ 3 ∧ k.heldCount < 3),
   decide (Alone s.mach c t = true ∧ open_ ∧ new.kind = 3 ∧ s.mach.admits c t new.base 8 false = true ∧ headerOk (BitVec.ofNat 64 head) new = true ∧ k.heldCount < 3),
   decide (Alone s.mach c t = true ∧ readable ∧ new.bindable (word 3) = true ∧ 7 ≤ new.kind ∧ s.mach.neighbour c (new.kind - 7) = none),
   decide (Alone s.mach c t = true ∧ open_ ∧ new.kind ≠ 3 ∧ ¬k.heldCount < 3),
   decide (Alone s.mach c t = true ∧ (p.bnd = true ∧ ((p.dir = false ∨ p.fifo = [])) ∧ (p.kind ≠ 2 ∨ p.header = true ∨ p.flt = true))),
   decide (Alone s.mach c t = true ∧ p.bnd = true ∧ p.kind = 2 ∧ p.fifo = [] ∧ p.header = false ∧ p.flt = false ∧ k.wordsFault ends = none ∧ s.mach.drainGate c t (ends.map (· / 8)) = true),
   decide (Alone s.mach c t = true ∧ p.bnd = false),
   decide (Alone s.mach c t = true ∧ ((u.anyBound = false ∨ a.d.toNat < 24) ∧ s.on a = true)),
   decide (Alone s.mach c t = true ∧ a.s.toNat < 24 ∧ p.bnd = true ∧ p.kind ∈ [0, 1, 4] ∧ off ≤ (k.slotTotal p).getD 0),
   decide (Alone s.mach c t = true)]

/-- The hypotheses under which `FarAccesses` states something, each set of them once. -/
def hypsFarAccesses (s : State) (c t : Nat) (a : Args) (bs : List Byte) (h : Nat × Nat × Nat) (code : Byte) (e : Word) : List Bool :=
  let u := s.mach.me
  let ea := u.xreg a.s + a.imm
  let n := 2 ^ (a.v.toNat % 4)
  let near := ea.toNat / 2 ^ 62 = 1 ∧ ea.toNat % n = 0 ∧ (s.mach.part s.mach.myCore.part.toNat).home (ea.toNat % 2 ^ 60) = some h
  let clear := (s.mach.part s.mach.myCore.part.toNat).inFarHeader ea n = false
  let near16 := ea.toNat / 2 ^ 62 = 1 ∧ ea.toNat % 16 = 0 ∧ (s.mach.part s.mach.myCore.part.toNat).home (ea.toNat % 2 ^ 60) = some h
  [decide (Plain s.mach c t = true ∧ s.on a = true ∧ c < 73728 ∧ u.far = .answered (.served bs) ∧ near),
   decide (Plain s.mach c t = true ∧ s.on a = true ∧ c < 73728 ∧ u.far = .answered (.served bs) ∧ near ∧ clear),
   decide (Plain s.mach c t = true ∧ s.on a = true ∧ c < 73728 ∧ u.far = .answered (.served bs) ∧ near16 ∧ bs.length = 16),
   decide (Plain s.mach c t = true ∧ s.on a = true ∧ c < 73728 ∧ u.far = .idle ∧ near ∧ s.mach.windowFree c = true),
   decide (Plain s.mach c t = true ∧ s.on a = true ∧ c < 73728 ∧ u.far = .idle ∧ near ∧ clear ∧ s.mach.windowFree c = true),
   decide (Plain s.mach c t = true ∧ s.on a = true ∧ c < 73728 ∧ near ∧ ¬clear),
   decide (Plain s.mach c t = true ∧ s.on a = true ∧ c < 73728 ∧ u.far = .idle ∧ near16 ∧ s.mach.windowFree c = true),
   decide (Plain s.mach c t = true ∧ s.on a = true ∧ c < 73728 ∧ u.far = .answered (.fault code e)),
   decide (Plain s.mach c t = true ∧ s.on a = true ∧ c < 73728 ∧ u.far = .answered .notRecorded)]

/-- The hypotheses under which `FrameSlots` states something, each set of them once. -/
def hypsFrameSlots (s : State) (c t q o : Nat) (a : Args) : List Bool :=
  let u := s.mach.me
  let f := vget u.d 0 (a.imm.toNat % 8)
  let slot := a.imm.toNat / 8
  let off := o + 16 + 8 * slot
  let k := s.mach.core q
  let head := k.number (o + 8) 8
  let named := f ≠ 0 ∧ o % 8 = 0 ∧ o + 8 < 65536 ∧ slot < 2 ^ 60 ∧ ((q = c ∧ ownAt c f o = true) ∨ (q ≠ c ∧ coreAt q f o = true ∧
    sameCluster c q = true ∧ s.mach.live q = true ∧ s.mach.injPaused = false ∧ s.mach.gone.contains q = false))
  let opens (b n : Nat) : Prop := if q = c then s.mach.admits c t b n false = true
    else s.mach.unaccepted c t q b n = false ∧ k.aboveMark b n = none ∧ k.badRead b n = none
  let here := named ∧ opens (o + 8) 8
  let live := head / 2 ^ 31 % 2 = 1
  let size := head / 2 ^ 32 % 2 ^ 16
  let one := here ∧ live ∧ slot < size ∧ off + 8 ≤ 65536
  let two := here ∧ live ∧ slot + 1 < size ∧ slot % 2 = 0 ∧ o % 16 = 0 ∧ off + 16 ≤ 65536
  [decide (Plain s.mach c t = true ∧ s.on a = true ∧ a.imm.toNat % 8 ≠ 0 ∧ one ∧ opens off 8),
   decide (Plain s.mach c t = true ∧ s.on a = true ∧ a.imm.toNat % 8 ≠ 0 ∧ one ∧ (if q = c then s.mach.admits c t off 8 true = true else s.mach.windowFree c = true)),
   decide (Plain s.mach c t = true ∧ s.on a = true ∧ a.imm.toNat % 8 ≠ 0 ∧ two ∧ opens off 8 ∧ opens (off + 8) 8),
   decide (Plain s.mach c t = true ∧ s.on a = true ∧ a.imm.toNat % 8 ≠ 0 ∧ two ∧ (if q = c then s.mach.admits c t off 8 true = true ∧ s.mach.admits c t (off + 8) 8 true = true else s.mach.windowFree c = true)),
   decide (Plain s.mach c t = true ∧ s.on a = true ∧ a.imm.toNat % 8 ≠ 0 ∧ f = 0),
   decide (Plain s.mach c t = true ∧ s.on a = true ∧ a.imm.toNat % 8 ≠ 0 ∧ here ∧ ¬live),
   decide (Plain s.mach c t = true ∧ s.on a = true ∧ a.imm.toNat % 8 ≠ 0 ∧ here ∧ live ∧ size ≤ slot)]

/-- The hypotheses under which `LaunchFrameSlots` states something, each set of them once. -/
def hypsLaunchFrameSlots (s : State) (c t : Nat) (a : Args) (bs : List Byte) (h : Nat × Nat × Nat) (w : Word) : List Bool :=
  let u := s.mach.me
  let f := vget u.d 0 0
  let slot := a.imm.toNat / 8
  let ea (d : Nat) : Word := BitVec.ofNat 64 (f.toNat + d)
  let home (d : Nat) : Option (Nat × Nat × Nat) := (s.mach.part s.mach.myCore.part.toNat).home (f.toNat % 2 ^ 60 + d)
  let far (d : Nat) : Prop := f.toNat / 2 ^ 62 = 1 ∧ f.toNat % 16 = 0 ∧ f.toNat % 2 ^ 60 + d < 2 ^ 60 ∧ home d = some h
  let clear (d n : Nat) : Prop := (s.mach.part s.mach.myCore.part.toNat).inFarHeader (ea d) n = false
  let d := 16 + 8 * slot
  let answered := u.far = .answered (.served bs) ∧ u.farHdr = some w ∧ far d
  [decide (Plain s.mach c t = true ∧ s.on a = true ∧ c < 73728 ∧ a.imm.toNat % 8 = 0 ∧ answered),
   decide (Plain s.mach c t = true ∧ s.on a = true ∧ c < 73728 ∧ a.imm.toNat % 8 = 0 ∧ answered ∧ clear d 8),
   decide (Plain s.mach c t = true ∧ s.on a = true ∧ c < 73728 ∧ a.imm.toNat % 8 = 0 ∧ answered ∧ slot % 2 = 0 ∧ bs.length = 16),
   decide (Plain s.mach c t = true ∧ s.on a = true ∧ c < 73728 ∧ a.imm.toNat % 8 = 0 ∧ answered ∧ slot % 2 = 0 ∧ clear d 16),
   decide (Plain s.mach c t = true ∧ s.on a = true ∧ c < 73728 ∧ a.imm.toNat % 8 = 0 ∧ u.far = .idle ∧ u.farHdr = none ∧ far 8 ∧ s.mach.windowFree c = true)]

/-- The hypotheses under which `FrameForms` states something, each set of them once. -/
def hypsFrameForms (s : State) (c t : Nat) (a : Args) (off q o : Nat) : List Bool :=
  let u := s.mach.me
  let k := s.mach.myCore
  let n := a.imm.toNat
  let f := u.xreg a.s
  let head (q : Core) (o : Nat) : Nat := q.number (o + 8) 8
  let fp := u.fp.toNat
  let depth := u.depth
  let blocks := (16 + 8 * n + 63) / 64
  let kq := s.mach.core q
  let counts := o % 8 = 0 ∧ o + 16 ≤ 65536 ∧ head kq o / 2 ^ 31 % 2 = 1 ∧ kq.badRead (o + 8) 8 = none ∧
    ((q = c ∧ ownAt c f o = true ∧ s.mach.admits c t (o + 8) 8 false = true) ∨ (q ≠ c ∧ coreAt q f o = true ∧
      sameCluster c q = true ∧ s.mach.live q = true ∧ s.mach.injPaused = false ∧ s.mach.gone.contains q = false)) ∧
    s.mach.heldRange q (o + 8) 8 = false ∧ kq.jobBlocks (o + 8) 8 true = false
  let refs := head kq o / 2 ^ 48
  [decide (Plain s.mach c t = true ∧ 1 ≤ n ∧ n ≤ 65535 ∧ depth < 7 ∧ k.poolFind blocks = some off ∧ s.mach.heldRange c off 16 = false),
   decide (Plain s.mach c t = true ∧ 1 ≤ n ∧ n ≤ 65535 ∧ depth < 7 ∧ k.poolFind blocks = none),
   decide (Plain s.mach c t = true ∧ 1 ≤ n ∧ n ≤ 65535 ∧ depth = 7),
   decide (Plain s.mach c t = true ∧ depth ≤ 3),
   decide (Plain s.mach c t = true ∧ 3 < depth ∧ fp % 8 = 0 ∧ fp < 65528 ∧ s.mach.heldRange c (fp + 8) 8 = false ∧ k.badRead (fp + 8) 8 = none),
   decide (Plain s.mach c t = true),
   decide (Plain s.mach c t = true ∧ counts ∧ refs < 65535),
   decide (Plain s.mach c t = true ∧ (counts ∧ (2 ≤ refs ∨ (refs = 1 ∧ head kq o / 2 ^ 30 % 2 = 0)))),
   decide (Plain s.mach c t = true ∧ counts ∧ refs = 1 ∧ head kq o / 2 ^ 30 % 2 = 1),
   decide (Plain s.mach c t = true ∧ counts ∧ refs = 0)]

/-- The hypotheses under which `CopyForms` states something, each set of them once. -/
def hypsCopyForms (s : State) (c t : Nat) (a : Args) (base limit : Nat) (ps : List FarPart) : List Bool :=
  let u := s.mach.me
  let k := s.mach.myCore
  let src := u.xreg a.s
  let o := u.xreg a.t
  let i := (u.xreg a.d).toNat % 4
  let ch := k.channel i
  let far := src.toNat % 2 ^ 62 % 2 ^ 60
  let named := (u.xreg a.d).toNat = i + base * 2 ^ 16 + limit * 2 ^ 32 ∧ base < limit ∧ limit < 65536 ∧ base % 16 = 0 ∧
    limit % 16 = 0 ∧ o.toNat < 128 ∧ src.toNat / 2 ^ 62 = 1 ∧ src.toNat % 16 = 0
  let parts := (s.mach.part k.part.toNat).parts 20 far (limit - base)
  [decide (Plain s.mach c t = true ∧ c < 73728 ∧ named ∧ parts = some ps ∧ ch.busy = false ∧ s.mach.windowUsed c + ps.length ≤ 16),
   decide (Plain s.mach c t = true ∧ c < 73728 ∧ named ∧ parts ≠ none ∧ ch.busy = true ∧ ch.todo = 0),
   decide (Plain s.mach c t = true ∧ c < 73728 ∧ named ∧ parts = none),
   decide (Plain s.mach c t = true ∧ c < 73728 ∧ ¬src.toNat / 2 ^ 62 = 1),
   decide (Plain s.mach c t = true ∧ c < 73728)]

/-- The hypotheses under which `JobForms` states something, each set of them once. -/
def hypsJobForms (s : State) (c t : Nat) (a : Args) (off src dst len cnt : Nat) (cv : Bool) : List Bool :=
  let u := s.mach.me
  let k := s.mach.myCore
  let card := [cv.toNat * 2 ^ 59 + cnt * 2 ^ 53 + 2 * 2 ^ 50, src + (src + len - 1) * 2 ^ 16,
    2 ^ 63 + dst + (dst + len - 1) * 2 ^ 16, 0, 0, src + dst * 2 ^ 16 + len * 2 ^ 32, 0, 0].map (BitVec.ofNat 64)
  let readable := ownAt c (u.xreg a.s) off = true ∧ off % 64 = 0 ∧
    (List.range 8).all (fun i => s.mach.admits c t (off + 8 * i) 8 false) = true
  let given := (List.range 8).map fun i => BitVec.ofNat 64 (k.number (off + 8 * i) 8)
  let any : Job :=
    { uid := s.mach.nextCid, num := k.jobNo, off := BitVec.ofNat 16 off, card := given, ts := t, cid := u.cid, pc := u.pc, priv := u.priv,
      sample := u.matSample }
  let copies := cnt < 64 ∧ 8 ≤ len ∧ len % 8 = 0 ∧ src % 8 = 0 ∧ dst % 8 = 0 ∧ src + len ≤ 65536 ∧ dst + len ≤ 65536 ∧
    (List.range 8).map (fun i => BitVec.ofNat 64 (k.number (off + 8 * i) 8)) = card
  [decide (Plain s.mach c t = true ∧ s.mach.net = [] ∧ readable ∧ copies ∧ len < 65536 ∧ k.jobs.length < 16),
   decide (Plain s.mach c t = true ∧ s.mach.net = [] ∧ readable ∧ copies ∧ len < 65536 ∧ ¬k.jobs.length < 16),
   decide (Plain s.mach c t = true ∧ s.mach.net = [] ∧ readable ∧ 5 ≤ k.number off 8 / 2 ^ 60),
   decide (Plain s.mach c t = true ∧ s.mach.net = [] ∧ readable ∧ cardOk given = true ∧ s.mach.kindOk c any = true ∧ any.misaligned = none ∧ k.jobs.length < 16),
   decide (Plain s.mach c t = true ∧ s.mach.net = [])]

/-- The hypotheses under which `StageForms` states something, each set of them once. -/
def hypsStageForms (s : State) (h p : Nat) (a : Args) (r : StageRun) (bs : List Byte) (id : Nat) : List Bool :=
  let u := s.mach.me
  let w := s.mach.unit h p
  let k := s.mach.core r.core
  let o := (u.xreg a.t).toNat
  let n := o % 32
  let xd := (u.xreg a.d).toNat
  let xs := (u.xreg a.s).toNat
  let tile (loc scr : Nat) := 1 ≤ n ∧ n ≤ 16 ∧ (o = n ∨ o = n + 256) ∧ r.dst.toNat ≤ loc ∧
    loc + 384 * n ≤ r.dst.toNat + r.len.toNat ∧ r.dst.toNat + r.len.toNat ≤ 65536 ∧ loc % 16 = 0 ∧ scr + 384 * n ≤ 0x4000 ∧ scr % 16 = 0
  let gone (far scr len : Nat) : Bool := decide (far / 2 ^ 62 = 1 ∧ far % 16 = 0 ∧ scr % 16 = 0 ∧ len % 16 = 0 ∧ 16 ≤ len ∧
      len ≤ 16384 ∧ scr + len ≤ 0x4000) &&
    (match (s.mach.part p).parts 20 (far % 2 ^ 60) len with
     | some [q] => q.hand == h
     | _ => false)
  let clear := (s.mach.part p).inFarHeader (u.xreg a.d) o = false
  let ends := w.move = some id ∧ w.answer = some (.served bs) ∧ (s.mach.hand h).requests.any (·.id == id) = false
  [decide (h < 512 ∧ p < 16 ∧ s.mach.cur = .stage h p ∧ (s.mach.unit h p).cards.head? = some r ∧ s.mach.me.regErr = [] ∧ s.mach.me.anyBound = false ∧ s.mach.me.cho = false ∧ tile xd xs ∧ s.mach.heldRange r.core xd (384 * n) = false ∧ w.badRead xs (384 * n) = false ∧ ((List.range (384 * n)).all fun i => !k.inQueueArea (xd + i) && (k.headerOf (xd + i)).isNone) = true),
   decide (h < 512 ∧ p < 16 ∧ s.mach.cur = .stage h p ∧ (s.mach.unit h p).cards.head? = some r ∧ s.mach.me.regErr = [] ∧ s.mach.me.anyBound = false ∧ s.mach.me.cho = false ∧ tile xs xd ∧ k.badRead xs (384 * n) = none ∧ w.badWrite xd (384 * n) = false),
   decide (h < 512 ∧ p < 16 ∧ s.mach.cur = .stage h p ∧ (s.mach.unit h p).cards.head? = some r ∧ s.mach.me.regErr = [] ∧ s.mach.me.anyBound = false ∧ s.mach.me.cho = false ∧ gone xs xd o = true ∧ w.badWrite xd o = false ∧ ends ∧ bs.length = o),
   decide (h < 512 ∧ p < 16 ∧ s.mach.cur = .stage h p ∧ (s.mach.unit h p).cards.head? = some r ∧ s.mach.me.regErr = [] ∧ s.mach.me.anyBound = false ∧ s.mach.me.cho = false ∧ gone xd xs o = true ∧ w.badRead xs o = false ∧ clear ∧ ends),
   decide (h < 512 ∧ p < 16 ∧ s.mach.cur = .stage h p ∧ (s.mach.unit h p).cards.head? = some r ∧ s.mach.me.regErr = [] ∧ s.mach.me.anyBound = false ∧ s.mach.me.cho = false ∧ gone xd xs o = true ∧ w.badRead xs o = false ∧ clear ∧ w.move = none ∧ (s.mach.hand h).queued < 256),
   decide (h < 512 ∧ p < 16 ∧ s.mach.cur = .stage h p ∧ (s.mach.unit h p).cards.head? = some r ∧ s.mach.me.regErr = [] ∧ s.mach.me.anyBound = false ∧ s.mach.me.cho = false ∧ gone xs xd o = true ∧ w.badWrite xd o = false ∧ w.move = none ∧ (s.mach.hand h).queued < 256)]

/-- The hypotheses under which `OverlayForms` states something, each set of them once. -/
def hypsOverlayForms (s : State) (c t : Nat) (a : Args) (h : Nat × Nat × Nat) : List Bool :=
  let u := s.mach.me
  let k := s.mach.myCore
  let g := a.d.toNat % 16
  let seg := u.xreg a.s
  let free := u.pc.toNat / 1024 ≠ g ∧ k.useCount g = 0
  [decide (Plain s.mach c t = true ∧ c < 73728 ∧ free ∧ seg.toNat < 4096 ∧ (k.slot g).st ≠ .loading ∧ s.mach.windowFree c = true),
   decide (Plain s.mach c t = true ∧ c < 73728),
   decide (Plain s.mach c t = true ∧ c < 73728 ∧ u.pc.toNat / 1024 = g),
   decide (Plain s.mach c t = true ∧ c < 73728 ∧ u.pc.toNat / 1024 ≠ g ∧ k.useCount g ≠ 0),
   decide (Plain s.mach c t = true ∧ c < 73728 ∧ free ∧ 4096 ≤ seg.toNat),
   decide (Plain s.mach c t = true ∧ c < 73728 ∧ (free ∧ seg.toNat < 4096 ∧ ((k.slot g).st = .loading ∨ s.mach.windowFree c = false)))]

/-- The hypotheses under which `VectorLoadsAndStores` states something, each set of them once. -/
def hypsVectorLoadsAndStores (s : State) (c t : Nat) (a : Args) (off : Nat) : List Bool :=
  let u := s.mach.me
  let w := 2 ^ a.w.toNat
  let ea := u.xreg a.s + a.imm
  let mask := u.preg a.p.toNat
  let open' (store : Bool) : Bool := (List.range (2 * w)).all fun i => s.mach.admits c t (off + 8 * i) 8 store
  [decide (Plain s.mach c t = true ∧ a.w.toNat ≤ 2 ∧ off % 16 = 0 ∧ off + 16 * 2 ^ a.w.toNat ≤ 65536 ∧ mask = 0),
   decide (Plain s.mach c t = true ∧ a.w.toNat ≤ 2 ∧ off % 16 = 0 ∧ off + 16 * 2 ^ a.w.toNat ≤ 65536 ∧ mask ≠ 0 ∧ ownAt c ea off = true ∧ open' false = true),
   decide (Plain s.mach c t = true ∧ a.w.toNat ≤ 2 ∧ off % 16 = 0 ∧ off + 16 * 2 ^ a.w.toNat ≤ 65536 ∧ mask ≠ 0 ∧ ownAt c ea off = true ∧ open' true = true),
   decide (Plain s.mach c t = true ∧ a.w.toNat ≤ 2 ∧ off % 16 = 0 ∧ off + 16 * 2 ^ a.w.toNat ≤ 65536 ∧ (mask ≠ 0 ∧ w = 1) ∧ ∃ q ∈ s.mach.liveCores s.mach.myCore.part.toNat, coreAt q ea off = true ∧ q ≠ c ∧ c < 73728 ∧ s.mach.windowFree c = true ∧ (s.mach.part s.mach.myCore.part.toNat).holds (q % 512) (q / 512) = true)]

/-- The hypotheses under which `StridedAndIndexed` states something, each set of them once. -/
def hypsStridedAndIndexed (s : State) (c t : Nat) (a : Args) : List Bool :=
  let u := s.mach.me
  let ea := u.xreg a.s + a.imm
  let mask := u.preg a.p.toNat
  let n := 2 ^ (a.v.toNat % 4)
  let vt : BitVec 128 := vget u.v 0 a.t.toNat
  let strided (l : Nat) : Nat := (ea + BitVec.ofNat 64 l * u.xreg a.t).toNat
  let indexed (l : Nat) : Nat := (ea + BitVec.ofNat 64 (n * (vt.toNat / 2 ^ (8 * n * l) % 2 ^ (8 * n)))).toNat
  let active (b : Nat) : List Nat := (List.range (16 / b)).filter fun l => mask.getLsbD (b * l)
  let good (b : Nat) (at_ : Nat → Nat) (store : Bool) : Bool := active b != [] &&
    (active b).all fun l => decide (at_ l < 65536) && decide (at_ l % b = 0) && s.mach.admits c t (at_ l) b store
  [decide (Plain s.mach c t = true ∧ s.mach.me.preg a.p.toNat ≠ 0 ∧ good 4 strided false = true),
   decide (Plain s.mach c t = true ∧ s.mach.me.preg a.p.toNat ≠ 0 ∧ good 4 strided true = true),
   decide (Plain s.mach c t = true ∧ s.mach.me.preg a.p.toNat ≠ 0 ∧ good n indexed false = true),
   decide (Plain s.mach c t = true ∧ s.mach.me.preg a.p.toNat ≠ 0 ∧ good n indexed true = true),
   decide (Plain s.mach c t = true ∧ s.mach.me.preg a.p.toNat ≠ 0 ∧ active 4 = [])]

/-- The hypotheses under which `VectorElementForms` states something, each set of them once. -/
def hypsVectorElementForms (s : State) (c t : Nat) (a : Args) : List Bool :=
  let w := 2 ^ a.w.toNat
  let ra := if a.short then a.d else a.s
  let rb := if a.short then a.s else a.t
  let fits (r : RegNo) : Prop := r.toNat + w ≤ 32 ∧ (r = a.d ∨ r.toNat + w ≤ a.d.toNat ∨ a.d.toNat + w ≤ r.toNat)
  [decide (Plain s.mach c t = true ∧ a.w.toNat ≤ 2 ∧ fits a.d ∧ fits ra ∧ fits rb),
   decide (Plain s.mach c t = true ∧ a.w.toNat ≤ 2 ∧ fits a.d ∧ fits a.s)]

/-- The hypotheses under which `VectorLaneForms` states something, each set of them once. -/
def hypsVectorLaneForms (s : State) (c t : Nat) (a : Args) : List Bool :=
  let u := s.mach.me
  let mask := u.preg a.p.toNat
  let n := 2 ^ (a.v.toNat % 4)
  let d : V128 := vget u.v 0 a.d.toNat
  let i := a.imm.toNat
  [decide (Plain s.mach c t = true),
   decide (Plain s.mach c t = true ∧ n * i < 16),
   decide (Plain s.mach c t = true ∧ n * i < 16 ∧ mask.getLsbD (n * i) = true),
   decide (Plain s.mach c t = true ∧ mask.getLsbD (n * i) = false),
   decide (Plain s.mach c t = true ∧ a.d.toNat < 8)]

/-- The hypotheses under which `PredicateForms` states something, each set of them once. -/
def hypsPredicateForms (s : State) (c t : Nat) (a : Args) : List Bool :=
  [decide (Plain s.mach c t = true ∧ a.d.toNat < 8)]

/-- The hypotheses under which `FloatElementForms` states something, each set of them once. -/
def hypsFloatElementForms (s : State) (c t : Nat) (a : Args) (fmt : FloatFmt) : List Bool :=
  let w := 2 ^ a.w.toNat
  let ra := if a.short then a.d else a.s
  let rb := if a.short then a.s else a.t
  let fits (r : RegNo) : Prop := r.toNat + w ≤ 32 ∧ (r = a.d ∨ r.toNat + w ≤ a.d.toNat ∨ a.d.toNat + w ≤ r.toNat)
  [decide (Plain s.mach c t = true ∧ a.w.toNat ≤ 2 ∧ [(0, fmtF64), (1, fmtF32), (2, fmtF16), (3, fmtBf16)].contains (a.v.toNat, fmt) = true ∧ fits a.d ∧ fits ra ∧ fits rb),
   decide (Plain s.mach c t = true ∧ a.w.toNat ≤ 2 ∧ [(0, fmtF64), (1, fmtF32), (2, fmtF16), (3, fmtBf16)].contains (a.v.toNat, fmt) = true ∧ fits a.d ∧ fits a.s)]

/-- The hypotheses under which `FloatSpecialCases` states something, each set of them once. -/
def hypsFloatSpecialCases (mode x y : Nat) : List Bool :=
  let mag (v : Nat) : Nat := v % 2 ^ 31
  let nan (v : Nat) : Bool := decide (0x7F800000 < mag v)
  [decide (x < 2 ^ 32 ∧ y < 2 ^ 32 ∧ mag x = 0 ∧ mag y = 0),
   decide (x < 2 ^ 32 ∧ y < 2 ^ 32 ∧ mag x = 0x7F800000 ∧ mag y = 0x7F800000),
   decide (x < 2 ^ 32 ∧ y < 2 ^ 32 ∧ 0 < mag x ∧ mag x < 0x7F800000 ∧ mag y = 0),
   decide (x < 2 ^ 32 ∧ y < 2 ^ 32 ∧ mag x = 0x7F800000 ∧ mag y = 0),
   decide (x < 2 ^ 32 ∧ y < 2 ^ 32 ∧ nan x = true),
   decide (x < 2 ^ 32 ∧ y < 2 ^ 32 ∧ nan x = false ∧ nan y = true),
   decide (x < 2 ^ 32 ∧ y < 2 ^ 32 ∧ nan x = false)]

/-- The hypotheses under which `FloatReductionForms` states something, each set of them once. -/
def hypsFloatReductionForms (s : State) (c t : Nat) (a : Args) (fmt : FloatFmt) : List Bool :=
  let src := a.imm.toNat % 32
  let tgt := a.imm.toNat / 32 % 32
  let ws := fmtBits src
  let wt := fmtBits tgt
  [decide (Plain s.mach c t = true ∧ [(0, fmtF64), (1, fmtF32), (2, fmtF16), (3, fmtBf16)].contains (a.v.toNat, fmt) = true),
   decide (Plain s.mach c t = true ∧ [(0, fmtF64), (1, fmtF32), (2, fmtF16), (3, fmtBf16)].contains (a.v.toNat, fmt) = true ∧ 4 ≤ ws ∧ 4 ≤ wt),
   decide (Plain s.mach c t = true ∧ [(0, fmtF64), (1, fmtF32), (2, fmtF16), (3, fmtBf16)].contains (a.v.toNat, fmt) = true ∧ a.d.toNat < 8)]

/-- The hypotheses under which `MatrixIssue` states something, each set of them once. -/
def hypsMatrixIssue (s : State) (c t : Nat) (a : Args) : List Bool :=
  let u := s.mach.me
  let k := s.mach.myCore
  let n := a.d.toNat % 4
  let fa := u.kfmta.toNat
  let fb := u.kfmtb.toNat
  let accepted := (((fa = 12 ∨ fa = 13) ∧ (fb = 12 ∨ fb = 13)) ∨ (fa = 14 ∧ fb = 14) ∨ (fa = 15 ∧ fb = 15) ∨
    ((fa = 10 ∨ fa = 11) ∧ (fb = 10 ∨ fb = 11)) ∨ (fa = 0 ∧ fb = 16)) ∧ 2 ≤ u.kplanes.toNat ∧ u.kplanes.toNat ≤ 8
  let g := if fa = 12 ∨ fa = 13 then 12 else if fa = 14 then 16 else if fa = 15 then 24 else 0
  let fitsB (b : Nat) := b % 16 = 0 ∧ b + 3072 ≤ 65536 ∧ u.ksclb.toNat + 8 * g ≤ 65536
  let fitsA (x : Nat) := x % 16 = 0 ∧ x + 6144 ≤ 65536 ∧ u.kscla.toNat + 16 * g ≤ 65536
  let xs := (u.xreg a.s).toNat
  let xt := (u.xreg a.t).toNat
  let busy := k.mat.any fun o => o.acc == n
  let row (pair : Bool) := (rowOf c pair).1
  let gangFree (pair : Bool) := c < 73728 ∧ busy = false ∧ k.mat.any (·.gang) = false ∧ k.gangOwed = none ∧ s.mach.pairOk c pair = true ∧
    (s.mach.round (row pair) pair).all (fun r => !r.live && r.cut.isNone) = true
  let leads := decide (s.mach.leaderOf c = c)
  let pairG := decide (xs / 65536 = 1)
  let pairX := decide (xt / 2 ^ 32 = 1)
  let bX := xt % 65536
  let aX := if leads then xt / 65536 % 65536 else 0
  let formsOk := accepted ∧ k.fence ≠ 0xF
  [decide (Plain s.mach c t = true ∧ busy = false ∧ xs < 65536 ∧ xt < 65536 ∧ fitsA xs ∧ fitsB xt ∧ formsOk),
   decide (Plain s.mach c t = true ∧ gangFree pairG ∧ xs < 2 ^ 17 ∧ xt < 65536 ∧ (leads = true → fitsA (xs % 65536)) ∧ fitsB xt ∧ formsOk),
   decide (Plain s.mach c t = true ∧ gangFree pairX ∧ xt < 2 ^ 33 ∧ fitsB bX ∧ (leads = true → aX % 16 = 0 ∧ aX + 384 + g ≤ 65536) ∧ formsOk),
   decide (Plain s.mach c t = true ∧ busy = true),
   decide (Plain s.mach c t = true ∧ busy = false ∧ xs < 65536 ∧ xt < 65536 ∧ fitsA xs ∧ fitsB xt ∧ ¬accepted),
   decide (Plain s.mach c t = true ∧ busy = false ∧ xs < 65536 ∧ xt < 65536 ∧ fitsA xs ∧ fitsB xt ∧ accepted ∧ k.fence = 0xF)]

/-- The hypotheses under which `AccumulatorForms` states something, each set of them once. -/
def hypsAccumulatorForms (s : State) (c t : Nat) (a : Args) (off : Nat) : List Bool :=
  let u := s.mach.me
  let k := s.mach.myCore
  let d := a.d.toNat % 4
  let r := a.s.toNat % 4
  let busy (n : Nat) := k.mat.any fun o => o.acc == n
  let owns (n : Nat) : Prop := (vget k.owner 0 n).toNat = t
  let i := a.imm.toNat % 32
  [decide (Plain s.mach c t = true ∧ busy d = true),
   decide (Plain s.mach c t = true ∧ busy d = false),
   decide (Plain s.mach c t = true ∧ busy r = true),
   decide (Plain s.mach c t = true ∧ busy d = false ∧ ¬owns d),
   decide (Plain s.mach c t = true ∧ busy r = false ∧ ¬owns r),
   decide (Plain s.mach c t = true ∧ busy r = false ∧ owns r ∧ a.imm.toNat / 32 % 2 = 0),
   decide (Plain s.mach c t = true ∧ busy r = false ∧ owns r ∧ a.imm.toNat / 32 % 2 = 1 ∧ u.kscla.toNat + 16 ≤ 65536 ∧ u.ksclb.toNat + 8 ≤ 65536 ∧ s.mach.admits c t (u.kscla.toNat + i / 2) 1 false = true ∧ (List.range 4).all (fun j => s.mach.admits c t (u.ksclb.toNat + 4 * (i % 2) + j) 1 false) = true),
   decide (Plain s.mach c t = true ∧ busy d = false ∧ owns d ∧ ownAt c (u.xreg a.s + a.imm) off = true ∧ off % 16 = 0 ∧ off + 512 ≤ 65536 ∧ (List.range 64).all (fun j => s.mach.admits c t (off + 8 * j) 8 true) = true),
   decide (Plain s.mach c t = true ∧ k.mat ≠ []),
   decide (Plain s.mach c t = true ∧ k.mat = [] ∧ k.rehEnd ≤ s.mach.clk)]

/-- The hypotheses under which `SchurForms` states something, each set of them once. -/
def hypsSchurForms (s : State) (c t : Nat) (a : Args) (q : Schur) (w : Word) (p : Nat × BitVec 32) : List Bool :=
  [decide (Plain s.mach c t = true ∧ s.mach.myCore.schur = some q ∧ q.ts = t ∧ q.ended = true ∧ q.singular = none ∧ q.result = none),
   decide (Plain s.mach c t = true ∧ s.mach.myCore.schur = some q ∧ q.ts = t ∧ q.ended = true ∧ q.singular = none ∧ q.result = some w),
   decide (Plain s.mach c t = true ∧ s.mach.myCore.schur = some q ∧ q.ts = t ∧ q.ended = true ∧ q.singular = some p),
   decide (Plain s.mach c t = true ∧ s.mach.myCore.schur = some q ∧ (q.ts ≠ t ∨ q.ended = false))]

/-- The hypotheses under which `SchurBegins` states something, each set of them once. -/
def hypsSchurBegins (s : State) (c t : Nat) (a : Args) (n n' : Nat) : List Bool :=
  let u := s.mach.me
  let k := s.mach.myCore
  let size (n : Nat) : Nat := 16 + 4 * n + 2 * n * (n + 1)
  let slot (x n : Nat) : Prop := 1 ≤ n ∧ n ≤ 6 ∧ x % 128 = 0 ∧ x + size n ≤ 65536 ∧ k.number x 8 / 2 ^ 27 % 8 = n ∧
    k.number x 8 / 2 ^ 19 % 2 ^ 7 = 0 ∧ k.number (x + 8) 8 % 2 ^ 32 = 0 ∧ s.mach.admits c t x 16 false = true ∧
    s.mach.admits c t x (size n) false = true
  let d := (u.xreg a.d).toNat
  let x := (u.xreg a.s).toNat
  let y := (u.xreg a.t).toNat
  let apart (x y : Nat) : Prop := x = y ∨ x + size n ≤ y ∨ y + size n ≤ x
  let cnt := (size n - 16) / 4
  let writable := (List.range ((cnt + 1) / 2)).all fun i => s.mach.admits c t (d + 16 + 8 * i) 8 true
  [decide (Plain s.mach c t = true ∧ s.mach.myCore.schur = none ∧ slot d n ∧ slot x n ∧ apart d x ∧ writable = true),
   decide (Plain s.mach c t = true ∧ s.mach.myCore.schur = none ∧ slot x n ∧ slot y n ∧ apart x y),
   decide (Plain s.mach c t = true ∧ s.mach.myCore.schur = none ∧ slot d n ∧ slot x n' ∧ n ≠ n')]

/-- The hypotheses under which `SchurComplementOfTwo` states something, each set of them once. -/
def hypsSchurComplementOfTwo (s : State) (c t : Nat) (a : Args) : List Bool :=
  let u := s.mach.me
  let k := s.mach.myCore
  let o := (u.xreg a.d).toNat
  let j := (u.xreg a.s).toNat
  let num (r : Nat × BitVec 6) : Nat := if 0x7F800000 < r.1 % 2 ^ 31 then 0x7FC00000 else r.1
  let f (i : Nat) : Nat := k.number (j + 16 + 4 * i) 4
  let tau := num (fmtF32.mul 0 u.kgpiv.toNat (f 4))
  let pivots := (fmtF32.compare 2 tau (f 4)).1
  let named := u.xreg a.t = 1 ∧ u.kgpiv.toNat < 0x7F800000 ∧ j % 128 = 0 ∧ o % 128 = 0 ∧ j + 36 ≤ 65536 ∧ o + 24 ≤ 65536 ∧
    k.number j 8 = 2 ∧ k.number (j + 8) 8 = 0 ∧ s.mach.admits c t j 16 false = true ∧ s.mach.admits c t j 36 false = true ∧
    s.mach.admits c t o 8 false = true ∧ (List.range 3).all (fun i => s.mach.admits c t (o + 8 * i) 8 true) = true ∧
    f 4 % 2 ^ 31 ≤ 0x7F800000
  [decide (Plain s.mach c t = true ∧ s.mach.myCore.schur = none ∧ named ∧ pivots = true),
   decide (Plain s.mach c t = true ∧ s.mach.myCore.schur = none ∧ named ∧ pivots = false)]

/-- The hypotheses under which `SchurComplement` states something, each set of them once. -/
def hypsSchurComplement (s : State) (c t : Nat) (a : Args) (n nb b : Nat) : List Bool :=
  let u := s.mach.me
  let k := s.mach.myCore
  let na := n - nb
  let o := (u.xreg a.d).toNat
  let j := (u.xreg a.s).toNat
  let size (n : Nat) : Nat := 16 + 4 * n + 2 * n * (n + 1)
  let f (i : Nat) : Nat := k.number (j + 16 + 4 * i) 4
  let lam (i l : Nat) : Nat := f (n + min i l * n - min i l * (min i l - 1) / 2 + (max i l - min i l))
  let left (p i : Nat) : Bool := decide (i < na ∨ p < i)
  let drop (p : Nat) (r : (Nat → Nat → Nat) × (Nat → Nat)) : (Nat → Nat → Nat) × (Nat → Nat) :=
    (fun i l => if left p i && left p l
        then sub32 (r.1 i l) (mul32 (div32 (r.1 (min i l) p) (r.1 p p)) (r.1 p (max i l))) else r.1 i l,
      fun i => if left p i then sub32 (r.2 i) (mul32 (div32 (r.1 i p) (r.1 p p)) (r.2 p)) else r.2 i)
  let after (q : Nat) : (Nat → Nat → Nat) × (Nat → Nat) := (List.range q).foldl (fun r q => drop (na + q) r) (lam, f)
  let tau := mul32 u.kgpiv.toNat (max32 ((List.range nb).map fun q => lam (na + q) (na + q)))
  let pivot (q : Nat) : Nat := (after q).1 (na + q) (na + q)
  let cnt := (size na - 16) / 4
  let named := u.xreg a.t = BitVec.ofNat 64 nb ∧ n ≤ 12 ∧ 1 ≤ nb ∧ nb ≤ 6 ∧ nb < n ∧ na ≤ 6 ∧ u.kgpiv.toNat < 0x7F800000 ∧
    j % 128 = 0 ∧ o % 128 = 0 ∧ j + size n ≤ 65536 ∧ o + size na ≤ 65536 ∧ (o = j ∨ o + size na ≤ j ∨ j + size n ≤ o) ∧
    k.number j 8 = n ∧ k.number (j + 8) 8 = 0 ∧ s.mach.admits c t j 16 false = true ∧ s.mach.admits c t j (size n) false = true
  let writable := s.mach.admits c t o 8 false && s.mach.admits c t o 8 true &&
    (List.range ((cnt + 1) / 2)).all fun i => s.mach.admits c t (o + 16 + 8 * i) 8 true
  let good (q : Nat) : Bool := (List.range q).all fun i => gt32 (pivot i) tau
  [decide (Plain s.mach c t = true ∧ s.mach.myCore.schur = none ∧ named ∧ writable = true ∧ good nb = true),
   decide (Plain s.mach c t = true ∧ s.mach.myCore.schur = none ∧ named ∧ b < nb ∧ good b = true ∧ gt32 (pivot b) tau = false)]

/-- The hypotheses under which `DampAndMean` states something, each set of them once. -/
def hypsDampAndMean (s : State) (c t : Nat) (a : Args) (n b : Nat) : List Bool :=
  let u := s.mach.me
  let k := s.mach.myCore
  let size (n : Nat) : Nat := 16 + 4 * n + 2 * n * (n + 1)
  let slot (x : Nat) : Prop := 1 ≤ n ∧ n ≤ 6 ∧ x % 128 = 0 ∧ x + size n ≤ 65536 ∧ k.number x 8 / 2 ^ 27 % 8 = n ∧
    k.number x 8 / 2 ^ 19 % 2 ^ 7 = 0 ∧ k.number (x + 8) 8 % 2 ^ 32 = 0 ∧ s.mach.admits c t x 16 false = true ∧
    s.mach.admits c t x (size n) false = true
  let f (x i : Nat) : Nat := k.number (x + 16 + 4 * i) 4
  let o := (u.xreg a.d).toNat
  let x := (u.xreg a.s).toNat
  let y := (u.xreg a.t).toNat
  let apart (x n y m : Nat) : Prop := x + n ≤ y ∨ y + m ≤ x
  let cnt := (size n - 16) / 4
  let writes (from_ words : Nat) : Bool := (List.range words).all fun i => s.mach.admits c t (from_ + 8 * i) 8 true
  let lam (i l : Nat) : Nat := f x (n + min i l * n - min i l * (min i l - 1) / 2 + (max i l - min i l))
  let drop (p : Nat) (r : (Nat → Nat → Nat) × (Nat → Nat)) : (Nat → Nat → Nat) × (Nat → Nat) :=
    (fun i l => if p < i && p < l then sub32 (r.1 i l) (mul32 (div32 (r.1 (min i l) p) (r.1 p p)) (r.1 p (max i l))) else r.1 i l,
      fun i => if p < i then sub32 (r.2 i) (mul32 (div32 (r.1 i p) (r.1 p p)) (r.2 p)) else r.2 i)
  let after (q : Nat) : (Nat → Nat → Nat) × (Nat → Nat) := (List.range q).foldl (fun r p => drop p r) (lam, f x)
  let tau := mul32 u.kgpiv.toNat (max32 ((List.range n).map fun i => lam i i))
  let pivot (q : Nat) : Nat := (after q).1 q q
  let good (q : Nat) : Bool := (List.range q).all fun i => gt32 (pivot i) tau
  let solves := slot x ∧ o % 8 = 0 ∧ o + 4 * n ≤ 65536 ∧ apart x (size n) o (4 * n) ∧ u.kgpiv.toNat < 0x7F800000
  [decide (Plain s.mach c t = true ∧ s.mach.myCore.schur = none ∧ (slot x ∧ slot y ∧ apart x (size n) y (size n) ∧ o % 128 = 0 ∧ o + size n ≤ 65536 ∧ (o = x ∨ apart x (size n) o (size n)) ∧ (o = y ∨ apart y (size n) o (size n)) ∧ writes o (2 + (cnt + 1) / 2) = true)),
   decide (Plain s.mach c t = true ∧ s.mach.myCore.schur = none ∧ solves ∧ writes o ((n + 1) / 2) = true ∧ good n = true),
   decide (Plain s.mach c t = true ∧ s.mach.myCore.schur = none ∧ solves ∧ b < n ∧ good b = true ∧ gt32 (pivot b) tau = false)]

/-- The hypotheses under which `SendForms` states something, each set of them once. -/
def hypsSendForms (s : State) (c t : Nat) (a : Args) (q : Nat) : List Bool :=
  let u := s.mach.me
  let k := s.mach.myCore
  let h := u.xreg a.d
  let p := (u.xreg a.s).toNat
  let n := h.toNat / 2 ^ 29 % 256
  let x := h.toNat / 2 ^ 54
  let y := h.toNat / 2 ^ 46 % 256
  let cue := h.toNat / 2 ^ 43 % 2 = 1
  let good := h.toNat / 2 ^ 37 % 4 = 0 ∧ h.toNat / 2 ^ 16 % 2 ^ 13 = 0 ∧ n ≤ 128 ∧ p < 65536 ∧ (¬cue → h.toNat % 65536 = 0) ∧
    (cue → h.toNat % 8 = 0) ∧ (n ≠ 0 → p % 8 = 0 ∧ p + n ≤ 65536)
  let formed := h.toNat / 2 ^ 37 % 4 = 0 ∧ h.toNat / 2 ^ 16 % 2 ^ 13 = 0 ∧ n ≤ 128 ∧ p < 65536 ∧ (¬cue → h.toNat % 65536 = 0)
  let here := x = q % 512 ∧ y = q / 512 ∧ q < 73728
  let holds := (s.mach.part k.part.toNat).holds x y
  let readable := (List.range ((n + 7) / 8)).all fun i => s.mach.admits c t (p + 8 * i) 8 false
  [decide (Plain s.mach c t = true ∧ c < 73728 ∧ good ∧ here ∧ holds = true ∧ s.mach.windowFree c = true ∧ readable = true),
   decide (Plain s.mach c t = true ∧ c < 73728 ∧ good ∧ here ∧ holds = true ∧ s.mach.windowFree c = false),
   decide (Plain s.mach c t = true ∧ c < 73728 ∧ good ∧ ¬(x < 512 ∧ y < 144)),
   decide (Plain s.mach c t = true ∧ c < 73728 ∧ good ∧ here ∧ holds = false),
   decide (Plain s.mach c t = true ∧ c < 73728 ∧ 128 < n),
   decide (Plain s.mach c t = true ∧ c < 73728 ∧ ¬formed),
   decide (Plain s.mach c t = true ∧ c < 73728 ∧ formed ∧ cue ∧ h.toNat % 8 ≠ 0),
   decide (Plain s.mach c t = true ∧ c < 73728 ∧ formed ∧ (cue → h.toNat % 8 = 0) ∧ n ≠ 0 ∧ p % 8 ≠ 0),
   decide (Plain s.mach c t = true ∧ c < 73728 ∧ formed ∧ (cue → h.toNat % 8 = 0) ∧ n ≠ 0 ∧ p % 8 = 0 ∧ 65536 < p + n)]

/-- The hypotheses under which `SendcForms` states something, each set of them once. -/
def hypsSendcForms (s : State) (c t : Nat) (a : Args) : List Bool :=
  let u := s.mach.me
  let k := s.mach.myCore
  let h := u.xreg a.d
  let p := (u.xreg a.s).toNat
  let n := h.toNat / 2 ^ 29 % 256
  let cast := vget (s.mach.part k.part.toNat).casts {} a.imm.toNat
  let cue := h.toNat / 2 ^ 43 % 2 = 1
  let good := h.toNat / 2 ^ 37 % 4 = 0 ∧ h.toNat / 2 ^ 16 % 2 ^ 13 = 0 ∧ n ≤ 128 ∧ p < 65536 ∧ (¬cue → h.toNat % 65536 = 0) ∧
    (cue → h.toNat % 8 = 0) ∧ (n ≠ 0 → p % 8 = 0 ∧ p + n ≤ 65536) ∧ h.toNat / 2 ^ 46 = 0
  let readable := (List.range ((n + 7) / 8)).all fun i => s.mach.admits c t (p + 8 * i) 8 false
  [decide (Plain s.mach c t = true ∧ c < 73728 ∧ good ∧ cast.v = true ∧ s.mach.windowFree c = true ∧ readable = true),
   decide (Plain s.mach c t = true ∧ c < 73728 ∧ good ∧ cast.v = true ∧ s.mach.windowFree c = false),
   decide (Plain s.mach c t = true ∧ c < 73728 ∧ good ∧ cast.v = false),
   decide (Plain s.mach c t = true ∧ c < 73728 ∧ (h.toNat / 2 ^ 37 % 4 ≠ 0 ∨ h.toNat / 2 ^ 16 % 2 ^ 13 ≠ 0 ∨ 128 < n ∨ 65536 ≤ p ∨ (¬cue ∧ h.toNat % 65536 ≠ 0))),
   decide (Plain s.mach c t = true ∧ c < 73728 ∧ h.toNat / 2 ^ 46 ≠ 0 ∧ h.toNat % 2 ^ 16 = 0 ∧ n = 0)]

/-- The hypotheses under which `CueDecrement` states something, each set of them once. -/
def hypsCueDecrement (s : State) (c t : Nat) (a : Args) (off : Nat) (ring : Bool) : List Bool :=
  let ea := s.mach.me.xreg a.s
  let k := s.mach.myCore.correctWord (off / 8)
  let w := k.number off 8
  let n := w % 2 ^ 32
  let armed := w / 2 ^ 39 % 2 = 1 ∧ w / 2 ^ 32 % 32 = 0 ∧ n ≠ 0
  let here := ownAt c ea off = true ∧ s.mach.admits c t off 8 true = true
  [decide (Plain s.mach c t = true ∧ off % 8 = 0 ∧ here ∧ armed ∧ 2 ≤ n),
   decide (Plain s.mach c t = true ∧ off % 8 = 0 ∧ here ∧ armed ∧ n = 1 ∧ w / 2 ^ 38 % 2 = ring.toNat ∧ s.mach.pushHeld c ring = false),
   decide (Plain s.mach c t = true ∧ off % 8 = 0 ∧ here ∧ ¬armed),
   decide (Plain s.mach c t = true ∧ off % 8 = 0 ∧ ∃ q ∈ s.mach.liveCores k.part.toNat, coreAt q ea off = true ∧ q ≠ c ∧ c < 73728 ∧ (s.mach.part k.part.toNat).holds (q % 512) (q / 512) = true)]

/-- The hypotheses under which `CueForms` states something, each set of them once. -/
def hypsCueForms (s : State) (c t : Nat) (a : Args) (off : Nat) (ring : Bool) : List Bool :=
  let u := s.mach.me
  let v := (u.xreg a.s).toNat
  let n := v % 2 ^ 32
  let here := ownAt c (u.xreg a.d) off = true ∧ s.mach.admits c t off 8 true = true
  [decide (Plain s.mach c t = true ∧ off % 8 = 0 ∧ here ∧ v / 2 ^ 39 % 2 ^ 9 = 0 ∧ v / 2 ^ 32 % 64 = 0 ∧ n ≠ 0),
   decide (Plain s.mach c t = true ∧ off % 8 = 0 ∧ here ∧ v / 2 ^ 39 % 2 ^ 9 = 0 ∧ v / 2 ^ 32 % 64 = 0 ∧ n = 0 ∧ v / 2 ^ 38 % 2 = ring.toNat ∧ s.mach.pushHeld c ring = false),
   decide (Plain s.mach c t = true ∧ off % 8 = 0 ∧ here ∧ v % 2 ^ 38 = 0 ∧ v / 2 ^ 39 % 2 ^ 9 = 0),
   decide (Plain s.mach c t = true ∧ off % 8 = 0 ∧ ownAt c (u.xreg a.s) off = true ∧ s.mach.admits c t off 8 false = true),
   decide (Plain s.mach c t = true ∧ off % 8 = 0 ∧ ∃ q ∈ clusterCores c, coreAt q (u.xreg a.s) off = true ∧ q ≠ c ∧ sameCluster c q = true ∧ s.mach.live q = true ∧ s.mach.injPaused = false ∧ s.mach.gone.contains q = false ∧ s.mach.unaccepted c t q off 8 = false ∧ (s.mach.core q).aboveMark off 8 = none ∧ (s.mach.core q).badRead off 8 = none),
   decide (Plain s.mach c t = true ∧ off % 8 = 0 ∧ v = ring.toNat * 2 ^ 16 + v % 2 ^ 16 ∧ v % 16 = 0 ∧ s.mach.pushHeld c ring = false),
   decide (Plain s.mach c t = true ∧ off % 8 = 0 ∧ 2 ^ 17 ≤ v)]

/-- The hypotheses under which `MailboxForms` states something, each set of them once. -/
def hypsMailboxForms (s : State) (c t : Nat) (a : Args) (i : Nat) : List Bool :=
  let u := s.mach.me
  let k := s.mach.myCore
  let named (q : Nat) (ea : Word) : Prop := ea.toNat = 2 ^ 61 + (posOf q).1 * 2 ^ 32 + (posOf q).2 * 2 ^ 24 + 4 * i
  let n := (u.xreg a.s).setWidth 32
  let limit := (u.xreg a.t).toNat
  let v := vget k.mb 0 i
  [decide (Plain s.mach c t = true ∧ i < 64 ∧ named c (u.xreg a.d)),
   decide (Plain s.mach c t = true ∧ i < 64 ∧ ∃ q ∈ s.mach.liveCores k.part.toNat, named q (u.xreg a.d) ∧ q ≠ c ∧ c < 73728 ∧ (s.mach.part k.part.toNat).holds (q % 512) (q / 512) = true),
   decide (Plain s.mach c t = true ∧ i < 64),
   decide (Plain s.mach c t = true ∧ i < 64 ∧ named c (u.xreg a.d) ∧ u.xreg a.s = n.setWidth 64 ∧ limit < 2 ^ 32 ∧ (v - n).toNat < 2 ^ 31),
   decide (Plain s.mach c t = true ∧ i < 64 ∧ named c (u.xreg a.d) ∧ u.xreg a.s = n.setWidth 64 ∧ limit < 2 ^ 32 ∧ ¬(v - n).toNat < 2 ^ 31),
   decide (Plain s.mach c t = true ∧ i < 64 ∧ (u.xreg a.d).toNat / 2 ^ 60 ≠ 2)]

/-- The hypotheses under which `ReceiveRingForms` states something, each set of them once. -/
def hypsReceiveRingForms (s : State) (c t : Nat) (a : Args) : List Bool :=
  let k := s.mach.myCore
  let n := a.imm.toNat % 4
  let base := (vget k.inBase 0 n).toNat
  let tail := (k.mem.byte base).toNat
  let head := (k.mem.byte (base + 8)).toNat
  let good := k.badRead base 16 = none
  let slot := base + 16 + 144 * head
  [decide (Plain s.mach c t = true ∧ good ∧ head = tail),
   decide (Plain s.mach c t = true ∧ good ∧ head ≠ tail ∧ 0 < slot ∧ slot < 65536),
   decide (Plain s.mach c t = true ∧ k.badRead base 16 ≠ none)]

/-- The hypotheses under which `CurtainForms` states something, each set of them once. -/
def hypsCurtainForms (s : State) (c t : Nat) (a : Args) (n since : Nat) : List Bool :=
  let u := s.mach.me
  let k := s.mach.myCore
  let q := k.part.toNat
  let p := s.mach.part q
  let i := a.d.toNat % 2
  let v := (u.xreg a.s).toNat
  let x0 := v % 2 ^ 10
  let y0 := v / 2 ^ 10 % 2 ^ 8
  let x1 := v / 2 ^ 18 % 2 ^ 10
  let y1 := v / 2 ^ 28 % 2 ^ 8
  let cycles := 6 + (x1 + 1 - x0 + (y1 + 1 - y0) + 7) / 8
  let ctx := p.ctx i
  let phase (v : State) : Bool := if i = 0 then (v.mach.part q).pha else (v.mach.part q).phb
  let inside (x y : Nat) : Prop := ctx.filled = true ∧ ctx.x0 ≤ x ∧ x ≤ ctx.x1 ∧ ctx.y0 ≤ y ∧ y ≤ ctx.y1
  let member := inside (c % 512) (c / 512)
  [decide (Plain s.mach c t = true ∧ c < 73728 ∧ u.priv = .user),
   decide (Plain s.mach c t = true ∧ c < 73728 ∧ u.priv ≠ .user ∧ v < 2 ^ 36 ∧ x0 ≤ x1 ∧ y0 ≤ y1 ∧ p.holds x0 y0 = true ∧ p.holds x1 y1 = true ∧ ctx.arrived = [] ∧ q < 16),
   decide (Plain s.mach c t = true ∧ c < 73728 ∧ ctx.refills = [(s.mach.clk - cycles, x0, y0, x1, y1)] ∧ cycles ≤ s.mach.clk ∧ x0 ≤ x1 ∧ y0 ≤ y1 ∧ q < 16),
   decide (Plain s.mach c t = true ∧ c < 73728 ∧ u.priv ≠ .user ∧ v < 2 ^ 18 ∧ inside x0 y0 ∧ q < 16),
   decide (Plain s.mach c t = true ∧ c < 73728 ∧ u.wait = none ∧ member ∧ s.mach.quiet c t = true ∧ q < 16),
   decide (Plain s.mach c t = true ∧ c < 73728 ∧ u.wait = some { kind := .curtain i n, since := since } ∧ member ∧ n ≠ ctx.phase ∧ ctx.timedOut.find? (·.1 == n) = none),
   decide (Plain s.mach c t = true ∧ c < 73728 ∧ u.wait = some { kind := .curtain i n, since := since } ∧ member ∧ n = ctx.phase),
   decide (Plain s.mach c t = true ∧ c < 73728 ∧ ∃ e ∈ ctx.timedOut, (u.wait = some { kind := .curtain i n, since := since } ∧ member ∧ n ≠ ctx.phase ∧ ctx.timedOut.find? (·.1 == n) = some e)),
   decide (Plain s.mach c t = true ∧ c < 73728 ∧ u.wait = none ∧ s.mach.quiet c t = false ∧ member),
   decide (Plain s.mach c t = true ∧ c < 73728 ∧ u.wait = none ∧ ¬member),
   decide (Plain s.mach c t = true ∧ c < 73728)]

/-- The hypotheses under which `QueueForms` states something, each set of them once. -/
def hypsQueueForms (s : State) (c t : Nat) (a : Args) : List Bool :=
  let u := s.mach.me
  let k := s.mach.myCore
  let q := k.part.toNat
  let v := u.xreg a.s
  let w := u.xreg a.t
  let n := v.toNat / 2 ^ 23 % 16 * 32 + v.toNat / 2 ^ 27 % 32
  let holds := (s.mach.part q).holds (v.toNat / 2 ^ 27 % 32 * 16) (v.toNat / 2 ^ 23 % 16 * 12)
  let cl := s.mach.cluster n
  let i := v.toNat % 64
  let queue (m : Mach) : CapQueue := Map.get (m.cluster n).queues {} i
  let old := queue s.mach
  let right (b : Nat) : Prop := v.toNat / 2 ^ 48 = cl.check v ∧ v.toNat / 2 ^ 32 % 2 ^ 16 = old.gen.toNat ∧
    v.toNat / 2 ^ 16 % 16 = q ∧ v.getLsbD b = true
  let es := old.entries
  [decide (Plain s.mach c t = true ∧ c < 73728 ∧ holds = true ∧ right 8 ∧ w ≠ 0 ∧ es.length < 64),
   decide (Plain s.mach c t = true ∧ c < 73728 ∧ holds = true ∧ right 8 ∧ w ≠ 0 ∧ ¬es.length < 64),
   decide (Plain s.mach c t = true ∧ c < 73728 ∧ holds = true ∧ right 9),
   decide (Plain s.mach c t = true ∧ c < 73728 ∧ holds = true ∧ right 10),
   decide (Plain s.mach c t = true ∧ c < 73728 ∧ holds = true ∧ ¬right 8 ∧ w ≠ 0),
   decide (Plain s.mach c t = true ∧ c < 73728 ∧ holds = true ∧ ¬right 9),
   decide (Plain s.mach c t = true ∧ c < 73728 ∧ holds = false),
   decide (Plain s.mach c t = true ∧ c < 73728 ∧ v.toNat < 2 ^ 32 ∧ v.toNat / 2 ^ 6 % 4 = 0 ∧ v.toNat / 2 ^ 11 % 2 ^ 12 = 0 ∧ w = 0)]

/-- The hypotheses under which `ChorusForms` states something, each set of them once. -/
def hypsChorusForms (s : State) (c t : Nat) (a : Args) (fs : List Nat) : List Bool :=
  let u := s.mach.me
  let v := u.xreg a.s
  let sets := fs.map fun q => (s.mach.core q).tset t
  let named := v.toNat < 2 ^ 16 ∧ v ≠ 0 ∧ fs.contains c = false ∧ fs.all s.mach.live = true ∧
    (c :: fs).all (fun q => (s.mach.core q).heldBut t < 3) = true
  let leads := s.mach.cur = .core c t ∧ t < 4 ∧ u.cho = true ∧ u.fol = false ∧ u.holds = none ∧
    (s.mach.followersOf c t).all (fun q => ((s.mach.core q).tset t).fol) = true
  [decide (c < 73728 ∧ fs = ((List.range 16).filter fun i => (s.mach.me.xreg a.s).getLsbD i).map (fun i => c / 16 * 16 + i) ∧ Plain s.mach c t = true ∧ named ∧ sets.all (fun f => !f.busy && !f.anyBound && !f.choral) = true),
   decide (c < 73728 ∧ fs = ((List.range 16).filter fun i => (s.mach.me.xreg a.s).getLsbD i).map (fun i => c / 16 * 16 + i) ∧ Plain s.mach c t = true ∧ named ∧ sets.any (fun f => f.busy || f.anyBound) = true ∧ sets.all (!·.choral) = true),
   decide (c < 73728 ∧ fs = ((List.range 16).filter fun i => (s.mach.me.xreg a.s).getLsbD i).map (fun i => c / 16 * 16 + i) ∧ Plain s.mach c t = true ∧ v.toNat < 2 ^ 16 ∧ fs.contains c = true),
   decide (c < 73728 ∧ fs = ((List.range 16).filter fun i => (s.mach.me.xreg a.s).getLsbD i).map (fun i => c / 16 * 16 + i) ∧ leads)]

/-- The hypotheses under which `ChorusWord` states something, each set of them once. -/
def hypsChorusWord (s : State) (c t : Nat) (a : Args) (fs : List Nat) (o : Nat) : List Bool :=
  let set (s : State) (q : Nat) : ThreadSet := s.mach.tset (.core q t)
  [decide (c < 73728 ∧ t < 4 ∧ s.mach.cur = .core c t ∧ fs = c :: s.mach.followersOf c t ∧ s.mach.me.cho = true ∧ s.mach.me.holds = none ∧ a.short = false ∧ a.p = 7 ∧ fs.all (fun q => !(set s q).anyBound && (set s q).regErr == []) = true)]

/-- The hypotheses under which `PartitionForms` states something, each set of them once. -/
def hypsPartitionForms (s : State) (c t : Nat) (a : Args) (off since core : Nat) : List Bool :=
  let u := s.mach.me
  let k := s.mach.myCore
  let q := (u.xreg a.d).toNat
  let p := s.mach.part q
  let house := u.priv = .house ∧ q < 16
  let waits := u.wait = some { kind := .partition q, since := since }
  let named (n : Nat) : Prop := (u.xreg a.s).toNat = off ∧ off + n ≤ 65536 ∧ s.mach.admits c t off n false = true
  let w0 := k.number off 8
  let w1 := k.number (off + 8) 8
  let new := Partition.ofRecord (k.mem.bytes off 144)
  let inside := 1 ≤ new.w.toNat ∧ 1 ≤ new.h.toNat ∧ new.cx0.toNat + new.w.toNat ≤ 32 ∧ new.cy0.toNat + new.h.toNat ≤ 12
  let legal := w0 / 2 ^ 61 = 0 ∧ w0 / 2 ^ 12 % 16 = 0 ∧ w1 / 2 ^ 9 % 2 ^ 7 = 0 ∧ new.stitch.toNat ≤ 3 ∧ new.ncast.toNat ≤ 256 ∧
    16 ≤ new.strv.toNat ∧ new.strv.toNat ≤ 24 ∧ new.quota.toNat ≤ 3072 ∧ new.hbmbase.toNat + new.hbmpg.toNat ≤ 32768 ∧
    (List.range 128).all (fun i => k.mem.byte (off + 16 + i) == 0) = true
  let alone := (List.range 16).all (fun i => (s.mach.part i).st == .free) = true
  [decide (Plain s.mach c t = true ∧ 73728 ≤ c ∧ u.priv ≠ .house),
   decide (Plain s.mach c t = true ∧ 73728 ≤ c ∧ house ∧ named 144 ∧ off % 8 = 0 ∧ inside ∧ legal ∧ alone ∧ u.wait = none),
   decide (Plain s.mach c t = true ∧ 73728 ≤ c ∧ house ∧ waits ∧ p.st ≠ .zeroing),
   decide (Plain s.mach c t = true ∧ 73728 ≤ c ∧ house ∧ waits ∧ p.st ≠ .zeroing ∧ u.xreg a.s = 0),
   decide (Plain s.mach c t = true ∧ 73728 ≤ c ∧ house ∧ waits ∧ p.st = .zeroing),
   decide (Plain s.mach c t = true ∧ 73728 ≤ c ∧ house ∧ named 144 ∧ off % 8 = 0 ∧ w0 / 2 ^ 43 % 2 ^ 6 = 0 ∧ legal ∧ p.st = .configured),
   decide (Plain s.mach c t = true ∧ 73728 ≤ c ∧ (house ∧ u.xreg a.s = 0 ∧ u.wait = none ∧ (p.st = .running ∨ p.st = .suspended ∨ p.st = .configured))),
   decide (Plain s.mach c t = true ∧ 73728 ≤ c ∧ house ∧ waits ∧ p.st ≠ .zeroing ∧ (u.xreg a.s).toNat = off ∧ 0 < off ∧ off + 1024 ≤ 65536 ∧ off % 64 = 0),
   decide (Plain s.mach c t = true ∧ 73728 ≤ c ∧ house ∧ waits ∧ p.st = .suspended),
   decide (Plain s.mach c t = true ∧ 73728 ≤ c ∧ house ∧ u.wait = none ∧ p.st = .running)]

/-- The hypotheses under which `PartitionRun` states something, each set of them once. -/
def hypsPartitionRun (s : State) (c t : Nat) (a : Args) (off : Nat) : List Bool :=
  let u := s.mach.me
  let k := s.mach.myCore
  let q := (u.xreg a.d).toNat
  let p := s.mach.part q
  let house := u.priv = .house ∧ q < 16
  let named := (u.xreg a.s).toNat = off ∧ off + 64 ≤ 65536 ∧ off % 8 = 0 ∧ s.mach.admits c t off 64 false = true
  [decide (Plain s.mach c t = true ∧ 73728 ≤ c ∧ house ∧ u.xreg a.s = 0 ∧ p.st = .suspended),
   decide (Plain s.mach c t = true ∧ 73728 ≤ c ∧ house ∧ named ∧ ¬(off = 0 ∧ p.st = .suspended)),
   decide (Plain s.mach c t = true ∧ 73728 ≤ c ∧ (house ∧ named ∧ (p.st ≠ .configured ∨ k.number off 8 / 2 ^ 56 ≠ q ∨ k.number (off + 8) 8 / 2 ^ 62 ≠ 1)))]

/-- The hypotheses under which `SliceAndKeyForms` states something, each set of them once. -/
def hypsSliceAndKeyForms (s : State) (c t : Nat) (a : Args) (off hand : Nat) : List Bool :=
  let u := s.mach.me
  let i := (u.xreg a.d).toNat % 16
  let v := u.xreg a.s
  let w := u.xreg a.t
  let es := ((List.range 16).filter fun i => (s.mach.slice i).v).map fun i =>
    (i, (s.mach.slice i).instant, (s.mach.slice i).part.toNat)
  let rises := (List.range (es.length - 1)).all fun j => (es.getD j (0, 0, 0)).2.1.toNat < (es.getD (j + 1) (0, 0, 0)).2.1.toNat
  let saved := es.all fun e => (s.mach.part e.2.2).launch.save != 0
  let idle := (s.mach.part i).st ≠ .running ∧ (s.mach.part i).st ≠ .suspended
  let named := hand = v.toNat % 512 ∧ v.getLsbD 9 = false
  let share := v.getLsbD 9 = true ∧ (s.mach.part i).hands.contains hand = true
  let reads := (w.toNat = off ∧ off + 64 ≤ 65536 ∧ off % 64 = 0 ∧ s.mach.admits c t off 64 false = true)
  [decide (Plain s.mach c t = true ∧ s.mach.me.priv = .house ∧ w.toNat / 16 % 2 ^ 59 = 0),
   decide (Plain s.mach c t = true ∧ s.mach.me.priv = .house ∧ w.toNat / 16 % 2 ^ 59 ≠ 0),
   decide (Plain s.mach c t = true ∧ s.mach.me.priv = .house ∧ rises = true ∧ saved = true),
   decide (Plain s.mach c t = true ∧ s.mach.me.priv = .house ∧ (rises = false ∨ saved = false)),
   decide (Plain s.mach c t = true ∧ s.mach.me.priv = .house ∧ (idle ∧ reads ∧ (named ∨ share))),
   decide (Plain s.mach c t = true ∧ s.mach.me.priv = .house ∧ (idle ∧ (named ∨ share))),
   decide (Plain s.mach c t = true ∧ s.mach.me.priv = .house ∧ ¬idle)]

/-- The hypotheses under which `EntriesAreTaken` states something, each set of them once. -/
def hypsEntriesAreTaken (s : State) (c t desc i off other x : Nat) (ring : Bool) (e : Word) (r : FaultRec) (rs : List FaultRec) : List Bool :=
  let m := s.mach
  let k := m.core c
  let u := k.tset t
  let picked (kind : Nat) : Prop := m.mayTakeEntry c t = true ∧ k.nextEntry = some (ring, e) ∧ fld e 63 62 = kind ∧
    (k.badRead (k.entryOff ring) 8).isNone = true
  let w0 := k.mem64 desc
  let usable := desc % 16 = 0 ∧ (k.badRead desc 16).isNone = true ∧ fld w0 63 32 = 0 ∧ fld w0 15 14 = 0 ∧ fld w0 31 16 ≠ 0 ∧
    w0.getLsbD 0 = false
  let named := i < 64 ∧ fld e 15 0 = k.recs.toNat + 128 * i ∧ m.resumeBad c i = none
  [decide (c < 73732 ∧ t < 4 ∧ picked 0 ∧ fld e 15 0 = desc ∧ usable ∧ k.deferred = [] ∧ k.poolFind (frameBlocks (fld w0 31 16)) = some off ∧ m.heldRange c off 24 = false),
   decide (c < 73732 ∧ t < 4 ∧ picked 0 ∧ fld e 15 0 = desc ∧ desc % 16 ≠ 0 ∧ u.leaving = false ∧ m.windowFree c = true ∧ k.deferred = [] ∧ k.events = [] ∧ k.mem64 (desc / 8 * 8 + 8) = 0),
   decide (c < 73732 ∧ t < 4 ∧ picked 1 ∧ named ∧ k.deferred = []),
   decide (c < 73732 ∧ t < 4 ∧ picked 2 ∧ named ∧ k.deferred = [] ∧ u.kvec ≠ 0),
   decide (c < 73732 ∧ t < 4 ∧ k.events = r :: rs ∧ m.mayTake c k.supTs = true ∧ (k.tset k.supTs).kvec ≠ 0 ∧ k.poolFind 2 = some off ∧ m.heldRange c off 24 = false),
   decide (c < 73732 ∧ t < 4 ∧ k.events = r :: rs ∧ m.mayTake c k.supTs = true ∧ (k.tset k.supTs).kvec = 0),
   decide (c < 73732 ∧ t < 4 ∧ u.dying = none ∧ u.pend = r :: rs ∧ m.coreRuns c = true ∧ k.halted = false ∧ u.busy = true ∧ u.fol = false ∧ k.schur.any (fun o => o.ts == t && o.ended) = false ∧ u.kvec ≠ 0)]

/-- The hypotheses under which `DeliveriesAreReceived` states something, each set of them once. -/
def hypsDeliveriesAreReceived (s : State) (id off x other : Nat) (val head word1 : Word) (n : Byte) (dir sdir : Nat) (el : V128) (body : List Byte) (inc : BitVec 32) (due : Nat) (d : Delivery) (join : Option Word) (r : FaultRec) : List Bool :=
  let m := s.mach
  let q := d.dst
  let k := m.core q
  let here := d.standing m.clk = true ∧ (m.part d.part).st ≠ .zeroing ∧ q < 73732 ∧ (q < 73728 → m.live q = true) ∧
    ((k.hold.takeWhile (· != id)).any fun i => (m.delivery i).any (·.conflicts d)) = false
  let clear (a n : Nat) : Prop := m.heldRange q a n = false ∧ (k.badRead a n).isNone = true
  let bs := leBytes val.toNat 8
  let clean := off % 8 = 0 ∧ off < 65536 ∧ clear off 8
  let cells := cellsAt off bs
  let w := k.number off 8
  let ring := head.toNat / 2 ^ 44 % 4
  let slot := k.slotOff ring (k.ringTail ring)
  [decide (s.mach.delivery id = some d ∧ here ∧ d.body = .store cells ∧ clean ∧ (k.protectedCells cells).isNone = true),
   decide (s.mach.delivery id = some d ∧ here ∧ d.body = .store cells ∧ k.inQueueArea off = true),
   decide (s.mach.delivery id = some d ∧ here ∧ d.body = .stv off val n ∧ clean ∧ (k.protectedCells [(off, 0)]).isNone = true ∧ k.verAt off + 1 = n ∧ (k.sideAt off).rcl = true),
   decide (s.mach.delivery id = some d ∧ here ∧ d.body = .stv off val n ∧ clean ∧ (k.protectedCells [(off, 0)]).isNone = true ∧ k.verAt off + 1 ≠ n ∧ d.phase ≠ .held ∧ k.hold.length < 8),
   decide (s.mach.delivery id = some d ∧ here ∧ d.body = .cue off false join ∧ clean ∧ (k.protectedCells [(off, 0)]).isNone = true ∧ m.cueHeld q off = false ∧ w / 2 ^ 39 % 2 = 1 ∧ w / 2 ^ 32 % 32 = 0 ∧ 2 ≤ w % 2 ^ 32),
   decide (s.mach.delivery id = some d ∧ here ∧ d.body = .cue off false join ∧ clean ∧ (k.protectedCells [(off, 0)]).isNone = true ∧ m.cueHeld q off = false ∧ w / 2 ^ 39 % 2 = 1 ∧ w / 2 ^ 32 % 32 = 0 ∧ w % 2 ^ 32 = 1 ∧ k.pushedA = k.takenA ∧ w / 2 ^ 38 % 2 = 0),
   decide (s.mach.delivery id = some d ∧ here ∧ d.body = .msg head word1 body ∧ k.ringFull ring = false ∧ clear slot (16 + body.length) ∧ clear (k.inOff ring) 8 ∧ head.toNat / 2 ^ 43 % 2 = 0 ∧ head.toNat / 2 ^ 39 % 2 = 0),
   decide (s.mach.delivery id = some d ∧ here ∧ d.body = .inc off inc),
   decide (s.mach.delivery id = some d ∧ d.phase = .accepting due none ∧ due ≤ m.clk),
   decide (s.mach.delivery id = some d ∧ d.phase = .accepting due (some r) ∧ due ≤ m.clk ∧ d.body = .store cells ∧ d.src < 73728 ∧ d.ts < 4 ∧ ((m.core d.src).tset d.ts).busy = true ∧ ((m.core d.src).tset d.ts).cid = d.cid ∧ ((m.core d.src).tset d.ts).fol = false ∧ (List.range d.ts).all (fun t => ((m.core d.src).tset t).cid != d.cid) = true),
   decide (s.mach.delivery id = some d ∧ d.phase = .refusing due ∧ due ≤ m.clk),
   decide (s.mach.delivery id = some d ∧ d.phase = .backoff due ∧ due ≤ m.clk ∧ d.cast = none ∧ m.injectOpen d = true),
   decide (s.mach.delivery id = some d ∧ d.phase = .flying due ∧ due ≤ m.clk ∧ d.body = .element dir sdir el ∧ dir < 4)]

/-- The hypotheses under which `WaitsEnd` states something, each set of them once. -/
def hypsWaitsEnd (s : State) (c t i id since limit off due other : Nat) (n : Byte) (target : BitVec 32) (mask : BitVec 16) (r : FaultRec) : List Bool :=
  let m := s.mach
  let k := m.core c
  let u := k.tset t
  let rc := k.record i
  let w0 := k.recWord i 0
  let arg := k.recWord i 7
  let parked := rc.st = .parked ∧ rc.pend = [] ∧ m.slotHeld c false = false ∧ m.wakeHeld c i = false
  let packet (f : Option FaultRec) : Prop := (m.delivery id).any (fun d => d.body == .wake { core := c, idx := i, stall := false } f &&
    d.phase == .flying due && d.dst == c) = true ∧ due ≤ m.clk ∧ m.answerComing { core := c, idx := i, stall := false } = false
  let waits (w : WaitKind) : Prop := m.coreRuns c = true ∧ u.wait = some { kind := w, since := since }
  let p := m.part i
  let x := p.ctx t
  [decide (c < 73732 ∧ t < 4 ∧ i < 64 ∧ parked ∧ w0.toNat / 2 ^ 60 = 1 ∧ verReached (k.verAt (arg.toNat % 65536)) (arg.extractLsb' 16 8) = true),
   decide (c < 73732 ∧ t < 4 ∧ i < 64 ∧ parked ∧ w0.toNat / 2 ^ 60 = 3 ∧ (k.slot (arg.toNat % 16)).st = .valid),
   decide (c < 73732 ∧ t < 4 ∧ i < 64 ∧ parked ∧ packet none),
   decide (c < 73732 ∧ t < 4 ∧ i < 64 ∧ parked ∧ w0.toNat / 2 ^ 60 = 3 ∧ (k.slot (arg.toNat % 16)).st = .empty),
   decide (c < 73732 ∧ t < 4 ∧ i < 64 ∧ parked ∧ packet (some r) ∧ r.async = false),
   decide (c < 73732 ∧ t < 4 ∧ i < 64 ∧ waits (.version off n) ∧ since + 64 ≤ m.clk ∧ u.held = false ∧ verReached (k.verAt off) n = false ∧ off < 65536 ∧ k.freeRec = some i ∧ m.recHeld c i = false ∧ u.regErr = [] ∧ k.recs.toNat % 8 = 0),
   decide (c < 73732 ∧ t < 4 ∧ i < 64 ∧ waits (.version off n) ∧ since + 64 ≤ m.clk ∧ u.held = false ∧ verReached (k.verAt off) n = false ∧ k.freeRec = none ∧ u.kvec ≠ 0),
   decide (c < 73732 ∧ t < 4 ∧ i < 64 ∧ m.coreRuns c = true ∧ parked ∧ rc.deadline = some due ∧ due ≤ m.clk),
   decide (c < 73732 ∧ t < 4 ∧ i < 64 ∧ waits (.counter i target limit) ∧ since + limit ≤ m.clk ∧ 2 ^ 31 ≤ (vget k.mb 0 i - target).toNat ∧ u.cho = false ∧ u.followers = 0 ∧ u.kvec ≠ 0),
   decide (c < 73732 ∧ t < 4 ∧ i < 64 ∧ waits (.chorus mask) ∧ since + 65536 < m.clk ∧ (chorusCores c (mask.setWidth 64)).any (fun q => ((m.core q).tset t).busy || ((m.core q).tset t).anyBound) = true ∧ u.kvec ≠ 0),
   decide (c < 73732 ∧ t < 4 ∧ i < 64 ∧ i < 16 ∧ t < 2 ∧ x.release = some due ∧ due ≤ m.clk ∧ m.curtainFence i t none = false),
   decide (c < 73732 ∧ t < 4 ∧ i < 64 ∧ i < 16 ∧ t < 2 ∧ p.st = .running ∧ x.release = none ∧ m.curtainMissing x ≠ [] ∧ x.first = some since ∧ since + 2 ^ x.toe.toNat ≤ m.clk)]

/-- The hypotheses under which `StagehandsServe` states something, each set of them once. -/
def hypsStagehandsServe (s : State) (sh q id i c t off : Nat) (b : Blk) (w : Wing) (y : Xlat) (f : Byte) (d : Delivery) (r : FarReq) (v : Move) (addr data : Word) (run : StageRun) (cards : List StageRun) (ans : FarAns) : List Bool :=
  let m := s.mach
  let h := m.hand sh
  let p := m.part q
  let due := b.due.any (· ≤ m.clk) = true
  let board := h.onBoard q b.blk = some (i, b)
  let dir := h.inDir q b.blk = some b
  let alone := h.overflow = [] ∧ h.requests = [] ∧ m.injPaused = false ∧ b.wings = [w] ∧ h.wakeAt ≤ m.clk
  let pairs := b.pins.filter (m.clk < ·.expires)
  let coming := m.delivery id = some d ∧ d.phase = .flying off ∧ off ≤ m.clk ∧ d.dst = 100000 + sh ∧ (m.part d.part).st ≠ .zeroing ∧ h.queued < 256
  let blk := (m.part r.part).blockOf r.win (r.addr.toNat % 2 ^ 60)
  let u := (m.core d.src).tset r.ts
  [decide (q < 16 ∧ sh < 512 ∧ h.chanFree ≤ m.clk ∧ m.nextPart sh = some q ∧ Map.get h.place 0 q = 0 ∧ m.underWay sh q .fetch = none ∧ m.waitingPick sh q = none ∧ board ∧ m.pick sh q = some b ∧ m.hasQuota sh q (b.size / 4096) = true ∧ (h.cache.find? fun x => x.part == q && x.win == b.win && x.page == b.off / 65536) = some y ∧ h.hbmBad (y.hbm + b.off % 65536) b.size = false),
   decide (q < 16 ∧ sh < 512 ∧ board ∧ b.st = .fetching ∧ b.fault = none ∧ due ∧ alone ∧ w.write = false ∧ h.inDir q b.blk = none),
   decide (q < 16 ∧ sh < 512 ∧ board ∧ b.fault = some f ∧ due ∧ alone),
   decide (q < 16 ∧ sh < 512 ∧ dir ∧ b.st = .draining ∧ due ∧ p.st = .running ∧ b.pins ≠ [] ∧ h.dir = [b]),
   decide (q < 16 ∧ sh < 512 ∧ dir ∧ b.part = q ∧ b.st = .evicting ∧ due ∧ b.wings = []),
   decide (q < 16 ∧ sh < 512 ∧ dir ∧ h.dir = [b] ∧ p.st = .running ∧ b.pins.any (·.expires ≤ m.clk) = true ∧ pairs ≠ []),
   decide (q < 16 ∧ sh < 512 ∧ coming ∧ d.body = .far r ∧ r.data = none ∧ r.part = q ∧ h.served_ q blk = some b ∧ b.badRead (r.addr.toNat % 2 ^ 60 - 4096 * blk) r.size = false ∧ r.tag = none ∧ h.dir = [b] ∧ b.pins ≠ []),
   decide (q < 16 ∧ sh < 512 ∧ coming ∧ d.body = .far r ∧ r.part = q ∧ h.served_ q blk = none ∧ r.tgt = none),
   decide (q < 16 ∧ sh < 512 ∧ coming ∧ d.body = .far r ∧ r.part = q ∧ r.tgt = some w.who ∧ h.dir = [] ∧ h.board = []),
   decide (q < 16 ∧ sh < 512 ∧ coming ∧ d.body = .move v ∧ v.part = q ∧ h.dir = []),
   decide (q < 16 ∧ sh < 512 ∧ m.delivery id = some d ∧ d.body = .far r ∧ d.phase = .answering off ans ∧ off ≤ m.clk ∧ u.far = .asked id ∧ r.ts < 4 ∧ ans ≠ .absent),
   decide (q < 16 ∧ sh < 512 ∧ m.delivery id = some d ∧ d.body = .far r ∧ d.phase = .answering off .absent ∧ off ≤ m.clk ∧ u.far = .asked id ∧ r.ts < 4 ∧ i < 64 ∧ u.regErr = [] ∧ m.recHeld d.src i = false ∧ r.tgt = some { core := d.src, idx := i, stall := false }),
   decide (q < 16 ∧ sh < 512 ∧ Alone m c t = true ∧ c < 73728 ∧ (m.core c).part.toNat = q ∧ p.hands.contains sh = true ∧ off % 8 = 0 ∧ off < p.tableArea ∧ off < 2 ^ 24 ∧ addr.toNat = 15 * 2 ^ 60 + 2 * 2 ^ 56 + sh * 2 ^ 40 + 2 ^ 36 + off),
   decide (q < 16 ∧ sh < 512 ∧ (m.unit sh q).cards = run :: cards ∧ (m.unit sh q).ts.busy = true ∧ p.st = .running ∧ run.started + 2 ^ 24 ≤ m.clk)]

/-- The hypotheses under which `EnginesWork` states something, each set of them once. -/
def hypsEnginesWork (s : State) (c t i id ea due q x n : Nat) (j : Job) (d : Delivery) (bs : List Byte) (v : Move) (f : Byte) (r : CastRound) (e : V128) : List Bool :=
  let m := s.mach
  let k := m.core c
  let u := k.tset t
  let p := u.slot i
  let idx (a : Nat) : Int := (a : Int)
  let addr : Int := p.base + idx (p.moved % p.n0) * p.stride 0 + idx (p.moved / p.n0 % p.n1) * p.stride 1 +
    idx (p.moved / (p.n0 * p.n1)) * p.stride 2
  let fifo (v : State) (l : List V128) (moved : Nat) : Prop := let o := ((v.mach.core c).tset t).slot i
    o.fifo = l ∧ o.moved = moved ∧ o.pos = p.pos ∧ ((v.mach.core c).tset t).x = u.x ∧ ((v.mach.core c).tset t).v = u.v
  let arrives (b : Payload) : Prop := m.delivery id = some d ∧ d.body = b ∧ d.phase = .flying due ∧ due ≤ m.clk ∧ d.dst = c
  let ch := k.channel i
  let job := k.jobs = [j]
  let w5 := j.word 5
  let issuer := u.busy = true ∧ u.fol = false ∧ (List.range t).all (fun y => (k.tset y).cid != u.cid) = true
  let pp := m.part k.part.toNat
  let cast := pp.cast n
  let mine := pp.rounds = [r] ∧ r.cast = n
  [decide (c < 73728 ∧ t < 4 ∧ i < 8 ∧ p.bnd = true ∧ p.dir = false ∧ p.kind = 0 ∧ p.flt = false ∧ p.fault = none ∧ (k.badRead ea 8).isNone = true ∧ p.fifo.length < 8 ∧ p.moved < p.n0 * p.n1 * p.n2 ∧ addr = ea ∧ p.esize = 8 ∧ ea % 8 = 0 ∧ ea + 8 ≤ 65536 ∧ m.admits c t ea 8 false = true),
   decide (c < 73728 ∧ t < 4 ∧ i < 8 ∧ p.bnd = true ∧ p.dir = true ∧ p.kind = 1 ∧ p.fifo = [e] ∧ addr = ea ∧ p.esize = 8 ∧ ea % 8 = 0 ∧ ea + 8 ≤ 65536 ∧ (k.badRead ea 8).isNone = true ∧ m.drainGate c t [ea / 8] = true),
   decide (c < 73728 ∧ t < 4 ∧ i < 8 ∧ p.bnd = true ∧ p.dir = true ∧ 7 ≤ p.kind ∧ p.kind ≤ 10 ∧ p.fifo = [e] ∧ m.net = [] ∧ m.neighbour c (p.kind - 7) = some q ∧ q ≠ c ∧ (vget (m.core q).link [] (m.linkBuffer c q (p.kind - 7))).length < 8),
   decide (c < 73728 ∧ t < 4 ∧ i < 8 ∧ arrives (.push v bs) ∧ v.kind = .copy c i ea ∧ i < 4 ∧ m.heldRange c ea bs.length = false ∧ (k.protectedCells (cellsAt ea bs)).isNone = true ∧ ch.flt = false ∧ ch.filled = [] ∧ ch.wm.toNat = ea ∧ bs ≠ [] ∧ ea + bs.length < 65536 ∧ ch.limit.toNat ≠ ea + bs.length),
   decide (c < 73728 ∧ t < 4 ∧ i < 8 ∧ arrives (.moveFault v f) ∧ v.kind = .copy c i ea ∧ i < 4 ∧ ch.flt = false ∧ ch.cid = u.cid ∧ ch.ts = t ∧ issuer),
   decide (c < 73728 ∧ t < 4 ∧ i < 8 ∧ job ∧ m.coreStarts c = true ∧ j.phase = .queued ∧ j.kind = 0),
   decide (c < 73728 ∧ t < 4 ∧ i < 8 ∧ job ∧ j.kind = 0 ∧ j.phase = .running (some due) ∧ due ≤ m.clk ∧ w5.toNat / 2 ^ 16 % 2 ^ 16 = ea ∧ n = w5.toNat / 2 ^ 32 % 2 ^ 16 ∧ (k.badRead (w5.toNat % 2 ^ 16) n).isNone = true ∧ m.heldRange c ea n = false ∧ (k.protectedCells (cellsAt ea (k.mem.bytes (w5.toNat % 2 ^ 16) n))).isNone = true),
   decide (c < 73728 ∧ t < 4 ∧ i < 8 ∧ job ∧ j.phase = .faulted f 0 0 0 0 ∧ j.ts = t ∧ j.cid = u.cid ∧ issuer),
   decide (c < 73728 ∧ t < 4 ∧ i < 8 ∧ m.net = [d] ∧ arrives (.push v bs) ∧ v.kind = .fetch c i false ∧ bs.length = v.len ∧ (k.slot i).got = 0),
   decide (c < 73728 ∧ t < 4 ∧ i < 8 ∧ m.net = [d] ∧ arrives (.moveFault v f) ∧ v.kind = .fetch c i true),
   decide (c < 73728 ∧ t < 4 ∧ i < 8 ∧ mine ∧ job ∧ cast.members = [c] ∧ cast.lostAt = [] ∧ cast.root = some c ∧ r.fault = none ∧ r.value = none ∧ r.form = some (0, 1) ∧ r.joined = [c] ∧ r.parts = [{ core := c, job := j.uid, op := 0, src := [BitVec.ofNat 64 x], num := j.num, ts := j.ts, cid := j.cid, pc := j.pc }] ∧ m.treeAt n c = 0xE000),
   decide (c < 73728 ∧ t < 4 ∧ i < 8 ∧ mine ∧ cast.members = [c, q] ∧ cast.lostAt = [] ∧ r.fault = none ∧ r.joined = [c] ∧ q ≠ c ∧ r.first = some due ∧ due + 2 ^ 20 ≤ m.clk)]

/-- The hypotheses under which `MatrixOperationsRun` states something, each set of them once. -/
def hypsMatrixOperationsRun (s : State) (c t q row i j cyc : Nat) (pair : Bool) (o : MatOp) (r : Round) (tile : List (BitVec 32)) (z : Schur) (cut : Byte) (lane : Byte) : List Bool :=
  let m := s.mach
  let k := m.core c
  let u := k.tset t
  let p := o.sample.planes.toNat
  let n := k.healthy
  let ceil (a b : Nat) : Nat := (a + b - 1) / b
  let fa := o.sample.fmta.toNat
  let cycles : Nat := if fa = 0 then ceil (49152 * p) (1024 * n) else if fa = 14 then ceil 65536 (128 * n)
    else if fa = 15 then (if n = 4 then 96 else ceil 98304 (128 * n)) else if fa = 10 ∨ fa = 11 then ceil 24576 (64 * n)
    else ceil 49152 (128 * n)
  let acc (l : Nat) : BitVec 32 := vget (vget k.acc (Vector.replicate 128 0) o.acc) 0 l
  let solo := k.mat = [o] ∧ o.gang = false ∧ o.acc < 4
  let issuer := o.ts = t ∧ o.cid = u.cid ∧ u.busy = true ∧ u.fol = false ∧ (List.range t).all (fun y => (k.tset y).cid != u.cid) = true
  let gang := m.rounds = [r] ∧ r.row = row ∧ r.pair = pair ∧ r.live = false ∧ k.mat = [o] ∧ o.gang = true ∧ o.acc < 4 ∧ o.job = none
  let ms := m.members row pair
  [decide (c < 73728 ∧ t < 4 ∧ solo ∧ o.phase = .issued ∧ m.unitFree c = true ∧ k.sinceReh ≤ k.period.toNat ∧ k.failing = 0 ∧ (o.sources c (o.rows c)).all (m.rangeReady o) = true ∧ m.badSource (o.reads c (o.rows c)) = none),
   decide (c < 73728 ∧ t < 4 ∧ solo ∧ o.phase = .running cyc tile ∧ cyc ≤ m.clk ∧ tile.length = 128 ∧ o.job = none),
   decide (c < 73728 ∧ t < 4 ∧ gang ∧ r.cut = none ∧ ms.all r.arrived.contains = true ∧ ms.contains c = true ∧ m.gangFlaw row pair = none ∧ ms.all m.unitFree = true ∧ (ms.all fun x => (m.nextMat x).any (·.gang) && (m.gangOp x).any fun y => m.badSource (y.reads x (m.supplied row pair x)) == none && y.sample.cycles (m.core x).healthy == cyc && !((m.core x).rehDue y)) = true),
   decide (c < 73728 ∧ t < 4 ∧ gang ∧ r.cut = none ∧ r.arrived = [c] ∧ ms.contains c = true ∧ ms.contains q = true ∧ q ≠ c ∧ r.first + 65536 ≤ m.clk ∧ (m.part k.part.toNat).st = .running ∧ o.phase = .issued ∧ issuer),
   decide (c < 73728 ∧ t < 4 ∧ gang ∧ r.cut = some (cut, q, lane) ∧ r.arrived = [c] ∧ ms.contains c = true ∧ q ≠ c ∧ o.phase = .issued ∧ issuer),
   decide (c < 73728 ∧ t < 4 ∧ k.schur = some z ∧ z.done ≤ m.clk ∧ z.ended = false)]

/-- The hypotheses under which `ModuleEvents` states something, each set of them once. -/
def hypsModuleEvents (s : State) (q i c dir cls other g : Nat) (time : Word) (rest : List (Nat × Word × Nat)) (d : Delivery) : List Bool :=
  let m := s.mach
  let p := m.part q
  let n := m.energyPeriod + 1
  let apart : Bool := (List.range 16).all fun o => o == q || (m.liveCores o).all fun x => !(m.liveCores q).contains x
  let runs (x : Nat) : Prop := (m.part x).st = .running ∨ (m.part x).st = .suspended
  let armed := m.armed = (i, time, q) :: rest
  let one := m.sliceSet = [other, q] ∧ other ≠ q ∧ other < 16 ∧ (m.part other).st = .running
  let link (v : State) : Link := (v.mach.router c).link dir
  let old := (m.router c).link dir
  let lost := old.silent
  let live := c < 73728 ∧ dir < 4 ∧ onMesh (c % 512) (c / 512) dir = true ∧ old.dead = false
  [decide (q < 16 ∧ cls < 6 ∧ 65536 * n ≤ m.clk ∧ apart = true),
   decide (q < 16 ∧ cls < 6 ∧ 65536 * (m.budgetPeriod + 1) ≤ m.clk),
   decide (q < 16 ∧ cls < 6 ∧ 65536 * (m.powerPeriod + 1) ≤ m.clk ∧ m.powerPeriod + 1 ≤ m.energyPeriod),
   decide (q < 16 ∧ cls < 6 ∧ p.launch.go = some g ∧ g ≤ m.clk ∧ p.holds (c % 512) (c / 512) = true ∧ m.live c = true),
   decide (q < 16 ∧ cls < 6 ∧ p.st = .zeroing ∧ p.zeroDone = some g ∧ g ≤ m.clk ∧ m.requests = []),
   decide (q < 16 ∧ cls < 6 ∧ armed ∧ one ∧ m.switching = none ∧ time.toNat ≤ m.kptp.toNat ∧ runs q ∧ m.ptpNs ≤ instantNs time),
   decide (q < 16 ∧ cls < 6 ∧ armed ∧ m.switching = none ∧ time.toNat ≤ m.kptp.toNat ∧ ¬runs q),
   decide (q < 16 ∧ cls < 6 ∧ m.switching = some (time, q, [other]) ∧ one ∧ (m.part other).stopping = true ∧ m.stopped other = true ∧ p.st = .suspended),
   decide (q < 16 ∧ cls < 6 ∧ (live ∧ (lost = false ∨ old.resyncs < 2) ∧ m.net = [d])),
   decide (q < 16 ∧ cls < 6 ∧ live ∧ lost = true ∧ 2 ≤ old.resyncs),
   decide (q < 16 ∧ cls < 6 ∧ live ∧ m.net = [d]),
   decide (q < 16 ∧ cls < 6 ∧ m.deadLinks = [(c, 1)] ∧ c < 73728 ∧ c / 512 < 143 ∧ m.suspects.filter m.isolated = [] ∧ m.net = [] ∧ (m.router c).routes = [])]

/-- The hypotheses under which `EthernetPorts` states something, each set of them once. -/
def hypsEthernetPorts (s : State) (i j prio q qp win sh off len : Nat) (b : Bool) (x : PtpMsg) (bs : List Byte) (addr : Word) (e : Blk) (y : Xlat) : List Bool :=
  let m := s.mach
  let o := m.port_ i
  let own := vget s.perm.flash.addr 0 i
  let heard (v : State) : Prop := (v.mach.port_ i).rank = some x.rank ∧ (v.mach.port_ i).heard = m.clk
  let best := o.up = true ∧ x.port = i ∧ m.heardOn (1 - i) = false
  let onNet := m.booted = true ∧ o.up = true ∧ m.qpPart qp = some q ∧ m.rdma = []
  let p := m.part q
  let a := addr.toNat % 2 ^ 60
  let h := m.hand sh
  let served := q < 16 ∧ p.st = .running ∧ addr.toNat / 2 ^ 62 = 1 ∧ p.home a = some (win, sh, off) ∧ h.served_ q (p.blockOf win a) = some e ∧
    h.requests = [] ∧ h.queued < 256 ∧ e.bad = [] ∧ 0 < len ∧ a % 4096 + len ≤ 4096 ∧ off % 4096 = a % 4096
  [decide (i < 2 ∧ j < 2),
   decide (i < 2 ∧ j < 2 ∧ prio = 3 ∧ m.outbox = []),
   decide (i < 2 ∧ j < 2 ∧ prio = 6 ∧ m.outbox = []),
   decide (i < 2 ∧ j < 2 ∧ prio = 3 ∧ o.up = true ∧ i = 0 ∧ o.resolved = true ∧ m.outbox = [.sent qp bs]),
   decide (i < 2 ∧ j < 2 ∧ m.outbox = []),
   decide (i < 2 ∧ j < 2 ∧ o.up = true),
   decide (i < 2 ∧ j < 2 ∧ o.up = true ∧ prio ≠ own),
   decide (i < 2 ∧ j < 2 ∧ best ∧ 1000000 < x.offset),
   decide (i < 2 ∧ j < 2 ∧ best ∧ x.offset < -1000000),
   decide (i < 2 ∧ j < 2 ∧ best ∧ -1000000 ≤ x.offset ∧ x.offset ≤ 1000000),
   decide (i < 2 ∧ j < 2 ∧ o.up = true ∧ x.port = i ∧ m.heardOn (1 - i) = true ∧ (m.port_ (1 - i)).rank.any (· < x.rank) = true),
   decide (i < 2 ∧ j < 2 ∧ m.booted = true ∧ m.ptp.toNat < 3 ∧ (m.port_ 0).heard + 27200000000 ≤ m.clk ∧ (m.port_ 1).heard + 27200000000 ≤ m.clk),
   decide (i < 2 ∧ j < 2 ∧ onNet ∧ i = 0 ∧ o.pause3 = false),
   decide (i < 2 ∧ j < 2 ∧ (onNet ∧ o.pause3 = true ∧ ((m.port_ (1 - i)).up = false ∨ (m.port_ (1 - i)).pause3 = true))),
   decide (i < 2 ∧ j < 2 ∧ onNet ∧ served ∧ m.imageClosed q a len = false),
   decide (i < 2 ∧ j < 2 ∧ onNet ∧ served ∧ m.imageClosed q a len = false ∧ bs.length = len ∧ h.dir = [e] ∧ (h.cache.find? fun z => z.part == q && z.win == win && z.page == off / 65536) = some y ∧ y.wr = true),
   decide (i < 2 ∧ j < 2 ∧ onNet ∧ p.imageLock = some (m.clk, a, off) ∧ 0 < off ∧ bs ≠ []),
   decide (i < 2 ∧ j < 2 ∧ (onNet ∧ (p.st = .zeroing ∨ p.st = .free)))]

/-- The hypotheses under which `ManagementRequests` states something, each set of them once. -/
def hypsManagementRequests (s : State) (r : MgmtReq) (off other : Nat) (n : Mach) : List Bool :=
  let m := s.mach
  let q := r.part.toNat
  let p := m.part q
  let body (i : Nat) : Word := imgW r.body (8 * i)
  let fresh (ty : Nat) : Prop := tagOk r s.perm.flash.opKey ty = true ∧ m.lastSeq < r.seq.toNat ∧ m.requests = []
  let waiting := m.requests = [(4, r)]
  let slices := m.validSlices
  let ceiling := if s.perm.flash.ceiling < r.seq.toNat then r.seq.toNat + 2 ^ 32 else s.perm.flash.ceiling
  let perm : Perm := { s.perm with flash := { s.perm.flash with ceiling := ceiling } }
  [decide (s.mach.booted = true ∧ s.mach.ports.toList.all (!·.up) = false ∧ r.flags = 0 ∧ q < 16 ∧ fresh 1 ∧ r.body.length = 144 ∧ p.st = .free ∧ (m.configure q r.body).isSome = true),
   decide (s.mach.booted = true ∧ s.mach.ports.toList.all (!·.up) = false ∧ r.flags = 0 ∧ (q < 16 ∧ fresh 2 ∧ (p.st = .running ∨ p.st = .suspended ∨ p.st = .configured))),
   decide (s.mach.booted = true ∧ s.mach.ports.toList.all (!·.up) = false ∧ r.flags = 0 ∧ q < 16 ∧ fresh 3 ∧ r.body.length = 64 ∧ p.st ≠ .configured),
   decide (s.mach.booted = true ∧ s.mach.ports.toList.all (!·.up) = false ∧ r.flags = 0 ∧ q < 16 ∧ fresh 3 ∧ r.body.length = 64),
   decide (s.mach.booted = true ∧ s.mach.ports.toList.all (!·.up) = false ∧ r.flags = 0 ∧ q < 16 ∧ fresh 4 ∧ p.st = .running),
   decide (s.mach.booted = true ∧ s.mach.ports.toList.all (!·.up) = false ∧ r.flags = 0 ∧ q < 16 ∧ waiting ∧ p.st = .running ∧ p.stopping = true ∧ m.stopped q = true ∧ (m.saveAll q).2 = none),
   decide (s.mach.booted = true ∧ s.mach.ports.toList.all (!·.up) = false ∧ r.flags = 0 ∧ q < 16 ∧ waiting ∧ p.st = .running ∧ p.stopping = true ∧ m.stopped q = true ∧ (m.saveAll q).2.isSome = true),
   decide (s.mach.booted = true ∧ s.mach.ports.toList.all (!·.up) = false ∧ r.flags = 0 ∧ waiting ∧ tagOk r s.perm.flash.opKey 4 = true ∧ r.seq.toNat ≤ m.lastSeq),
   decide (s.mach.booted = true ∧ s.mach.ports.toList.all (!·.up) = false ∧ r.flags = 0 ∧ q < 16 ∧ fresh 5 ∧ p.st = .suspended),
   decide (s.mach.booted = true ∧ s.mach.ports.toList.all (!·.up) = false ∧ r.flags = 0 ∧ fresh 6 ∧ r.body.length = 24 ∧ (body 0).toNat < 16 ∧ (body 2).toNat / 2 ^ 4 % 2 ^ 59 = 0),
   decide (s.mach.booted = true ∧ s.mach.ports.toList.all (!·.up) = false ∧ r.flags = 0 ∧ fresh 7 ∧ risingInstants slices = true ∧ (slices.all fun e => (m.part e.2.2).launch.save != 0) = true),
   decide (s.mach.booted = true ∧ s.mach.ports.toList.all (!·.up) = false ∧ r.flags = 0 ∧ q < 16 ∧ fresh 8 ∧ r.body.length = 16 ∧ (body 0).toNat < 2 ^ 63 ∧ (body 1).toNat < 2 ^ 63),
   decide (s.mach.booted = true ∧ s.mach.ports.toList.all (!·.up) = false ∧ r.flags = 0 ∧ q < 16 ∧ fresh 9),
   decide (s.mach.booted = true ∧ s.mach.ports.toList.all (!·.up) = false ∧ r.flags = 0 ∧ q < 16 ∧ fresh 10 ∧ r.body.length = 32),
   decide (s.mach.booted = true ∧ s.mach.ports.toList.all (!·.up) = false ∧ r.flags = 0 ∧ q < 16 ∧ fresh 11 ∧ p.launch.verified = true),
   decide (s.mach.booted = true ∧ s.mach.ports.toList.all (!·.up) = false ∧ r.flags = 0 ∧ fresh 12),
   decide (s.mach.booted = true ∧ s.mach.ports.toList.all (!·.up) = false ∧ r.flags = 0 ∧ tagOk r s.perm.flash.opKey 12 = false),
   decide (s.mach.booted = true ∧ s.mach.ports.toList.all (!·.up) = false ∧ r.flags = 0 ∧ tagOk r s.perm.flash.opKey 12 = true ∧ r.seq.toNat ≤ m.lastSeq)]

/-- The hypotheses under which `BootAndFirmware` states something, each set of them once. -/
def hypsBootAndFirmware (s : State) (f g : Firmware) (c sh : Nat) (key : List Byte) : List Bool :=
  let m := s.mach
  [decide (m.fwB = false ∧ f.opKey = none),
   decide (m.fwB = true ∧ f.opKey = none),
   decide (m.fwB = false ∧ f.opKey = some key)]

/-- The hypotheses under which `StepRunsDecoded` states something, each set of them once. -/
def hypsStepRunsDecoded (s : State) (c t n place : Nat) (rest : List Turn) (d : Decoded) : List Bool :=
  let a := Agent.core c t
  let m : Mach := { s.mach with agenda := rest }
  let k := m.core c
  let u := k.tset t
  let decoded := decode false (u.priv == .house) (k.wordsAt u.pc.toNat)
  let ready := (k.slot (u.pc.toNat / 1024)).st = .valid ∧ k.imemEcc = []
  let chosen := s.mach.agenda = .issue c t :: rest ∧ m.ready c t = true
  let next := s.mach.agenda = [] ∧ rest = [] ∧ s.settle = none ∧ m.phase ≠ .ends ∧ m.nextTurn = some (a, place)
  let ends := s.mach.agenda = [] ∧ rest = [] ∧ s.settle = none ∧ m.phase = .ends ∧ m.nextEnding = some a
  [decide (chosen ∧ ready ∧ decoded = .ok d),
   decide (next ∧ ready ∧ decoded = .ok d),
   decide (ends ∧ ready ∧ decoded = .ok d),
   decide (chosen ∧ ready ∧ decoded = .error (.illegal n))]

/-- The hypotheses under which `FetchEvents` states something, each set of them once. -/
def hypsFetchEvents (s : State) (c t off i : Nat) : List Bool :=
  let m := s.mach
  let k := m.core c
  let u := m.me
  let g := u.pc.toNat / 1024
  let runs := u.busy = true ∧ u.fol = false
  let bad := k.badFetch u.pc.toNat (chainLen (k.wordsAt u.pc.toNat))
  [decide (Plain s.mach c t = true),
   decide (Plain s.mach c t = true ∧ runs ∧ (k.slot g).st = .empty ∧ u.pc ≠ u.kvec),
   decide (Plain s.mach c t = true ∧ runs ∧ (k.slot g).st = .valid ∧ bad = some off ∧ u.pc ≠ u.kvec),
   decide (Plain s.mach c t = true ∧ runs ∧ (k.slot g).st = .loading ∧ u.held = false ∧ k.freeRec = some i),
   decide (Plain s.mach c t = true ∧ runs ∧ (k.slot g).st = .valid ∧ bad = none)]

/-- The hypotheses under which `PrefixChains` states something, each set of them once. -/
def hypsPrefixChains (ps : List IWord) (w : IWord) (rest : List IWord) (i : Nat) : List Bool :=
  let kind (j : Nat) : Nat := (ps.getD j 0).toNat / 1024 % 4
  let legal (j : Nat) : Prop := j < 4 ∧
    (j = 0 ∨ kind (j - 1) < kind j ∨ (kind (j - 1) = 2 ∧ kind j = 2 ∧ (j = 1 ∨ kind (j - 2) ≠ 2)))
  let places := List.range ps.length
  let sound := ∀ j ∈ places, legal j
  [decide (ps.all (fun p => 0xC000 ≤ p.toNat && p.toNat < 0xD000) = true ∧ w.toNat < 0xC000 ∧ sound),
   decide (ps.all (fun p => 0xC000 ≤ p.toNat && p.toNat < 0xD000) = true ∧ i < ps.length ∧ ¬legal i ∧ (∀ j ∈ List.range i, legal j)),
   decide (ps.all (fun p => 0xC000 ≤ p.toNat && p.toNat < 0xD000) = true ∧ 0xD000 ≤ w.toNat ∧ sound),
   decide (ps.all (fun p => 0xC000 ≤ p.toNat && p.toNat < 0xD000) = true ∧ ps ≠ [] ∧ sound)]

/-- The hypotheses under which `RoundTrip` states something, each set of them once. -/
def hypsRoundTrip (i : Instr) (r : Row) (a : Args) (stage house : Bool) (h : BitVec 3) (rest : List IWord) : List Bool :=
  [decide (i.parts = some (r, a) ∧ i.wf = true ∧ r.home.admits stage = true ∧ (r.page = 15 → house = true))]

/-- The hypotheses under which `DecodeWords` states something, each set of them once. -/
def hypsDecodeWords (n : Nat) : List Bool :=
  [decide (n < 1024 ∧ n = 0),
   decide (n < 1024 ∧ n = 1),
   decide (n < 1024 ∧ n = 2),
   decide (n < 1024 ∧ n = 3),
   decide (n < 1024 ∧ n = 4),
   decide (n < 1024 ∧ 0x100 ≤ n ∧ n ≤ 0x1FF),
   decide (n < 1024 ∧ (4 < n ∧ (n < 0x100 ∨ 0x1FF < n))),
   decide (n < 1024)]

/-- The hypotheses under which `ResetState` states something, each set of them once. -/
def hypsResetState (c t n off q sh : Nat) (r : RegNo) : List Bool :=
  let runner := c = 73728 ∧ t = 0
  [decide (t < 4 ∧ q < 16),
   decide (t < 4 ∧ q < 16 ∧ runner),
   decide (t < 4 ∧ q < 16 ∧ ¬runner)]

end Sys2Proof.Tests
end

