-- ==== Sys2Proof/Tests/Slice0.lean ====
section
/-! SUPPORT. Tests: ill-formed terms that the syntax refuses, a word of every encoded form written out from the opcode maps
(08_encoding R143 to R165), one step of each kind of form on a small state with the values the rules give, and the machine after reset. -/

namespace Sys2Proof.Tests
open Sys2Proof.Machine
set_option Elab.async false

/-! ## What the syntax refuses -/

/-- Each term breaks one limit of its form: a modifier, a variant, a predicate, a group width, rt, a register limit, a group that leaves its
file or laps over its destination, an immediate's range, the operands of the short form, a field the form does not name. -/
theorem test_ill_formed_operands :
    ([ .ldAcq { m := 7 }, .ldSize { v := 4 }, .bswap { v := 0 }, .beq { p := 3 }, .add { w := 1 }, .mov { t := 2 }, .mma { d := 4, t := 1 },
       .vaddFloat { w := 3 }, .vaddInt { d := 31, s := 31, t := 31, w := 1 }, .vaddInt { d := 0, s := 1, t := 0, w := 1 }, .shlImm { imm := 64 },
       .kget { imm := 0x12 }, .vext { v := 3, imm := 2 }, .bfx { imm := 0xFFF }, .vcvt { imm := 0x10 }, .trap { imm := 256 }, .nop { imm := 1 },
       .wmk { imm := 4 }, .li { imm := 0x1000000 }, .add { short := true, t := 1 }, .b { d := 1 }, .addImm { s := 1 } ] : List Instr).all
      (fun i => !i.wf) = true := by decide +kernel

/-- Each event names an agent, a thread set, a slot or a number that does not exist. -/
theorem test_ill_formed_events :
    ([ .partCfgRelease { d := 1, t := 1 }, .asyncTrapDelivery 73732 0, .codeletStart 0 4, .contextWake (.record 0 64), .eventTake 73732,
       .quantumChoice 512, .fetchComplete 0 16 0, .streamFill 0 0 8, .gangTimeout 4608 0, .curtainRelease 0 2, .castRoundComplete 0 256,
       .overlayFetchDone 0 16, .linkDead 0 4, .portLinkUpOrDown 2 true, .priorityFlowControl 0 4 true, .droppedFrame 2,
       .launch { part := 0, flags := 0, seq := 0, tag := [], body := [] } ] : List Instr).all (fun i => !i.wf) = true := by decide +kernel

/-! ## Every encoded form from its words -/

/-- The words decode, on a core at house level or in a stage program, to exactly this instruction, taking all the words. -/
def decodes (x : List IWord × Instr) : Bool :=
  let d (stage : Bool) := match decode stage true x.1 with
    | .ok d => d.instr == x.2 && d.words == x.1.length && d.stall == 0
    | .error _ => false
  (d false || d true) && x.2.wf

theorem test_decode_page0a : ([
    ([0b110001_00111_010_00, 0b000000_00011_00101], .add { d := 3, s := 5, t := 7, p := 2 }),
    ([0b110001_00111_010_00, 0b000001_00011_00101], .sub { d := 3, s := 5, t := 7, p := 2 }),
    ([0b110001_00111_010_00, 0b000010_00011_00101], .and { d := 3, s := 5, t := 7, p := 2 }),
    ([0b110001_00111_010_00, 0b000011_00011_00101], .or { d := 3, s := 5, t := 7, p := 2 }),
    ([0b110001_00111_010_00, 0b000100_00011_00101], .xor { d := 3, s := 5, t := 7, p := 2 }),
    ([0b110001_00111_010_00, 0b000101_00011_00101], .shl { d := 3, s := 5, t := 7, p := 2 }),
    ([0b110001_00111_010_00, 0b000110_00011_00101], .shr { d := 3, s := 5, t := 7, p := 2 }),
    ([0b110001_00111_010_00, 0b000111_00011_00101], .sra { d := 3, s := 5, t := 7, p := 2 }),
    ([0b110001_00111_010_00, 0b001000_00011_00101], .mul { d := 3, s := 5, t := 7, p := 2 }),
    ([0b110001_00000_010_00, 0b001001_00011_11101], .addImm { d := 3, p := 2, imm := -3 }),
    ([0b110001_00000_010_00, 0b001010_00011_00010], .shlImm { d := 3, p := 2, imm := 2 }),
    ([0b110001_00000_010_00, 0b001011_00011_00010], .shrImm { d := 3, p := 2, imm := 2 }),
    ([0b110001_00000_010_00, 0b001100_00011_00010], .sraImm { d := 3, p := 2, imm := 2 }),
    ([0b110001_00000_010_00, 0b001101_00011_11101], .andImm { d := 3, p := 2, imm := -3 }),
    ([0b110001_00000_010_00, 0b001110_00011_11101], .li { d := 3, p := 2, imm := -3 }),
    ([0b110001_00000_010_00, 0b001111_00011_00101], .mov { d := 3, s := 5, p := 2 }),
    ([0b110001_00111_010_00, 0b010000_00011_00101], .seq { d := 3, s := 5, t := 7, p := 2 }),
    ([0b110001_00111_010_00, 0b010001_00011_00101], .slt { d := 3, s := 5, t := 7, p := 2 }),
    ([0b110001_00111_010_00, 0b010010_00011_00101], .sltu { d := 3, s := 5, t := 7, p := 2 }),
    ([0b110001_00111_010_00, 0b010011_00011_00101], .sel { d := 3, s := 5, t := 7, p := 2 }),
    ([0b110001_00000_010_00, 0b110010_1111111101, 0b010100_00011_00101], .ldD { d := 3, s := 5, p := 2, imm := -3 }),
    ([0b110001_00000_010_00, 0b110010_1111111101, 0b010101_00011_00101], .ldW { d := 3, s := 5, p := 2, imm := -3 }),
    ([0b110001_00000_010_00, 0b110010_1111111101, 0b010110_00011_00101], .stD { d := 3, s := 5, p := 2, imm := -3 }),
    ([0b110001_00000_010_00, 0b110010_1111111101, 0b010111_00011_00101], .stW { d := 3, s := 5, p := 2, imm := -3 }),
    ([0b110001_00000_010_00, 0b110010_1111111101, 0b011000_00011_00101], .vld { d := 3, s := 5, p := 2, imm := -3 }),
    ([0b110001_00000_010_00, 0b110010_1111111101, 0b011001_00011_00101], .vst { d := 3, s := 5, p := 2, imm := -3 }),
    ([0b110001_00000_010_00, 0b011010_00011_00010], .ldfr { d := 3, p := 2, imm := 2 }),
    ([0b110001_00000_010_00, 0b011011_00011_00010], .stfr { d := 3, p := 2, imm := 2 }),
    ([0b011100_1111111101], .b { imm := -3 }),
    ([0b011101_1111111101], .jal { imm := -3 })] : List (List IWord × Instr)).all decodes = true := by
  decide +kernel

theorem test_decode_page0b : ([
    ([0b110010_1111111101, 0b011110_00011_00101], .beq { d := 3, s := 5, imm := -3 }),
    ([0b110010_1111111101, 0b011111_00011_00101], .bne { d := 3, s := 5, imm := -3 }),
    ([0b110010_1111111101, 0b100000_00011_00101], .blt { d := 3, s := 5, imm := -3 }),
    ([0b110010_1111111101, 0b100001_00011_00101], .bge { d := 3, s := 5, imm := -3 }),
    ([0b110010_1111111101, 0b100010_00011_00101], .bltu { d := 3, s := 5, imm := -3 }),
    ([0b110010_1111111101, 0b100011_00011_00101], .bgeu { d := 3, s := 5, imm := -3 }),
    ([0b100100_00011_11101], .bz { d := 3, imm := -3 }),
    ([0b100101_00011_11101], .bnz { d := 3, imm := -3 }),
    ([0b100110_00000_00101], .jr { s := 5 }),
    ([0b100111_00011_11101], .loop { d := 3, imm := -3 }),
    ([0b110001_00000_010_00, 0b101000_00011_00010], .kget { d := 3, p := 2, imm := 2 }),
    ([0b110001_00000_010_00, 0b101001_00011_00010], .kput { d := 3, p := 2, imm := 2 }),
    ([0b101010_00000_00101], .cueDec { s := 5 }),
    ([0b101011_00011_00101], .send { d := 3, s := 5 }),
    ([0b110001_00000_010_00, 0b110010_1111111101, 0b101100_00011_00101], .pstD { d := 3, s := 5, p := 2, imm := -3 }),
    ([0b110001_00000_010_00, 0b110010_1111111101, 0b101101_00011_00101], .pstv { d := 3, s := 5, p := 2, imm := -3 }),
    ([0b101110_1111111101], .beos { imm := -3 }),
    ([0b101111_0000000000], .nop {}),
    ([0b101111_0000000001], .done {}),
    ([0b101111_0000000010], .ret {}),
    ([0b101111_0000000011], .eret {}),
    ([0b101111_0000000100], .halt {}),
    ([0b101111_01_00000111], .trap { imm := 7 })] : List (List IWord × Instr)).all decodes = true := by
  decide +kernel

theorem test_decode_page1a : ([
    ([0b110000_0001_000_010, 0b110001_00000_010_00, 0b110010_1111111101, 0b000000_00011_00101], .ldSize { d := 3, s := 5, p := 2, v := 2, imm := -3 }),
    ([0b110000_0001_000_010, 0b110001_00000_010_00, 0b110010_1111111101, 0b000001_00011_00101], .stSize { d := 3, s := 5, p := 2, v := 2, imm := -3 }),
    ([0b110000_0001_010_010, 0b110001_00000_010_00, 0b110010_1111111101, 0b000010_00011_00101], .ldAcq { d := 3, s := 5, p := 2, m := 2, v := 2, imm := -3 }),
    ([0b110000_0001_010_010, 0b110001_00000_010_00, 0b110010_1111111101, 0b000011_00011_00101], .stRel { d := 3, s := 5, p := 2, m := 2, v := 2, imm := -3 }),
    ([0b110000_0001_010_010, 0b110001_00000_010_00, 0b110010_1111111101, 0b000100_00011_00101], .stS { d := 3, s := 5, p := 2, m := 2, v := 2, imm := -3 }),
    ([0b110000_0001_000_000, 0b110001_00111_010_00, 0b110010_1111111101, 0b000101_00011_00101], .ldv { d := 3, s := 5, t := 7, p := 2, imm := -3 }),
    ([0b110000_0001_000_000, 0b110001_00111_010_00, 0b110010_1111111101, 0b000110_00011_00101], .stv { d := 3, s := 5, t := 7, p := 2, imm := -3 }),
    ([0b110000_0001_000_000, 0b110001_00000_010_00, 0b110010_1111111101, 0b000111_00011_00101], .rcl { d := 3, s := 5, p := 2, imm := -3 }),
    ([0b110000_0001_000_000, 0b110001_00000_010_00, 0b110010_1111111101, 0b001000_00011_00101], .ver { d := 3, s := 5, p := 2, imm := -3 }),
    ([0b110000_0001_000_010, 0b110001_00000_010_00, 0b110010_1111111101, 0b001001_00011_00101], .pstSize { d := 3, s := 5, p := 2, v := 2, imm := -3 }),
    ([0b110000_0001_000_000, 0b110001_00000_010_00, 0b110010_1111111101, 0b001010_00011_00101], .pstvP1 { d := 3, s := 5, p := 2, imm := -3 }),
    ([0b110000_0001_000_010, 0b110001_00000_010_00, 0b110010_1111111101, 0b001011_00011_00101], .ldfar { d := 3, s := 5, p := 2, v := 2, imm := -3 }),
    ([0b110000_0001_000_010, 0b110001_00000_010_00, 0b110010_1111111101, 0b001100_00011_00101], .stfar { d := 3, s := 5, p := 2, v := 2, imm := -3 }),
    ([0b110000_0001_000_000, 0b110001_00000_010_00, 0b110010_1111111101, 0b001101_00011_00101], .vldfar { d := 3, s := 5, p := 2, imm := -3 }),
    ([0b110000_0001_000_000, 0b110001_00000_010_00, 0b110010_1111111101, 0b001110_00011_00101], .vldP1 { d := 3, s := 5, p := 2, imm := -3 }),
    ([0b110000_0001_000_000, 0b110001_00000_010_00, 0b110010_1111111101, 0b001111_00011_00101], .vstP1 { d := 3, s := 5, p := 2, imm := -3 }),
    ([0b110000_0001_000_000, 0b110001_00111_010_00, 0b110010_1111111101, 0b010000_00011_00101], .vlds { d := 3, s := 5, t := 7, p := 2, imm := -3 }),
    ([0b110000_0001_000_000, 0b110001_00111_010_00, 0b110010_1111111101, 0b010001_00011_00101], .vsts { d := 3, s := 5, t := 7, p := 2, imm := -3 }),
    ([0b110000_0001_000_010, 0b110001_00111_010_00, 0b110010_1111111101, 0b010010_00011_00101], .vgat { d := 3, s := 5, t := 7, p := 2, v := 2, imm := -3 }),
    ([0b110000_0001_000_010, 0b110001_00111_010_00, 0b110010_1111111101, 0b010011_00011_00101], .vsct { d := 3, s := 5, t := 7, p := 2, v := 2, imm := -3 }),
    ([0b110000_0001_010_010, 0b110001_00111_010_00, 0b110010_1111111101, 0b010100_00011_00101], .amoAdd { d := 3, s := 5, t := 7, p := 2, m := 2, v := 2, imm := -3 }),
    ([0b110000_0001_010_010, 0b110001_00111_010_00, 0b110010_1111111101, 0b010101_00011_00101], .amoAnd { d := 3, s := 5, t := 7, p := 2, m := 2, v := 2, imm := -3 }),
    ([0b110000_0001_010_010, 0b110001_00111_010_00, 0b110010_1111111101, 0b010110_00011_00101], .amoOr { d := 3, s := 5, t := 7, p := 2, m := 2, v := 2, imm := -3 }),
    ([0b110000_0001_010_010, 0b110001_00111_010_00, 0b110010_1111111101, 0b010111_00011_00101], .amoXor { d := 3, s := 5, t := 7, p := 2, m := 2, v := 2, imm := -3 }),
    ([0b110000_0001_010_010, 0b110001_00111_010_00, 0b110010_1111111101, 0b011000_00011_00101], .amoMin { d := 3, s := 5, t := 7, p := 2, m := 2, v := 2, imm := -3 }),
    ([0b110000_0001_010_010, 0b110001_00111_010_00, 0b110010_1111111101, 0b011001_00011_00101], .amoMax { d := 3, s := 5, t := 7, p := 2, m := 2, v := 2, imm := -3 }),
    ([0b110000_0001_010_010, 0b110001_00111_010_00, 0b110010_1111111101, 0b011010_00011_00101], .amoMinu { d := 3, s := 5, t := 7, p := 2, m := 2, v := 2, imm := -3 }),
    ([0b110000_0001_010_010, 0b110001_00111_010_00, 0b110010_1111111101, 0b011011_00011_00101], .amoMaxu { d := 3, s := 5, t := 7, p := 2, m := 2, v := 2, imm := -3 }),
    ([0b110000_0001_010_010, 0b110001_00111_010_00, 0b110010_1111111101, 0b011100_00011_00101], .amoSwap { d := 3, s := 5, t := 7, p := 2, m := 2, v := 2, imm := -3 }),
    ([0b110000_0001_010_010, 0b110001_00111_010_00, 0b110010_1111111101, 0b011101_00011_00101], .cas { d := 3, s := 5, t := 7, p := 2, m := 2, v := 2, imm := -3 })] : List (List IWord × Instr)).all decodes = true := by
  decide +kernel

theorem test_decode_page1b : ([
    ([0b110000_0001_010_001, 0b011110_0000000000], .fence { m := 2, v := 1 }),
    ([0b110000_0001_000_000, 0b110001_00111_111_00, 0b011111_00011_00101], .cpy { d := 3, s := 5, t := 7 }),
    ([0b110000_0001_000_000, 0b100000_00011_00010], .wmk { d := 3, imm := 2 }),
    ([0b110000_0001_000_000, 0b100001_00011_00101], .job { d := 3, s := 5 }),
    ([0b110000_0001_000_000, 0b100010_00000_00101], .jwait { s := 5 }),
    ([0b110000_0001_000_000, 0b110001_00111_111_00, 0b100011_00011_00101], .tilePut { d := 3, s := 5, t := 7 }),
    ([0b110000_0001_000_000, 0b110001_00111_111_00, 0b100100_00011_00101], .tileGet { d := 3, s := 5, t := 7 }),
    ([0b110000_0001_000_000, 0b110001_00111_111_00, 0b100101_00011_00101], .sfill { d := 3, s := 5, t := 7 }),
    ([0b110000_0001_000_000, 0b110001_00111_111_00, 0b100110_00011_00101], .sdrain { d := 3, s := 5, t := 7 })] : List (List IWord × Instr)).all decodes = true := by
  decide +kernel

theorem test_decode_page2a : ([
    ([0b110000_0010_000_010, 0b110001_00111_010_00, 0b000000_00011_00101], .vaddInt { d := 3, s := 5, t := 7, p := 2, v := 2 }),
    ([0b110000_0010_000_010, 0b110001_00111_010_00, 0b000001_00011_00101], .vsubInt { d := 3, s := 5, t := 7, p := 2, v := 2 }),
    ([0b110000_0010_000_010, 0b110001_00111_010_00, 0b000010_00011_00101], .vmulInt { d := 3, s := 5, t := 7, p := 2, v := 2 }),
    ([0b110000_0010_000_010, 0b110001_00111_010_00, 0b000011_00011_00101], .vminInt { d := 3, s := 5, t := 7, p := 2, v := 2 }),
    ([0b110000_0010_000_010, 0b110001_00111_010_00, 0b000100_00011_00101], .vmaxInt { d := 3, s := 5, t := 7, p := 2, v := 2 }),
    ([0b110000_0010_000_010, 0b110001_00000_010_00, 0b000101_00011_00101], .vabsInt { d := 3, s := 5, p := 2, v := 2 }),
    ([0b110000_0010_000_010, 0b110001_00000_010_00, 0b000110_00011_00101], .vnegInt { d := 3, s := 5, p := 2, v := 2 }),
    ([0b110000_0010_011_010, 0b110001_00111_010_00, 0b000111_00011_00101], .vcmpInt { d := 3, s := 5, t := 7, p := 2, m := 3, v := 2 }),
    ([0b110000_0010_000_000, 0b110001_00111_010_00, 0b001000_00011_00101], .vsel { d := 3, s := 5, t := 7, p := 2 }),
    ([0b110000_0010_000_000, 0b110001_00111_010_00, 0b001001_00011_00101], .vand { d := 3, s := 5, t := 7, p := 2 }),
    ([0b110000_0010_000_000, 0b110001_00111_010_00, 0b001010_00011_00101], .vor { d := 3, s := 5, t := 7, p := 2 }),
    ([0b110000_0010_000_000, 0b110001_00111_010_00, 0b001011_00011_00101], .vxor { d := 3, s := 5, t := 7, p := 2 }),
    ([0b110000_0010_000_010, 0b110001_00111_010_00, 0b001100_00011_00101], .vshl { d := 3, s := 5, t := 7, p := 2, v := 2 }),
    ([0b110000_0010_000_010, 0b110001_00111_010_00, 0b001101_00011_00101], .vshr { d := 3, s := 5, t := 7, p := 2, v := 2 }),
    ([0b110000_0010_000_010, 0b110001_00111_010_00, 0b001110_00011_00101], .vsra { d := 3, s := 5, t := 7, p := 2, v := 2 }),
    ([0b110000_0010_000_000, 0b110001_00111_010_00, 0b001111_00011_00101], .vperm { d := 3, s := 5, t := 7, p := 2 }),
    ([0b110000_0010_000_010, 0b110001_00000_010_00, 0b010000_00011_00101], .vbcst { d := 3, s := 5, p := 2, v := 2 }),
    ([0b110000_0010_000_010, 0b110001_00000_010_00, 0b110010_0000000010, 0b010001_00011_00101], .vext { d := 3, s := 5, p := 2, v := 2, imm := 2 }),
    ([0b110000_0010_000_010, 0b110001_00000_010_00, 0b110010_0000000010, 0b010010_00011_00101], .vins { d := 3, s := 5, p := 2, v := 2, imm := 2 }),
    ([0b110000_0010_000_000, 0b110001_00000_010_00, 0b010011_00011_00101], .vmov { d := 3, s := 5, p := 2 }),
    ([0b110000_0010_000_010, 0b110001_00000_010_00, 0b010100_00011_00101], .vredSumInt { d := 3, s := 5, p := 2, v := 2 }),
    ([0b110000_0010_000_010, 0b110001_00000_010_00, 0b010101_00011_00101], .vredMaxInt { d := 3, s := 5, p := 2, v := 2 }),
    ([0b110000_0010_000_010, 0b110001_00000_010_00, 0b010110_00011_00101], .vredMinInt { d := 3, s := 5, p := 2, v := 2 }),
    ([0b110000_0010_000_000, 0b110001_00111_010_00, 0b010111_00011_00101], .andn { d := 3, s := 5, t := 7, p := 2 }),
    ([0b110000_0010_000_000, 0b110001_00111_010_00, 0b011000_00011_00101], .rol { d := 3, s := 5, t := 7, p := 2 }),
    ([0b110000_0010_000_000, 0b110001_00111_010_00, 0b011001_00011_00101], .mulh { d := 3, s := 5, t := 7, p := 2 }),
    ([0b110000_0010_000_000, 0b110001_00111_010_00, 0b011010_00011_00101], .mulhu { d := 3, s := 5, t := 7, p := 2 }),
    ([0b110000_0010_000_000, 0b110001_00111_010_00, 0b011011_00011_00101], .div { d := 3, s := 5, t := 7, p := 2 }),
    ([0b110000_0010_000_000, 0b110001_00111_010_00, 0b011100_00011_00101], .divu { d := 3, s := 5, t := 7, p := 2 }),
    ([0b110000_0010_000_000, 0b110001_00111_010_00, 0b011101_00011_00101], .rem { d := 3, s := 5, t := 7, p := 2 })] : List (List IWord × Instr)).all decodes = true := by
  decide +kernel

theorem test_decode_page2b : ([
    ([0b110000_0010_000_000, 0b110001_00111_010_00, 0b011110_00011_00101], .remu { d := 3, s := 5, t := 7, p := 2 }),
    ([0b110000_0010_000_000, 0b110001_00111_010_00, 0b011111_00011_00101], .min { d := 3, s := 5, t := 7, p := 2 }),
    ([0b110000_0010_000_000, 0b110001_00111_010_00, 0b100000_00011_00101], .max { d := 3, s := 5, t := 7, p := 2 }),
    ([0b110000_0010_000_000, 0b110001_00111_010_00, 0b100001_00011_00101], .minu { d := 3, s := 5, t := 7, p := 2 }),
    ([0b110000_0010_000_000, 0b110001_00111_010_00, 0b100010_00011_00101], .maxu { d := 3, s := 5, t := 7, p := 2 }),
    ([0b110000_0010_000_000, 0b110001_00000_010_00, 0b100011_00011_00101], .clz { d := 3, s := 5, p := 2 }),
    ([0b110000_0010_000_000, 0b110001_00000_010_00, 0b100100_00011_00101], .ctz { d := 3, s := 5, p := 2 }),
    ([0b110000_0010_000_000, 0b110001_00000_010_00, 0b100101_00011_00101], .popc { d := 3, s := 5, p := 2 }),
    ([0b110000_0010_000_010, 0b110001_00000_010_00, 0b100110_00011_00101], .bswap { d := 3, s := 5, p := 2, v := 2 }),
    ([0b110000_0010_000_010, 0b110001_00000_010_00, 0b100111_00011_00101], .sext { d := 3, s := 5, p := 2, v := 2 }),
    ([0b110000_0010_000_010, 0b110001_00000_010_00, 0b101000_00011_00101], .zext { d := 3, s := 5, p := 2, v := 2 }),
    ([0b110000_0010_000_000, 0b110001_00000_010_00, 0b101001_00011_11101], .lih { d := 3, p := 2, imm := -3 }),
    ([0b110000_0010_000_000, 0b110001_00111_010_00, 0b101010_00011_00101], .adds { d := 3, s := 5, t := 7, p := 2 }),
    ([0b110000_0010_000_000, 0b110001_00000_010_00, 0b110010_0000000010, 0b101011_00011_00101], .bfx { d := 3, s := 5, p := 2, imm := 2 }),
    ([0b110000_0010_000_000, 0b110001_00000_010_00, 0b110010_0000000010, 0b101100_00011_00101], .bfi { d := 3, s := 5, p := 2, imm := 2 }),
    ([0b110000_0010_000_000, 0b110001_00000_010_00, 0b101101_00011_11101], .orImm { d := 3, p := 2, imm := -3 }),
    ([0b110000_0010_000_000, 0b110001_00000_010_00, 0b101110_00011_11101], .xorImm { d := 3, p := 2, imm := -3 })] : List (List IWord × Instr)).all decodes = true := by
  decide +kernel

theorem test_decode_page3 : ([
    ([0b110000_0011_010_010, 0b110001_00111_010_00, 0b000000_00011_00101], .vaddFloat { d := 3, s := 5, t := 7, p := 2, m := 2, v := 2 }),
    ([0b110000_0011_010_010, 0b110001_00111_010_00, 0b000001_00011_00101], .vsubFloat { d := 3, s := 5, t := 7, p := 2, m := 2, v := 2 }),
    ([0b110000_0011_010_010, 0b110001_00111_010_00, 0b000010_00011_00101], .vmulFloat { d := 3, s := 5, t := 7, p := 2, m := 2, v := 2 }),
    ([0b110000_0011_010_010, 0b110001_00111_010_00, 0b000011_00011_00101], .vfma { d := 3, s := 5, t := 7, p := 2, m := 2, v := 2 }),
    ([0b110000_0011_010_010, 0b110001_00111_010_00, 0b000100_00011_00101], .vfms { d := 3, s := 5, t := 7, p := 2, m := 2, v := 2 }),
    ([0b110000_0011_000_010, 0b110001_00111_010_00, 0b000101_00011_00101], .vminFloat { d := 3, s := 5, t := 7, p := 2, v := 2 }),
    ([0b110000_0011_000_010, 0b110001_00111_010_00, 0b000110_00011_00101], .vmaxFloat { d := 3, s := 5, t := 7, p := 2, v := 2 }),
    ([0b110000_0011_000_010, 0b110001_00000_010_00, 0b000111_00011_00101], .vabsFloat { d := 3, s := 5, p := 2, v := 2 }),
    ([0b110000_0011_000_010, 0b110001_00000_010_00, 0b001000_00011_00101], .vnegFloat { d := 3, s := 5, p := 2, v := 2 }),
    ([0b110000_0011_010_010, 0b110001_00111_010_00, 0b001001_00011_00101], .vdiv { d := 3, s := 5, t := 7, p := 2, m := 2, v := 2 }),
    ([0b110000_0011_010_010, 0b110001_00000_010_00, 0b001010_00011_00101], .vsqrt { d := 3, s := 5, p := 2, m := 2, v := 2 }),
    ([0b110000_0011_011_010, 0b110001_00111_010_00, 0b001011_00011_00101], .vcmpFloat { d := 3, s := 5, t := 7, p := 2, m := 3, v := 2 }),
    ([0b110000_0011_010_010, 0b110001_00111_010_00, 0b001100_00011_00101], .vredSumFloat { d := 3, s := 5, t := 7, p := 2, m := 2, v := 2 }),
    ([0b110000_0011_000_010, 0b110001_00111_010_00, 0b001101_00011_00101], .vredMaxFloat { d := 3, s := 5, t := 7, p := 2, v := 2 }),
    ([0b110000_0011_000_010, 0b110001_00111_010_00, 0b001110_00011_00101], .vredMinFloat { d := 3, s := 5, t := 7, p := 2, v := 2 }),
    ([0b110000_0011_010_010, 0b110001_00111_010_00, 0b001111_00011_00101], .vdot { d := 3, s := 5, t := 7, p := 2, m := 2, v := 2 }),
    ([0b110000_0011_010_000, 0b110001_00000_010_00, 0b110010_0000000001, 0b010000_00011_00101], .vcvt { d := 3, s := 5, p := 2, m := 2, imm := 1 })] : List (List IWord × Instr)).all decodes = true := by
  decide +kernel

theorem test_decode_page4 : ([
    ([0b110000_0100_000_000, 0b110001_00111_010_00, 0b000000_00011_00101], .vbmand { d := 3, s := 5, t := 7, p := 2 }),
    ([0b110000_0100_000_000, 0b110001_00000_010_00, 0b000001_00011_00101], .vpfx { d := 3, s := 5, p := 2 }),
    ([0b110000_0100_000_000, 0b110001_00000_010_00, 0b000010_00011_00101], .vpopc { d := 3, s := 5, p := 2 }),
    ([0b110000_0100_000_000, 0b110001_00110_010_00, 0b000011_00011_00101], .pand { d := 3, s := 5, t := 6, p := 2 }),
    ([0b110000_0100_000_000, 0b110001_00110_010_00, 0b000100_00011_00101], .por { d := 3, s := 5, t := 6, p := 2 }),
    ([0b110000_0100_000_000, 0b110001_00110_010_00, 0b000101_00011_00101], .pxor { d := 3, s := 5, t := 6, p := 2 }),
    ([0b110000_0100_000_000, 0b110001_00000_010_00, 0b000110_00011_00101], .pnot { d := 3, s := 5, p := 2 }),
    ([0b110000_0100_000_000, 0b110001_00000_010_00, 0b000111_00011_00101], .pmov { d := 3, s := 5, p := 2 }),
    ([0b110000_0100_000_000, 0b110001_00000_010_00, 0b001000_00011_00010], .pset { d := 3, p := 2, imm := 2 })] : List (List IWord × Instr)).all decodes = true := by
  decide +kernel

theorem test_decode_page5 : ([
    ([0b110000_0101_000_000, 0b110001_00111_111_00, 0b000000_00001_00101], .mma { d := 1, s := 5, t := 7 }),
    ([0b110000_0101_000_000, 0b110001_00111_111_00, 0b000001_00001_00101], .mmag { d := 1, s := 5, t := 7 }),
    ([0b110000_0101_000_000, 0b110001_00111_111_00, 0b000010_00001_00101], .mmix { d := 1, s := 5, t := 7 }),
    ([0b110000_0101_000_000, 0b000011_00001_00000], .macz { d := 1 }),
    ([0b110000_0101_000_000, 0b110010_0000001001, 0b000100_00011_00010], .macr { d := 3, s := 2, imm := 9 }),
    ([0b110000_0101_000_000, 0b110010_0000001001, 0b000101_00001_00101], .macw { d := 1, s := 5, imm := 9 }),
    ([0b110000_0101_000_000, 0b110010_1111111101, 0b000110_00001_00101], .macst { d := 1, s := 5, imm := -3 }),
    ([0b110000_0101_000_000, 0b000111_0000000000], .mreh {}),
    ([0b110000_0101_000_000, 0b001000_00001_00000], .mwait { d := 1 })] : List (List IWord × Instr)).all decodes = true := by
  decide +kernel

theorem test_decode_page6 : ([
    ([0b110000_0110_000_000, 0b000000_00011_00101], .gacc { d := 3, s := 5 }),
    ([0b110000_0110_000_000, 0b000001_00011_00101], .gsub { d := 3, s := 5 }),
    ([0b110000_0110_000_000, 0b110001_00111_111_00, 0b000010_00011_00101], .gschur { d := 3, s := 5, t := 7 }),
    ([0b110000_0110_000_000, 0b110001_00111_111_00, 0b000011_00011_00101], .gdamp { d := 3, s := 5, t := 7 }),
    ([0b110000_0110_000_000, 0b000100_00011_00101], .gmean { d := 3, s := 5 }),
    ([0b110000_0110_000_000, 0b110001_00111_111_00, 0b000101_00011_00101], .gres { d := 3, s := 5, t := 7 })] : List (List IWord × Instr)).all decodes = true := by
  decide +kernel

theorem test_decode_page7 : ([
    ([0b110000_0111_000_000, 0b000000_00011_00101], .sendP7 { d := 3, s := 5 }),
    ([0b110000_0111_000_000, 0b110010_0000000010, 0b000001_00011_00101], .sendc { d := 3, s := 5, imm := 2 }),
    ([0b110000_0111_000_000, 0b000010_00000_00101], .cueDecP7 { s := 5 }),
    ([0b110000_0111_000_000, 0b000011_00011_00101], .cueArm { d := 3, s := 5 }),
    ([0b110000_0111_000_000, 0b000100_00011_00101], .cueBind { d := 3, s := 5 }),
    ([0b110000_0111_000_000, 0b000101_00011_00101], .cueStat { d := 3, s := 5 }),
    ([0b110000_0111_000_000, 0b000110_00000_00101], .ready { s := 5 }),
    ([0b110000_0111_000_000, 0b000111_00000_00101], .park { s := 5 }),
    ([0b110000_0111_000_000, 0b001000_00011_00010], .rpoll { d := 3, imm := 2 }),
    ([0b110000_0111_000_000, 0b001001_00011_00010], .rwait { d := 3, imm := 2 }),
    ([0b110000_0111_000_000, 0b001010_00000_00010], .rpop { imm := 2 }),
    ([0b110000_0111_000_000, 0b001011_00011_00101], .mbinc { d := 3, s := 5 }),
    ([0b110000_0111_000_000, 0b110001_00111_111_00, 0b001100_00011_00101], .mbwait { d := 3, s := 5, t := 7 }),
    ([0b110000_0111_000_000, 0b001101_00011_00101], .mbget { d := 3, s := 5 })] : List (List IWord × Instr)).all decodes = true := by
  decide +kernel

theorem test_decode_page8 : ([
    ([0b110000_1000_000_000, 0b000000_00011_00101], .sbind { d := 3, s := 5 }),
    ([0b110000_1000_000_000, 0b000001_00011_00000], .sclose { d := 3 }),
    ([0b110000_1000_000_000, 0b000010_00011_00010], .sstat { d := 3, imm := 2 }),
    ([0b110000_1000_000_000, 0b000011_00011_00101], .sseek { d := 3, s := 5 }),
    ([0b110000_1000_000_000, 0b000100_1111111101], .beosP8 { imm := -3 }),
    ([0b110000_1000_000_000, 0b110001_00000_010_00, 0b000101_00011_00010], .ldfrP8 { d := 3, p := 2, imm := 2 }),
    ([0b110000_1000_000_000, 0b110001_00000_010_00, 0b000110_00011_00010], .stfrP8 { d := 3, p := 2, imm := 2 }),
    ([0b110000_1000_000_000, 0b110001_00000_010_00, 0b000111_00011_00010], .vldfr { d := 3, p := 2, imm := 2 }),
    ([0b110000_1000_000_000, 0b110001_00000_010_00, 0b001000_00011_00010], .vstfr { d := 3, p := 2, imm := 2 }),
    ([0b110000_1000_000_000, 0b001001_00000_00010], .enter { imm := 2 }),
    ([0b110000_1000_000_000, 0b001010_0000000000], .leave {}),
    ([0b110000_1000_000_000, 0b001011_00011_00010], .dmov { d := 3, imm := 2 }),
    ([0b110000_1000_000_000, 0b001100_00000_00101], .frref { s := 5 }),
    ([0b110000_1000_000_000, 0b001101_00000_00101], .frrel { s := 5 }),
    ([0b110000_1000_000_000, 0b001110_00011_00101], .cfetch { d := 3, s := 5 }),
    ([0b110000_1000_000_000, 0b001111_00011_00010], .cstat { d := 3, imm := 2 }),
    ([0b110000_1000_000_000, 0b010000_1111111101], .jf { imm := -3 }),
    ([0b110000_1000_000_000, 0b010001_1111111101], .jfl { imm := -3 })] : List (List IWord × Instr)).all decodes = true := by
  decide +kernel

theorem test_decode_page9 : ([
    ([0b110000_1001_000_000, 0b000000_00001_00101], .curtain { d := 1, s := 5 }),
    ([0b110000_1001_000_000, 0b000001_00001_00000], .curtainArr { d := 1 }),
    ([0b110000_1001_000_000, 0b000010_00001_00101], .curtainExcuse { d := 1, s := 5 }),
    ([0b110000_1001_000_000, 0b000011_00011_00010], .castq { d := 3, imm := 2 }),
    ([0b110000_1001_000_000, 0b110001_00111_111_00, 0b000100_00011_00101], .qenq { d := 3, s := 5, t := 7 }),
    ([0b110000_1001_000_000, 0b000101_00011_00101], .qdeq { d := 3, s := 5 }),
    ([0b110000_1001_000_000, 0b000110_00011_00101], .qsteal { d := 3, s := 5 }),
    ([0b110000_1001_000_000, 0b110001_00111_111_00, 0b000111_00011_00101], .qmint { d := 3, s := 5, t := 7 }),
    ([0b110000_1001_000_000, 0b001000_00000_00101], .chorus { s := 5 }),
    ([0b110000_1001_000_000, 0b001001_0000000000], .chorusEnd {})] : List (List IWord × Instr)).all decodes = true := by
  decide +kernel

theorem test_decode_page15 : ([
    ([0b110000_1111_000_000, 0b000000_00011_00101], .partCfg { d := 3, s := 5 }),
    ([0b110000_1111_000_000, 0b000001_00011_00101], .partZero { d := 3, s := 5 }),
    ([0b110000_1111_000_000, 0b000010_00011_00101], .partRun { d := 3, s := 5 }),
    ([0b110000_1111_000_000, 0b000011_00011_00000], .partSusp { d := 3 }),
    ([0b110000_1111_000_000, 0b110001_00111_111_00, 0b000100_00011_00101], .slicePut { d := 3, s := 5, t := 7 }),
    ([0b110000_1111_000_000, 0b000101_0000000000], .sliceArm {}),
    ([0b110000_1111_000_000, 0b110001_00111_111_00, 0b000110_00011_00101], .keyPut { d := 3, s := 5, t := 7 }),
    ([0b110000_1111_000_000, 0b000111_00011_00101], .keyZero { d := 3, s := 5 })] : List (List IWord × Instr)).all decodes = true := by
  decide +kernel

/-! ## One step of each kind of form, with the values the rules give -/

/-- A small state: thread set 2 of core 5, at offset 0x400 with predicate 7, about to perform an instruction. -/
def B : State := mkS 1 5 2

/-- `B` at supervisor level. -/
def sup : State := { B with mach := B.mach.modMe fun u => { u with priv := .supervisor } }

/-- `B` with vector register `n` holding `v`. -/
def withV (s : State) (n : Nat) (v : V128) : State := { s with mach := s.mach.modMe fun u => u.setV (BitVec.ofNat 5 n) v }

/-- `B` with the 8 bytes of `w` at own offset `a`, lowest first. -/
def withMem (s : State) (a : Nat) (w : Word) : State :=
  { s with mach := s.mach.modCore 5 fun k => { k with mem := Memory.pokes k.mem a (leBytes w.toNat 8) } }

/-- The machine after `i` in `s`, when it goes on. -/
def goes (i : Instr) (s : State) : Option Mach :=
  match exec i s with
  | .next v => some v.mach
  | _ => none

/-- xd after `i` in `s`. -/
def givesX (i : Instr) (n : Nat) (s : State) : Option Word := (goes i s).map (·.me.xreg (BitVec.ofNat 5 n))

/-- vd after `i` in `s`. -/
def givesV (i : Instr) (n : Nat) (s : State) : Option V128 := (goes i s).map fun m => vget m.me.v 0 n

/-- R172: addition is modulo 2^64. -/
theorem test_add_wraps : givesX (.add { d := 3, s := 1, t := 2 }) 3 (setX (setX B 1 (BitVec.allOnes 64)) 2 2) = some 1 := by
  decide +kernel

/-- R172: `mulhu` is the high half of the unsigned product: (2^64 - 1)^2 = (2^64 - 2) * 2^64 + 1. -/
theorem test_mulhu : givesX (.mulhu { short := true, d := 1, s := 1 }) 1 (setX B 1 (BitVec.allOnes 64)) =
    some 0xFFFFFFFFFFFFFFFE := by decide +kernel

/-- R172: a shift uses rhs[5:0] only, and `sra` brings in copies of bit 63. -/
theorem test_sra_amount : givesX (.sra { d := 3, s := 1, t := 2 }) 3 (setX (setX B 1 (wd (2 ^ 63))) 2 65) = some (wd (3 * 2 ^ 62)) := by
  decide +kernel

/-- R174, third row of its table: 7 / 0 is all ones. -/
theorem test_div_by_zero : givesX (.div { d := 7, s := 8, t := 9 }) 7 (setX (setX B 8 7) 9 0) = some (BitVec.allOnes 64) := by
  decide +kernel

/-- R174, first row of its table: -7 rem 2 is -1. -/
theorem test_rem_sign : givesX (.rem { d := 7, s := 8, t := 9 }) 7 (setX (setX B 8 (-7)) 9 2) = some (-1) := by decide +kernel

/-- R175, its example: `bswap.w` of 0x1122334455667788 is 0x88776655. -/
theorem test_bswap_w : givesX (.bswap { d := 4, s := 5, v := 2 }) 4 (setX B 5 0x1122334455667788) = some 0x88776655 := by decide +kernel

/-- R54: a write to x0 is discarded. -/
theorem test_x0 : givesX (.li { d := 0, imm := 5 }) 0 B = some 0 := by decide +kernel

/-- R178: `blt` compares signed and moves by twice its immediate. -/
theorem test_blt : (goes (.blt { d := 1, s := 2, imm := 5 }) (setX (setX B 1 (-1)) 2 0)).map (·.me.pc) = some 0x40A := by decide +kernel

/-- R180: `jal` writes the next offset to x5 and jumps. -/
theorem test_jal : (goes (.jal { imm := -3 }) B).map (fun m => (m.me.pc, m.me.xreg 5)) = some (0x3FA, 0x404) := by decide +kernel

/-- R33, R187: the byte at the lowest address is the lowest byte of the word loaded, and a load zero-extends. -/
theorem test_ld_w : givesX (.ldW { d := 3, s := 1, imm := 4 }) 3 (withMem (setX B 1 0x1000) 0x1000 0x8877665544332211) =
    some 0x88776655 := by decide +kernel

/-- R79, R187: a store writes its bytes alone and raises the version of its word. -/
theorem test_st_h : (goes (.stSize { d := 3, s := 1, v := 1, imm := 2 }) (withMem (setX (setX B 1 0x1000) 3 0xAABBCC) 0x1000 0x1111111111111111)).map
    (fun m => ((m.core 5).number 0x1000 8, (m.core 5).verAt 0x1000)) = some (0x11111111BBCC1111, 6) := by decide +kernel

/-- R184, R307, R308: a misaligned load enters the handler with its own start saved. -/
theorem test_misaligned : (goes (.ldD { d := 3, s := 1 }) (setX B 1 0x1004)).map (fun m => (m.me.pc, m.me.kepcPc, m.me.priv)) =
    some (0x2000, 0x400, .supervisor) := by decide +kernel

/-- R194: an amo gives the old word and stores the new one. -/
theorem test_amo_add : (goes (.amoAdd { d := 10, s := 11, t := 12, v := 3 }) (withMem (setX (setX B 11 0x1000) 12 5) 0x1000 7)).map
    (fun m => (m.me.xreg 10, (m.core 5).number 0x1000 8)) = some (7, 12) := by decide +kernel

/-- R217: lanes wrap by themselves. -/
theorem test_vadd_i16 : givesV (.vaddInt { d := 1, s := 1, t := 2, v := 1 }) 1 (withV (withV B 1 0xFFFF_0001_FFFF) 2 0x0001_0001_0001) =
    some 0x0000_0002_0000 := by decide +kernel

/-- R225, its example: f32 (3.0, 300.0, -0.0, +Inf) to f8a under TC = 0. -/
theorem test_vcvt_f8a : givesV (.vcvt { d := 1, s := 2, imm := 393 }) 1 (withV B 2 0x7F800000_80000000_43960000_40400000) =
    some 0x7E807944 := by decide +kernel

/-- R45: widening sign-extends by the source's kind: i8 -1 to u16 is 0xFFFF (codes of R31). -/
theorem test_vcvt_widening : givesV (.vcvt { d := 1, s := 2, imm := 3 * 32 }) 1 (withV B 2 0xFF) = some 0xFFFF := by decide +kernel

/-- R237: `macz` clears every element and takes ownership. -/
theorem test_macz : (goes (.macz { d := 1 }) B).map (fun m => (vget (m.core 5).owner 0 1, (vget (m.core 5).acc (Vector.replicate 128 7) 1).toList.all (· == 0))) =
    some (2, true) := by decide +kernel

/-- R271, R308: `trap n` enters the handler with the next instruction's offset saved. -/
theorem test_trap_n : (goes (.trap { imm := 7 }) B).map (fun m => (m.me.pc, m.me.kepcPc, m.me.priv)) = some (0x2000, 0x404, .supervisor) := by
  decide +kernel

/-- R271: `eret` restores PC and privilege. -/
theorem test_eret : (goes (.eret {}) { sup with mach := sup.mach.modMe fun u => { u with kepcPc := 0x123, kepcPriv := 0 } }).map
    (fun m => (m.me.pc, m.me.priv)) = some (0x123, .user) := by decide +kernel

/-- R271: below supervisor level `halt` takes the privilege trap. -/
theorem test_halt_user : (goes (.halt {}) { B with mach := B.mach.modMe fun u => { u with priv := .user } }).map
    (fun m => (m.me.pc, (m.core 5).halted)) = some (0x2000, false) := by decide +kernel

/-- R261: `mbinc` on the core's own position adds at once. -/
theorem test_mbinc : (goes (.mbinc { d := 10, s := 11 }) (setX (setX B 10 (wd (2 * 2 ^ 60 + 5 * 2 ^ 32 + 4 * 3))) 11 9)).map
    (fun m => vget (m.core 5).mb 0 3) = some 9 := by decide +kernel

/-- R182, R183: `kget` of kclk reads the cycle. -/
theorem test_kclk : givesX (.kget { d := 3, imm := 0x0E }) 3 B = some 1000001 := by decide +kernel

/-! ## The machine after reset -/

/-- Log 2: the very first step after reset with a word placed performs it: `addi x3, x3, 5` (R172). -/
theorem test_first_step : (match step (State.reset.withFetchWord 16 0x2465) with
    | .next v => (v.mach.tset (.core 73728 0)).xreg 3
    | _ => 0) = 5 := by decide +kernel

/-- A state and a step that meet the hypotheses of `RollbackInvariant`, both its clauses. -/
theorem witness_RollbackInvariant :
    State.reset.perm.ctr ≤ 64 ∧ State.reset.mach.agenda = [] ∧ (match step State.reset with | .next _ => true | _ => false) = true := by
  decide +kernel

end Sys2Proof.Tests
end

