-- ==== Sys2Proof/Tests/Witness.lean ====
section
/-! SUPPORT. Witnesses: for each statement, states and operands that meet its hypotheses, taken together; every set of hypotheses
under which a statement states something is met by one of them. The lists are those of `Sys2Proof.Tests.Hyps`. -/

namespace Sys2Proof.Tests
open Sys2Proof.Machine
set_option Elab.async false
set_option maxRecDepth 20000

namespace W1
def B := mkS 1 5 2

theorem witness_ScalarBinaryForms_1 : (hypsScalarBinaryForms B 5 2 {})[0]? = some true := by decide +kernel
end W1

namespace W2
def B := mkS 1 5 2

theorem witness_ScalarUnaryAndImmediateForms_1 : (hypsScalarUnaryAndImmediateForms B 5 2 {})[0]? = some true := by decide +kernel
end W2

namespace W3
def B := setX (setX (mkS 1 5 2) 5 0x1002) 6 0x3FFE
def ks : List State := [B, setX B 3 0, setX B 3 1, setX (setX B 3 7) 4 7, setX B 3 (-5), setX (setX B 3 (-5)) 4 3, setX B 5 0x10001, setX B 5 3]
def full (s : State) : State :=
  { s with mach := s.mach.modCore 5 fun k => (List.range 64).foldl (fun k i => k.modRec i fun r => { r with st := .parked }) k }
def sl (s : State) (x : SegState) : State := { s with mach := s.mach.modCore 5 fun k => { k with seg := Vector.replicate 16 { st := x } } }

theorem witness_BranchForms_1 : (hypsBranchForms ((ks)[0]'(by decide)) 5 2 ({d:=3,s:=4,imm:=5}:Args))[0]? = some true := by decide +kernel
theorem witness_JumpForms_1 : (hypsJumpForms ((ks)[0]'(by decide)) 5 2 ({d:=3,s:=4,imm:=5}:Args))[0]? = some true := by decide +kernel
theorem witness_FencedJumps_1 :
    (let a : Args := {imm := BitVec.ofInt 64 5}; hypsFencedJumps (sl B SegState.valid) 5 2 0 a)[0]? = some true := by
  decide +kernel
theorem witness_FencedJumps_2 :
    (let a : Args := {imm := BitVec.ofInt 64 5}; hypsFencedJumps (sl B .empty) 5 2 0 a)[1]? = some true := by
  decide +kernel
theorem witness_FencedJumps_3 :
    (let a : Args := {imm := BitVec.ofInt 64 5}; hypsFencedJumps (sl (full B) .loading) 5 2 0 a)[2]? = some true := by
  decide +kernel
theorem witness_FencedJumps_4 :
    (let a : Args := {imm := BitVec.ofInt 64 5}; hypsFencedJumps (sl B .loading) 5 2 0 a)[3]? = some true := by
  decide +kernel
end W3

namespace W4


theorem witness_ControlRegisterReads_1 :
    (let l := hypsControlRegisterReads (mkS 0 5 2) 5 2 {}; [0, 1].all fun k => l[k]? == some true) = true := by
  decide +kernel
theorem witness_ControlRegisterReads_2 : (hypsControlRegisterReads (mkS 1 5 2) 5 2 {})[2]? = some true := by decide +kernel
theorem witness_ControlRegisterWrites_1 :
    (let l := hypsControlRegisterWrites (setX (mkS 0 5 2) 3 3) 5 2 { d := 3, p := 7 }; [0, 1, 2, 3, 4, 5].all fun k => l[k]? == some true) = true := by
  decide +kernel
theorem witness_ControlRegisterWrites_2 :
    (let l := hypsControlRegisterWrites (setX (mkS 1 5 2) 3 3) 5 2 { d := 3, p := 7 }; [8, 9].all fun k => l[k]? == some true) = true := by
  decide +kernel
theorem witness_ControlRegisterWrites_3 :
    (hypsControlRegisterWrites (setX (mkS 1 5 2) 3 31) 5 2 { d := 3, p := 7 })[6]? = some true := by
  decide +kernel
theorem witness_ControlRegisterWrites_4 :
    (hypsControlRegisterWrites (setX (mkS 1 5 2) 3 65535) 5 2 { d := 3, p := 7 })[7]? = some true := by
  decide +kernel
theorem witness_ControlRegisterWrites_5 :
    (hypsControlRegisterWrites (setX (mkS 0 5 2) 3 (2^32-1)) 5 2 { d := 3, p := 7 })[10]? = some true := by
  decide +kernel
theorem witness_ControlRegisterTraps_1 :
    (let l := hypsControlRegisterTraps { mkS 0 5 2 with mach := (mkS 0 5 2).mach.modMe fun u => { u with p := vset u.p 1 0 } } 5 2 { p := 7 } 0x0B; [0, 2].all fun k => l[k]? == some true) = true := by
  decide +kernel
theorem witness_ControlRegisterTraps_2 :
    (hypsControlRegisterTraps { mkS 0 5 2 with mach := (mkS 0 5 2).mach.modMe fun u => { u with p := vset u.p 1 0 } } 5 2 { p := 1 } 0x0B)[1]? = some true := by
  decide +kernel
end W4

namespace W5
def B := mkS 1 5 2
def mc (s : State) (f : Core → Core) : State := { s with mach := s.mach.modCore 5 f }
def mth (s : State) (t : Nat) (f : ThreadSet → ThreadSet) : State := mc s (·.modTs t f)
def wr (a : Nat) (w : Word) (s : State) : State :=
  { s with mach := s.mach.modCore 5 fun k => { k with mem := Memory.pokes k.mem a (leBytes w.toNat 8) } }
def full (s : State) : State := { s with mach := (List.range 16).foldl (fun m i => m.post 5 1 6 (.cue (8*i) false none) none true) s.mach }
def jn (w : Word) (s : State) : State := wr 0x2010 w (mth s 2 fun u => { u with d := #v[0,0,0,0x2000,0,0,0,0] })
def parkS (e : Word) (s : State) : State := mth s 2 fun u => u.setX 4 e

theorem witness_TrapEntry_1 :
    (let l := let s := mth B 2 fun u => { u with kvec := if 1 = 0 then 0 else 0x2000, priv := if 1 = 2 then .house else .user }; hypsTrapEntry s.mach 5 2 1 6 0x1003 { cause := 3, addr := 7 } 0x444; [0, 1, 2].all fun k => l[k]? == some true) = true := by
  decide +kernel
theorem witness_TrapKills_1 :
    (let l := let s := mth B 2 fun u => { u with kvec := if 0 = 3 then 4 else 0, priv := if 0 = 2 then .house else .user }; hypsTrapKills s.mach 5 2 6 { cause := 3, addr := 7 } 0x444; [0, 1].all fun k => l[k]? == some true) = true := by
  decide +kernel
theorem witness_SystemForms_1 :
    (let l := let s := mth B 2 fun u => { u with kepcPriv := BitVec.ofNat 2 0, kepcPc := 0x222, priv := if 0 = 2 then .house else if 0 = 1 then .supervisor else .user }; hypsSystemForms s 5 2 0x1003 {imm := 3}; [0, 1].all fun k => l[k]? == some true) = true := by
  decide +kernel
theorem witness_SystemForms_2 :
    (let l := let s := mth B 2 fun u => { u with kepcPriv := BitVec.ofNat 2 0, kepcPc := 0x222, priv := if 1 = 2 then .house else if 1 = 1 then .supervisor else .user }; hypsSystemForms s 5 2 0x1003 {imm := 3}; [4, 5].all fun k => l[k]? == some true) = true := by
  decide +kernel
theorem witness_SystemForms_3 :
    (let s := mth B 2 fun u => { u with kepcPriv := BitVec.ofNat 2 3, kepcPc := 0x222, priv := if 1 = 2 then .house else if 1 = 1 then .supervisor else .user }; hypsSystemForms s 5 2 0x1003 {imm := 3})[2]? = some true := by
  decide +kernel
theorem witness_SystemForms_4 :
    (let s := mth B 2 fun u => { u with kepcPriv := BitVec.ofNat 2 2, kepcPc := 0x222, priv := if 1 = 2 then .house else if 1 = 1 then .supervisor else .user }; hypsSystemForms s 5 2 0x1003 {imm := 3})[3]? = some true := by
  decide +kernel
theorem witness_DoneEndsTheCodelet_1 :
    (let s := jn 0 B; let cu := (s.mach.modCore 5 (·.leaveAll 2)).cueTarget 5 (s.mach.myCore.joinOf 2); let (q, off, code) := match cu with | .ok (q, off) => (q, off, 0) | .error e => (0, 0, e); hypsDoneEndsTheCodelet s 5 2 q off {} code)[0]? = some true := by
  decide +kernel
theorem witness_DoneEndsTheCodelet_2 :
    (let s := jn (ca 5 0x2010) B; let cu := (s.mach.modCore 5 (·.leaveAll 2)).cueTarget 5 (s.mach.myCore.joinOf 2); let (q, off, code) := match cu with | .ok (q, off) => (q, off, 0) | .error e => (0, 0, e); hypsDoneEndsTheCodelet s 5 2 q off {} code)[1]? = some true := by
  decide +kernel
theorem witness_DoneEndsTheCodelet_3 :
    (let s := jn (ca 5 0x2010) (full B); let cu := (s.mach.modCore 5 (·.leaveAll 2)).cueTarget 5 (s.mach.myCore.joinOf 2); let (q, off, code) := match cu with | .ok (q, off) => (q, off, 0) | .error e => (0, 0, e); hypsDoneEndsTheCodelet s 5 2 q off {} code)[2]? = some true := by
  decide +kernel
theorem witness_DoneEndsTheCodelet_4 :
    (let s := jn (ca 6 0x3004) B; let cu := (s.mach.modCore 5 (·.leaveAll 2)).cueTarget 5 (s.mach.myCore.joinOf 2); let (q, off, code) := match cu with | .ok (q, off) => (q, off, 0) | .error e => (0, 0, e); hypsDoneEndsTheCodelet s 5 2 q off {} code)[3]? = some true := by
  decide +kernel
theorem witness_ParkForms_1 :
    (let s := parkS (wd 0) B; let i := (s.mach.myCore.freeRec).getD 0; hypsParkForms s 5 2 i {s := 4})[0]? = some true := by
  decide +kernel
theorem witness_ParkForms_2 :
    (let s := parkS (wd (2^62+4)) B; let i := (s.mach.myCore.freeRec).getD 0; hypsParkForms s 5 2 i {s := 4})[1]? = some true := by
  decide +kernel
theorem witness_ParkForms_3 :
    (let s := parkS (wd (2^62)) B; let i := (s.mach.myCore.freeRec).getD 0; hypsParkForms s 5 2 i {s := 4})[2]? = some true := by
  decide +kernel
theorem witness_ParkForms_4 :
    (let s := parkS (wd (2^63+3)) (mc B fun k => (List.range 64).foldl (fun k i => k.modRec i fun r => { r with st := .parked }) k); let i := (s.mach.myCore.freeRec).getD 0; hypsParkForms s 5 2 i {s := 4})[3]? = some true := by
  decide +kernel
theorem witness_ParkForms_5 :
    (let s := parkS (wd (2^63+3)) B; let i := (s.mach.myCore.freeRec).getD 0; hypsParkForms s 5 2 i {s := 4})[4]? = some true := by
  decide +kernel
end W5

namespace W6
def A : Args := { d := 9, s := 8, imm := 0 }
def addrs : List Word :=
  [0x1000,0x1004,0x1008,0x1001,0x1012,0xFFF8, 0x10000, 0xC008,0xD008, 0x2000, 0x2008, ca 5 0x1008, ca 6 0x1008, ca 20 0x1010, ca 40 0x1000, ca 7 0x1000, 0x2000000000000000, 0xE000000000000000, 0xF000000000000000, 0x4000000000000000]
def sts : List State :=
  ((List.range 2).map fun i => mkS i 5 2) ++ ((List.range 2).map fun i => let s := mkS (i+10) 5 2; {s with mach := s.mach.modCore 5 fun k => {k with frames := [0x2000, 0x1010]}}) ++ [ (let s := mkS 1 5 2; {s with mach := (List.range 16).foldl (fun m j => m.post 5 2 20 (.inc j 1) none true) s.mach})]
def offOf (x : Word) : Nat := x.toNat % 65536

theorem witness_ScalarLoads_1 :
    (let a := {A with p := BitVec.ofNat 3 2}; let s := setX ((sts)[0]'(by decide)) 8 ((addrs)[0]'(by decide)); hypsScalarLoads s 5 2 (offOf ((addrs)[0]'(by decide))) 5 a (.ldD a) 8)[0]? = some true := by
  decide +kernel
theorem witness_ScalarLoads_2 :
    (let a := {A with p := BitVec.ofNat 3 7}; let s := setX ((sts)[0]'(by decide)) 8 ((addrs)[0]'(by decide)); hypsScalarLoads s 5 2 (offOf ((addrs)[0]'(by decide))) 5 a (.ldD a) 8)[1]? = some true := by
  decide +kernel
theorem witness_ScalarLoads_3 :
    (let a := {A with p := BitVec.ofNat 3 7}; let s := setX ((sts)[0]'(by decide)) 8 ((addrs)[12]'(by decide)); hypsScalarLoads s 5 2 (offOf ((addrs)[12]'(by decide))) 6 a (.ldD a) 8)[2]? = some true := by
  decide +kernel
theorem witness_ScalarStores_1 :
    (hypsScalarStores (setX (mkS 0 5 2) 8 0x1000) 5 2 (offOf 0x1000) 5 5 0x1000 { A with p := BitVec.ofNat 3 2 } (.stD { A with p := BitVec.ofNat 3 2 }) 8)[0]? = some true := by
  decide +kernel
theorem witness_ScalarStores_2 :
    (hypsScalarStores (setX (mkS 0 5 2) 8 0x1000) 5 2 (offOf 0x1000) 5 5 0x1000 { A with p := BitVec.ofNat 3 7 } (.stD { A with p := BitVec.ofNat 3 7 }) 8)[1]? = some true := by
  decide +kernel
theorem witness_ScalarStores_3 :
    (hypsScalarStores (setX (mkS 0 5 2) 8 (ca 6 0x1008)) 5 2 (offOf (ca 6 0x1008)) 6 5 0x1000 { A with p := BitVec.ofNat 3 7 } (.stD { A with p := BitVec.ofNat 3 7 }) 8)[2]? = some true := by
  decide +kernel
theorem witness_PostedStores_1 :
    (hypsPostedStores (setX (mkS 0 5 2) 8 0x1000) 5 2 (offOf 0x1000) 5 { A with p := BitVec.ofNat 3 7 } (.pstD { A with p := BitVec.ofNat 3 7 }) 8)[0]? = some true := by
  decide +kernel
theorem witness_PostedStores_2 :
    (hypsPostedStores (setX (mkS 0 5 2) 8 (ca 6 0x1008)) 5 2 (offOf (ca 6 0x1008)) 6 { A with p := BitVec.ofNat 3 7 } (.pstD { A with p := BitVec.ofNat 3 7 }) 8)[1]? = some true := by
  decide +kernel
theorem witness_PostedStores_3 :
    (hypsPostedStores (setX (sts.getD 4 (mkS 0 5 2)) 8 (ca 6 0x1008)) 5 2 (offOf (ca 6 0x1008)) 6 { A with p := 7 } (.pstD { A with p := 7 }) 8)[2]? = some true := by
  decide +kernel
theorem witness_AddressChecks_1 :
    (let a := {A with p := BitVec.ofNat 3 7}; let s := setX ((sts)[0]'(by decide)) 8 ((addrs)[16]'(by decide)); hypsAddressChecks s 5 2 5 (offOf ((addrs)[16]'(by decide))) ((s.mach.myCore.headerOf ((addrs)[16]'(by decide)).toNat).getD 0) a)[0]? = some true := by
  decide +kernel
theorem witness_AddressChecks_2 :
    (let a := {A with p := BitVec.ofNat 3 7}; let s := setX ((sts)[0]'(by decide)) 8 ((addrs)[18]'(by decide)); hypsAddressChecks s 5 2 5 (offOf ((addrs)[18]'(by decide))) ((s.mach.myCore.headerOf ((addrs)[18]'(by decide)).toNat).getD 0) a)[1]? = some true := by
  decide +kernel
theorem witness_AddressChecks_3 :
    (let a := {A with p := BitVec.ofNat 3 7}; let s := setX ((sts)[1]'(by decide)) 8 ((addrs)[18]'(by decide)); hypsAddressChecks s 5 2 5 (offOf ((addrs)[18]'(by decide))) ((s.mach.myCore.headerOf ((addrs)[18]'(by decide)).toNat).getD 0) a)[2]? = some true := by
  decide +kernel
theorem witness_AddressChecks_4 :
    (let a := {A with p := BitVec.ofNat 3 7}; let s := setX ((sts)[0]'(by decide)) 8 ((addrs)[6]'(by decide)); hypsAddressChecks s 5 2 5 (offOf ((addrs)[6]'(by decide))) ((s.mach.myCore.headerOf ((addrs)[6]'(by decide)).toNat).getD 0) a)[3]? = some true := by
  decide +kernel
theorem witness_AddressChecks_5 :
    (let a := {A with p := BitVec.ofNat 3 7}; let s := setX ((sts)[0]'(by decide)) 8 ((addrs)[1]'(by decide)); hypsAddressChecks s 5 2 5 (offOf ((addrs)[1]'(by decide))) ((s.mach.myCore.headerOf ((addrs)[1]'(by decide)).toNat).getD 0) a)[4]? = some true := by
  decide +kernel
theorem witness_AddressChecks_6 :
    (let a := {A with p := BitVec.ofNat 3 7}; let s := setX ((sts)[0]'(by decide)) 8 ((addrs)[15]'(by decide)); hypsAddressChecks s 5 2 7 (offOf ((addrs)[15]'(by decide))) ((s.mach.myCore.headerOf ((addrs)[15]'(by decide)).toNat).getD 0) a)[5]? = some true := by
  decide +kernel
theorem witness_AddressChecks_7 :
    (let a := {A with p := BitVec.ofNat 3 7}; let s := setX ((sts)[0]'(by decide)) 8 ((addrs)[13]'(by decide)); hypsAddressChecks s 5 2 20 (offOf ((addrs)[13]'(by decide))) ((s.mach.myCore.headerOf ((addrs)[13]'(by decide)).toNat).getD 0) a)[6]? = some true := by
  decide +kernel
theorem witness_AddressChecks_8 :
    (let a := {A with p := BitVec.ofNat 3 7}; let s := setX ((sts)[0]'(by decide)) 8 ((addrs)[14]'(by decide)); hypsAddressChecks s 5 2 40 (offOf ((addrs)[14]'(by decide))) ((s.mach.myCore.headerOf ((addrs)[14]'(by decide)).toNat).getD 0) a)[7]? = some true := by
  decide +kernel
theorem witness_AddressChecks_9 :
    (let a := {A with p := BitVec.ofNat 3 7}; let s := setX ((sts)[0]'(by decide)) 8 ((addrs)[7]'(by decide)); hypsAddressChecks s 5 2 5 (offOf ((addrs)[7]'(by decide))) ((s.mach.myCore.headerOf ((addrs)[7]'(by decide)).toNat).getD 0) a)[8]? = some true := by
  decide +kernel
theorem witness_AddressChecks_10 :
    (let a := {A with p := BitVec.ofNat 3 7}; let s := setX ((sts)[2]'(by decide)) 8 ((addrs)[9]'(by decide)); hypsAddressChecks s 5 2 5 (offOf ((addrs)[9]'(by decide))) ((s.mach.myCore.headerOf ((addrs)[9]'(by decide)).toNat).getD 0) a)[9]? = some true := by
  decide +kernel
end W6

namespace W7
def addrs : List Word :=
  [0x1000,0x1004,0x1008,0x1001,0x1012,0xFFF8, 0x10000, 0xC008,0xD008, 0x2000, ca 5 0x1008, ca 6 0x1008, ca 20 0x1010, ca 40 0x1000, ca 7 0x1000, 0x2000000000000000, 0xE000000000000000, 0xF000000000000000, 0x4000000000000000]
def sts : List State :=
  ((List.range 2).map fun i => mkS i 5 2) ++ ((List.range 2).map fun i => let s := mkS (i+10) 5 2; {s with mach := s.mach.modCore 5 fun k => {k with frames := [0x2000, 0x1010]}}) ++ [ (let s := mkS 1 5 2; {s with mach := (List.range 16).foldl (fun m j => m.post 5 2 20 (.inc j 1) none true) s.mach})]
def offOf (x : Word) : Nat := x.toNat % 65536
def AA : Args := { d := 9, s := 8, t := 10, imm := 0 }
def st2 := sts.take 1 ++ sts.drop 4

theorem witness_AtomicForms_1 :
    (let a := {AA with p := BitVec.ofNat 3 7, v := BitVec.ofNat 3 0}; let s := setX (setX (setX ((st2)[0]'(by decide)) 8 ((addrs)[0]'(by decide))) 9 5) 10 (if 7 = 7 then 5 else 6); hypsAtomicForms s 5 2 a (offOf ((addrs)[0]'(by decide))) (.amoAdd a))[0]? = some true := by
  decide +kernel
theorem witness_AtomicForms_2 :
    (let a := {AA with p := BitVec.ofNat 3 2, v := BitVec.ofNat 3 0}; let s := setX (setX (setX ((st2)[0]'(by decide)) 8 ((addrs)[0]'(by decide))) 9 5) 10 (if 2 = 7 then 5 else 6); hypsAtomicForms s 5 2 a (offOf ((addrs)[0]'(by decide))) (.amoAdd a))[1]? = some true := by
  decide +kernel
theorem witness_FencePasses_1 : (hypsFencePasses ((st2)[0]'(by decide)) 5 2 {v := 0, m := 0})[0]? = some true := by decide +kernel
theorem witness_FencePasses_2 : (hypsFencePasses ((st2)[1]'(by decide)) 5 2 {v := 1, m := 0})[1]? = some true := by decide +kernel
theorem witness_VersionedForms_1 :
    (let l := let a := {AA with p := BitVec.ofNat 3 7}; let s := setX (setX (setX ((st2)[0]'(by decide)) 8 ((addrs)[0]'(by decide))) 9 5) 10 4; hypsVersionedForms s 5 2 a (offOf ((addrs)[0]'(by decide))) 5 (Instr.ldv a); [1, 3, 4, 5].all fun k => l[k]? == some true) = true := by
  decide +kernel
theorem witness_VersionedForms_2 :
    (let a := {AA with p := BitVec.ofNat 3 2}; let s := setX (setX (setX ((st2)[0]'(by decide)) 8 ((addrs)[0]'(by decide))) 9 5) 10 4; hypsVersionedForms s 5 2 a (offOf ((addrs)[0]'(by decide))) 5 (Instr.ldv a))[0]? = some true := by
  decide +kernel
theorem witness_VersionedForms_3 :
    (let a := {AA with p := BitVec.ofNat 3 7}; let s := setX (setX (setX ((st2)[0]'(by decide)) 8 ((addrs)[0]'(by decide))) 9 5) 10 6; hypsVersionedForms s 5 2 a (offOf ((addrs)[0]'(by decide))) 5 (Instr.ldv a))[2]? = some true := by
  decide +kernel
theorem witness_VersionedForms_4 :
    (let a := {AA with p := BitVec.ofNat 3 7}; let s := setX (setX (setX ((st2)[1]'(by decide)) 8 ((addrs)[0]'(by decide))) 9 5) 10 4; hypsVersionedForms s 5 2 a (offOf ((addrs)[0]'(by decide))) 5 (Instr.ldv a))[6]? = some true := by
  decide +kernel
end W7

namespace W8
def sl (d : Bool) (kind : Nat) (v : Bool) (port : Nat) (fifo : List V128) (pos : Nat) (n : Nat := 20): Slot := { bnd := true, w0 := BitVec.ofNat 64 (kind + (if v then 16 else 0) + port * 32 + (if d then 256 else 0) + 8 * 512 + 0x3000 * 65536), w1 := BitVec.ofNat 64 (n + 65536 + 2^32), w2 := 8, fifo := fifo, pos := BitVec.ofNat 32 pos, moved := pos}
def wS (s : State) (i : Nat) (p : Slot) : State := { s with mach := s.mach.modMe fun u => u.setSlot i p }
def B := mkS 1 5 2
def ss : List State :=
  [wS B 3 (sl false 0 false 1 [5,6] 0), wS B 3 (sl false 0 false 1 [] 0), wS B 3 (sl false 0 false 1 [5,6] 20), wS B 3 (sl true 1 false 1 [5,6] 2), wS B 3 (sl true 1 false 1 (List.replicate 8 5) 2), wS B 3 (sl true 1 false 1 (List.replicate 8 5) 30), wS B 3 (sl true 5 false 1 [] 2), wS B 3 (sl true 1 false 1 [] 2),B, (let s := wS B 3 (sl true 1 false 1 [5] 2); {s with mach := s.mach.modMe fun u => {u with tc := true, eos := true}}), wS B 3 {sl false 0 false 1 [] 0 with fault := some (4, 0)}]
def wr (s : State) (a : Nat) (w : Word) : State :=
  { s with mach := s.mach.modCore 5 fun k => { k with mem := Memory.pokes k.mem a (leBytes w.toNat 8) } }
def D (p : Slot) : State := setX (wr (wr (wr B 0x4000 p.w0) 0x4008 p.w1) 0x4010 p.w2) 4 0x4000
def cz (d : Bool) (fifo : List V128) (pos nz : Nat) (h : Bool :=
  false) (f : Bool := false) : Slot := { bnd := true, w0 := BitVec.ofNat 64 (2 + 32 + 256 + 1 * 512 + 0x3000 * 65536 + 0x80*2^32), w1 := BitVec.ofNat 64 (20 + 65536 + 2^32), fifo := fifo, pos := BitVec.ofNat 32 pos, moved := pos, nnz := nz, nnzOut := nz, bitWord := 5, valWord := 77, header := h, flt := f}
def bh : Slot := { sl false 3 false 1 [] 0 with w0 := BitVec.ofNat 64 (3 + 32 + 1*512 + 0x3000*65536 + 0x80*2^32) }
def hdr (s : State) (n0 nnz f : Nat) : State :=
  wr s 0x3000 (BitVec.ofNat 64 ((8 + 8 * ((n0+63)/64) + (nnz * fmtBits f + 7) / 8 + 15) / 16 * 16 + nnz * 2^16 + n0 * 2^32 + f * 2^48))
def H3 (s : State) : State :=
  { s with mach := s.mach.modCore 5 fun k => { k with ts := (k.ts.zipIdx.map fun (u, i) => if i = 2 then u else { u with cho := true }) } }

theorem witness_StreamOperands_1 :
    (let l := hypsStreamOperands ((ss)[0]'(by decide)) 5 2 { d := BitVec.ofNat 5 (25,8).1, s := BitVec.ofNat 5 (25,8).2, imm := 0 } 3; [2, 3].all fun k => l[k]? == some true) = true := by
  decide +kernel
theorem witness_StreamOperands_2 :
    (hypsStreamOperands ((ss)[0]'(by decide)) 5 2 { d := BitVec.ofNat 5 (8,25).1, s := BitVec.ofNat 5 (8,25).2, imm := 0 } 3)[0]? = some true := by
  decide +kernel
theorem witness_StreamOperands_3 :
    (hypsStreamOperands ((ss)[3]'(by decide)) 5 2 { d := BitVec.ofNat 5 (25,8).1, s := BitVec.ofNat 5 (25,8).2, imm := 0 } 3)[1]? = some true := by
  decide +kernel
theorem witness_StreamForms_1 :
    (let l := hypsStreamForms (([D (sl true 1 true 1 [] 0),D (sl false 0 true 1 [] 0),D (sl false 0 false 1 [] 0),D (sl false 9 true 1 [] 0)] ++ ss)[0]'(by decide)) 5 2 { d := BitVec.ofNat 5 (3,4).1, s := BitVec.ofNat 5 (3,4).2, imm := 0 }; [0, 6, 7, 9].all fun k => l[k]? == some true) = true := by
  decide +kernel
theorem witness_StreamForms_2 :
    (let l := hypsStreamForms (setX (wS B 3 (sl false 0 false 1 [5,6] 0)) 4 0) 5 2 { d := 3, s := 4 }; [4, 8].all fun k => l[k]? == some true) = true := by
  decide +kernel
theorem witness_StreamForms_3 :
    (hypsStreamForms (hdr (D { bh with w1 := 20, w2 := BitVec.ofNat 64 (8*0) }) (20-0) 3 0) 5 2 { d := 3, s := 4 })[1]? = some true := by
  decide +kernel
theorem witness_StreamForms_4 :
    (hypsStreamForms (D (sl true 7 true 1 [] 0)) 5 2 { d := BitVec.ofNat 5 (3,4).1, s := BitVec.ofNat 5 (3,4).2 })[2]? = some true := by
  decide +kernel
theorem witness_StreamForms_5 : (hypsStreamForms (H3 (D (sl true 1 true 1 [] 0))) 5 2 { d := 3, s := 4 })[3]? = some true := by decide +kernel
theorem witness_StreamForms_6 : (hypsStreamForms (wS B 3 (cz true [] 0 0)) 5 2 { d := 3, s := 4 })[5]? = some true := by decide +kernel
end W8

namespace W9
def B := mkS 1 5 2
def wr (s : State) (a : Nat) (w : Word) : State :=
  { s with mach := s.mach.modCore 5 fun k => { k with mem := Memory.pokes k.mem a (leBytes w.toNat 8), poolFirst := 0x3000, poolLast := 0x3FFF } }
def setD (s : State) (l : List (Nat × Word)) : State := { s with mach := s.mach.modMe fun u => l.foldl (fun u p => { u with d := vset u.d p.1 p.2 }) u }
def hd (refs size live left : Nat) : Word := BitVec.ofNat 64 (refs * 2^48 + size * 2^32 + live * 2^31 + left * 2^30 + 4 * 2^27 + 5 * 2^17 + 0x155)
def full (s : State) : State := { s with mach := (List.range 16).foldl (fun m i => m.post 5 1 6 (.cue (8*i) false none) none true) s.mach }
def bases : List State :=
  ([hd 0 6 1 0, hd 1 6 1 0, hd 1 6 1 1, hd 3 1 1 0, hd 0 6 0 1, hd 65535 9 1 0].map fun h => setX (setD (wr B 0x2008 h) [(1,0x100),(2,0x140),(3,0x180),(4,0x2000)]) 8 0x2000)
def basesR : List State :=
  bases.map fun s => let s := setD s [(4, ca 6 0x2000), (5, ca 5 0x2000)]; { s with mach := (s.mach.modCore 6 fun k => { k with mem := Memory.pokes k.mem 0x2000 (leBytes (s.mach.myCore.number 0x2000 16) 16)}) }
def P (s : State) : State :=
  { s with mach := s.mach.modPart 3 fun p => { p with windows := vset p.windows 0 { v := true, cnt := 2, base := 16, size := 4, first := 3 } } }
def setF (s : State) (f : FarPhase) (r : Option Nat) : State := { s with mach := s.mach.modMe fun u => { u with far := f, farRec := r } }
def E : Word := 0x4000000000100020
def L (s : State) (d0 : Word) : State :=
  { s with mach := (s.mach.modPart 3 fun p => { p with launch := { p.launch with d0 := d0 } }).modMe fun u => { u with d := vset u.d 0 0x4000000000100000 } }
def sH (s : State) (h : Option Word) : State := { s with mach := s.mach.modMe fun u => { u with farHdr := h } }

theorem witness_FarAccesses_1 :
    (let l := let s := setX (P B) 8 E; hypsFarAccesses s 5 2 { d := 9, s := 8, v := 0 } (match s.mach.me.far with | .answered (.served b) => b | _ => []) (((s.mach.part 3).home (E.toNat % 2^60)).getD (0,0,0)) 0x11 E; [3, 4, 6].all fun k => l[k]? == some true) = true := by
  decide +kernel
theorem witness_FarAccesses_2 :
    (let l := let s := setX (setF (P B) (.answered (.served [1,2,3,4,5,6,7,8])) (some 0)) 8 E; hypsFarAccesses s 5 2 { d := 9, s := 8, v := 0 } (match s.mach.me.far with | .answered (.served b) => b | _ => []) (((s.mach.part 3).home (E.toNat % 2^60)).getD (0,0,0)) 0x11 E; [0, 1].all fun k => l[k]? == some true) = true := by
  decide +kernel
theorem witness_FarAccesses_3 :
    (let s := setX (setF (P B) (.answered (.served (List.replicate 16 7))) none) 8 E; hypsFarAccesses s 5 2 { d := 9, s := 8, v := 0 } (match s.mach.me.far with | .answered (.served b) => b | _ => []) (((s.mach.part 3).home (E.toNat % 2^60)).getD (0,0,0)) 0x11 E)[2]? = some true := by
  decide +kernel
theorem witness_FarAccesses_4 :
    (hypsFarAccesses (setX (L (P B) 0x4000000000100020) 8 E) 5 2 { d := 9, s := 8, v := 3 } [] ((((P B).mach.part 3).home 0x100020).getD (0,0,0)) 0x11 E)[5]? = some true := by
  decide +kernel
theorem witness_FarAccesses_5 :
    (let s := setX (setF (P B) (.answered (.fault 0x11 E)) none) 8 E; hypsFarAccesses s 5 2 { d := 9, s := 8, v := 0 } (match s.mach.me.far with | .answered (.served b) => b | _ => []) (((s.mach.part 3).home (E.toNat % 2^60)).getD (0,0,0)) 0x11 E)[7]? = some true := by
  decide +kernel
theorem witness_FarAccesses_6 :
    (let s := setX (setF (P B) (.answered .notRecorded) none) 8 E; hypsFarAccesses s 5 2 { d := 9, s := 8, v := 0 } (match s.mach.me.far with | .answered (.served b) => b | _ => []) (((s.mach.part 3).home (E.toNat % 2^60)).getD (0,0,0)) 0x11 E)[8]? = some true := by
  decide +kernel
theorem witness_FrameSlots_1 :
    (let l := hypsFrameSlots ((bases ++ basesR ++ [full (basesR.headD B)])[0]'(by decide)) 5 2 5 0x2000 { d := 9, imm := BitVec.ofNat 64 4 }; [0, 1, 2, 3].all fun k => l[k]? == some true) = true := by
  decide +kernel
theorem witness_FrameSlots_2 :
    (hypsFrameSlots ((bases ++ basesR ++ [full (basesR.headD B)])[0]'(by decide)) 5 2 5 0x2000 { d := 9, imm := BitVec.ofNat 64 5 })[4]? = some true := by
  decide +kernel
theorem witness_FrameSlots_3 :
    (hypsFrameSlots ((bases ++ basesR ++ [full (basesR.headD B)])[4]'(by decide)) 5 2 5 0x2000 { d := 9, imm := BitVec.ofNat 64 4 })[5]? = some true := by
  decide +kernel
theorem witness_FrameSlots_4 :
    (hypsFrameSlots ((bases ++ basesR ++ [full (basesR.headD B)])[3]'(by decide)) 5 2 5 0x2000 { d := 9, imm := BitVec.ofNat 64 (4+8*1) })[6]? = some true := by
  decide +kernel
theorem witness_LaunchFrameSlots_1 :
    (let l := let s := sH (L (setF (P B) (.answered (.served [1,2,3,4,5,6,7,8])) (some 0)) 0) (some 7); let s := setX s 8 E; hypsLaunchFrameSlots s 5 2 { d := 9, s := 8, imm := 16 } (match s.mach.me.far with | .answered (.served b) => b | _ => []) (((s.mach.part 3).home (E.toNat % 2^60)).getD (0,0,0)) 7; [0, 1, 3].all fun k => l[k]? == some true) = true := by
  decide +kernel
theorem witness_LaunchFrameSlots_2 :
    (let s := sH (L (setF (P B) (.answered (.served (List.replicate 16 7))) none) 0) (some 7); let s := setX s 8 E; hypsLaunchFrameSlots s 5 2 { d := 9, s := 8, imm := 16 } (match s.mach.me.far with | .answered (.served b) => b | _ => []) (((s.mach.part 3).home (E.toNat % 2^60)).getD (0,0,0)) 7)[2]? = some true := by
  decide +kernel
theorem witness_LaunchFrameSlots_3 :
    (hypsLaunchFrameSlots (L (P B) 0x4000000000100020) 5 2 { d := 9, imm := 8 } [] ((((P B).mach.part 3).home 0x100008).getD (0,0,0)) 7)[4]? = some true := by
  decide +kernel
theorem witness_FrameForms_1 :
    (let l := hypsFrameForms (([B, setD (bases.headD B) [(5,0x2000),(6,0x2000),(7,0x2000)]] ++ bases)[1]'(by decide)) 5 2 { d := 9, s := 8, imm := BitVec.ofNat 64 4 } (((([B, setD (bases.headD B) [(5,0x2000),(6,0x2000),(7,0x2000)]] ++ bases)[1]'(by decide)).mach.myCore.poolFind ((16 + 8 * 4 + 63) / 64)).getD 0) 5 0x2000; [2, 4, 6, 9].all fun k => l[k]? == some true) = true := by
  decide +kernel
theorem witness_FrameForms_2 :
    (let l := hypsFrameForms (([B, setD (bases.headD B) [(5,0x2000),(6,0x2000),(7,0x2000)]] ++ bases)[0]'(by decide)) 5 2 { d := 9, s := 8, imm := BitVec.ofNat 64 4 } (((([B, setD (bases.headD B) [(5,0x2000),(6,0x2000),(7,0x2000)]] ++ bases)[0]'(by decide)).mach.myCore.poolFind ((16 + 8 * 4 + 63) / 64)).getD 0) 5 0x2000; [1, 3, 5].all fun k => l[k]? == some true) = true := by
  decide +kernel
theorem witness_FrameForms_3 :
    (hypsFrameForms (([B, setD (bases.headD B) [(5,0x2000),(6,0x2000),(7,0x2000)]] ++ bases)[2]'(by decide)) 5 2 { d := 9, s := 8, imm := BitVec.ofNat 64 4 } (((([B, setD (bases.headD B) [(5,0x2000),(6,0x2000),(7,0x2000)]] ++ bases)[2]'(by decide)).mach.myCore.poolFind ((16 + 8 * 4 + 63) / 64)).getD 0) 5 0x2000)[0]? = some true := by
  decide +kernel
theorem witness_FrameForms_4 :
    (hypsFrameForms (([B, setD (bases.headD B) [(5,0x2000),(6,0x2000),(7,0x2000)]] ++ bases)[3]'(by decide)) 5 2 { d := 9, s := 8, imm := BitVec.ofNat 64 4 } (((([B, setD (bases.headD B) [(5,0x2000),(6,0x2000),(7,0x2000)]] ++ bases)[3]'(by decide)).mach.myCore.poolFind ((16 + 8 * 4 + 63) / 64)).getD 0) 5 0x2000)[7]? = some true := by
  decide +kernel
theorem witness_FrameForms_5 :
    (hypsFrameForms (([B, setD (bases.headD B) [(5,0x2000),(6,0x2000),(7,0x2000)]] ++ bases)[4]'(by decide)) 5 2 { d := 9, s := 8, imm := BitVec.ofNat 64 4 } (((([B, setD (bases.headD B) [(5,0x2000),(6,0x2000),(7,0x2000)]] ++ bases)[4]'(by decide)).mach.myCore.poolFind ((16 + 8 * 4 + 63) / 64)).getD 0) 5 0x2000)[8]? = some true := by
  decide +kernel
end W9

namespace W10
def B := mkS 1 5 2
def wr (s : State) (a : Nat) (w : Word) : State :=
  { s with mach := s.mach.modCore 5 fun k => { k with mem := Memory.pokes k.mem a (leBytes w.toNat 8) } }
def W : Window := { v := true, size := 1000, first := 0, cnt := 4 }
def C (s : State) : State := { s with mach := s.mach.modPart 3 fun p => { p with windows := vset p.windows 0 W } }
def P1 : Option (List FarPart) := ((C B).mach.part 3).parts 20 0x100 0x40
def CS := [setX (setX (setX (C B) 3 (BitVec.ofNat 64 (2^62+0x100))) 4 70) 8 (BitVec.ofNat 64 (1+0x3000*2^16+0x3040*2^32))]
def busy (s : State) : State :=
  { s with mach := s.mach.modCore 5 (·.modChan 1 fun _ => { busy := true, base := 0x100, flt := true, limit := 0x200, wm := 0x120 }) }
def JB (s : State) : State :=
  (([2^59+ 7*2^53 + 2*2^50, 0x3000 + 0x303f*2^16, 2^63+0x5000+0x503f*2^16,0,0,0x3000+0x5000*2^16+0x40*2^32,0,0] : List Nat).zipIdx).foldl (fun s x => wr s (0x2040+8*x.2) (BitVec.ofNat 64 x.1)) (setX s 3 0x2040)
def full (s : State) (n : Nat): State := { s with mach := s.mach.modCore 5 fun k => {k with jobs := List.replicate n { uid := 3, num := 0x2040, off := 0, card := List.replicate 8 0, ts := 0, cid := 0, pc := 0 }}}
def STG (xd xs xt : Nat) : State :=
  let r : StageRun := { core := 5, job := 3, dst := 0x1000, len := 0x1000, entry := 0, arg0 := 0, arg1 := 0 }
  let s := C B
  let s : State := { s with mach := { s.mach with cur := .stage 0 3 } }
  let s : State := { s with mach := s.mach.modUnit 0 3 fun u => { u with cards := [r], scratch := Memory.pokes [] 0x100 ((List.range 384).map fun i => (rnd i).setWidth 8), ts := { busy := true, x := Vector.ofFn fun j => rnd j } } }
  setX (setX (setX s 8 (BitVec.ofNat 64 xd)) 3 (BitVec.ofNat 64 xs)) 4 (BitVec.ofNat 64 xt)
def TA : Args := { d := 8, s := 3, t := 4 }
def run (s : State) (bs : List Byte) := hypsStageForms s 0 3 TA { core := 5, job := 3, dst := 0x1000, len := 0x1000, entry := 0, arg0 := 0, arg1 := 0 } bs 77
def MV (s : State) (bs : List Byte) : State := { s with mach := s.mach.modUnit 0 3 fun u => { u with move := some 77, answer := some (.served bs) } }
def O1 := C B
def SD (s : State) : State :=
  { s with mach := s.mach.modCore 5 fun k => { k with segDir := BitVec.ofNat 64 (2^62+0x1000), seg := vset (vset k.seg 3 { st := .valid, flt := true, seg := 77, cause := 3}) 4 {st := .loading} } }
def H2 := (O1.mach.part 3).home 0x1050
def use (s : State) : State := { s with mach := s.mach.modCore 5 (·.modTs 0 fun u => { u with pc := 0xC10 }) }

theorem witness_CopyForms_1 :
    (let l := hypsCopyForms ((CS ++ CS.map busy ++ [setX (CS.headD B) 3 5, setX (CS.headD B) 3 (BitVec.ofNat 64 (2^62+2^50))])[0]'(by decide)) 5 2 {d := 8, s := 3, t := 4, imm := 1} 0x3000 0x3040 (P1.getD []); [0, 4].all fun k => l[k]? == some true) = true := by
  decide +kernel
theorem witness_CopyForms_2 :
    (hypsCopyForms ((CS ++ CS.map busy ++ [setX (CS.headD B) 3 5, setX (CS.headD B) 3 (BitVec.ofNat 64 (2^62+2^50))])[1]'(by decide)) 5 2 {d := 8, s := 3, t := 4, imm := 1} 0x3000 0x3040 (P1.getD []))[1]? = some true := by
  decide +kernel
theorem witness_CopyForms_3 :
    (hypsCopyForms ((CS ++ CS.map busy ++ [setX (CS.headD B) 3 5, setX (CS.headD B) 3 (BitVec.ofNat 64 (2^62+2^50))])[3]'(by decide)) 5 2 {d := 8, s := 3, t := 4, imm := 1} 0x3000 0x3040 (P1.getD []))[2]? = some true := by
  decide +kernel
theorem witness_CopyForms_4 :
    (hypsCopyForms ((CS ++ CS.map busy ++ [setX (CS.headD B) 3 5, setX (CS.headD B) 3 (BitVec.ofNat 64 (2^62+2^50))])[2]'(by decide)) 5 2 {d := 8, s := 3, t := 4, imm := 1} 0x3000 0x3040 (P1.getD []))[3]? = some true := by
  decide +kernel
theorem witness_JobForms_1 :
    (let l := hypsJobForms (JB B) 5 2 {d := 8, s := 3, t := 4, imm := 1} 0x2040 0x3000 0x5000 0x40 7 true; [0, 3, 4].all fun k => l[k]? == some true) = true := by
  decide +kernel
theorem witness_JobForms_2 :
    (hypsJobForms (full (JB B) 16) 5 2 {d := 8, s := 3, t := 4, imm := 1} 0x2040 0x3000 0x5000 0x40 7 true)[1]? = some true := by
  decide +kernel
theorem witness_JobForms_3 :
    (hypsJobForms (wr (JB B) 0x2040 (5 <<< 60)) 5 2 {d := 8, s := 3, t := 4, imm := 1} 0x2040 0x3000 0x5000 0x40 7 true)[2]? = some true := by
  decide +kernel
theorem witness_StageForms_1 :
    (hypsStageForms (STG (0x1000,0x100).1 (0x1000,0x100).2 1) 0 3 TA { core := 5, job := 3, dst := 0x1000, len := 0x1000, entry := 0, arg0 := 0, arg1 := 0 } [] 77)[0]? = some true := by
  decide +kernel
theorem witness_StageForms_2 :
    (hypsStageForms (STG (0x100,0x1000).1 (0x100,0x1000).2 1) 0 3 TA { core := 5, job := 3, dst := 0x1000, len := 0x1000, entry := 0, arg0 := 0, arg1 := 0 } [] 77)[1]? = some true := by
  decide +kernel
theorem witness_StageForms_3 : (run (MV (STG 0x100 (2^62+0x200) 32) (List.replicate 32 5)) (List.replicate 32 5))[2]? = some true := by decide +kernel
theorem witness_StageForms_4 : (run (MV (STG (2^62+0x200) 0x100 32) (List.replicate 32 5)) (List.replicate 32 5))[3]? = some true := by decide +kernel
theorem witness_StageForms_5 : (run (STG (2^62+0x200) 0x100 32) (List.replicate 32 5))[4]? = some true := by decide +kernel
theorem witness_StageForms_6 :
    (hypsStageForms (STG 0x100 ((100:Nat),(2^62+0x200)).2 32) 0 3 TA { core := 5, job := 3, dst := 0x1000, len := 0x1000, entry := 0, arg0 := 0, arg1 := 0 } [] 77)[5]? = some true := by
  decide +kernel
theorem witness_OverlayForms_1 :
    (let l := hypsOverlayForms (SD (setX O1 3 5)) 5 2 {d := BitVec.ofNat 5 1, s := 3, imm := 0} (H2.getD (0,0,0)); [1, 2].all fun k => l[k]? == some true) = true := by
  decide +kernel
theorem witness_OverlayForms_2 :
    (hypsOverlayForms (SD (setX O1 3 5)) 5 2 {d := BitVec.ofNat 5 2, s := 3, imm := 0} (H2.getD (0,0,0)))[0]? = some true := by
  decide +kernel
theorem witness_OverlayForms_3 :
    (hypsOverlayForms (use (SD (setX O1 3 5))) 5 2 {d := BitVec.ofNat 5 3, s := 3} (H2.getD (0,0,0)))[3]? = some true := by
  decide +kernel
theorem witness_OverlayForms_4 :
    (hypsOverlayForms (setX O1 3 5000) 5 2 {d := BitVec.ofNat 5 2, s := 3, imm := 0} (H2.getD (0,0,0)))[4]? = some true := by
  decide +kernel
theorem witness_OverlayForms_5 :
    (hypsOverlayForms (SD (setX O1 3 5)) 5 2 {d := BitVec.ofNat 5 4, s := 3, imm := 0} (H2.getD (0,0,0)))[5]? = some true := by
  decide +kernel
end W10

namespace W11
def B := mkS 1 5 2
def mp (s : State) (n : Nat) (v : BitVec 16) : State := { s with mach := s.mach.modMe fun u => u.setP n v }
def vs (s : State) (n : Nat) (v : V128) : State := { s with mach := s.mach.modMe fun u => u.setV n v }
def dl (s : State) : State := { s with mach := s.mach.post 5 2 6 (.store [(0x4000,5)]) none true }
def fullw (s : State) : State := (List.range 16).foldl (fun s _ => dl s) s

theorem witness_VectorLoadsAndStores_1 :
    (let l := hypsVectorLoadsAndStores (mp (setX B 3 0x1000) 3 (BitVec.ofNat 16 0xffff)) 5 2 {d := 30, s := 3, p := 3, w := BitVec.ofNat 2 0} 0x1000; [1, 2].all fun k => l[k]? == some true) = true := by
  decide +kernel
theorem witness_VectorLoadsAndStores_2 :
    (hypsVectorLoadsAndStores (mp (setX B 3 0x1000) 3 (BitVec.ofNat 16 0)) 5 2 {d := 30, s := 3, p := 3, w := BitVec.ofNat 2 0} 0x1000)[0]? = some true := by
  decide +kernel
theorem witness_VectorLoadsAndStores_3 :
    (hypsVectorLoadsAndStores (mp (setX B 3 (ca 6 0x1000)) 3 (BitVec.ofNat 16 0xffff)) 5 2 {d := 30, s := 3, p := 3, w := BitVec.ofNat 2 0} 0x1000)[3]? = some true := by
  decide +kernel
theorem witness_StridedAndIndexed_1 :
    (let l := hypsStridedAndIndexed (vs (setX (mp (setX B 3 0x1000) 3 (BitVec.ofNat 16 0xffff)) 4 (BitVec.ofNat 64 4)) 4 0x00000002000003010000050108070605) 5 2 {d := 30, s := 3, t := 4, p := 3, v := BitVec.ofNat 3 0}; [0, 1, 2, 3].all fun k => l[k]? == some true) = true := by
  decide +kernel
theorem witness_StridedAndIndexed_2 :
    (hypsStridedAndIndexed (mp (setX B 3 0x1000) 3 (BitVec.ofNat 16 0x0002)) 5 2 {d := 30, s := 3, t := 4, p := 3, v := 0})[4]? = some true := by
  decide +kernel
theorem witness_ReleaseBehindDeliveries_1 :
    (hypsReleaseBehindDeliveries (dl (setX B 3 0x1000)) 5 2 { d := 8, s := 3, m := 0, v := 3 } 0x1000 6)[0]? = some true := by
  decide +kernel
theorem witness_ReleaseBehindDeliveries_2 :
    (hypsReleaseBehindDeliveries (dl (setX B 3 (ca 6 0x1000))) 5 2 { d := 8, s := 3, m := 0, v := 3 } 0x1000 6)[1]? = some true := by
  decide +kernel
theorem witness_ReleaseBehindDeliveries_3 :
    (hypsReleaseBehindDeliveries (fullw (setX B 3 (ca 6 0x1000))) 5 2 { d := 8, s := 3, m := 0, v := 3 } 0x1000 6)[2]? = some true := by
  decide +kernel
end W11

namespace W12
def B := mkS 1 5 2
def mp (s : State) (n : Nat) (v : BitVec 16) : State := { s with mach := s.mach.modMe fun u => u.setP n v }
def SS := [0, 0xffff,0x00f0,0x5a3c, 0x1110].map fun pm => mp B 3 (BitVec.ofNat 16 pm)

theorem witness_VectorElementForms_1 :
    (let l := hypsVectorElementForms ((SS)[0]'(by decide)) 5 2 {d := 8, s := 12, t := 4, p := 3, v := BitVec.ofNat 3 0, short := false, w := BitVec.ofNat 2 0}; [0, 1].all fun k => l[k]? == some true) = true := by
  decide +kernel
theorem witness_VectorLaneForms_1 :
    (let l := hypsVectorLaneForms ((SS)[0]'(by decide)) 5 2 {d := 6, s := 8, t := 10, p := 3, v := BitVec.ofNat 3 0, imm := BitVec.ofNat 64 0, m := BitVec.ofNat 3 0}; [0, 1, 3, 4].all fun k => l[k]? == some true) = true := by
  decide +kernel
theorem witness_VectorLaneForms_2 :
    (hypsVectorLaneForms ((SS)[1]'(by decide)) 5 2 {d := 6, s := 8, t := 10, p := 3, v := BitVec.ofNat 3 0, imm := BitVec.ofNat 64 0, m := BitVec.ofNat 3 0})[2]? = some true := by
  decide +kernel
theorem witness_PredicateForms_1 :
    (hypsPredicateForms ((SS)[0]'(by decide)) 5 2 {d := BitVec.ofNat 5 5, s := 2, t := 4, p := 3, imm := BitVec.ofNat 64 0x1234, short := false})[0]? = some true := by
  decide +kernel
end W12

namespace W13
def B := mkS 1 5 2
def mp (s : State) (n : Nat) (v : BitVec 16) : State := { s with mach := s.mach.modMe fun u => u.setP n v }
def vs (s : State) (n : Nat) (v : V128) : State := { s with mach := s.mach.modMe fun u => u.setV n v }
def B2 := vs (vs B 12 0x7F8000007FA00001FFC0000180000000) 4 0x80000000FF8000010000000000000001
def B3 := vs (vs B 12 0x7F80000080000000BF8000003F800000) 4 0xFF800000000000003F0000003F800001
def SS := [B,B2,B3].flatMap fun b => [0, 0xffff,0x00f0,0x5a3c, 0x1111].map fun pm => mp b 3 (BitVec.ofNat 16 pm)
def F4 := [(0, fmtF64), (1, fmtF32), (2, fmtF16), (3, fmtBf16)]
def X := [0,0x80000000,1,0x3f800000,0xbf800001,0x7f7fffff,0x7f800000,0xff800000,0x7f800001,0xff800001,0x7fc00000,0xffc12345,0xffbfffff]

theorem witness_FloatElementForms_1 :
    (let l := hypsFloatElementForms ((SS)[0]'(by decide)) 5 2 {d := 8, s := 12, t := 4, p := 3, v := BitVec.ofNat 3 ((F4)[0]'(by decide)).1, m := 0, short := false, w := BitVec.ofNat 2 0} ((F4)[0]'(by decide)).2; [0, 1].all fun k => l[k]? == some true) = true := by
  decide +kernel
theorem witness_FloatSpecialCases_1 :
    (let l := hypsFloatSpecialCases 0 ((X)[0]'(by decide)) ((X)[0]'(by decide)); [0, 6].all fun k => l[k]? == some true) = true := by
  decide +kernel
theorem witness_FloatSpecialCases_2 : (hypsFloatSpecialCases 0 ((X)[6]'(by decide)) ((X)[6]'(by decide)))[1]? = some true := by decide +kernel
theorem witness_FloatSpecialCases_3 : (hypsFloatSpecialCases 0 ((X)[2]'(by decide)) ((X)[0]'(by decide)))[2]? = some true := by decide +kernel
theorem witness_FloatSpecialCases_4 : (hypsFloatSpecialCases 0 ((X)[6]'(by decide)) ((X)[0]'(by decide)))[3]? = some true := by decide +kernel
theorem witness_FloatSpecialCases_5 : (hypsFloatSpecialCases 0 ((X)[8]'(by decide)) ((X)[0]'(by decide)))[4]? = some true := by decide +kernel
theorem witness_FloatSpecialCases_6 : (hypsFloatSpecialCases 0 ((X)[0]'(by decide)) ((X)[8]'(by decide)))[5]? = some true := by decide +kernel
theorem witness_FloatReductionForms_1 :
    (let l := hypsFloatReductionForms ((SS)[0]'(by decide)) 5 2 {d := 6, s := 12, t := 4, p := 3, v := BitVec.ofNat 3 ((F4)[0]'(by decide)).1, m := 0, imm := BitVec.ofNat 64 (0*32 + (0*7+0) % 18) } ((F4)[0]'(by decide)).2; [0, 1, 2].all fun k => l[k]? == some true) = true := by
  decide +kernel
end W13

namespace W14
def B := mkS 1 5 2
def mo (s : State) (f : ThreadSet → ThreadSet) : State := { s with mach := s.mach.modMe f }
def mc (s : State) (f : Core → Core) : State := { s with mach := s.mach.modCore 5 f }
def A0 : Args := {d := 6, s := 12, t := 4}
def op (n : Nat) : MatOp := { acc := n, gang := false, a := 0, b := 0, sample := {}, ts := 0, cid := 0, pc := 0 }
def S0 := setX (setX B 12 0x1000) 4 0x4000
def SS := [S0, setX S0 12 0x1008, setX S0 4 0x1000000, setX (setX S0 4 0x40004000) 12 5, mc S0 (fun k => {k with mat := [op 2]}), mc S0 (fun k => {k with mat := [op 1]}), mc S0 (fun k => {k with fence := 0xF}), setX S0 12 0x11000, setX S0 4 0x140004000, (let s := S0; {s with mach := {s.mach with rounds := [{row := 0, pair := false, first := 0, arrived := [6]}, {row := 0, pair := true, first := 0, arrived := [6]}]}})]
def S5 : List State := SS.map fun s => { s with mach := { s.mach with fusedCopy := [0,1,2,3,4] } }
def ac (s : State) : State :=
  mc s fun k => { k with owner := #v[0,1,2,3], failing := 3, fence := 1, acc := Vector.ofFn fun i => Vector.ofFn fun j => (rnd (i*128+j)).setWidth 32 }

theorem witness_MatrixIssue_1 :
    (let l := hypsMatrixIssue (mo ((SS ++ S5)[0]'(by decide)) fun u => { u with kfmta := BitVec.ofNat 5 (12,13).1, kfmtb := BitVec.ofNat 5 (12,13).2, kscla := 0x100, ksclb := 0x200, tc := true}) 5 2 A0; [0, 1, 2].all fun k => l[k]? == some true) = true := by
  decide +kernel
theorem witness_MatrixIssue_2 :
    (hypsMatrixIssue (mo ((SS ++ S5)[4]'(by decide)) fun u => { u with kfmta := BitVec.ofNat 5 (12,13).1, kfmtb := BitVec.ofNat 5 (12,13).2, kscla := 0x100, ksclb := 0x200, tc := true}) 5 2 A0)[3]? = some true := by
  decide +kernel
theorem witness_MatrixIssue_3 :
    (hypsMatrixIssue (mo ((SS ++ S5)[0]'(by decide)) fun u => { u with kfmta := BitVec.ofNat 5 (1,2).1, kfmtb := BitVec.ofNat 5 (1,2).2, kscla := 0x100, ksclb := 0x200, tc := true}) 5 2 A0)[4]? = some true := by
  decide +kernel
theorem witness_MatrixIssue_4 :
    (hypsMatrixIssue (mo ((SS ++ S5)[6]'(by decide)) fun u => { u with kfmta := BitVec.ofNat 5 (12,13).1, kfmtb := BitVec.ofNat 5 (12,13).2, kscla := 0x100, ksclb := 0x200, tc := true}) 5 2 A0)[5]? = some true := by
  decide +kernel
theorem witness_AccumulatorForms_1 :
    (let l := hypsAccumulatorForms (mo (ac ((SS ++ S5)[4]'(by decide))) fun u => { u with kscla := 0x1000, ksclb := 0x1100, tc := true}) 5 2 {d := BitVec.ofNat 5 (2,2).1, s := BitVec.ofNat 5 (2,2).2, imm := 0} 0x1000; [0, 2, 8].all fun k => l[k]? == some true) = true := by
  decide +kernel
theorem witness_AccumulatorForms_2 :
    (let l := hypsAccumulatorForms (mo (ac ((SS ++ S5)[0]'(by decide))) fun u => { u with kscla := 0x1000, ksclb := 0x1100, tc := true}) 5 2 {d := BitVec.ofNat 5 (2,2).1, s := BitVec.ofNat 5 (2,2).2, imm := 0} 0x1000; [1, 5, 9].all fun k => l[k]? == some true) = true := by
  decide +kernel
theorem witness_AccumulatorForms_3 :
    (let l := hypsAccumulatorForms (mo (ac ((SS ++ S5)[0]'(by decide))) fun u => { u with kscla := 0x1000, ksclb := 0x1100, tc := true}) 5 2 {d := BitVec.ofNat 5 (6,12).1, s := BitVec.ofNat 5 (6,12).2, imm := 0} 0x1000; [4, 7].all fun k => l[k]? == some true) = true := by
  decide +kernel
theorem witness_AccumulatorForms_4 :
    (hypsAccumulatorForms (mo (ac ((SS ++ S5)[0]'(by decide))) fun u => { u with kscla := 0x1000, ksclb := 0x1100, tc := true}) 5 2 {d := BitVec.ofNat 5 (1,2).1, s := BitVec.ofNat 5 (1,2).2, imm := 0} 0x1000)[3]? = some true := by
  decide +kernel
theorem witness_AccumulatorForms_5 :
    (hypsAccumulatorForms (mo (ac ((SS ++ S5)[0]'(by decide))) fun u => { u with kscla := 0x1000, ksclb := 0x1100, tc := true}) 5 2 {d := BitVec.ofNat 5 (2,2).1, s := BitVec.ofNat 5 (2,2).2, imm := 0x3f} 0x1000)[6]? = some true := by
  decide +kernel
end W14

namespace W15
def B := mkS 1 5 2
def mc (s : State) (f : Core → Core) : State := { s with mach := s.mach.modCore 5 f }
def A0 : Args := {d := 6, s := 12, t := 4}
def S0 := setX (setX (setX B 12 0x1000) 4 0x1100) 6 0x1200
def Q : Schur := { ts := 2, done := 5, ranges := [], writes := [], result := none, singular := none, ended := true }
def Qs := [Q, { Q with result := some 7 }, { Q with singular := some (3, 5) }, { Q with ts := 1 }, { Q with ended := false }]
def wr (s : State) (a : Nat) (w : Word) : State :=
  { s with mach := s.mach.modCore 5 fun k => { k with mem := Memory.pokes k.mem a (leBytes w.toNat 8) } }
def sl (s : State) (x n : Nat) : State := wr (wr s x (BitVec.ofNat 64 (n * 2^27 + 5))) (x+8) (BitVec.ofNat 64 (77 * 2^32))
def jr (s : State) (x : Nat) (f : List Nat) : State :=
  f.zipIdx.foldl (fun s v => { s with mach := s.mach.modCore 5 fun k => { k with mem := Memory.pokes k.mem (x + 16 + 4*v.2) (leBytes v.1 4) } }) (wr (wr s x 2) (x+8) 0)
def JJ (f : List Nat) := (setX (wr (jr S0 0x1000 f) 0x1200 0xffffffffffffffff) 4 1)
def fl (i : Nat) : Nat := 0x3f000000 + i % 0x1000
def jn (s : State) (x n : Nat) (dg : Nat) : State :=
  (List.range n).foldl (fun s i => { s with mach := s.mach.modCore 5 fun k => { k with mem := Memory.pokes k.mem (x + 16 + 4*(n + i*n - i*(i-1)/2)) (leBytes (dg + 0x10000*i) 4) } }) ((List.range (n + n*(n+1)/2)).foldl (fun s i => { s with mach := s.mach.modCore 5 fun k => { k with mem := Memory.pokes k.mem (x + 16 + 4*i) (leBytes (fl (x+i)) 4) } }) (wr (wr s x (BitVec.ofNat 64 n)) (x+8) 0))
def J2 (n nb dg : Nat) : State := setX (setX (jn (wr S0 0x1200 0xffffffffffffffff) 0x1000 n dg) 4 (BitVec.ofNat 64 nb)) 6 0x1200
def sm (s : State) (x n dg : Nat) : State := wr (wr (jn s x n dg) x (BitVec.ofNat 64 (n * 2^27 + 5))) (x+8) (BitVec.ofNat 64 (77 * 2^32))

theorem witness_SchurForms_1 :
    (hypsSchurForms (mc S0 fun k => { k with schur := some ((Qs)[0]'(by decide)) }) 5 2 A0 ((Qs)[0]'(by decide)) 7 (3,5))[0]? = some true := by
  decide +kernel
theorem witness_SchurForms_2 :
    (hypsSchurForms (mc S0 fun k => { k with schur := some ((Qs)[1]'(by decide)) }) 5 2 A0 ((Qs)[1]'(by decide)) 7 (3,5))[1]? = some true := by
  decide +kernel
theorem witness_SchurForms_3 :
    (hypsSchurForms (mc S0 fun k => { k with schur := some ((Qs)[2]'(by decide)) }) 5 2 A0 ((Qs)[2]'(by decide)) 7 (3,5))[2]? = some true := by
  decide +kernel
theorem witness_SchurForms_4 :
    (hypsSchurForms (mc S0 fun k => { k with schur := some ((Qs)[3]'(by decide)) }) 5 2 A0 ((Qs)[3]'(by decide)) 7 (3,5))[3]? = some true := by
  decide +kernel
theorem witness_SchurBegins_1 :
    (let l := hypsSchurBegins (sl (sl (sl S0 0x1000 1) 0x1100 1) 0x1200 1) 5 2 A0 1 3; [0, 1].all fun k => l[k]? == some true) = true := by
  decide +kernel
theorem witness_SchurBegins_2 : (hypsSchurBegins (sl (sl (sl S0 0x1000 3) 0x1100 1) 0x1200 1) 5 2 A0 1 3)[2]? = some true := by decide +kernel
theorem witness_SchurComplementOfTwo_1 :
    (hypsSchurComplementOfTwo (JJ [0x3f800000,0x40000000,0x40400000,0x3f000000,0x40000000]) 5 2 A0)[0]? = some true := by
  decide +kernel
theorem witness_SchurComplementOfTwo_2 :
    (hypsSchurComplementOfTwo (JJ [0x3f812345,0x40023400,0x40404567,0xbf012345,0x7f800000]) 5 2 A0)[1]? = some true := by
  decide +kernel
theorem witness_SchurComplement_1 :
    (hypsSchurComplement (J2 (2,1).1 (2,1).2 0x41000000) 5 2 A0 (2,1).1 (2,1).2 0)[0]? = some true := by
  decide +kernel
theorem witness_SchurComplement_2 :
    (hypsSchurComplement (J2 (2,1).1 (2,1).2 0x80000001) 5 2 A0 (2,1).1 (2,1).2 0)[1]? = some true := by
  decide +kernel
theorem witness_DampAndMean_1 :
    (let l := hypsDampAndMean (setX (sm (sm S0 0x1000 1 0x41000000) 0x1100 1 0x41000000) 6 (BitVec.ofNat 64 0x1200)) 5 2 A0 1 0; [0, 1].all fun k => l[k]? == some true) = true := by
  decide +kernel
theorem witness_DampAndMean_2 :
    (hypsDampAndMean (setX (sm (sm S0 0x1000 1 0x80000001) 0x1100 1 0x80000001) 6 (BitVec.ofNat 64 0x1200)) 5 2 A0 1 0)[2]? = some true := by
  decide +kernel
end W15

namespace W16
def B := mkS 1 5 2
def A0 : Args := {d := 6, s := 12, t := 4, imm := 3}
def hd (x y n cue : Nat) : Word := BitVec.ofNat 64 (x * 2^54 + y * 2^46 + n * 2^29 + cue)
def dl (s : State) : State := { s with mach := s.mach.post 5 2 6 (.store [(0x4000,5)]) none true }
def fullw (s : State) : State := (List.range 16).foldl (fun s _ => dl s) s
def SS (h p : Word) := [setX (setX B 6 h) 12 p, fullw (setX (setX B 6 h) 12 p), { setX (setX B 6 h) 12 p with mach := (setX (setX B 6 h) 12 p).mach.modMe fun u => {u with tc := true}}]
def cs (s : State) (b : Bool) : State :=
  { s with mach := s.mach.modPart 3 fun p => {p with casts := vset p.casts 3 { v := b, members := [5,6,20,9], lostAt := [6] } } }
def wr (s : State) (a : Nat) (w : Nat) : State := { s with mach := s.mach.modCore 5 fun k => { k with mem := Memory.pokes k.mem a (leBytes w 8) } }
def CW := [2^48*0x1230+2^47+2^39+5, 2^48*0x1230+2^40+2^39+1, 2^48*0x1230+2^40+2^39+2^38+2^37+1,2^48*0x1230+2^47+5,2^39, 2^39+2^33+4]
def sg (s : State) : State := { s with mach := s.mach.modCore 5 fun k => k.setSide 0x1000 { k.sideAt 0x1000 with ecc := .single } }
def CV := [2^48*0x1230+5, 2^48*0x1230+2^38+1, 2^48*0x1230, 2^48*0x1230+2^38, 2^38, 2^16+0x1230, 0x1230, 0x30000]

theorem witness_SendForms_1 :
    (let l := hypsSendForms ((SS (hd 20 0 129 0) 0x1000)[0]'(by decide)) 5 2 A0 20; [4, 5].all fun k => l[k]? == some true) = true := by
  decide +kernel
theorem witness_SendForms_2 : (hypsSendForms ((SS (hd 20 0 13 0) 0x1000)[0]'(by decide)) 5 2 A0 20)[0]? = some true := by decide +kernel
theorem witness_SendForms_3 : (hypsSendForms ((SS (hd 20 0 13 0) 0x1000)[1]'(by decide)) 5 2 A0 20)[1]? = some true := by decide +kernel
theorem witness_SendForms_4 : (hypsSendForms ((SS (hd 600 3 0 0) 0x1000)[0]'(by decide)) 5 2 A0 20)[2]? = some true := by decide +kernel
theorem witness_SendForms_5 : (hypsSendForms ((SS (hd 40 0 8 0) 0x1000)[0]'(by decide)) 5 2 A0 40)[3]? = some true := by decide +kernel
theorem witness_SendForms_6 : (hypsSendForms (setX (setX B 6 (hd 20 0 0 (2^43+0x59))) 12 0x1000) 5 2 A0 20)[6]? = some true := by decide +kernel
theorem witness_SendForms_7 : (hypsSendForms ((SS (hd 20 0 13 0) 0x1003)[0]'(by decide)) 5 2 A0 20)[7]? = some true := by decide +kernel
theorem witness_SendForms_8 : (hypsSendForms (setX (setX B 6 (hd 20 0 13 (2^43+0x58))) 12 0xfff8) 5 2 A0 20)[8]? = some true := by decide +kernel
theorem witness_SendcForms_1 :
    (hypsSendcForms (cs ((SS (hd 0 0 128 (2^43+0x58)) 0x1000)[0]'(by decide)) true) 5 2 A0)[0]? = some true := by
  decide +kernel
theorem witness_SendcForms_2 :
    (hypsSendcForms (cs ((SS (hd 0 0 128 (2^43+0x58)) 0x1000)[1]'(by decide)) true) 5 2 A0)[1]? = some true := by
  decide +kernel
theorem witness_SendcForms_3 :
    (hypsSendcForms (cs ((SS (hd 0 0 128 (2^43+0x58)) 0x1000)[0]'(by decide)) false) 5 2 A0)[2]? = some true := by
  decide +kernel
theorem witness_SendcForms_4 : (hypsSendcForms (cs ((SS (hd 0 0 129 0) 0x1000)[0]'(by decide)) true) 5 2 A0)[3]? = some true := by decide +kernel
theorem witness_SendcForms_5 : (hypsSendcForms (cs (setX (setX B 6 (hd 1 0 0 0)) 12 0x1000) true) 5 2 A0)[4]? = some true := by decide +kernel
theorem witness_CueDecrement_1 :
    (hypsCueDecrement (sg (setX (wr B 0x1000 ((CW)[0]'(by decide))) 12 0x1000)) 5 2 A0 0x1000 true)[0]? = some true := by
  decide +kernel
theorem witness_CueDecrement_2 :
    (hypsCueDecrement (sg (setX (wr B 0x1000 ((CW)[1]'(by decide))) 12 0x1000)) 5 2 A0 0x1000 false)[1]? = some true := by
  decide +kernel
theorem witness_CueDecrement_3 :
    (hypsCueDecrement (sg (setX (wr B 0x1000 ((CW)[3]'(by decide))) 12 0x1000)) 5 2 A0 0x1000 true)[2]? = some true := by
  decide +kernel
theorem witness_CueDecrement_4 :
    (hypsCueDecrement (setX (wr (id B) 0x1000 ((CW)[0]'(by decide))) 12 (ca 6 0x1000)) 5 2 A0 0x1000 true)[3]? = some true := by
  decide +kernel
theorem witness_CueForms_1 :
    (let l := hypsCueForms (setX (setX (wr (id B) 0x1000 (2^48*0x1230+2^47+2^39+5+2^38)) 12 (BitVec.ofNat 64 ((CV)[0]'(by decide)))) 6 0x1000) 5 2 A0 0x1000 true; [0, 6].all fun k => l[k]? == some true) = true := by
  decide +kernel
theorem witness_CueForms_2 :
    (hypsCueForms (setX (setX (wr (id B) 0x1000 (2^48*0x1230+2^47+2^39+5+2^38)) 12 (BitVec.ofNat 64 ((CV)[2]'(by decide)))) 6 0x1000) 5 2 A0 0x1000 false)[1]? = some true := by
  decide +kernel
theorem witness_CueForms_3 :
    (hypsCueForms (setX (setX (wr (id B) 0x1000 (2^48*0x1230+2^47+2^39+5+2^38)) 12 (BitVec.ofNat 64 ((CV)[2]'(by decide)))) 6 0x1000) 5 2 A0 0x1000 true)[2]? = some true := by
  decide +kernel
theorem witness_CueForms_4 :
    (hypsCueForms (setX (wr (B) 0x1000 (2^48*0x1230+2^47+2^39+5+2^38)) 12 0x1000) 5 2 A0 0x1000 true)[3]? = some true := by
  decide +kernel
theorem witness_CueForms_5 :
    (hypsCueForms (setX (wr (B) 0x1000 (2^48*0x1230+2^47+2^39+5+2^38)) 12 (ca 6 0x1000)) 5 2 A0 0x1000 true)[4]? = some true := by
  decide +kernel
theorem witness_CueForms_6 :
    (hypsCueForms (setX (setX (wr (id B) 0x1000 (2^48*0x1230+2^47+2^39+5+2^38)) 12 (BitVec.ofNat 64 ((CV)[5]'(by decide)))) 6 0x1000) 5 2 A0 0x1000 true)[5]? = some true := by
  decide +kernel
end W16

namespace W17
def B := mkS 1 5 2
def mc (s : State) (f : Core → Core) : State := { s with mach := s.mach.modCore 5 f }
def mo (s : State) (f : ThreadSet → ThreadSet) : State := { s with mach := s.mach.modMe f }
def A0 : Args := {d := 6, s := 12, t := 4, imm := 3}
def dl (s : State) : State := { s with mach := s.mach.post 5 2 6 (.store [(0x4000,5)]) none true }
def ctr (q i : Nat) : Word := BitVec.ofNat 64 (2^61 + (posOf q).1 * 2 ^ 32 + (posOf q).2 * 2 ^ 24 + 4 * i)
def mbs (s : State) : State := mc s fun k => { k with mb := Vector.ofFn fun i => BitVec.ofNat 32 (i+100) }
def wr (s : State) (a : Nat) (w : Nat) : State := { s with mach := s.mach.modCore 5 fun k => { k with mem := Memory.pokes k.mem a (leBytes w 8) } }
def cw (x0 y0 x1 y1 : Nat) : Word := BitVec.ofNat 64 (x0 + y0*2^10+x1*2^18+y1*2^28)
def ct (s : State) : State :=
  { s with mach := s.mach.modCtx 3 0 fun _ => {filled := true, x1 := 5, y1 := 0, phase := 4, excused := [0,1,2,3,4], timedOut := [(2, {cause := 0x20}, [5])] } }
def wt (s : State) (n : Nat) : State := mo s fun u => { u with wait := some { kind := .curtain 0 n, since := 3 } }
def hv (v : Nat) (b : Bool) : Word := let v := BitVec.ofNat 64 (3*2^16 + v); if b then v + BitVec.ofNat 64 ((({} : Cluster).check v) * 2^48) else v
def qs (n : Nat) (s : State) : State :=
  { s with mach := { s.mach with clusters := Map.set [] 1 { key := 0, queues := Map.set [] 5 { entries := (List.range n).map fun i => BitVec.ofNat 64 (i+3) } } } }
def fr (s : State) : State :=
  { s with mach := (List.range 14).foldl (fun m q => m.modCore (6+q) fun k => k.modTs 2 fun _ => { x := Vector.ofFn fun i => rnd (i+q) }) s.mach }
def ch (v : Word) : State :=
  let s := setX (fr B) 12 v; match exec (.chorus A0) s with | .next s => { s with mach := { s.mach with npc := 0x408 } } | _ => s
def rf (s : State) (x0 y0 x1 y1 : Nat) (ago : Nat) : State :=
  { s with mach := s.mach.modCtx 3 0 fun k => {k with refills := [(s.mach.clk - ago, x0, y0, x1, y1)]} }

theorem witness_MailboxForms_1 :
    (let l := hypsMailboxForms (setX (setX (setX (mbs (id B)) 6 (ctr 5 7)) 12 (ctr 5 7)) 4 0) 5 2 A0 7; [0, 2].all fun k => l[k]? == some true) = true := by
  decide +kernel
theorem witness_MailboxForms_2 :
    (hypsMailboxForms (setX (setX (setX (mbs (id B)) 6 (ctr 6 7)) 12 (ctr 5 7)) 4 0) 5 2 A0 7)[1]? = some true := by
  decide +kernel
theorem witness_MailboxForms_3 :
    (hypsMailboxForms (setX (setX (setX (mbs (id B)) 6 (ctr 5 7)) 12 106) 4 0) 5 2 A0 7)[3]? = some true := by
  decide +kernel
theorem witness_MailboxForms_4 :
    (hypsMailboxForms (setX (setX (setX (mbs (id B)) 6 (ctr 5 7)) 12 108) 4 0) 5 2 A0 7)[4]? = some true := by
  decide +kernel
theorem witness_MailboxForms_5 :
    (hypsMailboxForms (setX (setX (setX (mbs (id B)) 6 5) 12 (ctr 5 7)) 4 0) 5 2 A0 7)[5]? = some true := by
  decide +kernel
theorem witness_ReceiveRingForms_1 :
    (hypsReceiveRingForms (wr (wr B 0xD400 (0+7*256)) 0xD408 0) 5 2 { A0 with imm := 0})[0]? = some true := by
  decide +kernel
theorem witness_ReceiveRingForms_2 :
    (hypsReceiveRingForms (wr (wr B 0xD400 (0+7*256)) 0xD408 3) 5 2 { A0 with imm := 1})[1]? = some true := by
  decide +kernel
theorem witness_ReceiveRingForms_3 :
    (hypsReceiveRingForms (mc B fun k => { k with side := [(0xD400/8, { ecc := Ecc.double })] }) 5 2 { A0 with imm := 1 })[2]? = some true := by
  decide +kernel
theorem witness_CurtainForms_1 :
    (let l := hypsCurtainForms (id (ct (id (setX (mo B fun u => {u with priv := .user}) 12 (cw 0 0 31 11))))) 5 2 {A0 with d := 6} 2 3; [0, 4, 10].all fun k => l[k]? == some true) = true := by
  decide +kernel
theorem witness_CurtainForms_2 :
    (let l := hypsCurtainForms (id (id (id (setX B 12 (cw 0 0 31 11))))) 5 2 {A0 with d := 6} 3 3; [1, 9].all fun k => l[k]? == some true) = true := by
  decide +kernel
theorem witness_CurtainForms_3 :
    (hypsCurtainForms (rf (id (id (setX { B with mach := {B.mach with clk := 500}} 12 (cw 0 0 31 11)))) (0,0,31,11).1 (0,0,31,11).2.1 (0,0,31,11).2.2.1 (0,0,31,11).2.2.2 12) 5 2 {A0 with d := 6} 3 3)[2]? = some true := by
  decide +kernel
theorem witness_CurtainForms_4 : (hypsCurtainForms (id (ct (id (setX B 12 5)))) 5 2 {A0 with d := 6} 3 3)[3]? = some true := by decide +kernel
theorem witness_CurtainForms_5 :
    (hypsCurtainForms (id (ct ((wt · 3) (setX B 12 (cw 0 0 31 11))))) 5 2 {A0 with d := 6} 3 3)[5]? = some true := by
  decide +kernel
theorem witness_CurtainForms_6 :
    (hypsCurtainForms (id (ct ((wt · 4) (setX (mc B fun k => { k with casts := vset k.casts 3 (some 9) }) 12 (cw 0 0 31 11))))) 5 2 {A0 with d := 6} 4 3)[6]? = some true := by
  decide +kernel
theorem witness_CurtainForms_7 :
    (hypsCurtainForms (id (ct ((wt · 2) (setX (mo B fun u => {u with priv := .user}) 12 (cw 0 0 31 11))))) 5 2 {A0 with d := 6} 2 3)[7]? = some true := by
  decide +kernel
theorem witness_CurtainForms_8 :
    (hypsCurtainForms (id (ct (dl (setX (mo B fun u => {u with priv := .user}) 12 (cw 0 0 31 11))))) 5 2 {A0 with d := 6} 2 3)[8]? = some true := by
  decide +kernel
theorem witness_QueueForms_1 :
    (let l := hypsQueueForms (qs 0 (id (setX (setX B 4 0) 12 (hv (0x705 + 2^27) true)))) 5 2 A0; [2, 3].all fun k => l[k]? == some true) = true := by
  decide +kernel
theorem witness_QueueForms_2 :
    (hypsQueueForms (qs 0 (id (setX (setX B 4 9) 12 (hv (0x705 + 2^27) true)))) 5 2 A0)[0]? = some true := by
  decide +kernel
theorem witness_QueueForms_3 :
    (hypsQueueForms (qs 64 (id (setX (setX B 4 9) 12 (hv (0x705 + 2^27) true)))) 5 2 A0)[1]? = some true := by
  decide +kernel
theorem witness_QueueForms_4 :
    (hypsQueueForms (qs 0 (id (setX (setX B 4 9) 12 (hv (0x605 + 2^27) true)))) 5 2 A0)[4]? = some true := by
  decide +kernel
theorem witness_QueueForms_5 :
    (hypsQueueForms (qs 0 (id (setX (setX B 4 0) 12 (hv (0x105 + 2^27) true)))) 5 2 A0)[5]? = some true := by
  decide +kernel
theorem witness_QueueForms_6 :
    (hypsQueueForms (qs 0 (id (setX (setX B 4 0) 12 (hv (0x705 + 2^27*2) true)))) 5 2 A0)[6]? = some true := by
  decide +kernel
theorem witness_QueueForms_7 : (hypsQueueForms (qs 0 (id (setX (setX B 4 0) 12 0x705))) 5 2 A0)[7]? = some true := by decide +kernel
theorem witness_ChorusForms_1 :
    (let s := setX (fr B) 12 0x40; hypsChorusForms s 5 2 A0 (((List.range 16).filter fun i => (s.mach.me.xreg 12).getLsbD i).map fun i => i))[0]? = some true := by
  decide +kernel
theorem witness_ChorusForms_2 :
    (let s := setX (id B) 12 0x40; hypsChorusForms s 5 2 A0 (((List.range 16).filter fun i => (s.mach.me.xreg 12).getLsbD i).map fun i => i))[1]? = some true := by
  decide +kernel
theorem witness_ChorusForms_3 :
    (let s := setX (fr B) 12 0x20; hypsChorusForms s 5 2 A0 (((List.range 16).filter fun i => (s.mach.me.xreg 12).getLsbD i).map fun i => i))[2]? = some true := by
  decide +kernel
theorem witness_ChorusForms_4 :
    (let s := (ch 0x40); hypsChorusForms s 5 2 A0 (((List.range 16).filter fun i => (s.mach.me.xreg 12).getLsbD i).map fun i => i))[3]? = some true := by
  decide +kernel
theorem witness_ChorusWord_1 : (let s := (ch 0x40); hypsChorusWord s 5 2 A0 (5 :: s.mach.followersOf 5 2) 20)[0]? = some true := by decide +kernel
end W17

namespace W18
def hs : Core :=
  { ts := Vector.replicate 4 { busy := true, kvec := 0x2000, pc := 0x400, priv := .house, x := Vector.ofFn fun j => rnd (j+3) }, placed := true }
def B : State := { mach := { cores := [(5,kk 5),(73728, hs)], cur := .core 73728 1, npc := 0x404, clk := 1000, fusedCopy := [7] } }
def mo (s : State) (f : ThreadSet → ThreadSet) : State := { s with mach := s.mach.modMe f }
def A0 : Args := {d := 6, s := 12, t := 4, imm := 3}
def wr (s : State) (a : Nat) (w : Nat) : State :=
  { s with mach := s.mach.modCore 73728 fun k => { k with mem := Memory.pokes k.mem a (leBytes w 8) } }
def ps (st : PartState) (s : State) : State :=
  { s with mach := (s.mach.modPart 3 fun p => { p with st := st, w := 1, h := 1, report := [(5,3),(6,2^32)] }).modCore 5 fun k => { k with part := 3 } }
def wt (s : State) : State := mo s fun u => { u with wait := some { kind := .partition 3, since := 5 } }
def rec0 (s : State) (w h cx cy : Nat) : State := wr (wr s 0x1000 (cx*2^53+cy*2^49+w*2^43+h*2^39+20*2^34+100)) 0x1008 (7*2^48+3*2^32+5*2^16)
def R (s : State) := rec0 s 1 1 2 3
def PS := [id, ps .zeroing, ps .configured, ps .running, ps .suspended]
def sv (s : State) (i : Nat) (t : Nat) (p : Nat) : State :=
  { s with mach := (s.mach.putSlice i (BitVec.ofNat 64 t) (BitVec.ofNat 64 (2^63+p))).modPart 3 fun p => { p with launch := { p.launch with save := 4096 } } }
def RB := wr (setX (setX B 6 3) 12 0x1000) 0x1000 (4*2^56)

theorem witness_PartitionForms_1 :
    (let l := hypsPartitionForms (((PS)[0]'(by decide)) (wt (R (setX (setX B 6 3) 12 0x1000)))) 73728 1 A0 0x1000 5 5; [2, 7].all fun k => l[k]? == some true) = true := by
  decide +kernel
theorem witness_PartitionForms_2 :
    (hypsPartitionForms (mo B fun u => { u with priv := .supervisor}) 73728 1 A0 0x1000 5 5)[0]? = some true := by
  decide +kernel
theorem witness_PartitionForms_3 :
    (hypsPartitionForms (((PS)[0]'(by decide)) (id (R (setX (setX B 6 3) 12 0x1000)))) 73728 1 A0 0x1000 5 5)[1]? = some true := by
  decide +kernel
theorem witness_PartitionForms_4 :
    (hypsPartitionForms (((PS)[0]'(by decide)) (wt (R (setX (setX B 6 3) 12 0)))) 73728 1 A0 0x1000 5 5)[3]? = some true := by
  decide +kernel
theorem witness_PartitionForms_5 :
    (hypsPartitionForms (((PS)[1]'(by decide)) (wt (R (setX (setX B 6 3) 12 0x1000)))) 73728 1 A0 0x1000 5 5)[4]? = some true := by
  decide +kernel
theorem witness_PartitionForms_6 :
    (hypsPartitionForms (ps .configured (rec0 (setX (setX B 6 3) 12 0x1000) 0 1 2 3)) 73728 1 A0 0x1000 5 5)[5]? = some true := by
  decide +kernel
theorem witness_PartitionForms_7 :
    (hypsPartitionForms (((PS)[2]'(by decide)) (id (R (setX (setX B 6 3) 12 0)))) 73728 1 A0 0x1000 5 5)[6]? = some true := by
  decide +kernel
theorem witness_PartitionForms_8 :
    (hypsPartitionForms (((PS)[4]'(by decide)) (wt (R (setX (setX B 6 3) 12 0x1000)))) 73728 1 A0 0x1000 5 5)[8]? = some true := by
  decide +kernel
theorem witness_PartitionForms_9 :
    (hypsPartitionForms (((PS)[3]'(by decide)) (id (R (setX (setX B 6 3) 12 0x1000)))) 73728 1 A0 0x1000 5 5)[9]? = some true := by
  decide +kernel
theorem witness_PartitionRun_1 :
    (let l := hypsPartitionRun (((PS)[0]'(by decide)) (setX RB 12 0x1000)) 73728 1 A0 0x1000; [1, 2].all fun k => l[k]? == some true) = true := by
  decide +kernel
theorem witness_PartitionRun_2 : (hypsPartitionRun (((PS)[4]'(by decide)) (setX RB 12 0)) 73728 1 A0 0x1000)[0]? = some true := by decide +kernel
theorem witness_SliceAndKeyForms_1 :
    (let l := hypsSliceAndKeyForms (((PS)[0]'(by decide)) (id (setX (setX (setX (wr B 0x1008 77) 6 3) 12 0x200) 4 (BitVec.ofNat 64 0x1000)))) 73728 1 A0 0x1000 256; [1, 2].all fun k => l[k]? == some true) = true := by
  decide +kernel
theorem witness_SliceAndKeyForms_2 :
    (let l := hypsSliceAndKeyForms (((PS)[0]'(by decide)) (id (setX (setX (setX (wr B 0x1008 77) 6 3) 12 5) 4 (BitVec.ofNat 64 0x1000)))) 73728 1 A0 0x1000 5; [4, 5].all fun k => l[k]? == some true) = true := by
  decide +kernel
theorem witness_SliceAndKeyForms_3 :
    (hypsSliceAndKeyForms (((PS)[0]'(by decide)) (id (setX (setX (setX (wr B 0x1008 77) 6 3) 12 0x200) 4 (BitVec.ofNat 64 (2^63+3))))) 73728 1 A0 0x1000 256)[0]? = some true := by
  decide +kernel
theorem witness_SliceAndKeyForms_4 :
    (hypsSliceAndKeyForms (((PS)[0]'(by decide)) ((fun s => sv (sv s 3 500 3) 5 400 3) (setX (setX (setX (wr B 0x1008 77) 6 3) 12 0x200) 4 (BitVec.ofNat 64 0x1000)))) 73728 1 A0 0x1000 256)[3]? = some true := by
  decide +kernel
theorem witness_SliceAndKeyForms_5 :
    (hypsSliceAndKeyForms (((PS)[3]'(by decide)) (id (setX (setX (setX (wr B 0x1008 77) 6 3) 12 0x200) 4 (BitVec.ofNat 64 0x1000)))) 73728 1 A0 0x1000 256)[6]? = some true := by
  decide +kernel
end W18

namespace W19
def B := mkS 1 5 2
def mc (s : State) (f : Core → Core) : State := { s with mach := s.mach.modCore 5 f }
def mth (s : State) (t : Nat) (f : ThreadSet → ThreadSet) : State := mc s (·.modTs t f)
def fr (s : State) : State := mth s 2 fun u => { u with busy := false }
def pu (s : State) (ring : Bool) (e : Word) : State := mc s (·.rawPush ring e)
def wr (a w : Nat) (s : State) : State := { s with mach := s.mach.modCore 5 fun k => { k with mem := Memory.pokes k.mem a (leBytes w 8) } }
def pool (s : State) := mc s fun k => { k with poolFirst := 0x4000, poolLast := 0x7fff, poolUsed := [0x100,0x101] }
def disp (s : State) := mc (mth s 2 fun u => { u with d := #v[1,2,3,4,5,6,7,8] }) fun k => { k with bases := #v[1,2,3] }
def rc (w0 : Nat) (s : State) : State := (List.range 16).foldl (fun s j => wr (0xA000 + 128*3+8*j) (if j = 0 then w0 else (rnd (j+700)).toNat) s) s
def ev (r : FaultRec) (rs : List FaultRec) (s : State) := mc s fun k => { k with events := r :: rs }

theorem witness_EntriesAreTaken_1 :
    (let s := pool (disp (wr 0x2008 0 (wr (0x2000/16*16) (0x50000+0x404) (pu (fr B) true (wd (0x3450000+0x2000)))))); hypsEntriesAreTaken s 5 2 0x2000 0 0x4080 6 0x4088 true (wd (0x3450000+0x2000)) {} [])[0]? = some true := by
  decide +kernel
theorem witness_EntriesAreTaken_2 :
    (let s := pool (disp (wr 0x2008 0 (wr (0x2008/16*16) (0x50000+0x404) (pu (fr B) true (wd (0x3450000+0x2008)))))); hypsEntriesAreTaken s 5 2 0x2008 0 0x4080 6 0x4088 true (wd (0x3450000+0x2008)) {} [])[1]? = some true := by
  decide +kernel
theorem witness_EntriesAreTaken_3 :
    (let e := wd (1*2^62+0xA000+128*3); hypsEntriesAreTaken (mth (rc 0x404 (pu (fr B) true e)) 2 fun u => { u with kvec := 0 }) 5 2 1 3 0 6 7 true e {} [])[2]? = some true := by
  decide +kernel
theorem witness_EntriesAreTaken_4 :
    (let e := wd (2*2^62+0xA000+128*3); hypsEntriesAreTaken (mth (rc 0x404 (pu (fr B) true e)) 2 fun u => { u with kvec := 0x2000 }) 5 2 1 3 0 6 7 true e {} [])[3]? = some true := by
  decide +kernel
theorem witness_EntriesAreTaken_5 :
    (let s := ev {cause := 3, addr := 9} [{cause := 4}] (pool (disp (fr B))); let s := mth (mth s 0 fun u => { u with sup := true, busy := false }) 0 fun u => { u with kvec := 0x2000 }; hypsEntriesAreTaken s 5 2 1 3 0x4080 6 0x4088 false 0 {cause := 3, addr := 9} [{cause := 4}])[4]? = some true := by
  decide +kernel
theorem witness_EntriesAreTaken_6 :
    (let s := ev {cause := 3, addr := 9} [{cause := 4}] (pool (disp (fr B))); let s := mth (mth s 0 fun u => { u with sup := true, busy := false }) 0 fun u => { u with kvec := 0 }; hypsEntriesAreTaken s 5 2 1 3 0x4080 6 0x4088 false 0 {cause := 3, addr := 9} [{cause := 4}])[5]? = some true := by
  decide +kernel
theorem witness_EntriesAreTaken_7 :
    (let s := mth B 2 fun u => { u with pend := [{cause := 3, addr := 9}, {cause := 4}], kvec := 0x2000, priv := if 0 = 0 then .user else .house } ; hypsEntriesAreTaken s 5 2 1 3 0x4080 6 0x4088 false 0 {cause := 3, addr := 9} [{cause := 4}])[6]? = some true := by
  decide +kernel
end W19

namespace W20
def P (s : State) (dst : Nat) (b : Payload) (f : Phase) : State :=
  let s := { s with mach := s.mach.post 5 2 dst b none true }; { s with mach := { s.mach with net := s.mach.net.map fun d => { d with phase := f } } }
def B := mkS 1 5 2
def D (s : State) : Delivery :=
  s.mach.net.headD {id := 0, src := 0, ts := 0, cid := 0, pc := 0, dst := 0, part := 0, body := .inc 0 0, phase := .held, win := none}
def run (s : State) (off x : Nat) (val : Word) (n : Byte) (body : List Byte) (due : Nat) (r : FaultRec) (w1 : Word :=
  5) : List Bool := hypsDeliveriesAreReceived s 0 off x 6 val val w1 n 1 2 (val ++ val) body 77 due (D s) none r
def mc (s : State) (c : Nat) (f : Core → Core) : State := { s with mach := s.mach.modCore c f }
def wr (a w : Nat) (s : State) : State := mc s 6 fun k => { k with mem := Memory.pokes k.mem a (leBytes w 8) }
def sd (s : State) (a : Nat) (v : Byte) (r : Bool) := mc s 6 fun k => { k with side := Map.put k.side {} (a/8) { ver := v, rcl := r } }

theorem witness_DeliveriesAreReceived_1 :
    (run (P B 6 (.store (cellsAt 0x1000 (leBytes (rnd 9).toNat 8))) (.flying 1000)) 0x1000 (0x1000+0) (rnd 9) 6 [] 1000 {})[0]? = some true := by
  decide +kernel
theorem witness_DeliveriesAreReceived_2 :
    (run (P B 6 (.store (cellsAt 0xC000 (leBytes (rnd 9).toNat 8))) (.flying 1000)) 0xC000 (0xC000+0) (rnd 9) 6 [] 1000 {})[1]? = some true := by
  decide +kernel
theorem witness_DeliveriesAreReceived_3 :
    (run (sd (P B 6 (.stv 0x1010 (rnd 9) 4) (.flying 1000)) 0x1010 3 true) 0x1010 (0x1010+0) (rnd 9) 4 [] 1000 {})[2]? = some true := by
  decide +kernel
theorem witness_DeliveriesAreReceived_4 :
    (run (sd (P B 6 (.stv 0x1010 (rnd 9) 0) (.flying 1000)) 0x1010 3 true) 0x1010 (0x1010+0) (rnd 9) 0 [] 1000 {})[3]? = some true := by
  decide +kernel
theorem witness_DeliveriesAreReceived_5 :
    (run (wr 0x1010 (2^39+5+2^48*77) (P B 6 (.cue 0x1010 false none) (.flying 1000))) 0x1010 (0x1010+0) (rnd 9) 4 [] 1000 {})[4]? = some true := by
  decide +kernel
theorem witness_DeliveriesAreReceived_6 :
    (run (wr 0x1010 (2^39+1) (P B 6 (.cue 0x1010 false none) (.flying 1000))) 0x1010 (0x1010+0) (rnd 9) 4 [] 1000 {})[5]? = some true := by
  decide +kernel
theorem witness_DeliveriesAreReceived_7 :
    (run (wr 0xD408 0 (wr 0xD400 (7*256+0) (P B 6 (.msg (wd (2^44)) 5 []) (.flying 3)))) 0x4000 (0xD410+144*0+0) (wd (2^44)) 4 [] 1000 {})[6]? = some true := by
  decide +kernel
theorem witness_DeliveriesAreReceived_8 : (run (P B 6 (.inc 3 77) .held) 3 5 0 4 [] 1000 {})[7]? = some true := by decide +kernel
theorem witness_DeliveriesAreReceived_9 :
    (run (P B 6 (.store (cellsAt 0x4000 (leBytes 5 8))) (.accepting 1000 none)) 0x4000 5 5 4 [] 1000 {cause := 4, addr := 7})[8]? = some true := by
  decide +kernel
theorem witness_DeliveriesAreReceived_10 :
    (run (P (mc B 5 fun k => k.modTs 2 fun u => { u with cid := 99 }) 6 (.store (cellsAt 0x4000 (leBytes 5 8))) (.accepting 1000 (some {cause := 4, addr := 7}))) 0x4000 5 5 4 [] 1000 {cause := 4, addr := 7})[9]? = some true := by
  decide +kernel
theorem witness_DeliveriesAreReceived_11 :
    (run (P B 6 (.store (cellsAt 0x4000 (leBytes 5 8))) (.refusing 1000)) 0x4000 5 5 4 [] 1000 {cause := 4, addr := 7})[10]? = some true := by
  decide +kernel
theorem witness_DeliveriesAreReceived_12 :
    (run (P B 6 (.store (cellsAt 0x4000 (leBytes 5 8))) (.backoff 1000)) 0x4000 5 5 4 [] 1000 {cause := 4, addr := 7})[11]? = some true := by
  decide +kernel
theorem witness_DeliveriesAreReceived_13 :
    (run (P B 6 (.element 1 2 ((7:Word)++(7:Word))) (.flying 1000)) 0x4000 5 7 4 [] 1000 {})[12]? = some true := by
  decide +kernel
end W20

namespace W21
def B := mkS 1 5 2
def P (s : State) (b : Payload) (f : Phase) : State :=
  let s := { s with mach := s.mach.post 5 2 5 b none true }; { s with mach := { s.mach with net := s.mach.net.map fun d => { d with phase := f } } }
def mc (s : State) (f : Core → Core) : State := { s with mach := s.mach.modCore 5 f }
def mth (s : State) (t : Nat) (f : ThreadSet → ThreadSet) : State := mc s (·.modTs t f)
def wr (a : Nat) (w : Word) (s : State) : State := mc s fun k => { k with mem := Memory.pokes k.mem a (leBytes w.toNat 8) }
def run (s : State) (i since limit off due : Nat) (n : Byte) (target : BitVec 32) (mask : BitVec 16) (r : FaultRec :=
  {}) (t : Nat := 2) : List Bool := hypsWaitsEnd s 5 t i 0 since limit off due 6 n target mask r
def rec (s : State) (i : Nat) (st : RecState) (w0 arg : Word) (dl : Option Nat :=
  none) : State := wr (0xA000+128*i) w0 (wr (0xA000+128*i+56) arg (mc s fun k => k.modRec i fun _ => { st := st, deadline := dl }))
def wt (s : State) (k : WaitKind) (n : Nat) : State := mth s 2 fun u => { u with wait := some { kind := k, since := n } }
def full (s : State) : State := mc s fun k => { k with recTab := Vector.replicate 64 { st := .parked } }
def ct (s : State) (j : Nat) (k : Curtain) : State := { s with mach := s.mach.modCtx 3 j fun _ => k }

theorem witness_WaitsEnd_1 :
    (run (mc (rec B 3 RecState.parked (wd (1*2^60+0x404)) (wd (0x1000+4*2^16)) ) fun k => { k with seg := Vector.replicate 16 { st := SegState.empty } }) 3 1 1 1 1 1 1 1)[0]? = some true := by
  decide +kernel
theorem witness_WaitsEnd_2 :
    (run (mc (rec B 3 RecState.parked (wd (3*2^60+0x404)) (wd (0x1000+4*2^16)) ) fun k => { k with seg := Vector.replicate 16 { st := .valid } }) 3 1 1 1 1 1 1 1)[1]? = some true := by
  decide +kernel
theorem witness_WaitsEnd_3 :
    (run (P (rec B 3 RecState.parked (wd (0x404+2^21)) 0) (.wake { core := 5, idx := 3, stall := false } none) (.flying 5)) 3 1 1 1 5 1 1 1 {cause := 3, addr := 77})[2]? = some true := by
  decide +kernel
theorem witness_WaitsEnd_4 :
    (run (mc (rec B 3 RecState.parked (wd (3*2^60+0x404)) (wd (0x1000+4*2^16)) ) fun k => { k with seg := Vector.replicate 16 { st := SegState.empty } }) 3 1 1 1 1 1 1 1)[3]? = some true := by
  decide +kernel
theorem witness_WaitsEnd_5 :
    (run (P (rec B 3 RecState.parked (wd (0x404+2^21)) 0) (.wake { core := 5, idx := 3, stall := false } (some ({cause := 3, addr := 77} : FaultRec))) (.flying 5)) 3 1 1 1 5 1 1 1 {cause := 3, addr := 77})[4]? = some true := by
  decide +kernel
theorem witness_WaitsEnd_6 : (run (wt (id B) (.version 0x1000 6) (1000001-64)) 0 (1000001-64) 1 0x1000 1 6 1 1)[5]? = some true := by decide +kernel
theorem witness_WaitsEnd_7 : (run (wt (full B) (.version 0x1000 6) (1000001-64)) 0 (1000001-64) 1 0x1000 1 6 1 1)[6]? = some true := by decide +kernel
theorem witness_WaitsEnd_8 :
    (run (rec B 3 RecState.parked 0 0 (some 1000001)) 3 1 1 1 ((some 1000001).getD 0) 1 1 1)[7]? = some true := by
  decide +kernel
theorem witness_WaitsEnd_9 :
    (run (mth (wt (mc B fun k => { k with mb := Vector.replicate 64 100 }) (.counter 7 101 500000) 500000) 2 fun u => {u with kvec := 0x2000}) 7 500000 500000 1 1 1 101 1)[8]? = some true := by
  decide +kernel
theorem witness_WaitsEnd_10 : (run (wt B (.chorus 0x40) (1000001-65537)) 7 (1000001-65537) 1 1 1 1 1 0x40)[9]? = some true := by decide +kernel
theorem witness_WaitsEnd_11 :
    (run (ct B 0 { filled := true, x1 := 3, release := (some 1000001), first := none, phase := 4, timedOut := [(1,{},[3])]}) 3 (none.getD 0) 1 1 ((some 1000001).getD 0) 1 1 1 {} 0)[10]? = some true := by
  decide +kernel
theorem witness_WaitsEnd_12 :
    (let s := (ct B 0 { filled := true, x1 := 3, release := none, first := (some (1000001-2^20)), phase := 4, timedOut := [(1,{},[3])]}); run { s with mach := { s.mach with clk := s.mach.clk + 2^20} } 3 ((some (1000001-2^20)).getD 0) 1 1 (none.getD 0) 1 1 1 {} 0)[11]? = some true := by
  decide +kernel
end W21

namespace W22
def B0 := mkS 1 5 2
def W0 : Window := { v := true, cnt := 16, base := 0, size := 64, first := 0 }
def B : State :=
  { B0 with mach := (B0.mach.modPart 3 fun p => { p with quota := 100, share := 60000, hbmpg := 100, windows := vset p.windows 0 W0 }) }
def d0 : Delivery := { id := 0, src := 5, ts := 2, cid := 7, pc := 0x400, dst := 100002, part := 3, body := .inc 0 0, phase := .held, win := some 0 }
def r0 : FarReq :=
  { addr := 2^62+0x2010, win := 0, off := 0x10, size := 8, data := none, core := 5, ts := 2, tgt := none, tag := none, part := 3, kclk := 777 }
def v0 : Move := { id := 9, part := 3, kind := .copy 5 1 0x2000, addr := 2^62+0x2010, win := 0, off := 0x10, len := 32 }
def w0 : Wing := { addr := 2^62+0x2010, kclk := 777, who := { core := 5, idx := 4, stall := false }, part := 3 }
def b0 : Blk := { part := 3, win := 0, blk := 2, size := 4096, off := 0 }
def y0 : Xlat := { part := 3, win := 0, page := 0, hbm := 0x30000, wr := true }
def run0 : StageRun := { core := 5, job := 44, dst := 0, len := 16, entry := 0, arg0 := 0, arg1 := 0, started := 5 }
def hm (s : State) (f : Stagehand → Stagehand) : State := { s with mach := s.mach.modHand 2 f }
def run (s : State) (b : Blk) (off : Nat :=
  500) (i : Nat := 0) (w : Wing := w0) (y : Xlat := y0) (f : Byte := 0x12) (d : Delivery := d0) (r : FarReq := r0) (v : Move := v0) (addr : Word := 0) (data : Word := 0x1234567890abcdef) (ans : FarAns := .absent) : List Bool := hypsStagehandsServe s 2 3 0 i 5 2 off b w y f d r v addr data run0 [] ans
def en (s : State) (b : Blk) : State :=
  hm s fun h => { h with board := [(0, b)], cache := [y0], keys := [(3, 77)], zeroKey := [(3, 77)], hbm := [(0x30007, 3), (0x30fff, 5)], pageKey := [(3, 77)] }
def bw : Blk := { b0 with wings := [w0], first := 777 }
def cc (s : State) (n : Nat) : State := { s with mach := { s.mach with clk := n } }
def ds (s : State) (b : Blk) : State :=
  hm s fun h => { h with dir := [b], cache := [y0], keys := [(3, 77)], zeroKey := [(3, 77)], pageKey := [(3, 77)] }
def nt (s : State) (d : Delivery) : State := { s with mach := { s.mach with net := [d] } }
def mth (s : State) (f : ThreadSet → ThreadSet) : State := { s with mach := s.mach.modCore 5 (·.modTs 2 f) }

theorem witness_StagehandsServe_1 : (run (hm (en B bw) fun h => { h with chanFree := 0 }) bw)[0]? = some true := by decide +kernel
theorem witness_StagehandsServe_2 :
    (let b := { bw with st := BlkState.fetching, due := (some 1000001), fault := none, hbm := 0x30000 }; run (en B b) b)[1]? = some true := by
  decide +kernel
theorem witness_StagehandsServe_3 :
    (let b := { bw with st := BlkState.fetching, due := (some 1000001), fault := (some (0x12 : Byte)), hbm := 0x30000 }; run (en B b) b)[2]? = some true := by
  decide +kernel
theorem witness_StagehandsServe_4 :
    (let b : Blk := { b0 with st := BlkState.draining, due := (some 1000001), hbm := 0x30000, pins := [({ who := none, expires := 1000001 } : Pin), { who := none, expires := 1000002 }], data := [(3,4)], key := 77 }; run (ds B b) b)[3]? = some true := by
  decide +kernel
theorem witness_StagehandsServe_5 :
    (let b : Blk := { b0 with st := .evicting, due := (some 1000001), hbm := 0x30000, pins := [], data := [(3,4)], key := 77 }; run (ds B b) b)[4]? = some true := by
  decide +kernel
theorem witness_StagehandsServe_6 :
    (let b : Blk := { b0 with st := BlkState.draining, due := none, hbm := 0x30000, pins := [({ who := none, expires := 1000001 } : Pin), { who := none, expires := 1000002 }], data := [(3,4)], key := 77 }; run (ds B b) b)[5]? = some true := by
  decide +kernel
theorem witness_StagehandsServe_7 :
    (let b : Blk := { b0 with st := BlkState.draining, hbm := 0x30000, pins := [{ who := none, expires := 1000002 }], data := [(3,4),(0x10,5)], key := 77 }; let r : FarReq := { r0 with tgt := none }; let d : Delivery := { d0 with body := (Payload.far r), phase := .flying 500 }; run (id (nt (ds B b) d)) b (d := d) (r := r))[6]? = some true := by
  decide +kernel
theorem witness_StagehandsServe_8 :
    (let b : Blk := { b0 with st := BlkState.draining, hbm := 0x30000, pins := [{ who := none, expires := 1000002 }], data := [(3,4),(0x10,5)], key := 77 }; let r : FarReq := { r0 with tgt := none }; let d : Delivery := { d0 with body := (Payload.far r), phase := .flying 500 }; run ((fun s => hm s fun h => { h with dir := [] }) (nt (ds B b) d)) b (d := d) (r := r))[7]? = some true := by
  decide +kernel
theorem witness_StagehandsServe_9 :
    (let b : Blk := { b0 with st := BlkState.draining, hbm := 0x30000, pins := [{ who := none, expires := 1000002 }], data := [(3,4),(0x10,5)], key := 77 }; let r : FarReq := { r0 with tgt := (some w0.who) }; let d : Delivery := { d0 with body := (Payload.far r), phase := .flying 500 }; run ((fun s => hm s fun h => { h with dir := [] }) (nt (ds B b) d)) b (d := d) (r := r))[8]? = some true := by
  decide +kernel
theorem witness_StagehandsServe_10 :
    (let b : Blk := { b0 with st := BlkState.draining, hbm := 0x30000, pins := [{ who := none, expires := 1000002 }], data := [(3,4),(0x10,5)], key := 77 }; let r : FarReq := { r0 with tgt := none }; let d : Delivery := { d0 with body := (.move v0), phase := .flying 500 }; run ((fun s => hm s fun h => { h with dir := [] }) (nt (ds B b) d)) b (d := d) (r := r))[9]? = some true := by
  decide +kernel
theorem witness_StagehandsServe_11 :
    (let r : FarReq := { r0 with tgt := none }; let d : Delivery := { d0 with body := .far r, phase := .answering 500 (.served [1,2]) }; run (nt (mth B fun u => { u with far := .asked 0 }) d) b0 (d := d) (r := r) (i := 4) (ans := (.served [1,2])))[10]? = some true := by
  decide +kernel
theorem witness_StagehandsServe_12 :
    (let r : FarReq := { r0 with tgt := (some w0.who) }; let d : Delivery := { d0 with body := .far r, phase := .answering 500 FarAns.absent }; run (nt (mth B fun u => { u with far := .asked 0 }) d) b0 (d := d) (r := r) (i := 4) (ans := FarAns.absent))[11]? = some true := by
  decide +kernel
theorem witness_StagehandsServe_13 :
    (run (hm B fun h => { h with cache := [y0], tables := [(3,[(1,2),(9,4)]),(4,[(1,2)])] }) b0 (off := 0) (addr := wd (15 * 2 ^ 60 + 2 * 2 ^ 56 + 2 * 2 ^ 40 + 2 ^ 36 + 0)))[12]? = some true := by
  decide +kernel
theorem witness_StagehandsServe_14 :
    (run (cc { B with mach := (B.mach.modCore 5 fun k => { k with jobs := [{ uid := 44, num := 3, off := 0, card := [], ts := 2, cid := 7, pc := 3 }, { uid := 45, num := 3, off := 0, card := [], ts := 2, cid := 7, pc := 3 }]}).modUnit 2 3 fun u => { u with cards := [run0], ts := { busy := true, pc := 0x66 } } } (2^24+5)) b0)[13]? = some true := by
  decide +kernel
end W22

namespace W23
def B := mkS 1 5 2
def mc (s : State) (f : Core → Core) : State := { s with mach := s.mach.modCore 5 f }
def mth (s : State) (f : ThreadSet → ThreadSet) : State := mc s (·.modTs 2 f)
def d0 : Delivery := { id := 0, src := 100002, ts := 2, cid := 7, pc := 0x400, dst := 5, part := 3, body := .inc 0 0, phase := .held, win := some 0 }
def v0 : Move := { id := 9, part := 3, kind := .copy 5 1 0x2000, addr := 2^62+0x2010, win := 0, off := 0x10, len := 32 }
def j0 : Job := { uid := 44, num := 3, off := 0, card := [], ts := 2, cid := 7, pc := 3 }
def r0 : CastRound := { cast := 3, n := 0 }
def run (s : State) (i : Nat) (ea : Nat :=
  0) (due : Nat := 5) (q : Nat := 6) (x : Nat := 0) (n : Nat := 3) (j : Job := j0) (d : Delivery := d0) (bs : List Byte := []) (v : Move := v0) (f : Byte := 0x12) (r : CastRound := r0) (e : V128 := 0x123456789abcdef0123456789) (id : Nat := 0) : List Bool := hypsEnginesWork s 5 2 i id ea due q x n j d bs v f r e
def sl (s : State) (i : Nat) (kind : Nat) (dir : Bool) (fifo : List V128) (moved : Nat) (s0 : Nat :=
  8) : State := mth s fun u => { u with sd := vset u.sd i { bnd := true, w0 := wd (kind + (if dir then 256 else 0) + 8 * 512 + 0x1000 * 2^16), w1 := wd (4 + 3*2^16 + 2^32), w2 := wd (s0 + 0x100 * 2^16), fifo := fifo, moved := moved } }
def nt (s : State) (d : Delivery) : State := { s with mach := { s.mach with net := [d] } }
def chn (s : State) (flt : Bool) : State :=
  mc s fun k => { k with chan := vset k.chan 1 { base := 0x2000, limit := 0x2040, wm := 0x2010, busy := true, left := 0x30, ts := 2, cid := 7, flt := flt } }
def cids (s : State) : State := mc s fun k => { k with ts := Vector.ofFn fun i => { vget k.ts {} i.val with cid := 7 - (2 - i.val) } }
def jb (s : State) (j : Job) : State := mc s fun k => { k with jobs := [j] }
def cd (a b n : Nat) (w : Nat := 0) : List Word := [wd w,0,0,0,0, wd (a + b*2^16+n*2^32)]
def rn (s : State) (r : CastRound) (mem : List Nat) : State :=
  { s with mach := { (s.mach.modPart 3 fun p => { p with rounds := [r], casts := vset p.casts 3 { v := true, rx := 5, ry := 0, members := mem } }) with routers := [(5, { tree := [(0, 0xE000),(3, 0xE000)] })], clk := 2^21 } }

theorem witness_EnginesWork_1 :
    (let l := let r := { r0 with joined := [5], form := some (0,1), first := some 5, parts := [{ core := 5, job := 44, op := 0, src := [wd 77], num := j0.num, ts := j0.ts, cid := j0.cid, pc := j0.pc }] }; run (rn (jb B j0) r [5]) 0 (r := r) (x := 77); [5, 10].all fun k => l[k]? == some true) = true := by
  decide +kernel
theorem witness_EnginesWork_2 :
    (let ea := 0x1000 + 0 % 4 * 8 + 0 / 4 % 3 * 0x100; run (sl B 3 0 false [] 0 8) 3 (ea := ea) (x := ea + 0))[0]? = some true := by
  decide +kernel
theorem witness_EnginesWork_3 :
    (let ea := 0x1000 + 0 % 4 * 8 + 0 / 4 % 3 * 0x100; run (sl B 3 1 true [0x123456789abcdef0123456789] 0 8) 3 (ea := ea) (x := ea + 0))[1]? = some true := by
  decide +kernel
theorem witness_EnginesWork_4 : (run (sl B 3 8 true [0x123456789abcdef0123456789] 0) 3 (q := 6))[2]? = some true := by decide +kernel
theorem witness_EnginesWork_5 :
    (let v := { v0 with kind := .copy 5 1 0x2010 }; let bs := (List.range 16).map fun i => BitVec.ofNat 8 (i+7); let d := {d0 with body := .push v bs, phase := .flying 5}; run (nt (chn B false) d) 1 0x2010 (x := 0x2010 + 0) (d := d) (bs := bs) (v := v))[3]? = some true := by
  decide +kernel
theorem witness_EnginesWork_6 :
    (let v := v0; let d := {d0 with body := .moveFault v 0x12, phase := .flying 5}; run (nt (chn (cids B) false) d) 1 0x2000 (d := d) (v := v))[4]? = some true := by
  decide +kernel
theorem witness_EnginesWork_7 :
    (let j := { j0 with phase := (.running (some 5)), card := cd 0x1000 0x4000 16 0 }; run (jb B j) 1 0x4000 (x := 0x4000 + 0) (n := 16) (j := j))[6]? = some true := by
  decide +kernel
theorem witness_EnginesWork_8 :
    (let j := { j0 with phase := (.faulted 0x12 0 0 0 0), card := cd 0x1000 0x4000 16 0 }; run (jb (cids B) j) 1 0x4000 (x := 0x4000 + 0) (n := 16) (j := j))[7]? = some true := by
  decide +kernel
theorem witness_EnginesWork_9 :
    (let v := { v0 with kind := .fetch 5 3 false, len := 16 }; let bs := (List.range 16).map fun i => BitVec.ofNat 8 (i+7); run (nt B {d0 with body := .push v bs, phase := .flying 5}) 3 0 (x := 0) (d := {d0 with body := .push v bs, phase := .flying 5}) (bs := bs) (v := v) (f := 0x12))[8]? = some true := by
  decide +kernel
theorem witness_EnginesWork_10 :
    (let v := { v0 with kind := .fetch 5 3 true, len := 16 }; let bs := (List.range 16).map fun i => BitVec.ofNat 8 (i+7); run (nt B {d0 with body := .moveFault v 0x12, phase := .flying 5}) 3 0 (x := 0) (d := {d0 with body := .moveFault v 0x12, phase := .flying 5}) (bs := bs) (v := v) (f := 0x12))[9]? = some true := by
  decide +kernel
theorem witness_EnginesWork_11 :
    (let r := { r0 with joined := [5], form := some (0,1), first := some 5, parts := [{ core := 5, job := 44, op := 0, src := [wd 77], num := j0.num, ts := j0.ts, cid := j0.cid, pc := j0.pc }] }; run (rn (jb B j0) r [5,6]) 0 (r := r) (x := 77))[11]? = some true := by
  decide +kernel
end W23

namespace W24
def B0 := mkS 1 5 2
def B : State := { B0 with mach := { B0.mach with fusedCopy := [7,0,1,2,3,4,8,9,10,11,12,13,14,15] } }
def mc (s : State) (c : Nat) (f : Core → Core) : State := { s with mach := s.mach.modCore c f }
def cids (s : State) : State := mc s 5 fun k => { k with ts := Vector.ofFn fun i => { vget k.ts {} i.val with cid := 7 - (2 - i.val) } }
def o0 : MatOp := { acc := 1, gang := false, a := 0x1000, b := 0x3000, sample := {}, ts := 2, cid := 7, pc := 0x404, uid := 9 }
def z0 : Schur := { ts := 2, done := 5, ranges := [], writes := [(0x1000,3),(0x5001,4)], result := none, singular := none }
def r0 : Round := { row := 0, pair := false, first := 5, arrived := [5] }
def run (s : State) (o : MatOp) (q : Nat := 6) (i : Nat := 3) (j : Nat := 5) (cyc : Nat := 5) (r : Round := r0) (tile : List (BitVec 32) := []) (z : Schur := z0) (cut : Byte := 3) (lane : Byte := 4) : List Bool := hypsMatrixOperationsRun s 5 2 q 0 i j cyc false o r tile z cut lane
def mem (s : State) : State :=
  mc s 5 fun k => { k with mem := (List.range 6000).map (fun i => (0x1000 + 2*i, ((rnd i).setWidth 8) ||| 1)), acc := vset k.acc 1 (Vector.ofFn fun i => BitVec.ofNat 32 (i.val * 1000003)) }
def mat (s : State) (o : MatOp) : State := mc s 5 fun k => { k with mat := [o] }
def both (s : State) (o : MatOp) (r : Round) : State :=
  let s := mc (mat s o) 6 fun k => { k with mat := [{o with uid := 10}] }; { s with mach := { s.mach with rounds := [r] } }

theorem witness_MatrixOperationsRun_1 :
    (let o := { o0 with sample := { fmta := 0, fmtb := 0 } }; run (mc (mat (mem B) o) 5 fun k => { k with fence := 0 }) o)[0]? = some true := by
  decide +kernel
theorem witness_MatrixOperationsRun_2 :
    (let tl := (List.range 128).map fun i => BitVec.ofNat 32 (i+7); let o := { o0 with phase := .running 5 tl }; run (mat B o) o 0 (cyc := 5) (tile := tl))[1]? = some true := by
  decide +kernel
theorem witness_MatrixOperationsRun_3 :
    (let o := { o0 with gang := true }; let r := { r0 with arrived := [5,6] }; run (both B o r) o (cyc := 96) (r := r))[2]? = some true := by
  decide +kernel
theorem witness_MatrixOperationsRun_4 :
    (let o := { o0 with gang := true }; let r : Round := { r0 with arrived := [5], cut := none, first := 5 }; run (both (cids B) o r) o (r := r))[3]? = some true := by
  decide +kernel
theorem witness_MatrixOperationsRun_5 :
    (let o := { o0 with gang := true }; let r : Round := { r0 with arrived := [5], cut := (some ((3:Byte),6,(4:Byte))), first := 5 }; run (both (cids B) o r) o (r := r))[4]? = some true := by
  decide +kernel
theorem witness_MatrixOperationsRun_6 :
    (let z := { z0 with done := 5 }; run (mc B 5 fun k => { k with schur := some z }) o0 (z := z))[5]? = some true := by
  decide +kernel
end W24

namespace W25
def B0 := mkS 1 5 2
def dz : Delivery := { id := 0, src := 5, ts := 2, cid := 7, pc := 0x400, dst := 6, part := 3, body := .inc 0 0, phase := .held, win := some 0 }
def B : State :=
  { B0 with mach := (B0.mach.modPart 3 fun p => { p with stopping := true, rem := 5, warn := 3, energy := Vector.replicate 6 9, rtx := 5, rty := 0 }).modPart 4 fun p => { p with st := .suspended } }
def run (s : State) (q i c dir cls other g : Nat) (time : Word := 0) (rest : List (Nat × Word × Nat) := []) (d : Delivery := dz) : List Bool := hypsModuleEvents s q i c dir cls other g time rest d
def mm (s : State) (f : Mach → Mach) : State := { s with mach := f s.mach }
def up (s : State) (n : Nat) : State :=
  mm s fun m => { m with energyPeriod := n, charged := 77777, budgetPeriod := n, powerPeriod := n, pgate := 2, hands := [(2, { used := [(3,4)] })] }

theorem witness_ModuleEvents_1 :
    (let l := run (mm B fun m => { m.modPart 4 (fun p => { p with st := PartState.running }) with ptpNs := 1000000000, sliceSet := [3,4], switching := none, armed := [(7, wd 0x40000000, 4)]}) 4 7 5 1 0 3 0 (wd 0x40000000) []; [0, 1, 5].all fun k => l[k]? == some true) = true := by
  decide +kernel
theorem witness_ModuleEvents_2 :
    (let l := let d := { dz with phase := Phase.held }; run (mm B fun m => { m with net := [d] }) 3 0 (143*512+3) 0 0 3 0 0 [] d; [8, 10].all fun k => l[k]? == some true) = true := by
  decide +kernel
theorem witness_ModuleEvents_3 :
    (run (mm (match execLinkDead 5 1 B with | .next s => s | _ => B) fun m => m) 3 0 5 1 0 5 0 0 [] dz)[11]? = some true := by
  decide +kernel
theorem witness_ModuleEvents_4 :
    (run (mm (up B 14) fun m => {m with powerPeriod := 14 - 1, pgate := 0}) 3 2 5 1 1 1 0)[2]? = some true := by
  decide +kernel
theorem witness_ModuleEvents_5 :
    (run (mm B fun m => (m.modPart 3 fun p => { p with launch := { p.launch with go := (some 5) }, rem := 3, warn := 5 }).modCore 5 fun k => { k with initial := [(true, 4),(false,8),(false,16)] }) 3 2 5 1 0 1 ((some 5).getD 0))[3]? = some true := by
  decide +kernel
theorem witness_ModuleEvents_6 :
    (run (mm B fun m => m.modPart 3 fun p => { p with st := PartState.zeroing, zeroDone := (some 5) }) 3 2 5 1 0 1 ((some 5).getD 0))[4]? = some true := by
  decide +kernel
theorem witness_ModuleEvents_7 :
    (run (mm B fun m => { m.modPart 4 (fun p => { p with st := .configured }) with ptpNs := 1000000000, sliceSet := [3,4], switching := none, armed := [(7, wd 0x40000000, 4)]}) 4 7 5 1 0 3 0 (wd 0x40000000) [])[6]? = some true := by
  decide +kernel
theorem witness_ModuleEvents_8 :
    (run (mm B fun m => { m.modPart 4 (fun p => { p with st := .suspended }) with ptpNs := 1000000000, sliceSet := [3,4], switching := (some ((wd 0x40000000),4,[3])), armed := [(7, wd 0x40000000, 4)]}) 4 7 5 1 0 3 0 (wd 0x40000000) [])[7]? = some true := by
  decide +kernel
theorem witness_ModuleEvents_9 :
    (let d := { dz with phase := .flying 77 }; run (mm B fun m => { m with net := [d], routers := [(5, { links := Vector.replicate 4 { seq := 5, expect := 3, window := [Ecc.good,.good], silent := true, resyncs := 2, audit := 300 } })] }) 3 0 5 1 0 3 0 0 [] d)[9]? = some true := by
  decide +kernel
end W25

namespace W26
def B0 := mkS 1 5 2
def W0 : Window := { v := true, cnt := 16, base := 0, size := 64, first := 0 }
def mm (s : State) (f : Mach → Mach) : State := { s with mach := f s.mach }
def e0 : Blk :=
  { part := 3, win := 0, blk := 2, size := 4096, off := 0, st := .onStage, data := [(3,4),(0x10,5)], key := 77, pins := [{who := none, expires := 5}] }
def y0 : Xlat := { part := 3, win := 0, page := 0, hbm := 0x30000, wr := true }
def B : State :=
  { perm := { flash := { addr := #v[55, 66] } }, mach := { (B0.mach.modPart 3 fun p => { p with quota := 100, hbmpg := 100, windows := vset p.windows 0 W0, qps := [5] }).modHand 2 (fun h => { h with dir := [e0], cache := [y0], keys := [(3,77)] }) with booted := true, ports := Vector.replicate 2 { up := true }, ptpNs := 5000000000 } }
def run (s : State) (i j : Nat) (prio : Nat :=
  3) (x : PtpMsg := { port := i, rank := 4, offset := 5 }) (bs : List Byte := [1,2,3]) (addr : Word := 2^62+0x200f) (qp : Nat := 5) (len : Nat := 3) (e : Blk := e0) : List Bool := hypsEthernetPorts s i j prio 3 qp 0 2 (addr.toNat % 4096) len true x bs addr e y0

theorem witness_EthernetPorts_1 :
    (let l := run (mm B fun m => { m with ptp := 0, ptpSlew := 4, booted := true, clk := 27200000000 }) 0 0; [0, 1, 4, 5, 6, 9, 11, 12, 14, 15].all fun k => l[k]? == some true) = true := by
  decide +kernel
theorem witness_EthernetPorts_2 :
    (run (mm B fun m => (m.modPort 0 fun p => { p with rank := none }).modPort 1 fun p => { p with rank := none }) 0 0 3 { port := 0, rank := 4, offset := 1000001 })[7]? = some true := by
  decide +kernel
theorem witness_EthernetPorts_3 :
    (run (mm B fun m => { (m.modPort 0 fun p => { p with pause3 := true, resolved := true }).modPort 1 fun p => { p with pause3 := true } with outbox := [] }) 0 (1-0) 3)[13]? = some true := by
  decide +kernel
theorem witness_EthernetPorts_4 :
    (run (mm B fun m => m.modPart 3 fun p => { p with imageLock := some (m.clk, 0x200f, 0xf) }) 0 1 3 (addr := 2^62+0x200f))[16]? = some true := by
  decide +kernel
theorem witness_EthernetPorts_5 : (run B 0 0 6)[2]? = some true := by decide +kernel
theorem witness_EthernetPorts_6 :
    (run (mm B fun m => { (m.modPort 0 fun p => { p with pause3 := true, resolved := true }).modPort 1 fun p => { p with pause3 := true } with outbox := [Reply.sent 5 [1,2,3]] }) 0 (1-0) 3)[3]? = some true := by
  decide +kernel
theorem witness_EthernetPorts_7 :
    (run (mm B fun m => (m.modPort 0 fun p => { p with rank := none }).modPort 1 fun p => { p with rank := none }) 0 0 3 { port := 0, rank := 4, offset := (-1000001) })[8]? = some true := by
  decide +kernel
theorem witness_EthernetPorts_8 :
    (run (mm B fun m => (m.modPort 0 fun p => { p with rank := (some 2) }).modPort 1 fun p => { p with rank := (some 2) }) 0 0 3 { port := 0, rank := 4, offset := 1000001 })[10]? = some true := by
  decide +kernel
theorem witness_EthernetPorts_9 :
    (run (mm B fun m => (m.modPart 3 fun p => { p with st := .zeroing }).modHand 2 fun h => { h with keys := [(3,BitVec.ofNat 512 77)] }) 0 1 3 {port := 0, rank := 1, offset := 1} [1,2,3] (2^62 + 0x200f) 5 [1,2,3].length)[17]? = some true := by
  decide +kernel
end W26

namespace W27
def B0 := mkS 1 5 2
def mm (s : State) (f : Mach → Mach) : State := { s with mach := f s.mach }
def KEY : List Byte := [1,2,3]
def B : State :=
  { perm := { ctr := 9, fused := [7], flash := { opKey := KEY, ceiling := 50 } }, mach := { B0.mach with booted := true, ports := Vector.replicate 2 { up := true }, lastSeq := 40, ptpNs := 5000000000 } }
def mk (ty : Nat) (part : Byte) (seq : Nat) (body : List Byte) (good : Bool :=
  true) : MgmtReq := let r : MgmtReq := { part := part, flags := 0, seq := wd seq, tag := [], body := body }; if good then { r with tag := tagOf KEY ty part 0 0 (wd seq) body } else r
theorem tag_ok {ty : Nat} {part : Byte} {seq : Nat} {body key : List Byte} (h : key = KEY) :
    tagOk (mk ty part seq body) key ty = true := by
  subst h; simp [tagOk, mk]
def run (s : State) (r : MgmtReq) (off other : Nat) : List Bool := hypsManagementRequests s r off other {}
def st (s : State) (x : PartState) : State :=
  mm s fun m => m.modPart 3 fun p => { p with st := x, w := 2, h := 1, launch := { p.launch with verified := true, svn := 77 } }
def cfg (w h cx cy : Nat) : List Byte :=
  wordsBytes [wd (cx*2^53+cy*2^49+w*2^43+h*2^39+20*2^34+100), wd (7*2^48+3*2^32+5*2^16)] ++ List.replicate 128 0
def PSS := [PartState.free, .zeroing, .configured, .running, .suspended]
def fw : Firmware := { version := 5, body := [1], sigR := 1, sigS := 1, trusted := (List.range 9).map fun i => [BitVec.ofNat 8 i], opKey := none }

theorem witness_ManagementRequests_1 :
    (run (st B ((PSS)[0]'(by decide))) (mk 1 3 41 (cfg 1 1 2 3)) 5 4)[0]? = some true := by
  refine congrArg some (decide_eq_true ?_)
  repeat' apply And.intro
  all_goals first | (with_reducible refine tag_ok ?_); rfl | decide +kernel
theorem witness_ManagementRequests_2 :
    (run (st B ((PSS)[2]'(by decide))) (mk 2 3 41 []) 5 3)[1]? = some true := by
  refine congrArg some (decide_eq_true ?_)
  repeat' apply And.intro
  all_goals first | (with_reducible refine tag_ok ?_); rfl | decide +kernel
theorem witness_ManagementRequests_3 :
    (run (st B ((PSS)[0]'(by decide))) (mk 3 3 41 (List.replicate 64 0)) 5 3)[2]? = some true := by
  refine congrArg some (decide_eq_true ?_)
  repeat' apply And.intro
  all_goals first | (with_reducible refine tag_ok ?_); rfl | decide +kernel
theorem witness_ManagementRequests_4 :
    (run (st B ((PSS)[0]'(by decide))) (mk 3 3 41 (List.replicate 64 0)) 5 3)[3]? = some true := by
  refine congrArg some (decide_eq_true ?_)
  repeat' apply And.intro
  all_goals first | (with_reducible refine tag_ok ?_); rfl | decide +kernel
theorem witness_ManagementRequests_5 :
    (run (st B ((PSS)[3]'(by decide))) (mk 4 3 41 []) 5 3)[4]? = some true := by
  refine congrArg some (decide_eq_true ?_)
  repeat' apply And.intro
  all_goals first | (with_reducible refine tag_ok ?_); rfl | decide +kernel
theorem witness_ManagementRequests_6 :
    (run (mm B fun m => { m.modPart 3 (fun p => { p with st := .running, w := 0, stopping := true }) with requests := [(4, mk 4 3 41 [])] }) (mk 4 3 41 []) 5 4)[5]? = some true := by
  refine congrArg some (decide_eq_true ?_)
  repeat' apply And.intro
  all_goals first | (with_reducible refine tag_ok ?_); rfl | decide +kernel
theorem witness_ManagementRequests_7 :
    (run (mm B fun m => { m.modPart 3 (fun p => { p with st := .running, w := 1, h := 1, stopping := true, launch := { p.launch with save := 4096 } }) with fusedCopy := ((List.range 16).flatMap fun y => (List.range 16).map fun x => y * 512 + x).drop 1, requests := [(4, mk 4 3 41 [])] }) (mk 4 3 41 []) 5 4)[6]? = some true := by
  refine congrArg some (decide_eq_true ?_)
  repeat' apply And.intro
  all_goals first | (with_reducible refine tag_ok ?_); rfl | decide +kernel
theorem witness_ManagementRequests_8 :
    (run (mm B fun m => { m with requests := [(4, mk 4 3 40 [])] }) (mk 4 3 40 []) 5 4)[7]? = some true := by
  refine congrArg some (decide_eq_true ?_)
  repeat' apply And.intro
  all_goals first | (with_reducible refine tag_ok ?_); rfl | decide +kernel
theorem witness_ManagementRequests_9 :
    (run (st B ((PSS)[4]'(by decide))) (mk 5 3 41 []) 5 3)[8]? = some true := by
  refine congrArg some (decide_eq_true ?_)
  repeat' apply And.intro
  all_goals first | (with_reducible refine tag_ok ?_); rfl | decide +kernel
theorem witness_ManagementRequests_10 :
    (run (st B ((PSS)[0]'(by decide))) (mk 6 3 41 (wordsBytes ([7,8,3].map wd))) 5 3)[9]? = some true := by
  refine congrArg some (decide_eq_true ?_)
  repeat' apply And.intro
  all_goals first | (with_reducible refine tag_ok ?_); rfl | decide +kernel
theorem witness_ManagementRequests_11 :
    (run (id B) (mk 7 3 41 []) 5 4)[10]? = some true := by
  refine congrArg some (decide_eq_true ?_)
  repeat' apply And.intro
  all_goals first | (with_reducible refine tag_ok ?_); rfl | decide +kernel
theorem witness_ManagementRequests_12 :
    (run (st B ((PSS)[0]'(by decide))) (mk 8 3 41 (wordsBytes ([7,2^63-1].map wd))) 5 3)[11]? = some true := by
  refine congrArg some (decide_eq_true ?_)
  repeat' apply And.intro
  all_goals first | (with_reducible refine tag_ok ?_); rfl | decide +kernel
theorem witness_ManagementRequests_13 :
    (run (st B ((PSS)[0]'(by decide))) (mk 9 3 41 []) 5 3)[12]? = some true := by
  refine congrArg some (decide_eq_true ?_)
  repeat' apply And.intro
  all_goals first | (with_reducible refine tag_ok ?_); rfl | decide +kernel
theorem witness_ManagementRequests_14 :
    (run (st B ((PSS)[0]'(by decide))) (mk 10 3 41 (List.replicate 32 0)) 5 3)[13]? = some true := by
  refine congrArg some (decide_eq_true ?_)
  repeat' apply And.intro
  all_goals first | (with_reducible refine tag_ok ?_); rfl | decide +kernel
theorem witness_ManagementRequests_15 :
    (run (st B ((PSS)[0]'(by decide))) (mk 11 3 41 []) 5 3)[14]? = some true := by
  refine congrArg some (decide_eq_true ?_)
  repeat' apply And.intro
  all_goals first | (with_reducible refine tag_ok ?_); rfl | decide +kernel
theorem witness_ManagementRequests_16 :
    (run (mm B fun m => m.modCore 73728 fun k => k) (mk 12 3 41 []) 5 4)[15]? = some true := by
  refine congrArg some (decide_eq_true ?_)
  repeat' apply And.intro
  all_goals first | (with_reducible refine tag_ok ?_); rfl | decide +kernel
theorem witness_ManagementRequests_17 :
    (run (mm B fun m => { m with cores := [] }) (mk 12 3 39 []) 5 4)[17]? = some true := by
  refine congrArg some (decide_eq_true ?_)
  repeat' apply And.intro
  all_goals first | (with_reducible refine tag_ok ?_); rfl | decide +kernel
theorem witness_ManagementRequests_18 : (run B (mk 12 3 41 [] false) 5 4)[16]? = some true := by decide +kernel
theorem witness_BootAndFirmware_1 :
    (hypsBootAndFirmware { (mm B fun m => { m with fwB := false }) with perm := { B.perm with flash := { B.perm.flash with copyA := none } } } { fw with opKey := none } fw 5 2 (none.getD []))[0]? = some true := by
  decide +kernel
theorem witness_BootAndFirmware_2 :
    (hypsBootAndFirmware { (mm B fun m => { m with fwB := true }) with perm := { B.perm with flash := { B.perm.flash with copyA := none } } } { fw with opKey := none } fw 5 2 (none.getD []))[1]? = some true := by
  decide +kernel
theorem witness_BootAndFirmware_3 :
    (hypsBootAndFirmware { (mm B fun m => { m with fwB := false }) with perm := { B.perm with flash := { B.perm.flash with copyA := none } } } { fw with opKey := (some [5]) } fw 5 2 ((some [5]).getD []))[2]? = some true := by
  decide +kernel
end W27

namespace W28
def B := mkS 1 5 2
def mc (s : State) (f : Core → Core) : State := { s with mach := s.mach.modCore 5 f }
def run (s : State) (off i : Nat) : List Bool := hypsFetchEvents s 5 2 off i
def F (w : Nat) : State := (mkS 0 5 2).withFetchWord 16 w
def Q (w : Nat) (f : Mach → Mach) : State := let s := F w; { s with mach := f { s.mach with agenda := [] } }
def quiet (m : Mach) : Mach :=
  { m with cores := [((5 : Nat), { m.core 5 with ts := Vector.ofFn fun i => { vget (m.core 5).ts {} i.val with busy := i.val = 2 } })], clk := 1000, energyPeriod := 1, budgetPeriod := 1, powerPeriod := 1 }
def dn (i : Instr) : Decoded := { instr := i, words := 1, stall := 0 }
def ask (m : Mach) : Mach := { (quiet m).modTs (.core 5 2) (fun u => { u with far := .answered (.served [1,2,3,4,5,6,7,8]) }) with phase := .ends }

theorem witness_StepRunsDecoded_1 : (hypsStepRunsDecoded (F 0xBC00) 5 2 0 0 [] (dn (.nop {})))[0]? = some true := by decide +kernel
theorem witness_StepRunsDecoded_2 : (hypsStepRunsDecoded (Q 0xBC00 quiet) 5 2 0 5 [] (dn (.nop {})))[1]? = some true := by decide +kernel
theorem witness_StepRunsDecoded_3 : (hypsStepRunsDecoded (Q 0xBC00 ask) 5 2 0 0 [] (dn (.nop {})))[2]? = some true := by decide +kernel
theorem witness_StepRunsDecoded_4 : (hypsStepRunsDecoded (F 0xD000) 5 2 0 0 [] (dn (.nop {})))[3]? = some true := by decide +kernel
theorem witness_FetchEvents_1 :
    (let l := let s := mc B fun k => { k with seg := Vector.replicate 16 { st := SegState.empty }, imemEcc := [] }; let s := if false then mc s fun k => k.modRec 0 fun _ => { st := .parked } else s; run s 0x400 0; [0, 1].all fun k => l[k]? == some true) = true := by
  decide +kernel
theorem witness_FetchEvents_2 :
    (let s := mc B fun k => { k with seg := Vector.replicate 16 { st := .valid }, imemEcc := [(0x80,Ecc.double)] }; let s := if false then mc s fun k => k.modRec 0 fun _ => { st := .parked } else s; run s 0x400 0)[2]? = some true := by
  decide +kernel
theorem witness_FetchEvents_3 :
    (let s := mc B fun k => { k with seg := Vector.replicate 16 { st := .loading }, imemEcc := [] }; let s := if false then mc s fun k => k.modRec 0 fun _ => { st := .parked } else s; run s 0x400 0)[3]? = some true := by
  decide +kernel
theorem witness_FetchEvents_4 :
    (let s := mc B fun k => { k with seg := Vector.replicate 16 { st := .valid }, imemEcc := [] }; let s := if false then mc s fun k => k.modRec 0 fun _ => { st := .parked } else s; run s 0x400 0)[4]? = some true := by
  decide +kernel
end W28

namespace W29


theorem witness_RoundTrip_1 :
    (hypsRoundTrip (.add { short := true, d := 12, s := 13 }) (((Instr.add { short := true, d := 12, s := 13 }).parts.get (by decide)).1) { short := true, d := 12, s := 13 } false false 3 [])[0]? = some true := by
  decide +kernel
end W29

namespace W30a


theorem witness_ResetState_1 :
    (let l := hypsResetState 0 0 0 (0*999) 0 (0*5) (BitVec.ofNat 5 (0*4)); [0, 2].all fun k => l[k]? == some true) = true := by
  decide +kernel
theorem witness_ResetState_2 : (hypsResetState 73728 0 0 (0*999) 0 (0*5) (BitVec.ofNat 5 (0*4)))[1]? = some true := by decide +kernel
end W30a

namespace W31


theorem witness_DecodeWords_1 : (let l := hypsDecodeWords 0; [0, 7].all fun k => l[k]? == some true) = true := by decide +kernel
theorem witness_DecodeWords_2 : (hypsDecodeWords 1)[1]? = some true := by decide +kernel
theorem witness_DecodeWords_3 : (hypsDecodeWords 2)[2]? = some true := by decide +kernel
theorem witness_DecodeWords_4 : (hypsDecodeWords 3)[3]? = some true := by decide +kernel
theorem witness_DecodeWords_5 : (hypsDecodeWords 4)[4]? = some true := by decide +kernel
theorem witness_DecodeWords_6 : (hypsDecodeWords 256)[5]? = some true := by decide +kernel
theorem witness_DecodeWords_7 : (hypsDecodeWords 5)[6]? = some true := by decide +kernel
end W31

namespace W32
def lists : Nat → List (List IWord) | 0 => [[]] | n+1 => (lists n).flatMap fun l => [0xC155, 0xC7FF, 0xC801, 0xCA80, 0xCC80].map fun w => w :: l

theorem witness_PrefixChains_1 : (hypsPrefixChains ((lists 0)[0]'(by decide)) 0x018D [] 0)[0]? = some true := by decide +kernel
theorem witness_PrefixChains_2 : (hypsPrefixChains ((lists 2)[0]'(by decide)) 0x018D [] 1)[1]? = some true := by decide +kernel
theorem witness_PrefixChains_3 : (hypsPrefixChains ((lists 0)[0]'(by decide)) 0xD000 [] 0)[2]? = some true := by decide +kernel
theorem witness_PrefixChains_4 : (hypsPrefixChains ((lists 1)[0]'(by decide)) 0x018D [] 0)[3]? = some true := by decide +kernel
end W32

end Sys2Proof.Tests
end

section
/-! PROOF. What every step keeps of fuses and flash (R13, R337, R342, R350): one lemma for each operation that reaches them, and
the step assembled from those. -/

namespace Sys2Proof.Machine

open Sys2Proof

/-! ## What decode delivers -/

theorem parts_of_systemForm {sub : Nat} {i : Instr} (h : systemForm sub = some i) : i.parts.isSome = true := by
  unfold systemForm at h
  split at h
  case h_6 => split at h <;> cases h; rfl
  all_goals cases h; rfl

theorem parts_of_page0 {op : Nat} {a : Args} {i : Instr} (h : page0 op a = some i) : i.parts.isSome = true := by
  unfold page0 at h; split at h <;> cases h <;> rfl

theorem parts_of_page1 {op : Nat} {a : Args} {i : Instr} (h : page1 op a = some i) : i.parts.isSome = true := by
  unfold page1 at h; split at h <;> cases h <;> rfl

theorem parts_of_page2 {op : Nat} {a : Args} {i : Instr} (h : page2 op a = some i) : i.parts.isSome = true := by
  unfold page2 at h; split at h <;> cases h <;> rfl

theorem parts_of_page3 {op : Nat} {a : Args} {i : Instr} (h : page3 op a = some i) : i.parts.isSome = true := by
  unfold page3 at h; split at h <;> cases h <;> rfl

theorem parts_of_page4 {op : Nat} {a : Args} {i : Instr} (h : page4 op a = some i) : i.parts.isSome = true := by
  unfold page4 at h; split at h <;> cases h <;> rfl

theorem parts_of_page5 {op : Nat} {a : Args} {i : Instr} (h : page5 op a = some i) : i.parts.isSome = true := by
  unfold page5 at h; split at h <;> cases h <;> rfl

theorem parts_of_page6 {op : Nat} {a : Args} {i : Instr} (h : page6 op a = some i) : i.parts.isSome = true := by
  unfold page6 at h; split at h <;> cases h <;> rfl

theorem parts_of_page7 {op : Nat} {a : Args} {i : Instr} (h : page7 op a = some i) : i.parts.isSome = true := by
  unfold page7 at h; split at h <;> cases h <;> rfl

theorem parts_of_page8 {op : Nat} {a : Args} {i : Instr} (h : page8 op a = some i) : i.parts.isSome = true := by
  unfold page8 at h; split at h <;> cases h <;> rfl

theorem parts_of_page9 {op : Nat} {a : Args} {i : Instr} (h : page9 op a = some i) : i.parts.isSome = true := by
  unfold page9 at h; split at h <;> cases h <;> rfl

theorem parts_of_page15 {op : Nat} {a : Args} {i : Instr} (h : page15 op a = some i) : i.parts.isSome = true := by
  unfold page15 at h; split at h <;> cases h <;> rfl

/-- The opcode maps name encoded instructions only, and no event (R156). -/
theorem parts_of_formAt {page op sub : Nat} {a : Args} {i : Instr} (h : formAt page op sub a = some i) : i.parts.isSome = true := by
  unfold formAt at h
  split at h
  · split at h
    · exact parts_of_systemForm h
    · exact parts_of_page0 h
  · exact parts_of_page1 h
  · exact parts_of_page2 h
  · exact parts_of_page3 h
  · exact parts_of_page4 h
  · exact parts_of_page5 h
  · exact parts_of_page6 h
  · exact parts_of_page7 h
  · exact parts_of_page8 h
  · exact parts_of_page9 h
  · exact parts_of_page15 h
  · cases h

theorem parts_of_decodeForm {stage : Bool} {c : Chain} {d : Decoded} (h : decodeForm stage c = .ok d) : d.instr.parts.isSome = true := by
  simp only [decodeForm] at h
  repeat' split at h
  all_goals cases h
  next hf => exact parts_of_formAt hf

/-- Words decode to encoded instructions only, and to no event (R153). -/
theorem parts_of_decode {stage house : Bool} {ws : List IWord} {d : Decoded} (h : decode stage house ws = .ok d) :
    d.instr.parts.isSome = true := by
  simp only [decode] at h
  split at h
  · cases h
  split at h
  · cases h
  split at h
  · cases h
  · exact parts_of_decodeForm h

theorem parts_of_decoded {m m' : Mach} {a : Agent} {pc : BitVec 14} {stage house : Bool} {ws : List IWord} {i : Instr}
    (h : m.decoded a pc stage house ws = .instr i m') : i.parts.isSome = true := by
  simp only [Mach.decoded] at h
  split at h
  case h_1 hd => cases h; exact parts_of_decode hd
  all_goals cases h

/-- What an agent fetches is an encoded instruction (R142, R153). -/
theorem parts_of_fetched {m m' : Mach} {a : Agent} {i : Instr} (h : m.fetched a = .instr i m') : i.parts.isSome = true := by
  cases a with
  | core c t =>
    simp only [Mach.fetched, Mach.fetchCore] at h
    split at h
    · cases h
    · exact parts_of_decoded h
  | stage sh p => exact parts_of_decoded h

/-! ## What is kept of fuses and flash -/

/-- The fused-core list stays, and the anti-rollback counter rises within its 64 fuses (R13, R337). -/
structure Perm.FusesKept (p q : Perm) : Prop where
  fused : q.fused = p.fused
  rises : p.ctr ≤ 64 → p.ctr ≤ q.ctr ∧ q.ctr ≤ 64

/-- As `FusesKept`; and the flash keeps its keys, its firmware copies and what the boot reads, and its ceiling of SEQ numbers does not
fall (R342, R350). -/
structure Perm.Kept (p q : Perm) : Prop extends Perm.FusesKept p q where
  trusted : q.flash.trusted = p.flash.trusted
  opKey : q.flash.opKey = p.flash.opKey
  copyA : q.flash.copyA = p.flash.copyA
  copyB : q.flash.copyB = p.flash.copyB
  addr : q.flash.addr = p.flash.addr
  weights : q.flash.weights = p.flash.weights
  ceiling : p.flash.ceiling ≤ q.flash.ceiling

theorem Perm.Kept.refl (p : Perm) : Perm.Kept p p :=
  ⟨⟨rfl, fun h => ⟨Nat.le_refl _, h⟩⟩, rfl, rfl, rfl, rfl, rfl, rfl, Nat.le_refl _⟩

theorem Perm.Kept.of_eq {p q : Perm} (h : q = p) : Perm.Kept p q := h ▸ .refl p

theorem Perm.Kept.trans {p q r : Perm} (h : Perm.Kept p q) (h' : Perm.Kept q r) : Perm.Kept p r where
  fused := h'.fused.trans h.fused
  rises hp :=
    have ⟨h1, h2⟩ := h.rises hp
    have ⟨h3, h4⟩ := h'.rises h2
    ⟨h1.trans h3, h4⟩
  trusted := h'.trusted.trans h.trusted
  opKey := h'.opKey.trans h.opKey
  copyA := h'.copyA.trans h.copyA
  copyB := h'.copyB.trans h.copyB
  addr := h'.addr.trans h.addr
  weights := h'.weights.trans h.weights
  ceiling := h.ceiling.trans h'.ceiling

/-- Only the anti-rollback counter has moved, up and to at most 64. -/
theorem Perm.Kept.ctr {p : Perm} {n : Nat} (h : p.ctr ≤ 64 → p.ctr ≤ n ∧ n ≤ 64) : Perm.Kept p { p with ctr := n } :=
  ⟨⟨rfl, h⟩, rfl, rfl, rfl, rfl, rfl, rfl, Nat.le_refl _⟩

/-- Only the ceiling of SEQ numbers has moved, and up. -/
theorem Perm.Kept.flash_ceiling {p : Perm} {n : Nat} (h : p.flash.ceiling ≤ n) :
    Perm.Kept p { p with flash := { p.flash with ceiling := n } } :=
  ⟨⟨rfl, fun hp => ⟨Nat.le_refl _, hp⟩⟩, rfl, rfl, rfl, rfl, rfl, rfl, h⟩

/-! ## The management protocol (R342, R343) -/

/-- ADVANCE_ROLLBACK moves the counter up and to at most 64 (R337). -/
theorem State.advance_ctr (s : State) (r : MgmtReq) (h : s.perm.ctr ≤ 64) :
    s.perm.ctr ≤ (s.advance r).2 ∧ (s.advance r).2 ≤ 64 := by
  simp only [State.advance]
  split <;> simp <;> omega

/-- The counter after the request `x` is performed. -/
theorem State.served_ctr (s : State) (type : Nat) (r : MgmtReq) :
    Perm.Kept s.perm { s.perm with
      ctr := (if type = 0x0B then s.advance r else (s.mach.serve s.perm type r, s.perm.ctr)).2 } := by
  refine .ctr fun h => ?_
  split
  · exact s.advance_ctr r h
  · exact ⟨Nat.le_refl _, h⟩

theorem State.pump_kept (n : Nat) {p : Perm} {s : State} (h : Perm.Kept p s.perm) : Perm.Kept p (s.pump n).perm := by
  induction n generalizing s with
  | zero => exact h
  | succ n ih =>
    unfold State.pump
    split
    · exact h
    · next type r rest _ =>
      have hc := h.trans (s.served_ctr type r)
      dsimp only
      split
      · exact hc
      · exact ih hc
      · exact ih hc

theorem State.finish_kept {p : Perm} {s : State} (h : Perm.Kept p s.perm) (status : Byte) (body : List Byte) :
    Perm.Kept p (s.finish status body).perm := by
  unfold State.finish
  split
  · exact h
  · exact State.pump_kept _ h

/-- A request raises the stored ceiling when its SEQ passes it (R342). -/
theorem State.request_kept (s : State) (type : Nat) (r : MgmtReq) : Perm.Kept s.perm (s.request type r).perm := by
  have hc : Perm.Kept s.perm { s.perm with flash := { s.perm.flash with
      ceiling := if s.perm.flash.ceiling < r.seq.toNat then r.seq.toNat + 2 ^ 32 else s.perm.flash.ceiling } } := by
    refine .flash_ceiling ?_
    split <;> omega
  unfold State.request
  dsimp only
  split
  · exact .refl _
  split
  · exact .refl _
  split
  · exact .refl _
  split
  · exact State.pump_kept 1 hc
  · exact hc

theorem State.suspendReq_kept (s : State) (r : MgmtReq) : Perm.Kept s.perm (s.suspendReq r).perm := by
  unfold State.suspendReq
  dsimp only
  split
  · split
    · exact State.finish_kept (.refl s.perm) _ _
    · split
      · split <;> exact State.finish_kept (by exact .refl s.perm) _ _
      · exact .refl _
  · exact State.finish_kept (.refl s.perm) _ _
  · exact State.finish_kept (.refl s.perm) _ _

theorem State.zeroingDone_kept (s : State) (q : Nat) : Perm.Kept s.perm (s.zeroingDone q).perm := by
  unfold State.zeroingDone
  dsimp only
  split
  · split
    · exact .refl _
    · split
      · exact .refl _
      · split
        · exact State.finish_kept (by exact .refl s.perm) _ _
        · split
          · exact State.finish_kept (by exact .refl s.perm) _ _
          · exact .refl _
  · exact .refl _

/-! ## Boot and firmware (R350) -/

theorem State.boot_kept (s : State) : Perm.Kept s.perm s.boot.perm := by
  unfold State.boot
  dsimp only
  split
  · exact .refl _
  · exact .flash_ceiling (by omega)

/-- A firmware update reaches the flash alone. -/
theorem State.updateFirmware_fuses (s : State) (f : Firmware) : Perm.FusesKept s.perm (s.updateFirmware f).perm := by
  unfold State.updateFirmware
  dsimp only
  split <;> exact ⟨rfl, fun h => ⟨Nat.le_refl _, h⟩⟩

/-! ## Instructions, events and steps -/

/-- An encoded instruction is issued: its meaning is an effect on the machine (R15). -/
theorem exec_issues {i : Instr} (hp : i.parts.isSome = true) (s : State) : ∃ sem, exec i s = issue sem s := by
  cases i <;> try contradiction
  all_goals exact ⟨_, rfl⟩

/-- An event other than a firmware update. The management requests, the end of a zeroing and the boot reach fuses and flash; every
other is an event of the machine, and has no hold on them. -/
theorem exec_event_kept {i : Instr} (hp : i.parts = none) (hi : ∀ f, i ≠ .stage1FirmwareUpdate f) {s s' : State}
    (h : exec i s = .next s') : Perm.Kept s.perm s'.perm := by
  cases i <;> try contradiction
  case stage1FirmwareUpdate f => exact absurd rfl (hi f)
  case moduleReset => cases h; exact s.boot_kept
  case zeroingDone q => cases h; exact s.zeroingDone_kept q
  case configurePartition r => cases h; exact s.request_kept _ r
  case zeroPartition r => cases h; exact s.request_kept _ r
  case launch r => cases h; exact s.request_kept _ r
  case suspend r => cases h; exact s.request_kept _ r
  case resume r => cases h; exact s.request_kept _ r
  case sliceEntry r => cases h; exact s.request_kept _ r
  case armSlices r => cases h; exact s.request_kept _ r
  case setAllotment r => cases h; exact s.request_kept _ r
  case readEnergy r => cases h; exact s.request_kept _ r
  case attest r => cases h; exact s.request_kept _ r
  case advanceRollback r => cases h; exact s.request_kept _ r
  case readStatus r => cases h; exact s.request_kept _ r
  case illegalInstruction off => exact .of_eq (issue_perm h)
  case partCfgRelease a => exact .of_eq (issue_perm h)
  case sysPageTableWrite a d => exact .of_eq (issue_perm h)
  all_goals cases h; exact .refl _

theorem exec_kept {i : Instr} (hi : ∀ f, i ≠ .stage1FirmwareUpdate f) {s s' : State} (h : exec i s = .next s') :
    Perm.Kept s.perm s'.perm := by
  cases hp : i.parts with
  | none => exact exec_event_kept hp hi h
  | some x =>
    obtain ⟨sem, hsem⟩ := exec_issues (by rw [hp]; rfl) s
    exact .of_eq (issue_perm (hsem.symm.trans h))

theorem exec_fuses {i : Instr} {s s' : State} (h : exec i s = .next s') : Perm.FusesKept s.perm s'.perm := by
  by_cases hi : ∀ f, i ≠ .stage1FirmwareUpdate f
  · exact (exec_kept hi h).toFusesKept
  · simp only [ne_eq, not_forall, not_not] at hi
    obtain ⟨f, rfl⟩ := hi
    cases h
    exact s.updateFirmware_fuses f

theorem onNext_perm {f : Mach → Mach} {o : Host.Outcome State Fault Refusal} {s' : State} (h : onNext f o = .next s') :
    ∃ v, o = .next v ∧ s'.perm = v.perm := by
  cases o with
  | next v => cases h; exact ⟨v, rfl, rfl⟩
  | fault x => cases h
  | refused x => cases h

/-- An agent performs encoded instructions only: no firmware update (R142, R153). -/
theorem runAgent_kept {a : Agent} {s s' : State} (h : runAgent a s = .next s') : Perm.Kept s.perm s'.perm := by
  unfold runAgent at h
  split at h
  · next i m hf =>
    obtain ⟨v, hv, hp⟩ := onNext_perm h
    rw [hp]
    refine exec_kept (s := { s with mach := m }) (fun f hi => ?_) hv
    have hparts := parts_of_fetched hf
    rw [hi] at hparts
    cases hparts
  · have hp := issue_perm h
    exact .of_eq hp
  · have hp := issue_perm h
    exact .of_eq hp
  · have hp := event_perm h
    exact .of_eq hp

theorem issueAgent_kept {a : Agent} {s s' : State} (h : issueAgent a s = .next s') : Perm.Kept s.perm s'.perm := by
  unfold issueAgent at h
  split at h
  · exact runAgent_kept h
  · obtain ⟨v, hv, hp⟩ := onNext_perm h
    rw [hp]
    exact runAgent_kept hv

theorem agentTurn_kept {s s' : State} (h : agentTurn s = .next s') : Perm.Kept s.perm s'.perm := by
  simp only [agentTurn] at h
  split at h
  · split at h
    · obtain ⟨v, hv, hp⟩ := onNext_perm h
      rw [hp]
      exact runAgent_kept hv
    · cases h; exact .refl _
  · split at h
    · obtain ⟨v, hv, hp⟩ := onNext_perm h
      rw [hp]
      exact issueAgent_kept hv
    · cases h; exact .refl _

theorem State.hostDue_kept {s s' : State} (h : s.hostDue = some s') : Perm.Kept s.perm s'.perm := by
  simp only [State.hostDue] at h
  split at h
  · cases h; exact s.zeroingDone_kept _
  · split at h
    · split at h
      · cases h; exact s.suspendReq_kept _
      · cases h
    · cases h

theorem State.nextDue_kept (s : State) : Perm.Kept s.perm s.nextDue.perm := by
  unfold State.nextDue
  split
  · exact .refl _
  · split
    · next hs => exact State.hostDue_kept hs
    · exact .refl _

theorem State.settle_kept {s s' : State} (h : s.settle = some s') : Perm.Kept s.perm s'.perm := by
  simp only [State.settle] at h
  split at h
  · cases h; exact .refl _
  · cases h; exact s.nextDue_kept
  · split at h <;> cases h; exact .refl _
  · split at h
    · cases h; exact .refl _
    · split at h <;> cases h; exact .refl _
  · cases h; exact .refl _
  · cases h; exact .refl _

/-- The environment's turn other than a firmware update. -/
theorem turn_kept {t : Turn} (ht : ∀ f, t ≠ .event (.stage1FirmwareUpdate f)) {s s' : State} (h : turn s t = .next s') :
    Perm.Kept s.perm s'.perm := by
  cases t with
  | event i =>
    simp only [turn] at h
    split at h
    · cases h; exact .refl _
    · exact exec_kept (fun f hi => ht f (congrArg Turn.event hi)) h
  | issue c t =>
    simp only [turn] at h
    split at h
    · exact issueAgent_kept h
    · cases h; exact .refl _
  | stage sh p =>
    simp only [turn] at h
    split at h
    · exact issueAgent_kept h
    · cases h; exact .refl _

theorem turn_fuses {t : Turn} {s s' : State} (h : turn s t = .next s') : Perm.FusesKept s.perm s'.perm := by
  by_cases ht : ∀ f, t ≠ .event (.stage1FirmwareUpdate f)
  · exact (turn_kept ht h).toFusesKept
  · simp only [ne_eq, not_forall, not_not] at ht
    obtain ⟨f, rfl⟩ := ht
    simp only [turn] at h
    split at h
    · cases h; exact (Perm.Kept.refl _).toFusesKept
    · exact exec_fuses h

/-- A step that is no firmware update keeps keys and copies, and lets counter and ceiling rise only. -/
theorem step_kept {s s' : State} (hs : ∀ f, s.mach.agenda.head? ≠ some (.event (.stage1FirmwareUpdate f)))
    (h : step s = .next s') : Perm.Kept s.perm s'.perm := by
  unfold step at h
  split at h
  · next t rest ha =>
    have ht : ∀ f, t ≠ .event (.stage1FirmwareUpdate f) := fun f hf => hs f (by rw [ha, hf]; rfl)
    have hk := turn_kept ht h
    exact hk
  · split at h
    · next hv => cases h; exact State.settle_kept hv
    · exact agentTurn_kept h

theorem step_fuses {s s' : State} (h : step s = .next s') : Perm.FusesKept s.perm s'.perm := by
  unfold step at h
  split at h
  · have hk := turn_fuses h
    exact hk
  · split at h
    · next hv => cases h; exact (State.settle_kept hv).toFusesKept
    · exact (agentTurn_kept h).toFusesKept

end Sys2Proof.Machine

open Sys2Proof Sys2Proof.Machine

/-- Settles O60: by cases on what a step performs, only the management requests, the boot and a firmware update reach fuses and flash. -/
theorem rollbackInvariant : Obligations.RollbackInvariant := by
  intro s s' hctr h
  have hf := step_fuses h
  obtain ⟨hle, hmax⟩ := hf.rises hctr
  refine ⟨hle, hmax, hf.fused, fun hs => ?_⟩
  have hk := step_kept hs h
  exact ⟨hk.trusted, hk.opKey, hk.copyA, hk.copyB, hk.addr, hk.weights, hk.ceiling⟩
end

section
/-! PROOF. A step performs what the words at the PC decode to (R15, R16, R142, R153). -/

namespace Sys2Proof.Machine

open Sys2Proof

/-- Instruction memory without an error has no word that a fetch could not read. -/
theorem Core.badFetch_clean {k : Core} (h : k.imemEcc = []) (pc n : Nat) : k.badFetch pc n = none := by
  simp [Core.badFetch, h, Map.get, Map.find]

/-- A fetch from a VALID slot without errors is stopped by nothing (R81). -/
theorem Core.fetchStop_valid {k : Core} {pc : BitVec 14} (hv : (k.slot (pc.toNat / 1024)).st = .valid) (he : k.imemEcc = []) :
    k.fetchStop pc = none := by
  simp [Core.fetchStop, hv, Core.badFetch_clean he]

/-- From a VALID slot without errors the words at the PC are decoded (R142, R153). -/
theorem Mach.fetched_valid {m : Mach} {c t : Nat}
    (hv : ((m.core c).slot (((m.core c).tset t).pc.toNat / 1024)).st = .valid) (he : (m.core c).imemEcc = []) :
    m.fetched (.core c t) = m.decoded (.core c t) ((m.core c).tset t).pc false (((m.core c).tset t).priv == .house)
      ((m.core c).wordsAt ((m.core c).tset t).pc.toNat) := by
  simp only [Mach.fetched, Mach.fetchCore, Core.fetchStop_valid hv he, he, if_pos]

theorem Mach.decoded_ok {m : Mach} {a : Agent} {pc : BitVec 14} {stage house : Bool} {ws : List IWord} {d : Decoded}
    (h : decode stage house ws = .ok d) : m.decoded a pc stage house ws =
      .instr d.instr { m with cur := a, npc := pc + BitVec.ofNat 14 (2 * d.words), taken := false } := by
  simp only [Mach.decoded, h]

theorem Mach.decoded_illegal {m : Mach} {a : Agent} {pc : BitVec 14} {stage house : Bool} {ws : List IWord} {n : Nat}
    (h : decode stage house ws = .error (.illegal n)) :
    m.decoded a pc stage house ws = .illegal (pc.toNat + 2 * n) { m with cur := a, npc := pc } := by
  simp only [Mach.decoded, h]

/-- An agent that fetches an instruction performs it and notes what it leaves to wait for. -/
theorem runAgent_instr {a : Agent} {s : State} {i : Instr} {m : Mach} (h : s.mach.fetched a = .instr i m) :
    runAgent a s = onNext (fun m' => m'.retire m a i) (exec i { s with mach := m }) := by
  simp only [runAgent, h]

theorem runAgent_illegal {a : Agent} {s : State} {off : Nat} {m : Mach} (h : s.mach.fetched a = .illegal off m) :
    runAgent a s = execIllegalInstruction off { s with mach := m } := by
  simp only [runAgent, h]

/-- A fetched instruction issues, and its unit notes that. -/
theorem issueAgent_instr {a : Agent} {s : State} {i : Instr} {m : Mach} (h : s.mach.fetched a = .instr i m) :
    issueAgent a s = onNext (fun m => m.noted s.mach a) (runAgent a s) := by
  simp [issueAgent, Mach.fetchStops, h]

theorem issueAgent_illegal {a : Agent} {s : State} {off : Nat} {m : Mach} (h : s.mach.fetched a = .illegal off m) :
    issueAgent a s = onNext (fun m => m.noted s.mach a) (runAgent a s) := by
  simp [issueAgent, Mach.fetchStops, h]

theorem onNext_onNext (f g : Mach → Mach) (o : Host.Outcome State Fault Refusal) :
    onNext f (onNext g o) = onNext (fun m => f (g m)) o := by
  cases o <;> rfl

/-- The environment's turn of a thread set that may issue (R15). -/
theorem step_issue {s : State} {c t : Nat} {rest : List Turn} (ha : s.mach.agenda = .issue c t :: rest)
    (hr : ({ s.mach with agenda := rest } : Mach).ready c t = true) :
    step s = issueAgent (.core c t) { s with mach := { s.mach with agenda := rest } } := by
  simp only [step, ha, turn, hr, if_pos]

/-- With no turn of the environment and nothing due, the agents have theirs. -/
theorem step_agentTurn {s : State} (ha : s.mach.agenda = []) (hs : s.settle = none) : step s = agentTurn s := by
  simp only [step, ha, hs]

end Sys2Proof.Machine

open Sys2Proof Sys2Proof.Machine

/-- Settles O54: the turn is the thread set's, its fetch is stopped by nothing, and what it decodes is performed. -/
theorem stepRunsDecoded : Obligations.StepRunsDecoded := by
  intro s c t n place rest d
  dsimp only
  refine ⟨?_, ?_, ?_, ?_⟩
  · rintro ⟨⟨ha, hr⟩, ⟨hv, he⟩, hd⟩
    have hf := (Mach.fetched_valid hv he).trans (Mach.decoded_ok hd)
    rw [step_issue ha hr, issueAgent_instr hf, runAgent_instr hf, onNext_onNext]
  · rintro ⟨⟨ha, rfl, hs, hp, ht⟩, ⟨hv, he⟩, hd⟩
    have hm : ({ s.mach with agenda := [] } : Mach) = s.mach := by rw [← ha]
    simp only [hm] at hv he hd hp ht ⊢
    have hf := (Mach.fetched_valid hv he).trans (Mach.decoded_ok hd)
    rw [step_agentTurn ha hs, agentTurn, if_neg hp, ht]
    dsimp only
    rw [issueAgent_instr hf, runAgent_instr hf, onNext_onNext, onNext_onNext, ha]
  · rintro ⟨⟨ha, rfl, hs, hp, ht⟩, ⟨hv, he⟩, hd⟩
    have hm : ({ s.mach with agenda := [] } : Mach) = s.mach := by rw [← ha]
    simp only [hm] at hv he hd hp ht ⊢
    have hf := (Mach.fetched_valid hv he).trans (Mach.decoded_ok hd)
    rw [step_agentTurn ha hs, agentTurn, if_pos hp, ht]
    dsimp only
    rw [runAgent_instr hf, onNext_onNext, ha]
  · rintro ⟨⟨ha, hr⟩, ⟨hv, he⟩, hd⟩
    have hf := (Mach.fetched_valid hv he).trans (Mach.decoded_illegal hd)
    rw [step_issue ha hr, issueAgent_illegal hf, runAgent_illegal hf]
    rfl
end

section
/-! PROOF. Module reset, the boot chain and the firmware update (R12, R13, R88, R342, R350). -/

namespace Sys2Proof.Machine

open Sys2Proof

/-! ## The machine right after module reset -/

/-- A table whose values are changed by number reads as changed. -/
theorem Map.find_map {α : Type} (m : Map α) (f : Nat → α → α) (k : Nat) :
    Map.find (m.map fun e => (e.1, f e.1 e.2)) k = (m.find k).map (f k) := by
  induction m with
  | nil => rfl
  | cons e m ih =>
    simp only [List.map_cons, Map.find]
    split
    · subst_vars; rfl
    · exact ih

theorem Map.get_map {α : Type} (m : Map α) (f : Nat → α → α) (d : α) (k : Nat) (hd : f k d = d) :
    Map.get (m.map fun e => (e.1, f e.1 e.2)) d k = f k (m.get d k) := by
  simp only [Map.get, Map.find_map]
  cases m.find k with
  | none => exact hd.symm
  | some v => rfl

theorem Mach.core_powerOn (m : Mach) (c : Nat) : m.powerOn.core c = (m.core c).powerOn c := by
  simp only [Mach.core, Mach.powerOn, Map.get_set]
  split
  · subst_vars; rfl
  · next h => exact Map.get_map m.cores (fun c k => k.powerOn c) {} c (by simp [Core.powerOn, h])

theorem Mach.hand_powerOn (m : Mach) (sh : Nat) : m.powerOn.hand sh = (m.hand sh).powerOn :=
  Map.get_map m.hands (fun _ h => h.powerOn) {} sh rfl

/-- After reset every core has empty memory and no fenced sub-array. -/
theorem Core.powerOn_mem (k : Core) (c : Nat) : (k.powerOn c).mem = [] ∧ (k.powerOn c).fence = 0 := by
  unfold Core.powerOn; split <;> exact ⟨rfl, rfl⟩

/-- After reset thread set 0 of house core (1023, 0) runs at house level (R12). -/
theorem Core.powerOn_house (k : Core) : ((k.powerOn 73728).tset 0).busy = true ∧ ((k.powerOn 73728).tset 0).priv = .house ∧
    (k.powerOn 73728).halted = false := ⟨rfl, rfl, rfl⟩

/-- The house cores halt, and nothing else changes (R350). -/
theorem Mach.core_haltHouse (m : Mach) (c : Nat) : m.haltHouse.core c =
    if c = 73728 ∨ c = 73729 ∨ c = 73730 ∨ c = 73731 then { m.core c with halted := true } else m.core c := by
  simp only [Mach.haltHouse, show List.range 4 = [0, 1, 2, 3] from rfl, List.foldl_cons, List.foldl_nil, Mach.core_modCore,
    meshCores]
  by_cases h0 : c = 73728
  · simp [h0]
  by_cases h1 : c = 73729
  · simp [h1]
  by_cases h2 : c = 73730
  · simp [h2]
  by_cases h3 : c = 73731
  · simp [h3]
  simp [h0, h1, h2, h3]

/-! ## The choice of the copy (R350) -/

theorem Flash.choose_a {fl : Flash} {ctr : Nat} {f : Firmware} (ha : fl.copyA = some f) (hf : bootable f ctr = true) :
    fl.choose ctr = some (f, false) := by
  simp [Flash.choose, ha, Option.filter, hf]

theorem Flash.choose_b {fl : Flash} {ctr : Nat} {g : Firmware} (ha : fl.copyA.filter (bootable · ctr) = none)
    (hb : fl.copyB = some g) (hg : bootable g ctr = true) : fl.choose ctr = some (g, true) := by
  simp only [Flash.choose, ha]
  simp [hb, Option.filter, hg]

theorem Flash.choose_none {fl : Flash} {ctr : Nat} (ha : fl.copyA.filter (bootable · ctr) = none)
    (hb : fl.copyB.filter (bootable · ctr) = none) : fl.choose ctr = none := by
  simp [Flash.choose, ha, hb]

/-! ## The boot -/

/-- What a boot of the copy `f` sets up. -/
theorem State.boot_some {s : State} {f : Firmware} {b : Bool} (h : s.perm.flash.choose s.perm.ctr = some (f, b)) : s.boot =
    { perm := { s.perm with flash := { s.perm.flash with ceiling := s.perm.flash.ceiling + 2 ^ 32 } }
      mach := { s.mach.powerOn with
        fusedCopy := s.perm.fused, booted := true, fwVersion := f.version, fwB := b, fwDigest := sha512 f.body
        lastSeq := s.perm.flash.ceiling, ports := bootPorts s.mach.powerOn.fresh, fresh := s.mach.powerOn.fresh + 1
        weights := s.perm.flash.weights } } := by
  simp only [State.boot, h]

theorem State.boot_none {s : State} (h : s.perm.flash.choose s.perm.ctr = none) :
    s.boot = { s with mach := s.mach.powerOn.haltHouse } := by
  simp only [State.boot, h]

/-- Whether a copy boots or none does, the cores and stagehands are those of the reset, but that house cores may halt. -/
theorem State.boot_cores (s : State) (c sh : Nat) :
    (s.boot.mach.core c).mem = [] ∧ (s.boot.mach.core c).fence = 0 ∧ s.boot.mach.hand sh = (s.mach.hand sh).powerOn := by
  obtain ⟨hm, hf⟩ := Core.powerOn_mem (s.mach.core c) c
  cases h : s.perm.flash.choose s.perm.ctr with
  | none =>
    rw [State.boot_none h]
    refine ⟨?_, ?_, s.mach.hand_powerOn sh⟩ <;> dsimp only <;> rw [Mach.core_haltHouse, Mach.core_powerOn] <;> split <;> assumption
  | some x =>
    rw [State.boot_some h]
    refine ⟨?_, ?_, s.mach.hand_powerOn sh⟩
    · exact (congrArg Core.mem (s.mach.core_powerOn c)).trans hm
    · exact (congrArg Core.fence (s.mach.core_powerOn c)).trans hf

/-- The module's own state is that of the reset. -/
theorem State.boot_module (s : State) : s.boot.mach.clk = 0 ∧ s.boot.mach.parts = Vector.replicate 16 {} ∧ s.boot.mach.net = [] ∧
    s.boot.mach.slices = Vector.replicate 16 {} ∧ s.boot.mach.ptpNs = 0 ∧ s.boot.mach.ptp = 0 ∧ s.boot.mach.clusters = [] := by
  cases h : s.perm.flash.choose s.perm.ctr with
  | none => rw [State.boot_none h]; exact ⟨rfl, rfl, rfl, rfl, rfl, rfl, rfl⟩
  | some x => rw [State.boot_some h]; exact ⟨rfl, rfl, rfl, rfl, rfl, rfl, rfl⟩

theorem bootPorts_up (n : Nat) : (vget (bootPorts n) {} 0).up = Config.portUp n 0 ∧ (vget (bootPorts n) {} 1).up = Config.portUp n 1 := by
  simp [vget, bootPorts]

/-- House core (1023, 0) runs after a boot. -/
theorem State.boot_house {s : State} {f : Firmware} {b : Bool} (h : s.perm.flash.choose s.perm.ctr = some (f, b)) :
    ((s.boot.mach.core 73728).tset 0).busy = true ∧ ((s.boot.mach.core 73728).tset 0).priv = .house ∧
      (s.boot.mach.core 73728).halted = false := by
  have hk : s.boot.mach.core 73728 = (s.mach.core 73728).powerOn 73728 := by
    rw [State.boot_some h]; exact s.mach.core_powerOn 73728
  rw [hk]
  exact Core.powerOn_house _

/-! ## The firmware update -/

/-- With copy A running, an update without an operator key is written to copy B. -/
theorem State.updateFirmware_b_trusted {s : State} {f : Firmware} (hb : s.mach.fwB = false) (hk : f.opKey = none) :
    s.updateFirmware f = { s with perm := { s.perm with flash := { s.perm.flash with
      copyB := some f, trusted := if bootable f s.perm.ctr then f.trusted.take 8 else s.perm.flash.trusted } } } := by
  unfold State.updateFirmware
  dsimp only
  rw [if_neg (ne_true_of_eq_false hb), hk]
  cases bootable f s.perm.ctr <;> rfl

/-- With copy B running, an update without an operator key is written to copy A. -/
theorem State.updateFirmware_a_trusted {s : State} {f : Firmware} (hb : s.mach.fwB = true) (hk : f.opKey = none) :
    s.updateFirmware f = { s with perm := { s.perm with flash := { s.perm.flash with
      copyA := some f, trusted := if bootable f s.perm.ctr then f.trusted.take 8 else s.perm.flash.trusted } } } := by
  unfold State.updateFirmware
  dsimp only
  rw [if_pos hb, hk]
  cases bootable f s.perm.ctr <;> rfl

/-- An update with an operator key that would boot replaces the key, and SEQ starts from 0. -/
theorem State.updateFirmware_b_key {s : State} {f : Firmware} {key : List Byte} (hb : s.mach.fwB = false)
    (hk : f.opKey = some key) : s.updateFirmware f =
    { perm := { s.perm with
        flash :=
          if bootable f s.perm.ctr then
            { s.perm.flash with copyB := some f, trusted := f.trusted.take 8, opKey := key, ceiling := 0 }
          else { s.perm.flash with copyB := some f } }
      mach := { s.mach with lastSeq := if bootable f s.perm.ctr then 0 else s.mach.lastSeq } } := by
  unfold State.updateFirmware
  dsimp only
  rw [if_neg (ne_true_of_eq_false hb), hk]
  cases bootable f s.perm.ctr <;> rfl

end Sys2Proof.Machine

open Sys2Proof Sys2Proof.Machine

/-- Settles O53: the boot by the copy that the ROM chooses, the update by the copy that runs. -/
theorem bootAndFirmware : Obligations.BootAndFirmware := by
  intro s f g c sh key
  dsimp only
  refine ⟨⟨s.boot, rfl, ?_, ?_, ?_, ?_⟩, ?_, ?_, ?_⟩
  · obtain ⟨h1, h2, h3, h4, h5, h6, h7⟩ := s.boot_module
    obtain ⟨hm, hf, hh⟩ := s.boot_cores c sh
    exact ⟨h1, h2, h3, h4, h5, h6, h7, hm, hf, by rw [hh]; rfl, by rw [hh]; rfl, by rw [hh]; rfl⟩
  · rintro ⟨ha, hf⟩
    have hc := Flash.choose_a ha hf
    obtain ⟨hb, hp, hl⟩ := State.boot_house hc
    obtain ⟨p0, p1⟩ := bootPorts_up s.mach.fresh
    rw [State.boot_some hc] at *
    exact ⟨⟨rfl, rfl, rfl, rfl, rfl, rfl⟩, rfl, rfl, rfl, rfl, rfl, rfl, hb, hp, hl, p0, p1⟩
  · rintro ⟨ha, hb, hg⟩
    have hc := Flash.choose_b (Option.isNone_iff_eq_none.mp ha) hb hg
    obtain ⟨hb, hp, hl⟩ := State.boot_house hc
    obtain ⟨p0, p1⟩ := bootPorts_up s.mach.fresh
    rw [State.boot_some hc] at *
    exact ⟨⟨rfl, rfl, rfl, rfl, rfl, rfl⟩, rfl, rfl, rfl, rfl, rfl, rfl, hb, hp, hl, p0, p1⟩
  · rintro ⟨ha, hb⟩
    rw [State.boot_none (Flash.choose_none (Option.isNone_iff_eq_none.mp ha) (Option.isNone_iff_eq_none.mp hb))]
    refine ⟨rfl, rfl, ?_, ?_⟩ <;> simp [Mach.core_haltHouse]
  · rintro ⟨hb, hk⟩
    exact congrArg _ (State.updateFirmware_b_trusted hb hk)
  · rintro ⟨hb, hk⟩
    exact congrArg _ (State.updateFirmware_a_trusted hb hk)
  · rintro ⟨hb, hk⟩
    exact congrArg _ (State.updateFirmware_b_key hb hk)
end

section
/-! PROOF. Rules that the proofs below share: a meaning's run step by step, the agent that runs alone, and the machine after its
instruction completes or waits (R15, R22, R307). -/

namespace Sys2Proof.Machine

open Sys2Proof

/-! ## Runs of meanings -/

/-- A meaning whose first part completes goes on from what that leaves. -/
theorem run_bind_ok {α β : Type} {x : Act α} {f : α → Act β} {m m' : Mach} {a : α} (h : x.run m = .ok a m') :
    (x >>= f).run m = (f a).run m' := by
  rw [EStateM.run_bind, h]

/-- A meaning whose first part stops is stopped. -/
theorem run_bind_error {α β : Type} {x : Act α} {f : α → Act β} {m m' : Mach} {e : Stop} (h : x.run m = .error e m') :
    (x >>= f).run m = .error e m' := by
  rw [EStateM.run_bind, h]

/-- An instruction that stalls in place and keeps what it has done (R15, R22). -/
theorem issue_waitKeep {s : State} {c t : Nat} (h : Alone s.mach c t = true) {sem : Act Unit} {k : WaitKind} {m : Mach}
    (hr : sem.run s.mach = .error (.waitKeep k) m) : issue sem s = .next { s with mach := m.stall s.mach.cur k } := by
  rw [issue_alone h, hr]; rfl

/-- An instruction that raises a precise trap, at the agent that runs alone (R307, R308). -/
theorem issue_traps {s : State} {c t : Nat} (h : Alone s.mach c t = true) {sem : Act Unit} {r : FaultRec} {m : Mach}
    (hr : sem.run s.mach = .error (.trap r) m) : issue sem s = s.traps c t r := by
  rw [issue_trap h hr, (Alone.iff.mp h).1]; rfl

/-! ## The agent -/

section
variable {m : Mach} {c t : Nat} (hc : m.cur = .core c t)
include hc

theorem Mach.me_of_cur : m.me = (m.core c).tset t := by rw [Mach.me, hc]; rfl
theorem Mach.tset_of_cur : m.tset (.core c t) = m.me := by rw [Mach.me, hc]
theorem Mach.here_of_cur : m.here = c := by simp only [Mach.here, hc]
theorem Mach.tsNo_of_cur : m.tsNo = t := by simp only [Mach.tsNo, hc]
theorem Mach.myCore_of_cur : m.myCore = m.core c := by rw [Mach.myCore, Mach.here_of_cur hc]
theorem Mach.myPart_of_cur : m.myPart = (m.core c).part.toNat := by simp only [Mach.myPart, hc]

/-- The thread set of the agent, changed. -/
theorem Mach.modMe_of_cur (f : ThreadSet → ThreadSet) : m.modMe f = m.modCore c (·.modTs t f) := by
  simp only [Mach.modMe, hc, Mach.modTs]

theorem Mach.core_modMe (f : ThreadSet → ThreadSet) (d : Nat) :
    (m.modMe f).core d = if d = c then (m.core c).modTs t f else m.core d := by
  rw [Mach.modMe_of_cur hc, Mach.core_modCore]

/-- The agent's change leaves the partitions. -/
theorem Mach.part_modMe (f : ThreadSet → ThreadSet) (q : Nat) : (m.modMe f).part q = m.part q := by
  rw [Mach.modMe_of_cur hc]; rfl

end

/-- A mesh core's position (R4). -/
theorem posOf_mesh {c : Nat} (h : c < 73728) : posOf c = (c % 512, c / 512) := by
  simp [posOf, meshCores, h]

/-! ## Completion and stalls -/

section
variable {s : State} {c t : Nat} (hc : s.mach.cur = .core c t)
include hc

theorem State.core_after (m : Mach) (d : Nat) : (s.after m).mach.core d =
    if d = c then (m.core c).modTs t (·.advance m.npc m.clk) else m.core d := by
  simp only [State.after, Mach.complete, hc, Mach.core_modCore]

theorem State.tset_after (m : Mach) (ht : t < 4) :
    (s.after m).mach.tset (.core c t) = ((m.core c).tset t).advance m.npc m.clk := by
  simp only [Mach.tset, State.core_after hc, if_pos, Core.tset_modTs _ ht]

/-- Completion leaves the memory of every core. -/
theorem State.mem_after (m : Mach) (d : Nat) : ((s.after m).mach.core d).mem = (m.core d).mem := by
  rw [State.core_after hc]
  split
  · subst_vars; rfl
  · rfl

/-- Completion of an instruction that has changed its own thread set last. -/
theorem State.tset_after_modMe {m : Mach} (hm : m.cur = .core c t) (f : ThreadSet → ThreadSet) (ht : t < 4) :
    (s.after (m.modMe f)).mach.tset (.core c t) = (f ((m.core c).tset t)).advance m.npc m.clk := by
  rw [State.tset_after hc _ ht, Mach.core_modMe hm, if_pos rfl, Core.tset_modTs _ ht, if_pos rfl, Mach.npc_modMe, Mach.clk_modMe]

theorem State.part_after (m : Mach) (q : Nat) : (s.after m).mach.part q = m.part q := by
  simp only [State.after, Mach.complete, hc]; rfl

end

theorem Mach.core_stall (m : Mach) (c t : Nat) (k : WaitKind) (d : Nat) : (m.stall (.core c t) k).core d =
    if d = c then (m.core c).modTs t (·.stall k m.clk) else m.core d := by
  simp only [Mach.stall, Mach.modTs, Mach.core_modCore]

theorem Mach.tset_stall (m : Mach) (c : Nat) {t : Nat} (ht : t < 4) (k : WaitKind) :
    (m.stall (.core c t) k).tset (.core c t) = ((m.core c).tset t).stall k m.clk := by
  simp only [Mach.tset, Mach.core_stall, if_pos, Core.tset_modTs _ ht]

/-- A stall leaves the memory of every core. -/
theorem Mach.mem_stall (m : Mach) (c t : Nat) (k : WaitKind) (d : Nat) : ((m.stall (.core c t) k).core d).mem = (m.core d).mem := by
  rw [Mach.core_stall]
  split
  · subst_vars; rfl
  · rfl

theorem Mach.part_stall (m : Mach) (c t : Nat) (k : WaitKind) (q : Nat) : (m.stall (.core c t) k).part q = m.part q := rfl

end Sys2Proof.Machine
end

section
/-! PROOF. The curtain forms and `castq` (R26, R120, R262 to R265). -/

namespace Sys2Proof.Machine

open Sys2Proof

/-! ## Curtain contexts -/

theorem Mach.ctx_modCtx (m : Mach) {q i : Nat} (hq : q < 16) (hi : i < 2) (f : Curtain → Curtain) :
    ((m.modCtx q i f).part q).ctx i = f ((m.part q).ctx i) := by
  rw [Mach.modCtx, Mach.part_modPart _ hq, if_pos rfl]
  exact vget_vset_same _ _ _ hi

@[simp] theorem Mach.core_modCtx (m : Mach) (q i : Nat) (f : Curtain → Curtain) (c : Nat) : (m.modCtx q i f).core c = m.core c := rfl
@[simp] theorem Mach.clk_modCtx (m : Mach) (q i : Nat) (f : Curtain → Curtain) : (m.modCtx q i f).clk = m.clk := rfl
@[simp] theorem Mach.npc_modCtx (m : Mach) (q i : Nat) (f : Curtain → Curtain) : (m.modCtx q i f).npc = m.npc := rfl
@[simp] theorem Mach.cur_modCtx (m : Mach) (q i : Nat) (f : Curtain → Curtain) : (m.modCtx q i f).cur = m.cur := rfl

/-- A context left as it is. -/
theorem Mach.modCtx_id (m : Mach) (q i : Nat) : m.modCtx q i (fun k => k) = m := by
  have hk : vset (m.part q).curtain i ((m.part q).ctx i) = (m.part q).curtain := vset_vget _ _ _
  unfold Mach.modCtx Mach.modPart
  dsimp only
  rw [hk]
  exact congrArg (fun ps => { m with parts := ps }) (vset_vget m.parts {} q)

/-- Settling a curtain changes its release at most (R26, R263). -/
theorem Mach.curtainSettle_eq (m : Mach) (q i : Nat) (but : Option (Nat × Nat)) :
    ∃ f : Curtain → Curtain, m.curtainSettle q i but = m.modCtx q i f ∧ ∀ k, ∃ r, f k = { k with release := r } := by
  unfold Mach.curtainSettle
  dsimp only
  split
  · exact ⟨_, rfl, fun k => ⟨_, rfl⟩⟩
  · exact ⟨fun k => k, (m.modCtx_id q i).symm, fun k => ⟨k.release, rfl⟩⟩

theorem Mach.curtainSettle_core (m : Mach) (q i : Nat) (but : Option (Nat × Nat)) (c : Nat) :
    (m.curtainSettle q i but).core c = m.core c ∧ (m.curtainSettle q i but).clk = m.clk ∧ (m.curtainSettle q i but).npc = m.npc := by
  obtain ⟨f, hf, -⟩ := m.curtainSettle_eq q i but
  rw [hf]
  exact ⟨rfl, rfl, rfl⟩

theorem Mach.curtainSettle_ctx (m : Mach) {q i : Nat} (hq : q < 16) (hi : i < 2) (but : Option (Nat × Nat)) :
    ((m.curtainSettle q i but).part q).ctx i = { (m.part q).ctx i with release := ((m.curtainSettle q i but).part q).ctx i |>.release } := by
  obtain ⟨f, hf, hr⟩ := m.curtainSettle_eq q i but
  obtain ⟨r, hr⟩ := hr ((m.part q).ctx i)
  rw [hf, Mach.ctx_modCtx _ hq hi, hr]

/-- A core that arrives is among the arrived. -/
theorem Curtain.arrived_arrive (k : Curtain) (c clk : Nat) (toe : BitVec 5) : (k.arrive c clk toe).arrived.contains c = true := by
  unfold Curtain.arrive
  split
  · assumption
  · simp

/-! ## Arrival (R263) -/

/-- What entering a phase leaves: the core has arrived and waits for the phase's end, and it has no other effect on it. -/
theorem curtainEnter_run {m : Mach} {q i c : Nat} (h : ((m.part q).ctx i).inside (posOf c).1 (posOf c).2 = true) :
    (curtainEnter q i c).run m = .error (.waitKeep (.curtain i ((m.part q).ctx i).phase))
      ((m.modCtx q i (·.arrive c m.clk (m.part q).toe)).curtainSettle q i (some (c, m.tsNo))) := by
  simp [curtainEnter, EStateM.run_bind, h]

/-- The agent of `s` has arrived in the present phase of context `i` and waits there. -/
structure ArrivedIn (s v : State) (c t q i : Nat) : Prop where
  arrived : ((v.mach.part q).ctx i).arrived.contains c = true
  pc : (v.mach.tset (.core c t)).pc = s.mach.me.pc
  x : (v.mach.tset (.core c t)).x = s.mach.me.x
  mem : (v.mach.core c).mem = s.mach.myCore.mem
  wait : (v.mach.tset (.core c t)).wait =
    (s.mach.me.stall (.curtain i ((s.mach.part q).ctx i).phase) s.mach.clk).wait

/-- An instruction that ends in entering the phase. -/
theorem issue_curtainEnter {s : State} {c t q i : Nat} (hp : Plain s.mach c t = true) (hq : q < 16) (hi : i < 2) {sem : Act Unit}
    (hr : sem.run s.mach = (curtainEnter q i c).run s.mach)
    (h : ((s.mach.part q).ctx i).inside (posOf c).1 (posOf c).2 = true) :
    ∃ v, issue sem s = .next v ∧ ArrivedIn s v c t q i := by
  obtain ⟨hc, -, ht, -⟩ := Plain.iff.mp hp
  rw [curtainEnter_run h] at hr
  refine ⟨_, issue_waitKeep (Plain.alone hp) hr, ?_⟩
  rw [hc]
  obtain ⟨hcore, hclk, -⟩ := (s.mach.modCtx q i (·.arrive c s.mach.clk (s.mach.part q).toe)).curtainSettle_core q i
    (some (c, s.mach.tsNo)) c
  constructor
  · rw [Mach.part_stall, Mach.curtainSettle_ctx _ hq hi, Mach.ctx_modCtx _ hq hi]
    exact Curtain.arrived_arrive _ _ _ _
  · rw [Mach.tset_stall _ _ ht, hcore, Mach.core_modCtx, Mach.me_of_cur hc, ThreadSet.stall_pc]
  · rw [Mach.tset_stall _ _ ht, hcore, Mach.core_modCtx, Mach.me_of_cur hc, ThreadSet.stall_x]
  · rw [Mach.mem_stall, hcore, Mach.core_modCtx, Mach.myCore_of_cur hc]
  · rw [Mach.tset_stall _ _ ht, hcore, hclk, Mach.core_modCtx, Mach.clk_modCtx, Mach.me_of_cur hc]

/-- The wait of an agent that follows no lead is its own (R23). -/
theorem Mach.waitAt_of_cur {m : Mach} {c t : Nat} (hc : m.cur = .core c t) (hf : m.me.fol = false) :
    m.waitAt m.here m.tsNo = m.me.wait := by
  rw [Mach.here_of_cur hc, Mach.tsNo_of_cur hc, Mach.waitAt]
  rw [Mach.me_of_cur hc] at hf ⊢
  simp [hf]

/-- An agent with no bound slot has no store stream to drain. -/
theorem ThreadSet.drained_unbound {t : ThreadSet} (h : t.anyBound = false) : t.drained = true := by
  simp only [ThreadSet.anyBound, List.any_eq_false] at h
  simp only [ThreadSet.drained, List.all_eq_true]
  intro s hs
  simp [h s hs]

theorem Mach.curtainWait_none {m : Mach} {c t : Nat} (hc : m.cur = .core c t) (hf : m.me.fol = false) (hw : m.me.wait = none)
    (i : Nat) : m.curtainWait i = none := by
  rw [Mach.curtainWait, Mach.waitAt_of_cur hc hf, hw]

theorem Mach.curtainWait_some {m : Mach} {c t i n since : Nat} (hc : m.cur = .core c t) (hf : m.me.fol = false)
    (hw : m.me.wait = some { kind := .curtain i n, since := since }) : m.curtainWait i = some (n, true) := by
  rw [Mach.curtainWait, Mach.waitAt_of_cur hc hf, hw]
  simp

/-! ## The other forms, run -/

theorem needSupervisor_run (m : Mach) : needSupervisor.run m =
    if m.me.priv = .user then .error (.trap { cause := 0x03 }) m else .ok () m := by
  cases h : m.me.priv <;> simp [needSupervisor, EStateM.run_bind, h, faultOf, Cause.privilege]

section
variable {m : Mach} (hub : m.me.anyBound = false) (hre : m.me.regErr = []) {a : Args}
include hub hre

/-- `curtain` with a legal rectangle sends its refill and holds its issuer (R262). -/
theorem semCurtain_run (hu : m.me.priv ≠ .user) {v : Word} (hv : m.me.xreg a.s = v) (hm : m.here < meshCores)
    (hz : fld v 63 36 = 0) (hx : fld v 9 0 ≤ fld v 27 18) (hy : fld v 17 10 ≤ fld v 35 28)
    (h0 : (m.part m.myPart).holds (fld v 9 0) (fld v 17 10) = true)
    (h1 : (m.part m.myPart).holds (fld v 27 18) (fld v 35 28) = true)
    (ha : ((m.part m.myPart).ctx (a.d.toNat % 2)).arrived = []) :
    (semCurtain a).run m = .ok ()
      ((m.modCtx m.myPart (a.d.toNat % 2) fun k =>
        { k with refills := k.refills ++ [(m.clk, fld v 9 0, fld v 17 10, fld v 27 18, fld v 35 28)] }).modMe fun t =>
          { t with notBefore := m.clk + curtainCycles (fld v 27 18 + 1 - fld v 9 0) (fld v 35 28 + 1 - fld v 17 10) }) := by
  simp [semCurtain, EStateM.run_bind, needSupervisor_run, hu, srcPort_run hub, readX_run hub hre, hv, hm, hz, hx, hy, h0, h1, ha]

/-- `curtain.excuse` of a position inside the curtain (R264). -/
theorem semCurtainExcuse_run (hu : m.me.priv ≠ .user) {v : Word} (hv : m.me.xreg a.s = v) (hm : m.here < meshCores)
    (hz : fld v 63 18 = 0) (hin : ((m.part m.myPart).ctx (a.d.toNat % 2)).inside (fld v 9 0) (fld v 17 10) = true) :
    (semCurtainExcuse a).run m = .ok ()
      ((m.modCtx m.myPart (a.d.toNat % 2) fun k =>
        { k with excused := (fld v 17 10 * 512 + fld v 9 0) :: k.excused.filter (· != fld v 17 10 * 512 + fld v 9 0) }).curtainSettle
          m.myPart (a.d.toNat % 2)) := by
  simp [semCurtainExcuse, EStateM.run_bind, needSupervisor_run, hu, srcPort_run hub, readX_run hub hre, hv, hm, hz, hin]

end

/-- What `castq` reads of a cast (R120, R265). -/
def castqWord (m : Mach) (i : Nat) : Word :=
  match vget m.myCore.casts none i with
  | none => 0
  | some n =>
    let c := (m.part m.myPart).cast n.toNat
    wd (2 ^ 63 + n.toNat * 2 ^ 52 + c.rx.toNat * 2 ^ 42 + c.ry.toNat * 2 ^ 34 + c.count.toNat * 2 ^ 17 + c.lost.toNat)

theorem semCastq_run {m : Mach} (hub : m.me.anyBound = false) (a : Args) :
    (semCastq a).run m = .ok () (m.modMe (·.setX a.d (castqWord m (a.imm.toNat % 4)))) := by
  rw [semCastq, run_bind_ok (dstPort_run hub _ _), run_bind_ok (EStateM.run_get _), castqWord]
  cases vget m.myCore.casts none (a.imm.toNat % 4) with
  | none => exact writeX_run hub _ _
  | some n => exact writeX_run hub _ _

/-! ## `curtain.arr`, run (R263) -/

section
variable {m : Mach} {c t : Nat} (hc : m.cur = .core c t) (hf : m.me.fol = false) {a : Args}
include hc hf

/-- The first issue at a core outside the curtain traps. -/
theorem semCurtainArr_outside (hw : m.me.wait = none)
    (hin : ((m.part m.myPart).ctx (a.d.toNat % 2)).inside (posOf c).1 (posOf c).2 = false) :
    (semCurtainArr a).run m = .error (.trap { cause := 0x02 }) m := by
  simp [semCurtainArr, EStateM.run_bind, Mach.curtainWait_none hc hf hw, Mach.here_of_cur hc, hin, faultOf, Cause.illegalOperation]

/-- The first issue at a member fences, and arrives where nothing is to be waited for. -/
theorem semCurtainArr_first (hm : c < meshCores) (hub : m.me.anyBound = false) (hw : m.me.wait = none)
    (hin : ((m.part m.myPart).ctx (a.d.toNat % 2)).inside (posOf c).1 (posOf c).2 = true) :
    (semCurtainArr a).run m =
      if m.quiet c t then (curtainEnter m.myPart (a.d.toNat % 2) c).run m
      else .error (.wait (.arriving (a.d.toNat % 2) ((m.part m.myPart).ctx (a.d.toNat % 2)).phase)) m := by
  cases h : m.quiet c t <;>
    simp [semCurtainArr, EStateM.run_bind, Mach.curtainWait_none hc hf hw, Mach.here_of_cur hc, Mach.tsNo_of_cur hc, hin, hm, h,
      ThreadSet.drained_unbound hub]

variable {n since : Nat} (hw : m.me.wait = some { kind := .curtain (a.d.toNat % 2) n, since := since })
include hw

/-- An arrived member waits while its phase is the present one. -/
theorem semCurtainArr_same (hn : n = ((m.part m.myPart).ctx (a.d.toNat % 2)).phase) :
    (semCurtainArr a).run m = .error (.wait (.curtain (a.d.toNat % 2) n)) m := by
  simp [semCurtainArr, EStateM.run_bind, Mach.curtainWait_some hc hf hw, ← hn]

/-- An arrived member whose phase has ended passes after a release, traps after a time-out, and else arrives anew. -/
theorem semCurtainArr_ended (hn : n ≠ ((m.part m.myPart).ctx (a.d.toNat % 2)).phase) :
    (semCurtainArr a).run m =
      match ((m.part m.myPart).ctx (a.d.toNat % 2)).timedOut.find? (·.1 == n) with
      | some e => if e.2.1.cause.toNat = 0x20 then .error (.trap e.2.1) m else (curtainEnter m.myPart (a.d.toNat % 2) c).run m
      | none => .ok () m := by
  rw [semCurtainArr, run_bind_ok (EStateM.run_get _)]
  simp only [Mach.curtainWait_some hc hf hw, Mach.here_of_cur hc]
  simp only [Bool.true_and, beq_iff_eq, hn, if_neg, Bool.not_true, Bool.false_and, Bool.false_eq_true, not_false_eq_true]
  cases ((m.part m.myPart).ctx (a.d.toNat % 2)).timedOut.find? (·.1 == n) with
  | none => rfl
  | some e =>
    obtain ⟨n', r, cs⟩ := e
    by_cases hr : r.cause.toNat = 0x20 <;> simp [hr, Cause.curtainTimeout]

end

/-! ## What the forms leave -/

/-- The agent of `s` stands at the next PC, with its registers and its memory as they were. -/
def GoesOn (s v : State) (c t : Nat) : Prop :=
  (v.mach.tset (.core c t)).pc = s.mach.npc ∧ (v.mach.tset (.core c t)).x = s.mach.me.x ∧ (v.mach.core c).mem = s.mach.myCore.mem

/-- An instruction whose effect leaves the core's registers and memory goes on. -/
theorem State.goesOn_after {s : State} {c t : Nat} (hc : s.mach.cur = .core c t) (ht : t < 4) {m : Mach} (hn : m.npc = s.mach.npc)
    (hx : ((m.core c).tset t).x = ((s.mach.core c).tset t).x) (hm : (m.core c).mem = (s.mach.core c).mem) :
    GoesOn s (s.after m) c t := by
  refine ⟨?_, ?_, ?_⟩
  · rw [State.tset_after hc _ ht]; exact hn
  · rw [State.tset_after hc _ ht, ThreadSet.advance_x, hx, Mach.me_of_cur hc]
  · rw [State.mem_after hc, hm, Mach.myCore_of_cur hc]

theorem Curtain.inside_iff (k : Curtain) (x y : Nat) :
    k.inside x y = true ↔ k.filled = true ∧ k.x0 ≤ x ∧ x ≤ k.x1 ∧ k.y0 ≤ y ∧ y ≤ k.y1 := by
  simp [Curtain.inside, and_assoc]

/-- The phase bit of one context. -/
theorem Partition.setPhase_bit (p : Partition) (i : Nat) (b : Bool) :
    (if i = 0 then (p.setPhase i b).pha else (p.setPhase i b).phb) = b := by
  unfold Partition.setPhase
  split <;> rfl

theorem Partition.ctx_setPhase (p : Partition) (i j : Nat) (b : Bool) : (p.setPhase i b).ctx j = p.ctx j := by
  unfold Partition.setPhase
  split <;> rfl

/-- A refill that has reached the rectangle fills the context anew and clears its phase bit (R262). -/
theorem Mach.curtainRefill_due {m : Mach} {q i : Nat} (hq : q < 16) (hi : i < 2) {r : Nat × Nat × Nat × Nat × Nat}
    (hr : ((m.part q).ctx i).refills = [r]) (hd : refillDue r ≤ m.clk) :
    ∃ m', m.curtainRefill q i = some m' ∧ (if i = 0 then (m'.part q).pha else (m'.part q).phb) = false ∧ (m'.part q).ctx i =
      { filled := true, x0 := r.2.1, y0 := r.2.2.1, x1 := r.2.2.2.1, y1 := r.2.2.2.2, phase := ((m.part q).ctx i).phase + 1,
        timedOut := ((m.part q).ctx i).timedOut ++ [(((m.part q).ctx i).phase, { cause := 0x02 }, [])] } := by
  refine ⟨_, by simp only [Mach.curtainRefill, hr, List.find?_cons, decide_eq_true hd]; rfl, ?_, ?_⟩
  · rw [Mach.part_modPart _ hq, if_pos rfl]
    exact Partition.setPhase_bit _ _ _
  · rw [Mach.part_modPart _ hq, if_pos rfl, Partition.ctx_setPhase, Mach.ctx_modCtx _ hq hi, hr, List.erase_cons_head]
    rfl

/-! ## The forms at an agent that runs alone -/

section
variable {s : State} {c t : Nat} (hp : Plain s.mach c t = true) {a : Args}
include hp

theorem exec_curtain_user (hu : s.mach.me.priv = .user) :
    exec (.curtain a) s = s.traps c t { cause := 0x03 } ∧ exec (.curtainExcuse a) s = s.traps c t { cause := 0x03 } := by
  have htrap := (needSupervisor_run s.mach).trans (if_pos hu)
  exact ⟨issue_traps (Plain.alone hp) (sem := semCurtain a) (run_bind_error htrap),
    issue_traps (Plain.alone hp) (sem := semCurtainExcuse a) (run_bind_error htrap)⟩

/-- `curtain` sends a fill and holds its issuer as long as that travels (R262). -/
theorem exec_curtain_sends {v : Word} (hv : s.mach.me.xreg a.s = v) (hm : s.mach.here < meshCores) (hu : s.mach.me.priv ≠ .user)
    (hz : fld v 63 36 = 0) (hx : fld v 9 0 ≤ fld v 27 18) (hy : fld v 17 10 ≤ fld v 35 28)
    (h0 : (s.mach.part s.mach.myPart).holds (fld v 9 0) (fld v 17 10) = true)
    (h1 : (s.mach.part s.mach.myPart).holds (fld v 27 18) (fld v 35 28) = true)
    (ha : ((s.mach.part s.mach.myPart).ctx (a.d.toNat % 2)).arrived = []) (hq : s.mach.myPart < 16) :
    ∃ v', exec (.curtain a) s = .next v' ∧ GoesOn s v' c t ∧
      (v'.mach.part s.mach.myPart).ctx (a.d.toNat % 2) = { (s.mach.part s.mach.myPart).ctx (a.d.toNat % 2) with
        refills := ((s.mach.part s.mach.myPart).ctx (a.d.toNat % 2)).refills ++
          [(s.mach.clk, fld v 9 0, fld v 17 10, fld v 27 18, fld v 35 28)] } ∧
      (v'.mach.tset (.core c t)).notBefore =
        s.mach.clk + curtainCycles (fld v 27 18 + 1 - fld v 9 0) (fld v 35 28 + 1 - fld v 17 10) := by
  obtain ⟨hc, -, ht, -, -, -, hub, hre⟩ := Plain.iff.mp hp
  have hcur : ∀ q i f, (s.mach.modCtx q i f).cur = .core c t := fun _ _ _ => hc
  refine ⟨_, issue_ok (Plain.alone hp) (semCurtain_run hub hre hu hv hm hz hx hy h0 h1 ha), ?_, ?_, ?_⟩
  · refine ⟨?_, ?_, ?_⟩
    · rw [State.tset_after_modMe hc (hcur _ _ _) _ ht]; rfl
    · rw [State.tset_after_modMe hc (hcur _ _ _) _ ht, Mach.me_of_cur hc]; rfl
    · rw [State.mem_after hc, Mach.core_modMe (hcur _ _ _), if_pos rfl, Mach.myCore_of_cur hc]; rfl
  · rw [State.part_after hc, Mach.part_modMe (hcur _ _ _)]
    exact Mach.ctx_modCtx _ hq (Nat.mod_lt _ (by omega)) _
  · rw [State.tset_after_modMe hc (hcur _ _ _) _ ht]; rfl

/-- `curtain.excuse` excuses a core and counts no arrival (R264). -/
theorem exec_curtainExcuse {v : Word} (hv : s.mach.me.xreg a.s = v) (hm : s.mach.here < meshCores) (hu : s.mach.me.priv ≠ .user)
    (hz : fld v 63 18 = 0) (hin : ((s.mach.part s.mach.myPart).ctx (a.d.toNat % 2)).inside (fld v 9 0) (fld v 17 10) = true)
    (hq : s.mach.myPart < 16) :
    ∃ v', exec (.curtainExcuse a) s = .next v' ∧ GoesOn s v' c t ∧
      ((v'.mach.part s.mach.myPart).ctx (a.d.toNat % 2)).excused.contains (fld v 17 10 * 512 + fld v 9 0) = true ∧
      ((v'.mach.part s.mach.myPart).ctx (a.d.toNat % 2)).arrived = ((s.mach.part s.mach.myPart).ctx (a.d.toNat % 2)).arrived := by
  obtain ⟨hc, -, ht, -, -, -, hub, hre⟩ := Plain.iff.mp hp
  have hi : a.d.toNat % 2 < 2 := Nat.mod_lt _ (by omega)
  refine ⟨_, issue_ok (Plain.alone hp) (semCurtainExcuse_run hub hre hu hv hm hz hin), ?_, ?_, ?_⟩
  · apply State.goesOn_after hc ht
    · exact (Mach.curtainSettle_core _ _ _ _ c).2.2
    · rw [(Mach.curtainSettle_core _ _ _ _ c).1]; rfl
    · rw [(Mach.curtainSettle_core _ _ _ _ c).1]; rfl
  · rw [State.part_after hc, Mach.curtainSettle_ctx _ hq hi, Mach.ctx_modCtx _ hq hi]
    exact List.contains_iff_mem.mpr List.mem_cons_self
  · rw [State.part_after hc, Mach.curtainSettle_ctx _ hq hi, Mach.ctx_modCtx _ hq hi]

/-- A member's first `curtain.arr` with nothing to be waited for arrives (R263). -/
theorem exec_curtainArr_arrives (hm : c < meshCores) (hw : s.mach.me.wait = none)
    (hin : ((s.mach.part s.mach.myPart).ctx (a.d.toNat % 2)).inside (posOf c).1 (posOf c).2 = true) (hqt : s.mach.quiet c t = true)
    (hq : s.mach.myPart < 16) :
    ∃ v, exec (.curtainArr a) s = .next v ∧ ArrivedIn s v c t s.mach.myPart (a.d.toNat % 2) := by
  obtain ⟨hc, -, ht, -, hfol, -, hub, hre⟩ := Plain.iff.mp hp
  refine issue_curtainEnter hp hq (Nat.mod_lt _ (by omega)) ?_ hin
  rw [semCurtainArr_first hc hfol hm hub hw hin, if_pos hqt]

/-- A fill that has ended the phase of an arrived member has it arrive in the new one (R263). -/
theorem exec_curtainArr_again {n since : Nat} (hw : s.mach.me.wait = some { kind := .curtain (a.d.toNat % 2) n, since := since })
    (hin : ((s.mach.part s.mach.myPart).ctx (a.d.toNat % 2)).inside (posOf c).1 (posOf c).2 = true)
    (hn : n ≠ ((s.mach.part s.mach.myPart).ctx (a.d.toNat % 2)).phase) {e : Nat × FaultRec × List Nat}
    (he : ((s.mach.part s.mach.myPart).ctx (a.d.toNat % 2)).timedOut.find? (·.1 == n) = some e) (hr : e.2.1.cause = 0x02)
    (hq : s.mach.myPart < 16) :
    ∃ v, exec (.curtainArr a) s = .next v ∧ ArrivedIn s v c t s.mach.myPart (a.d.toNat % 2) := by
  obtain ⟨hc, -, ht, -, hfol, -, hub, hre⟩ := Plain.iff.mp hp
  refine issue_curtainEnter hp hq (Nat.mod_lt _ (by omega)) ?_ hin
  rw [semCurtainArr_ended hc hfol hw hn, he]
  exact if_neg (by rw [hr]; decide)

end

end Sys2Proof.Machine

open Sys2Proof Sys2Proof.Machine

/-- Settles O39: each form's run, and what it leaves. -/
theorem curtainForms : Obligations.CurtainForms := by
  intro s c t a n since hp hcm
  obtain ⟨hc, -, ht, -, hfol, -, hub, hre⟩ := Plain.iff.mp hp
  have hal := Plain.alone hp
  have hq : s.mach.myPart = s.mach.myCore.part.toNat := by rw [Mach.myPart_of_cur hc, Mach.myCore_of_cur hc]
  have hm : s.mach.here < meshCores := by rw [Mach.here_of_cur hc]; exact hcm
  have hi : a.d.toNat % 2 < 2 := Nat.mod_lt _ (by omega)
  dsimp only
  simp only [← hq, ← Curtain.inside_iff]
  generalize hv : s.mach.me.xreg a.s = v
  have e0 : fld v 9 0 = v.toNat % 2 ^ 10 := by simp [fld]
  have e1 : fld v 17 10 = v.toNat / 2 ^ 10 % 2 ^ 8 := rfl
  have e2 : fld v 27 18 = v.toNat / 2 ^ 18 % 2 ^ 10 := rfl
  have e3 : fld v 35 28 = v.toNat / 2 ^ 28 % 2 ^ 8 := rfl
  simp only [← e0, ← e1, ← e2, ← e3]
  rw [show (c % 512) = (posOf c).1 by rw [posOf_mesh hcm], show (c / 512) = (posOf c).2 by rw [posOf_mesh hcm]]
  refine ⟨?user, ?sends, ?refill, ?excuse, ?arrives, ?released, ?waits, ?ended, ?fences, ?outside, ?castq⟩
  case user => exact exec_curtain_user hp
  case sends =>
    rintro ⟨hu, hz, hx, hy, h0, h1, ha, hq16⟩
    exact exec_curtain_sends hp hv hm hu (by rw [fld, Nat.div_eq_of_lt hz]; rfl) hx hy h0 h1 ha hq16
  case refill =>
    rintro ⟨hr, hcy, hx, hy, hq16⟩
    exact Mach.curtainRefill_due hq16 hi hr (by simp only [refillDue, curtainCycles, ceilDiv]; omega)
  case excuse =>
    rintro ⟨hu, hz, hin, hq16⟩
    exact exec_curtainExcuse hp hv hm hu (by rw [fld, Nat.div_eq_of_lt hz]; rfl) hin hq16
  case arrives =>
    rintro ⟨hw, hin, hqt, hq16⟩
    obtain ⟨v, hv, ⟨harr, hpc, hx, hmem, hwait⟩⟩ := exec_curtainArr_arrives hp hcm hw hin hqt hq16
    exact ⟨v, hv, harr, hpc, ⟨hx, hmem⟩, by rw [hwait, ThreadSet.stall, hw]⟩
  case released =>
    rintro ⟨hw, hin, hn, hfd⟩
    exact issue_ok hal ((semCurtainArr_ended hc hfol hw hn).trans (by rw [hfd]))
  case waits =>
    rintro ⟨hw, hin, hn⟩
    exact issue_wait hal (semCurtainArr_same hc hfol hw hn)
  case ended =>
    rintro e - ⟨hw, hin, hn, hfd⟩
    refine ⟨fun hr => ?_, fun ⟨hr, hq16⟩ => ?_⟩
    · refine issue_traps (m := s.mach) hal ((semCurtainArr_ended hc hfol hw hn).trans ?_)
      rw [hfd]
      exact if_pos (by rw [hr]; rfl)
    · obtain ⟨v, hv, ⟨harr, hpc, hx, hmem, hwait⟩⟩ := exec_curtainArr_again hp hw hin hn hfd hr hq16
      refine ⟨v, hv, harr, hpc, ⟨hx, hmem⟩, ?_⟩
      rw [hwait, ThreadSet.stall, hw]
      simp [hn]
  case fences =>
    rintro ⟨hw, hqt, hin⟩
    exact issue_wait hal ((semCurtainArr_first hc hfol hcm hub hw hin).trans (if_neg (ne_true_of_eq_false hqt)))
  case outside =>
    rintro ⟨hw, hin⟩
    exact issue_traps hal (semCurtainArr_outside hc hfol hw (eq_false_of_ne_true hin))
  case castq => exact issue_ok hal (semCastq_run hub a)
end

section
/-! PROOF. Chorus mode: the members are distinct cores, a word that every member can perform is performed by each on its own thread
set, and so are the begin and the end of a chorus (R22, R23, R269, R270). -/

namespace Sys2Proof.Machine

open Sys2Proof

/-- Changes made to distinct cores, one after another, that keep `I` of the machine: each core meets its own and no other. -/
theorem foldl_core {I : Mach → Prop} {φ : Mach → Nat → Mach} {R : Core → Core → Prop} (hinv : ∀ m q, I m → I (φ m q))
    (hsame : ∀ m q, I m → R (m.core q) ((φ m q).core q)) (hother : ∀ m q o, o ≠ q → (φ m q).core o = m.core o) (qs : List Nat)
    (m : Mach) (hm : I m) (hn : qs.Nodup) : I (qs.foldl φ m) ∧
      (∀ q ∈ qs, R (m.core q) ((qs.foldl φ m).core q)) ∧ ∀ o, o ∉ qs → (qs.foldl φ m).core o = m.core o := by
  induction qs generalizing m with
  | nil => exact ⟨hm, fun _ h => (List.not_mem_nil h).elim, fun _ _ => rfl⟩
  | cons p qs ih =>
    obtain ⟨hp, hn⟩ := List.nodup_cons.mp hn
    obtain ⟨hI, hin, hout⟩ := ih (φ m p) (hinv m p hm) hn
    refine ⟨hI, fun q hq => ?_, fun o ho => ?_⟩
    · rcases List.mem_cons.mp hq with rfl | hq
      · rw [List.foldl_cons, hout q hp]; exact hsame m q hm
      · rw [List.foldl_cons, ← hother m p q (fun h => hp (h ▸ hq))]; exact hin q hq
    · obtain ⟨h1, h2⟩ := not_or.mp (fun h => ho (List.mem_cons.mpr h))
      rw [List.foldl_cons, hout o h2, hother m p o h1]

/-! ## The followers -/

/-- The columns of a cluster row other than `col`, the nearest first (R269). -/
def rowMates (col : Nat) : List Nat := (List.range 15).flatMap fun d =>
  (if d + 1 ≤ col then [col - (d + 1)] else []) ++ (if col + (d + 1) < 16 then [col + (d + 1)] else [])

theorem rowMates_distinct : ∀ col < 16, (rowMates col).Nodup ∧ col ∉ rowMates col := by decide

theorem Mach.followersOf_eq (m : Mach) {c : Nat} (hc : c < 73728) (t : Nat) :
    m.followersOf c t = (rowMates (c % 512 % 16)).filterMap fun i =>
      if bit ((m.core c).tset t).followers i then some (c / 512 * 512 + (c % 512 / 16 * 16 + i)) else none := by
  simp only [Mach.followersOf, posOf_mesh hc, rowMates]

/-- A follower's core lies in the lead's cluster row, in another column. -/
theorem Mach.mem_followersOf {m : Mach} {c t q : Nat} (hc : c < 73728) (hq : q ∈ m.followersOf c t) :
    ∃ i ∈ rowMates (c % 512 % 16), q = c / 512 * 512 + (c % 512 / 16 * 16 + i) := by
  rw [Mach.followersOf_eq m hc, List.mem_filterMap] at hq
  obtain ⟨i, hi, h⟩ := hq
  split at h
  · exact ⟨i, hi, (Option.some.inj h).symm⟩
  · cases h

/-- The lead and its followers are distinct cores. -/
theorem Mach.members_nodup (m : Mach) {c : Nat} (hc : c < 73728) (t : Nat) : (c :: m.followersOf c t).Nodup := by
  obtain ⟨hn, hcol⟩ := rowMates_distinct (c % 512 % 16) (Nat.mod_lt _ (by omega))
  refine List.nodup_cons.mpr ⟨fun h => ?_, ?_⟩
  · obtain ⟨i, hi, h⟩ := Mach.mem_followersOf hc h
    have hci : c % 512 % 16 = i := by omega
    exact hcol (hci ▸ hi)
  · rw [Mach.followersOf_eq m hc]
    refine hn.filterMap fun i j q hi hj => ?_
    split at hi <;> simp only [Option.mem_def, Option.some.injEq, reduceCtorEq] at hi
    split at hj <;> simp only [Option.mem_def, Option.some.injEq, reduceCtorEq] at hj
    omega

/-! ## A word that every member can perform -/

/-- The clocks moved on leave the cores. -/
theorem Mach.core_later (m : Mach) (h q : Nat) : (m.later h).core q = m.core q := by
  have ticks : ∀ (l : List Nat) (m : Mach), (l.foldl (fun m _ => m.tickPtp) m).cores = m.cores := by
    intro l
    induction l with
    | nil => exact fun _ => rfl
    | cons _ l ih =>
      intro m
      refine (ih m.tickPtp).trans ?_
      unfold Mach.tickPtp
      split <;> rfl
  exact congrArg (fun cs => Map.get cs {} q) (ticks (List.range h) m)

theorem Mach.core_atClocks (n m : Mach) (q : Nat) : (n.atClocks m).core q = n.core q := rfl

/-- The lead and its followers, each with its distance along the row. -/
theorem Mach.membersOf_eq (m : Mach) (c t : Nat) :
    m.membersOf c t = (c :: m.followersOf c t).map fun q => (Agent.core q t, dist (posOf q).1 (posOf c).1) := by
  simp [Mach.membersOf, dist]

/-- The members go on: the followers stand at the next PC, and the lead completes the word. -/
theorem Mach.core_goOn {t c : Nat} (m : Mach) {fs : List Nat} (hc : c ∉ fs) (hn : fs.Nodup) (pc : BitVec 14) : ∃ k,
    let v := (fs.foldl (fun m q => m.modTs (.core q t) fun f => { f with pc := pc }) m).complete (.core c t)
    v.core c = (m.core c).modTs t (·.advance m.npc k) ∧
      (∀ q ∈ fs, v.core q = (m.core q).modTs t fun f => { f with pc := pc }) ∧ ∀ o, o ∉ c :: fs → v.core o = m.core o := by
  obtain ⟨hnpc, hin, hout⟩ := foldl_core (I := fun w => w.npc = m.npc) (R := fun k k' => k' = k.modTs t fun f => { f with pc := pc })
    (φ := fun m q => m.modTs (.core q t) fun f => { f with pc := pc }) (fun m q h => h)
    (fun m q _ => (Mach.core_modCore m q q _).trans (if_pos rfl)) (fun m q o h => (Mach.core_modCore m q o _).trans (if_neg h))
    fs m rfl hn
  generalize fs.foldl _ m = w at *
  refine ⟨w.clk, ?_, fun q hq => ?_, fun o ho => ?_⟩
  · rw [← hnpc, ← hout c hc]
    exact (Mach.core_modCore w c c _).trans (if_pos rfl)
  · rw [← hin q hq]
    exact (Mach.core_modCore w c q _).trans (if_neg fun e : q = c => hc (e ▸ hq))
  · obtain ⟨h1, h2⟩ := not_or.mp (fun h => ho (List.mem_cons.mpr h))
    rw [← hout o h2]
    exact (Mach.core_modCore w c o _).trans (if_neg h1)

section
variable {sem : Act Unit} {t : Nat} {ok : ThreadSet → Prop} {g : Nat → ThreadSet → ThreadSet}
  (hsem : ∀ (m : Mach) (q : Nat), m.cur = .core q t → ok ((m.core q).tset t) →
    sem.run m = .ok () (m.modCore q (·.modTs t (g m.clk))))
include hsem

/-- A member performs the word on its own thread set, at its own cycle. -/
theorem runMember_ok (npc : BitVec 14) (m : Mach) (q d : Nat) (h : ok ((m.core q).tset t)) :
    ∃ m', runMember sem npc (.core q t, d) m = .ok () m' ∧ m'.core q = (m.core q).modTs t (g (m.clk + d)) ∧
      ∀ o, o ≠ q → m'.core o = m.core o := by
  obtain ⟨m₁, hm₁, hcur, hclk, hat⟩ : ∃ m₁ : Mach, { m.later d with cur := .core q t, npc := npc } = m₁ ∧ m₁.cur = .core q t ∧
      m₁.clk = m.clk + d ∧ ∀ o, m₁.core o = m.core o := ⟨_, rfl, rfl, rfl, m.core_later d⟩
  have hr := hsem m₁ q hcur (by rwa [hat])
  refine ⟨(m₁.modCore q (·.modTs t (g m₁.clk))).atClocks m, by rw [runMember, hm₁, hr], ?_, fun o hne => ?_⟩
  · rw [← hclk, ← hat q]
    rw [Mach.core_atClocks, Mach.core_modCore, if_pos rfl]
  · rw [← hat o]
    rw [Mach.core_atClocks, Mach.core_modCore, if_neg hne]

variable (d : Nat → Nat)

/-- Where every member can perform the word, none traps and none waits. -/
theorem chorusCheck_ok (npc : BitVec 14) (qs : List Nat) (m : Mach) (h : ∀ q ∈ qs, ok ((m.core q).tset t)) :
    chorusCheck sem npc (qs.map fun q => (.core q t, d q)) m none = (m, none) := by
  induction qs with
  | nil => rfl
  | cons q qs ih =>
    obtain ⟨m', hr, -⟩ := runMember_ok hsem npc m q (d q) (h q List.mem_cons_self)
    simp only [List.map_cons, chorusCheck, hr]
    exact ih fun p hp => h p (List.mem_cons_of_mem _ hp)

/-- Distinct members each perform the word on their own thread set. -/
theorem chorusRun_ok (npc : BitVec 14) (qs : List Nat) (m : Mach) (hn : qs.Nodup) (h : ∀ q ∈ qs, ok ((m.core q).tset t)) :
    ∃ m', chorusRun sem npc (qs.map fun q => (.core q t, d q)) m = .ok m' ∧
      (∀ q ∈ qs, ∃ k, m'.core q = (m.core q).modTs t (g k)) ∧ ∀ o, o ∉ qs → m'.core o = m.core o := by
  induction qs generalizing m with
  | nil => exact ⟨m, rfl, fun _ h => (List.not_mem_nil h).elim, fun _ _ => rfl⟩
  | cons p qs ih =>
    obtain ⟨hp, hn⟩ := List.nodup_cons.mp hn
    obtain ⟨m₁, hr, hsame, hother⟩ := runMember_ok hsem npc m p (d p) (h p List.mem_cons_self)
    have hne : ∀ q ∈ qs, m₁.core q = m.core q := fun q hq => hother q fun e => hp (e ▸ hq)
    obtain ⟨m', hrun, hin, hout⟩ := ih m₁ hn fun q hq => by rw [hne q hq]; exact h q (List.mem_cons_of_mem _ hq)
    refine ⟨m', by simp only [List.map_cons, chorusRun, hr]; exact hrun, fun q hq => ?_, fun o ho => ?_⟩
    · rcases List.mem_cons.mp hq with rfl | hq
      · exact ⟨_, (hout q hp).trans hsame⟩
      · obtain ⟨k, hk⟩ := hin q hq; exact ⟨k, by rw [hk, hne q hq]⟩
    · obtain ⟨h1, h2⟩ := not_or.mp (fun h => ho (List.mem_cons.mpr h))
      rw [hout o h2, hother o h1]

/-- The word of a chorus whose members can all perform it: each has performed it and stands at the next PC, and every other core is as it
was (R23). -/
theorem chorusWord_ok {m : Mach} {c : Nat} (hc : c < 73728) (hcur : m.cur = .core c t)
    (h : ∀ q ∈ c :: m.followersOf c t, ok ((m.core q).tset t)) :
    ∃ v, chorusWord sem m c t = .next v ∧ (∃ k k', v.core c = ((m.core c).modTs t (g k)).modTs t (·.advance m.npc k')) ∧
      (∀ q ∈ m.followersOf c t, ∃ k, v.core q = ((m.core q).modTs t (g k)).modTs t fun f => { f with pc := m.npc }) ∧
      ∀ o, o ∉ c :: m.followersOf c t → v.core o = m.core o := by
  have hn := m.members_nodup hc t
  have hwork := hsem m c hcur (h c List.mem_cons_self)
  have hcheck := chorusCheck_ok hsem (fun q => dist (posOf q).1 (posOf c).1) m.npc (c :: m.followersOf c t) m h
  simp only [chorusWord, Mach.membersOf_eq]
  generalize m.followersOf c t = fs at *
  obtain ⟨hcfs, hfs⟩ := List.nodup_cons.mp hn
  have hlead : ∀ q, q ≠ c → (m.modCore c (·.modTs t (g m.clk))).core q = m.core q := fun q hq => by
    rw [Mach.core_modCore, if_neg hq]
  have hmem : ∀ q ∈ fs, q ≠ c := fun q hq e => hcfs (e ▸ hq)
  obtain ⟨m₁, hrun, hin, hout⟩ := chorusRun_ok hsem (fun q => dist (posOf q).1 (posOf c).1) m.npc fs _ hfs
    fun q hq => by rw [hlead q (hmem q hq)]; exact h q (List.mem_cons_of_mem _ hq)
  simp only [hcheck]
  simp only [hwork, List.map_cons, List.drop_one, List.tail_cons, hrun, List.foldl_map]
  obtain ⟨k', hl, hf, ho⟩ := Mach.core_goOn (t := t)
    { m₁ with cur := m.cur, npc := m.npc, taken := (m.modCore c (·.modTs t (g m.clk))).taken } hcfs hfs m.npc
  refine ⟨_, rfl, ⟨m.clk, k', hl.trans ?_⟩, fun q hq => ?_, fun o hoc => (ho o hoc).trans ?_⟩
  · change (m₁.core c).modTs t _ = _
    rw [hout c hcfs, Mach.core_modCore, if_pos rfl]
  · obtain ⟨k, hk⟩ := hin q hq
    refine ⟨k, (hf q hq).trans ?_⟩
    change (m₁.core q).modTs t _ = _
    rw [hk, hlead q (hmem q hq)]
  · obtain ⟨h1, h2⟩ := not_or.mp (fun h => hoc (List.mem_cons.mpr h))
    exact (hout o h2).trans (hlead o h1)

end

/-- A chorus lead issues its word for every member. -/
theorem issue_chorus {sem : Act Unit} {s : State} {c t : Nat} (hc : c < 73728) (ht : t < 4) (hcur : s.mach.cur = .core c t) (hcho : s.mach.me.cho = true)
    (hh : s.mach.me.holds = none) : issue sem s = lift s (chorusWord sem s.mach c t) := by
  rw [← Mach.tset_of_cur hcur] at hcho
  simp [issue, issueMach, hcur, Agent.exists_core (Nat.lt_trans hc (by decide)) ht, Mach.unhold_none hcur hh, hcho]

/-! ## The forms -/

/-- A member's change of its thread set by what that holds. -/
theorem Mach.modCore_modTs_congr (m : Mach) (q t : Nat) {f g : ThreadSet → ThreadSet} (h : f ((m.core q).tset t) = g ((m.core q).tset t)) :
    m.modCore q (·.modTs t f) = m.modCore q (·.modTs t g) := by
  simp only [Mach.modCore, Core.modTs, h]

/-- What the long `add` does to a thread set (R172). -/
def addedIn (a : Args) (t : ThreadSet) : ThreadSet := t.setX a.d (t.xreg a.s + t.xreg a.t)

/-- A member with no bound slot and no bad register performs the long `add`. -/
theorem semAdd_member {a : Args} (hsh : a.short = false) (hp : a.p = 7) {m : Mach} {q t : Nat} (hc : m.cur = .core q t)
    (h : ((m.core q).tset t).anyBound = false ∧ ((m.core q).tset t).regErr = []) :
    (semBin (· + ·) a).run m = .ok () (m.modCore q (·.modTs t (addedIn a))) := by
  rw [← Mach.me_of_cur hc] at h
  obtain ⟨hub, hre⟩ := h
  have hon : (m.me.preg a.p.toNat).getLsbD 0 = true := by simp [hp, ThreadSet.preg]
  have hread : (readBin a).run m = .ok (m.me.xreg a.s, m.me.xreg a.t) m := by
    simp [readBin, hsh, EStateM.run_bind, srcPort_run hub, dstPort_run hub, readX_run hub hre]
  rw [semBin, run_bind_ok hread]
  simp only [EStateM.run_bind, predOn_run hre, writeRes_run hub, hon, if_pos]
  rw [Mach.modMe_of_cur hc, Mach.me_of_cur hc]
  exact congrArg _ (Mach.modCore_modTs_congr m q t rfl)

/-- What `chorus.end` does to a member's thread set (R270). -/
def endedIn (clk : Nat) (t : ThreadSet) : ThreadSet :=
  if t.fol then { t.release with fol := false, lead := 0, notBefore := clk } else { t with cho := false, followers := 0 }

/-- Every member performs `chorus.end`. -/
theorem semChorusEnd_member (a : Args) {m : Mach} {q t : Nat} (hc : m.cur = .core q t) :
    (semChorusEnd a).run m = .ok () (m.modCore q (·.modTs t (endedIn m.clk))) := by
  have hme := Mach.me_of_cur hc
  rw [semChorusEnd, run_bind_ok (EStateM.run_get m), run_bind_ok (me_run m), hme]
  cases hf : ((m.core q).tset t).fol with
  | true =>
    rw [if_pos rfl, modMe_run, Mach.modMe_of_cur hc]
    exact congrArg _ (Mach.modCore_modTs_congr m q t (if_pos hf).symm)
  | false =>
    rw [if_neg Bool.false_ne_true, modMe_run, Mach.modMe_of_cur hc]
    exact congrArg _ (Mach.modCore_modTs_congr m q t (if_neg (ne_true_of_eq_false hf)).symm)

theorem bit_eq_getLsbD {n : Nat} (w : BitVec n) (i : Nat) : bit w i = w.getLsbD i := by
  rw [bit, fld, BitVec.getLsbD, Nat.testBit_eq_decide_div_mod_eq, Nat.sub_self, beq_eq_decide]
  rfl

theorem chorusCores_eq {c : Nat} (hc : c < 73728) (v : Word) :
    chorusCores c v = ((List.range 16).filter fun i => v.getLsbD i).map fun i => c / 16 * 16 + i := by
  simp only [chorusCores, posOf_mesh hc, bit_eq_getLsbD]
  exact List.map_congr_left fun i _ => by omega

theorem chorusCores_nodup {c : Nat} (hc : c < 73728) (v : Word) : (chorusCores c v).Nodup := by
  rw [chorusCores_eq hc]
  exact (List.nodup_range.filter _).map fun _ _ h => Nat.add_left_cancel h

/-- A follower's thread set at the beginning: it follows `lead`, whose thread set is `l`, from `pc` on (R269). -/
def followsFrom (lead id : Nat) (l : ThreadSet) (pc : BitVec 14) (t : ThreadSet) : ThreadSet :=
  { t with busy := true, fol := true, lead := lead, priv := l.priv, cid := id, desc := l.desc, pc := pc, wait := none }

/-- A chorus begins: each named core's thread set follows, and the lead's leads (R23, R269). -/
theorem Mach.core_chorusBegin (m : Mach) {c t : Nat} (hc : c < 73728) (mask : Word) (hout : c ∉ chorusCores c mask) :
    (m.chorusBegin c t mask).npc = m.npc ∧
      (m.chorusBegin c t mask).core c = (m.core c).modTs t (fun s => { s with cho := true, followers := mask.setWidth 16 }) ∧
      ∀ q ∈ chorusCores c mask, ∃ id,
        (m.chorusBegin c t mask).core q = (m.core q).modTs t (followsFrom c id ((m.core c).tset t) m.npc) := by
  obtain ⟨hnpc, hfol, hoth⟩ := foldl_core (I := fun w => w.npc = m.npc)
    (R := fun k k' => ∃ id, k' = k.modTs t (followsFrom c id ((m.core c).tset t) m.npc))
    (φ := fun w q => { w with nextCid := w.nextCid + 1 }.modCore q (·.modTs t (followsFrom c w.nextCid ((m.core c).tset t) w.npc)))
    (fun m q h => h) (fun w q h => ⟨w.nextCid, by rw [Mach.core_modCore, if_pos rfl, h]; rfl⟩)
    (fun w q o h => by rw [Mach.core_modCore, if_neg h]; rfl) (chorusCores c mask) m rfl (chorusCores_nodup hc mask)
  refine ⟨hnpc, ?_, fun q hq => ?_⟩
  · rw [← hoth c hout]
    exact (Mach.core_modCore _ c c _).trans (if_pos rfl)
  · obtain ⟨id, h⟩ := hfol q hq
    exact ⟨id, ((Mach.core_modCore _ c q _).trans (if_neg fun e => hout (by rwa [e] at hq))).trans h⟩

theorem notInChorus_run {m : Mach} (h : m.me.cho = false) : notInChorus.run m = .ok () m := by
  rw [notInChorus, run_bind_ok (me_run m), require_run, h]; rfl

section
variable {m : Mach} {c t : Nat} (hcur : m.cur = .core c t) (hcho : m.me.cho = false) (hub : m.me.anyBound = false)
  (hre : m.me.regErr = []) {a : Args}
include hcur hcho hub hre

/-- A mask that names the lead is an illegal operation (R269). -/
theorem semChorus_self (hin : (chorusCores c (m.me.xreg a.s)).contains c = true) :
    (semChorus a).run m = .error (.trap { cause := 0x02, addr := m.me.xreg a.s }) m := by
  rw [semChorus, run_bind_ok (notInChorus_run hcho), run_bind_ok (srcPort_run hub false a.s), run_bind_ok (readX_run hub hre a.s),
    run_bind_ok (EStateM.run_get m)]
  simp only [Mach.here_of_cur hcur]
  exact run_bind_error ((require_run _ _ _).trans (if_neg (by simp only [hin]; simp)))

/-- A well-formed mask begins the chorus once its thread sets are free, and waits for them until then (R22, R269). -/
theorem semChorus_named (hc : c < meshCores) (hv : (m.me.xreg a.s).toNat < 2 ^ 16) (h0 : m.me.xreg a.s ≠ 0)
    (hout : (chorusCores c (m.me.xreg a.s)).contains c = false) (hl : (chorusCores c (m.me.xreg a.s)).all m.live = true)
    (hch : ∀ q ∈ chorusCores c (m.me.xreg a.s), ((m.core q).tset t).choral = false)
    (hhe : ∀ q ∈ c :: chorusCores c (m.me.xreg a.s), (m.core q).heldBut t < 3) :
    (semChorus a).run m =
      if (chorusCores c (m.me.xreg a.s)).all fun q => !((m.core q).tset t).busy && !((m.core q).tset t).anyBound
      then .ok () (m.chorusBegin c t (m.me.xreg a.s)) else .error (.wait (.chorus ((m.me.xreg a.s).setWidth 16))) m := by
  have hz : fld (m.me.xreg a.s) 63 16 = 0 := by rw [fld, Nat.div_eq_of_lt hv]; rfl
  have hf : (chorusCores c (m.me.xreg a.s)).find? (fun q => ((m.core q).tset t).choral) = none :=
    List.find?_eq_none.mpr fun q hq => ne_true_of_eq_false (hch q hq)
  have hg : (c :: chorusCores c (m.me.xreg a.s)).find? (fun q => 3 ≤ (m.core q).heldBut t) = none :=
    List.find?_eq_none.mpr fun q hq => by have := hhe q hq; simp only [decide_eq_true_eq]; omega
  have hok : (decide (c < meshCores) && fld (m.me.xreg a.s) 63 16 == 0 && m.me.xreg a.s != 0 &&
      !(chorusCores c (m.me.xreg a.s)).contains c && (chorusCores c (m.me.xreg a.s)).all m.live) = true := by
    simp only [hz, hout, hl, hc, bne_iff_ne.mpr h0]; rfl
  rw [semChorus, run_bind_ok (notInChorus_run hcho), run_bind_ok (srcPort_run hub false a.s), run_bind_ok (readX_run hub hre a.s),
    run_bind_ok (EStateM.run_get m)]
  simp only [Mach.here_of_cur hcur, Mach.tsNo_of_cur hcur]
  rw [run_bind_ok ((require_run _ _ _).trans (if_pos hok))]
  simp only [hf, hg]
  cases hall : (chorusCores c (m.me.xreg a.s)).all fun q => !((m.core q).tset t).busy && !((m.core q).tset t).anyBound <;> rfl

end

/-! ## What the forms leave -/

/-- A chorus that begins: its lead and its followers (R269). -/
theorem exec_chorus_begins {s : State} {c t : Nat} (hp : Plain s.mach c t = true) {a : Args} (hc : c < 73728)
    (hself : c ∉ chorusCores c (s.mach.me.xreg a.s))
    (hrun : (semChorus a).run s.mach = .ok () (s.mach.chorusBegin c t (s.mach.me.xreg a.s))) :
    ∃ v, exec (.chorus a) s = .next v ∧ (v.mach.tset (.core c t)).cho = true ∧
      (v.mach.tset (.core c t)).followers = (s.mach.me.xreg a.s).setWidth 16 ∧ (v.mach.tset (.core c t)).pc = s.mach.npc ∧
      ∀ q ∈ chorusCores c (s.mach.me.xreg a.s), ∃ id,
        v.mach.tset (.core q t) = followsFrom c id s.mach.me s.mach.npc (s.mach.tset (.core q t)) := by
  obtain ⟨hcur, -, ht, -⟩ := Plain.iff.mp hp
  obtain ⟨hnpc, hlead, hfol⟩ := Mach.core_chorusBegin s.mach (t := t) hc (s.mach.me.xreg a.s) hself
  have hl := State.tset_after hcur (s.mach.chorusBegin c t (s.mach.me.xreg a.s)) ht
  rw [hlead, Core.tset_modTs _ ht, if_pos rfl] at hl
  refine ⟨_, issue_ok (Plain.alone hp) hrun, by rw [hl]; rfl, by rw [hl]; rfl, by rw [hl]; exact hnpc, fun q hq => ?_⟩
  obtain ⟨id, hid⟩ := hfol q hq
  refine ⟨id, ?_⟩
  rw [Mach.tset, State.core_after hcur, if_neg (fun e => hself (by rwa [e] at hq)), hid, Core.tset_modTs _ ht, if_pos rfl,
    Mach.me_of_cur hcur]
  rfl

section
variable {s : State} {c t : Nat} (hc : c < 73728) (ht : t < 4) (hcur : s.mach.cur = .core c t) (hcho : s.mach.me.cho = true)
  (hh : s.mach.me.holds = none)
include hc ht hcur hcho hh

/-- The end of a chorus: its lead leads no more, and its followers are free (R270). -/
theorem exec_chorusEnd_frees {a : Args} (hfol : s.mach.me.fol = false)
    (hall : ∀ q ∈ s.mach.followersOf c t, ((s.mach.core q).tset t).fol = true) :
    ∃ v, exec (.chorusEnd a) s = .next v ∧ (v.mach.tset (.core c t)).cho = false ∧
      (v.mach.tset (.core c t)).followers = 0 ∧ (v.mach.tset (.core c t)).pc = s.mach.npc ∧
      ∀ q ∈ s.mach.followersOf c t, (v.mach.tset (.core q t)).fol = false ∧ (v.mach.tset (.core q t)).busy = false ∧
        (v.mach.tset (.core q t)).x = (s.mach.tset (.core q t)).x := by
  obtain ⟨v, hv, ⟨k, k', hlead⟩, hfs, -⟩ := chorusWord_ok (ok := fun _ => True) (sem := semChorusEnd a) (g := endedIn)
    (fun m q h _ => semChorusEnd_member a h) hc hcur fun _ _ => trivial
  rw [Mach.me_of_cur hcur] at hfol
  have hl : (v.core c).tset t =
      { ((s.mach.core c).tset t) with cho := false, followers := 0 }.advance s.mach.npc k' := by
    rw [hlead, Core.tset_modTs _ ht, if_pos rfl, Core.tset_modTs _ ht, if_pos rfl, endedIn,
      if_neg (ne_true_of_eq_false hfol)]
  refine ⟨{ s with mach := v }, (issue_chorus hc ht hcur hcho hh).trans (by rw [hv]; rfl), ?_, ?_, ?_, fun q hq => ?_⟩
  · exact congrArg ThreadSet.cho hl
  · exact congrArg ThreadSet.followers hl
  · exact congrArg ThreadSet.pc hl
  · obtain ⟨k, hk⟩ := hfs q hq
    have hq' : (v.core q).tset t =
        { ((s.mach.core q).tset t).release with fol := false, lead := 0, notBefore := k, pc := s.mach.npc } := by
      rw [hk, Core.tset_modTs _ ht, if_pos rfl, Core.tset_modTs _ ht, if_pos rfl, endedIn, if_pos (hall q hq)]
    exact ⟨congrArg ThreadSet.fol hq', congrArg ThreadSet.busy hq', (congrArg ThreadSet.x hq').trans rfl⟩

/-- The long `add` of a chorus: each member adds its own registers (R23, R172). -/
theorem exec_add_chorus {a : Args} (hsh : a.short = false) (hp : a.p = 7)
    (hall : ∀ q ∈ c :: s.mach.followersOf c t, ((s.mach.core q).tset t).anyBound = false ∧ ((s.mach.core q).tset t).regErr = []) :
    ∃ v, exec (.add a) s = .next v ∧ (∀ q ∈ c :: s.mach.followersOf c t, (v.mach.tset (.core q t)).pc = s.mach.npc ∧
        (v.mach.tset (.core q t)).x = (addedIn a (s.mach.tset (.core q t))).x) ∧
      ∀ o, o ∉ c :: s.mach.followersOf c t → v.mach.core o = s.mach.core o := by
  obtain ⟨v, hv, ⟨k, k', hlead⟩, hfs, hout⟩ := chorusWord_ok (ok := fun f => f.anyBound = false ∧ f.regErr = [])
    (sem := semBin (· + ·) a) (g := fun _ => addedIn a) (fun m q h => semAdd_member hsh hp h) hc hcur hall
  refine ⟨{ s with mach := v }, (issue_chorus hc ht hcur hcho hh).trans (by rw [hv]; rfl), fun q hq => ?_, hout⟩
  rcases List.mem_cons.mp hq with rfl | hq
  · rw [Mach.tset, hlead, Core.tset_modTs _ ht, if_pos rfl, Core.tset_modTs _ ht, if_pos rfl]
    exact ⟨rfl, rfl⟩
  · obtain ⟨k, hk⟩ := hfs q hq
    rw [Mach.tset, hk, Core.tset_modTs _ ht, if_pos rfl, Core.tset_modTs _ ht, if_pos rfl]
    exact ⟨rfl, rfl⟩

end

end Sys2Proof.Machine

open Sys2Proof Sys2Proof.Machine

/-- Settles O41: the members are distinct cores, and each changes its own thread set. -/
theorem chorusForms : Obligations.ChorusForms := by
  refine ⟨?forms, ?word⟩
  case forms =>
    intro s c t a fs hc hfs
    rw [← chorusCores_eq hc] at hfs
    subst hfs
    refine ⟨?begins, ?waits, ?self, ?ends⟩
    case begins =>
      rintro ⟨hp, ⟨hv, h0, hout, hl, hhe⟩, hsets⟩
      obtain ⟨hcur, -, ht, hcho, -, -, hub, hre⟩ := Plain.iff.mp hp
      simp only [List.all_map, List.all_eq_true, Function.comp, Bool.and_eq_true, Bool.not_eq_true'] at hsets
      have hrun := semChorus_named (a := a) hcur hcho hub hre hc hv h0 hout hl (fun q hq => (hsets q hq).2)
        fun q hq => of_decide_eq_true (List.all_eq_true.mp hhe q hq)
      rw [if_pos (List.all_eq_true.mpr fun q hq => by simp [(hsets q hq).1])] at hrun
      obtain ⟨v, hv, h1, h2, h3, hf⟩ := exec_chorus_begins hp hc (fun h => by simp [h] at hout) hrun
      refine ⟨v, hv, h1, h2, h3, fun q hq => ?_⟩
      obtain ⟨id, hid⟩ := hf q hq
      simp only [hid]
      exact ⟨rfl, rfl, rfl, rfl, rfl, rfl⟩
    case waits =>
      rintro ⟨hp, ⟨hv, h0, hout, hl, hhe⟩, hbusy, hch⟩
      obtain ⟨hcur, -, ht, hcho, -, -, hub, hre⟩ := Plain.iff.mp hp
      simp only [List.all_map, List.all_eq_true, Function.comp, Bool.not_eq_true'] at hch
      simp only [List.any_map, List.any_eq_true, Function.comp, Bool.or_eq_true] at hbusy
      obtain ⟨q, hq, hb⟩ := hbusy
      refine issue_wait (Plain.alone hp) ((semChorus_named hcur hcho hub hre hc hv h0 hout hl hch
        fun q hq => of_decide_eq_true (List.all_eq_true.mp hhe q hq)).trans (if_neg fun h => ?_))
      have := List.all_eq_true.mp h q hq
      rcases hb with hb | hb <;> simp [hb] at this
    case self =>
      rintro ⟨hp, -, hin⟩
      obtain ⟨hcur, -, ht, hcho, -, -, hub, hre⟩ := Plain.iff.mp hp
      exact issue_traps (Plain.alone hp) (semChorus_self hcur hcho hub hre hin)
    case ends =>
      rintro ⟨hcur, ht, hcho, hfol, hh, hall⟩
      exact exec_chorusEnd_frees hc ht hcur hcho hh hfol (List.all_eq_true.mp hall)
  case word =>
    intro s c t a fs o hc ht hcur hfs hcho hh hsh hp set hall
    subst hfs
    simp only [List.all_eq_true, Bool.and_eq_true, Bool.not_eq_true', beq_iff_eq] at hall
    obtain ⟨v, hv, hin, hout⟩ := exec_add_chorus hc ht hcur hcho hh hsh hp hall
    exact ⟨v, hv, hin, fun ho => hout o fun h => by simp [h] at ho⟩
end

section
/-! PROOF. An asynchronous trap of a chorus lead waits while a follower's ended Schur operation has still to complete (R23, R243, R307). -/

namespace Sys2Proof.Machine

open Sys2Proof

/-- A trap waits while a Schur operation of the thread set, or of a follower that it leads, has written its results (R243, R307). -/
theorem Mach.asyncTrap_schurWritten {m : Mach} {c t : Nat} (hd : ((m.core c).tset t).dying = none) (hw : m.schurWritten c t = true) :
    m.asyncTrap c t = none := by
  simp only [Mach.asyncTrap, hd, hw]
  cases ((m.core c).tset t).pend with
  | nil => rfl
  | cons r rs => exact if_neg (by simp)

/-- Thread set 0 of core 0 leads a chorus with core 1, has a handler and one asynchronous trap to take. -/
def leadCore : Core :=
  { ts := #v[{ busy := true, cho := true, followers := 2, kvec := 2, pend := [{}] }, {}, {}, {}], placed := true }

/-- Thread set 0 of core 1 follows core 0; its Schur operation has ended, and its thread set has not yet gone on. -/
def followerCore : Core :=
  { ts := #v[{ busy := true, fol := true, lead := 0 }, {}, {}, {}], placed := true
    schur := some { ts := 0, done := 0, ranges := [], writes := [], result := none, singular := none, ended := true } }

/-- A running partition with the two cores. -/
def chorusMach : Mach := { cores := [(0, leadCore), (1, followerCore)], parts := Vector.replicate 16 { st := .running } }

/-- The lead's trap is not taken: the follower's operation completes first. -/
theorem chorusMach_asyncTrap : chorusMach.asyncTrap 0 0 = none :=
  Mach.asyncTrap_schurWritten rfl (by decide)

end Sys2Proof.Machine

open Sys2Proof Sys2Proof.Machine

/-- Refutes O44: the clause on asynchronous traps asks that the thread set's own core has no ended Schur operation, and not the same of
the followers of a chorus lead. In `chorusMach` every premise of the clause holds of thread set 0 of core 0, and its trap is not taken. -/
theorem not_entriesAreTaken : ¬ Obligations.EntriesAreTaken := by
  intro h
  obtain ⟨-, -, -, -, -, -, htrap⟩ := h { mach := chorusMach } 0 0 0 0 0 0 0 false 0 {} [] (by decide) (by decide)
  obtain ⟨v, hv, -, -, -, hpend, -⟩ := htrap (by decide)
  have hstay : v = { mach := chorusMach } := by
    change event (fun m => (m.asyncTrap 0 0).getD m) { mach := chorusMach } = .next v at hv
    rw [event, chorusMach_asyncTrap] at hv
    exact (Host.Outcome.next.inj hv).symm
  rw [hstay] at hpend
  exact absurd hpend (by decide)
end

section
/-! PROOF. A trap of a chorus lead abandons the Schur operations of its followers, on their own cores (R23, R243, R269, R307). -/

namespace Sys2Proof.Machine

open Sys2Proof

/-- Thread set 0 of core 0 leads core 1 and has a handler; it waits in `chorus` for core 1 since cycle 0. -/
def waitingLead : Core :=
  { ts := #v[{ busy := true, cho := true, followers := 2, kvec := 2, wait := some { kind := .chorus 2, since := 0 } }, {}, {}, {}]
    placed := true }

/-- Thread set 0 of core 1 is busy with a Schur operation. -/
def schurCore : Core :=
  { ts := #v[{ busy := true }, {}, {}, {}], placed := true
    schur := some { ts := 0, done := 9, ranges := [], writes := [], result := none, singular := none } }

/-- The two cores in a running partition, after the lead's 65,536 cycles. -/
def timeoutMach : Mach :=
  { clk := 65537, cores := [(0, waitingLead), (1, schurCore)], parts := Vector.replicate 16 { st := .running } }

/-- The time-out is due, and its trap entry takes the Schur operation from core 1. -/
theorem timeoutMach_chorusTimeout : (timeoutMach.chorusTimeout 0 0).map (fun m => (m.core 1).schur) = some none := by decide

end Sys2Proof.Machine

open Sys2Proof Sys2Proof.Machine

/-- Refutes O46: the clause on CHORUS_WAIT_TIMEOUT says that every other core stays as it is, without asking that the thread set leads no
chorus. In `timeoutMach` it leads one, and the trap entry abandons the Schur operation of its follower's core. -/
theorem not_waitsEnd : ¬ Obligations.WaitsEnd := by
  intro h
  obtain ⟨-, -, -, -, -, -, -, -, -, htimeout, -⟩ :=
    h { mach := timeoutMach } 0 0 0 0 0 0 0 0 1 0 0 2 {} (by decide) (by decide) (by decide)
  obtain ⟨v, hv, ⟨-, hother⟩, -⟩ := htimeout (by decide)
  have hcore : v.mach.core 1 = schurCore := hother (by decide)
  change event (fun m => (m.chorusTimeout 0 0).getD m) { mach := timeoutMach } = .next v at hv
  obtain ⟨m', hm', hschur⟩ := Option.map_eq_some_iff.mp timeoutMach_chorusTimeout
  rw [event, hm'] at hv
  obtain rfl := Host.Outcome.next.inj hv
  rw [show (m'.core 1) = schurCore from hcore] at hschur
  cases hschur
end

section
/-! PROOF. A Schur operation whose end a running matrix operation holds back (R230, R243). -/

namespace Sys2Proof.Machine

open Sys2Proof

/-- A Schur operation does not complete while a running matrix operation holds back a word that it writes (R230). -/
theorem Mach.schurComplete_held {m : Mach} {c : Nat} {z : Schur} (hz : (m.core c).schur = some z)
    (hheld : ((cellWords z.writes).any fun w => m.matHeld c (8 * w) 8) = true) : m.schurComplete c = none := by
  simp only [Mach.schurComplete, hz, hheld]
  exact if_neg (by simp)

/-- A solo matrix operation that runs until cycle 9 and reads its B columns from offset 0 on. -/
def runningOp : MatOp :=
  { acc := 0, gang := false, a := 0x4000, b := 0, sample := {}, ts := 1, cid := 0, pc := 0, phase := .running 9 [] }

/-- A Schur operation whose time is over and whose result is one byte at offset 0. -/
def dueSchur : Schur := { ts := 0, done := 0, ranges := [], writes := [(0, 1)], result := none, singular := none }

/-- Core 0 with both. -/
def heldMach : Mach := { cores := [(0, { mat := [runningOp], schur := some dueSchur })] }

/-- Nothing is written while the matrix operation runs. -/
theorem heldMach_schurComplete : heldMach.schurComplete 0 = none := Mach.schurComplete_held rfl (by decide)

end Sys2Proof.Machine

open Sys2Proof Sys2Proof.Machine

/-- Refutes O49: the clause on SCHUR_COMPLETE does not ask that no running matrix operation holds a written word back (R230). In `heldMach`
the Schur operation's time is over and it has not ended, and the event leaves it so. -/
theorem not_matrixOperationsRun : ¬ Obligations.MatrixOperationsRun := by
  intro h
  obtain ⟨-, -, -, -, -, hend⟩ := h { mach := heldMach } 0 0 0 0 0 0 0 false runningOp { row := 0, pair := false, first := 0, arrived := [] }
    [] dueSchur 0 0 (by decide) (by decide)
  obtain ⟨v, hv, hschur, -⟩ := hend (by decide)
  change event (fun m => (m.schurComplete 0).getD m) { mach := heldMach } = .next v at hv
  rw [event, heldMach_schurComplete] at hv
  obtain rfl := Host.Outcome.next.inj hv
  exact absurd hschur (by decide)
end

section
/-! PROOF. The special cases of the f32 operations: a pattern by its magnitude, and what division, NaN operands and the sign forms
give (R34, R47, R222). -/

namespace Sys2Proof.Machine

open Sys2Proof

/-! ## Patterns of f32 by their magnitude (R34) -/

/-- The sign bit of an f32 pattern. -/
def signF32 (x : Nat) : Bool := x / 2 ^ 31 % 2 == 1

theorem b2n_bne (a b : Bool) : b2n (a != b) = (b2n a + b2n b) % 2 := by cases a <;> cases b <;> rfl

theorem b2n_signF32 (x : Nat) : b2n (signF32 x) = x / 2 ^ 31 % 2 := by
  rcases Nat.mod_two_eq_zero_or_one (x / 2 ^ 31) with h | h <;> simp only [signF32, h] <;> rfl

theorem pack_f32 (neg : Bool) (e m : Nat) : fmtF32.pack neg e m = b2n neg * 2 ^ 31 + e * 2 ^ 23 + m := rfl

/-- The fields of an f32 pattern and what they say. -/
theorem read_f32 (x : Nat) : fmtF32.read false x =
    if x / 2 ^ 23 % 2 ^ 8 = 255 then
      if x % 2 ^ 23 = 0 then .inf (signF32 x) else .nan (signF32 x) (decide (x % 2 ^ 23 < 2 ^ 22)) (x % 2 ^ 22 * 2 ^ 42)
    else if x / 2 ^ 23 % 2 ^ 8 = 0 then .fin (signF32 x) (x % 2 ^ 23) fmtF32.qmin
    else .fin (signF32 x) (2 ^ 23 + x % 2 ^ 23) (fmtF32.qmin + (x / 2 ^ 23 % 2 ^ 8 : Nat) - 1) := by
  simp [FloatFmt.read, fmtF32, FloatFmt.top, signF32]
  rfl

theorem read_f32_zero {x : Nat} (h : x % 2 ^ 31 = 0) : fmtF32.read false x = .fin (signF32 x) 0 fmtF32.qmin := by
  have hm : x % 2 ^ 23 = 0 := by omega
  rw [read_f32, if_neg (by omega), if_pos (by omega), hm]

theorem read_f32_inf {x : Nat} (h : x % 2 ^ 31 = 0x7F800000) : fmtF32.read false x = .inf (signF32 x) := by
  rw [read_f32, if_pos (by omega), if_pos (by omega)]

theorem read_f32_nan {x : Nat} (h : 0x7F800000 < x % 2 ^ 31) :
    fmtF32.read false x = .nan (signF32 x) (x / 2 ^ 22 % 2 == 0) (x % 2 ^ 22 * 2 ^ 42) := by
  have hsig : decide (x % 2 ^ 23 < 2 ^ 22) = (x / 2 ^ 22 % 2 == 0) := by
    rw [Bool.eq_iff_iff, decide_eq_true_eq, beq_iff_eq]
    omega
  rw [read_f32, if_pos (by omega), if_neg (by omega), hsig]

/-- A pattern that is neither a NaN nor an infinity is finite, and a zero only where its magnitude is. -/
theorem read_f32_fin {x : Nat} (h : x % 2 ^ 31 < 0x7F800000) :
    ∃ m e, fmtF32.read false x = .fin (signF32 x) m e ∧ (m = 0 → x % 2 ^ 31 = 0) := by
  rw [read_f32, if_neg (by omega)]
  split
  · exact ⟨_, _, rfl, by omega⟩
  · exact ⟨_, _, rfl, by omega⟩

/-- A pattern that is no NaN reads as none. -/
theorem isNan_read_f32 {x : Nat} (h : ¬ 0x7F800000 < x % 2 ^ 31) : (fmtF32.read false x).isNan = false := by
  rcases Nat.lt_or_eq_of_le (Nat.le_of_not_lt h) with hlt | heq
  · obtain ⟨m, e, hr, -⟩ := read_f32_fin hlt
    rw [hr]; rfl
  · rw [read_f32_inf heq]; rfl

/-! ## NaN operands (R47) -/

/-- A NaN pattern with its quiet bit set. -/
def quietF32 (x : Nat) : Nat := if x / 2 ^ 22 % 2 = 0 then x + 2 ^ 22 else x

/-- Writing a NaN quiet keeps its sign and its payload. -/
theorem quiet_f32 {x : Nat} (hx : x < 2 ^ 32) (h : 0x7F800000 < x % 2 ^ 31) :
    fmtF32.quiet (signF32 x) (x % 2 ^ 22 * 2 ^ 42) = quietF32 x := by
  have hq : fmtF32.quiet (signF32 x) (x % 2 ^ 22 * 2 ^ 42) =
      fmtF32.pack (signF32 x) 255 (2 ^ 22 + x % 2 ^ 22 * 2 ^ 42 / 2 ^ 42) := rfl
  rw [hq, Nat.mul_div_cancel _ (by decide), pack_f32, b2n_signF32, quietF32]
  split <;> omega

/-- With no NaN among the operands there is no NaN to give. -/
theorem firstNan_none {f : FloatFmt} {xs : List FVal} (h : ∀ v ∈ xs, v.isNan = false) : f.firstNan xs = none := by
  rw [FloatFmt.firstNan, List.find?_eq_none.mpr fun v hv => by simp [h v hv]]

/-- An f32 pattern is a signalling NaN. -/
def signalsF32 (x : Nat) : Bool := decide (0x7F800000 < x % 2 ^ 31) && x / 2 ^ 22 % 2 == 0

theorem signals_read_f32 (x : Nat) : (fmtF32.read false x).signals = signalsF32 x := by
  by_cases h : 0x7F800000 < x % 2 ^ 31
  · rw [read_f32_nan h, signalsF32, decide_eq_true h, Bool.true_and]; rfl
  · have hn := isNan_read_f32 h
    rw [signalsF32, decide_eq_false h, Bool.false_and]
    cases hr : fmtF32.read false x <;> rw [hr] at hn
    case nan => cases hn
    all_goals rfl

/-- The first NaN of two operands, with NV where one of them signals. -/
theorem firstNan_pair {f : FloatFmt} {a b : FVal} {n s : Bool} {p : Nat}
    (h : a = .nan n s p ∨ (a.isNan = false ∧ b = .nan n s p)) :
    f.firstNan [a, b] = some (f.quiet n p, flagIf (a.signals || b.signals) flagNV) := by
  rcases h with rfl | ⟨ha, rfl⟩
  · simp [FloatFmt.firstNan, List.find?_cons, FVal.isNan]
  · rw [FloatFmt.firstNan, List.find?_cons, ha]
    simp [FVal.isNan]

/-- Sums, products and quotients with a NaN operand give the first NaN. -/
theorem ops_of_firstNan {f : FloatFmt} {mode x y : Nat} {r : Nat × FFlags}
    (h : f.firstNan [f.read false x, f.read false y] = some r) :
    f.add mode x y = r ∧ f.mul mode x y = r ∧ f.div mode x y = r := by
  simp only [FloatFmt.add, FloatFmt.mul, FloatFmt.div, h, Option.getD_some, and_self]

theorem ops_f32_nan_first {mode x y : Nat} (hx : x < 2 ^ 32) (h : 0x7F800000 < x % 2 ^ 31) :
    let r := (quietF32 x, flagIf (signalsF32 x || signalsF32 y) flagNV)
    fmtF32.add mode x y = r ∧ fmtF32.mul mode x y = r ∧ fmtF32.div mode x y = r := by
  apply ops_of_firstNan
  rw [firstNan_pair (.inl (read_f32_nan h)), signals_read_f32, signals_read_f32, quiet_f32 hx h]

theorem ops_f32_nan_second {mode x y : Nat} (hy : y < 2 ^ 32) (hx : ¬ 0x7F800000 < x % 2 ^ 31) (h : 0x7F800000 < y % 2 ^ 31) :
    let r := (quietF32 y, flagIf (signalsF32 x || signalsF32 y) flagNV)
    fmtF32.add mode x y = r ∧ fmtF32.mul mode x y = r ∧ fmtF32.div mode x y = r := by
  apply ops_of_firstNan
  rw [firstNan_pair (.inr ⟨isNan_read_f32 hx, read_f32_nan h⟩), signals_read_f32, signals_read_f32, quiet_f32 hy h]

/-! ## Division and the sign forms (R222) -/

/-- The infinity of a quotient's sign. -/
theorem infinity_f32 (x y : Nat) :
    fmtF32.infinity (signF32 x != signF32 y) = (x / 2 ^ 31 + y / 2 ^ 31) % 2 * 2 ^ 31 + 0x7F800000 := by
  rw [FloatFmt.infinity, pack_f32, b2n_bne, b2n_signF32, b2n_signF32, ← Nat.add_mod]
  rfl

/-- A pattern reads with its sign bit, whatever it holds. -/
theorem neg_read_f32 (x : Nat) : (fmtF32.read false x).neg = signF32 x := by
  simp only [FloatFmt.read]
  split_ifs <;> rfl

/-- The sign forms of a pattern that is no NaN clear or invert its sign bit. -/
theorem signOp_f32 {x : Nat} (h : ¬ 0x7F800000 < x % 2 ^ 31) :
    fmtF32.signOp false x = (x % 2 ^ 31, 0) ∧ fmtF32.signOp true x = ((x + 2 ^ 31) % 2 ^ 32, 0) := by
  have hn : fmtF32.firstNan [fmtF32.read false x] = none := firstNan_none (by simpa using isNan_read_f32 h)
  have hop (inv : Bool) : fmtF32.signOp inv x = (b2n (inv && !signF32 x) * 2 ^ 31 + x % 2 ^ 31, 0) := by
    rw [FloatFmt.signOp, hn, Option.getD_none, neg_read_f32, pack_f32, Nat.zero_mul, Nat.add_zero,
      show fmtF32.eb + fmtF32.fb = 31 from rfl]
  have hs := b2n_signF32 x
  rw [hop, hop]
  refine ⟨by simp [b2n], congrArg (·, 0) ?_⟩
  cases hb : signF32 x <;> simp only [hb, b2n] at hs ⊢ <;> simp at hs ⊢ <;> omega

end Sys2Proof.Machine

open Sys2Proof Sys2Proof.Machine

/-- Settles O30: the operands read by their magnitude, and each operation on what they read as. -/
theorem floatSpecialCases : Obligations.FloatSpecialCases := by
  intro mode x y hx hy
  dsimp only
  refine ⟨?zeros, ?infs, ?byZero, ?infByZero, ?first, ?second, ?signs⟩
  case zeros =>
    rintro ⟨h0, h1⟩
    rw [FloatFmt.div, read_f32_zero h0, read_f32_zero h1]
    rfl
  case infs =>
    rintro ⟨h0, h1⟩
    rw [FloatFmt.div, read_f32_inf h0, read_f32_inf h1]
    rfl
  case byZero =>
    rintro ⟨hpos, hfin, h1⟩
    obtain ⟨m, e, hr, hm⟩ := read_f32_fin hfin
    have hm0 : m ≠ 0 := fun h => by have := hm h; omega
    rw [FloatFmt.div, hr, read_f32_zero h1, ← infinity_f32]
    rw [firstNan_none (by simp [FVal.isNan]), Option.getD_none]
    exact (if_pos rfl).trans (if_neg hm0)
  case infByZero =>
    rintro ⟨h0, h1⟩
    rw [FloatFmt.div, read_f32_inf h0, read_f32_zero h1, ← infinity_f32]
    rfl
  case first =>
    intro h
    exact ops_f32_nan_first hx (of_decide_eq_true h)
  case second =>
    rintro ⟨h0, h1⟩
    exact ops_f32_nan_second hy (of_decide_eq_false h0) (of_decide_eq_true h1)
  case signs =>
    intro h
    exact signOp_f32 (of_decide_eq_false h)
end

section
/-! PROOF. Lanes: digits of a number, and what the lanes of a merged, a packed and a masked register are (R37, R55, R214). -/

namespace Sys2Proof.Machine

open Sys2Proof

/-! ## Digits -/

/-- The number with digit `d k` of `w` bits at place `k`, for the places below `n`. -/
def digitSum (w : Nat) (d : Nat → Nat) (n : Nat) : Nat := ((List.range n).map fun k => d k * 2 ^ (w * k)).sum

theorem digitSum_succ (w : Nat) (d : Nat → Nat) (n : Nat) : digitSum w d (n + 1) = digitSum w d n + d n * 2 ^ (w * n) := by
  simp [digitSum, List.range_succ]

theorem digitSum_lt {w : Nat} {d : Nat → Nat} {n : Nat} (h : ∀ k < n, d k < 2 ^ w) : digitSum w d n < 2 ^ (w * n) := by
  induction n with
  | zero => simp [digitSum]
  | succ n ih =>
    have hlow := ih fun k hk => h k (by omega)
    have hd : d n + 1 ≤ 2 ^ w := h n (by omega)
    calc digitSum w d (n + 1) < 2 ^ (w * n) + d n * 2 ^ (w * n) := by rw [digitSum_succ]; omega
      _ = (d n + 1) * 2 ^ (w * n) := by ring
      _ ≤ 2 ^ w * 2 ^ (w * n) := Nat.mul_le_mul_right _ hd
      _ = 2 ^ (w * (n + 1)) := by rw [← pow_add]; ring_nf

/-- The digits of such a number are those it was made of. -/
theorem digitSum_digit {w : Nat} {d : Nat → Nat} {n j : Nat} (h : ∀ k < n, d k < 2 ^ w) (hj : j < n) :
    digitSum w d n / 2 ^ (w * j) % 2 ^ w = d j := by
  induction n with
  | zero => omega
  | succ n ih =>
    rw [digitSum_succ]
    rcases Nat.lt_or_eq_of_le (Nat.le_of_lt_succ hj) with hlt | rfl
    · obtain ⟨i, rfl⟩ := Nat.exists_eq_add_of_lt hlt
      have hhigh : d (j + i + 1) * 2 ^ (w * (j + i + 1)) = 2 ^ (w * j) * (2 ^ w * (d (j + i + 1) * 2 ^ (w * i))) := by
        rw [show w * (j + i + 1) = w * j + (w + w * i) by ring, pow_add, pow_add]; ring
      rw [hhigh, Nat.add_mul_div_left _ _ (by positivity), Nat.add_mul_mod_self_left]
      exact ih (fun k hk => h k (by omega)) hlt
    · rw [Nat.add_mul_div_right _ _ (by positivity), Nat.div_eq_of_lt (digitSum_lt fun k hk => h k (by omega)), Nat.zero_add,
        Nat.mod_eq_of_lt (h j hj)]

/-- A sum over the listed places of a range is the sum of digits that are zero at the other places. -/
theorem foldl_filter_digitSum (w n : Nat) (p : Nat → Bool) (f g : Nat → Nat) (hg : ∀ k, g k = w * k) :
    ((List.range n).filter p).foldl (fun v k => v + f k * 2 ^ g k) 0 = digitSum w (fun k => if p k then f k else 0) n := by
  have hsum : ∀ (l : List Nat) (v : Nat), (l.filter p).foldl (fun v k => v + f k * 2 ^ g k) v =
      v + (l.map fun k => (if p k then f k else 0) * 2 ^ (w * k)).sum := by
    intro l
    induction l with
    | nil => simp
    | cons k l ih =>
      intro v
      by_cases hp : p k = true
      · rw [List.filter_cons_of_pos hp, List.foldl_cons, ih, List.map_cons, List.sum_cons, if_pos hp, hg, Nat.add_assoc]
      · rw [List.filter_cons_of_neg hp, ih, List.map_cons, List.sum_cons, if_neg hp, Nat.zero_mul, Nat.zero_add]
  rw [hsum, Nat.zero_add, digitSum]

/-! ## Lanes of a register -/

/-- Bit `i` of a lane. -/
theorem testBit_laneOf (v : V128) (n k i : Nat) :
    (laneOf v n k).testBit i = (decide (i < 8 * n) && v.getLsbD (8 * n * k + i)) := by
  rw [laneOf, Nat.testBit_mod_two_pow, Nat.testBit_div_two_pow, BitVec.getLsbD, Nat.add_comm i]

theorem testBit_leNat (bs : List Byte) (i : Nat) : (leNat bs).testBit i = (bs.getD (i / 8) 0).getLsbD (i % 8) := by
  induction bs generalizing i with
  | nil => simp [leNat]
  | cons b bs ih =>
    rw [leNat, show (256 : Nat) = 2 ^ 8 from rfl, Nat.add_comm, Nat.testBit_two_pow_mul_add _ b.isLt]
    split
    · rw [Nat.div_eq_of_lt ‹_›, Nat.mod_eq_of_lt ‹_›]; rfl
    · obtain ⟨j, rfl⟩ := Nat.exists_eq_add_of_le (Nat.le_of_not_lt ‹_›)
      rw [ih, Nat.add_sub_cancel_left, Nat.add_div_left _ (by decide), Nat.add_mod_left]
      rfl

/-- A merged register has the bits of the new one under the mask and those of the old one elsewhere (R55). -/
theorem getLsbD_mergeBytes (mask : BitVec 16) (old new : V128) {i : Nat} (hi : i < 128) :
    (mergeBytes mask old new).getLsbD i = if mask.getLsbD (i / 8) then new.getLsbD i else old.getLsbD i := by
  have hbit (v : V128) : (vbyte v (i / 8)).getLsbD (i % 8) = v.getLsbD i := by
    rw [vbyte, BitVec.getLsbD_extractLsb', decide_eq_true (Nat.mod_lt _ (by decide)), Bool.true_and, Nat.div_add_mod]
  have hget : i / 8 < 16 := by omega
  rw [mergeBytes, vecOf, BitVec.getLsbD_ofNat, decide_eq_true hi, Bool.true_and, testBit_leNat]
  simp only [List.getD_eq_getElem?_getD, List.getElem?_map, List.getElem?_range hget, Option.map_some, Option.getD_some]
  split
  · exact hbit new
  · exact hbit old

/-- A lane whose bytes the mask covers, or does not touch, is that of the new register, or of the old one. -/
theorem laneOf_mergeBytes {mask : BitVec 16} {b : Bool} {n k : Nat} (hk : n * k + n ≤ 16)
    (hmask : ∀ j, n * k ≤ j → j < n * k + n → mask.getLsbD j = b) (old new : V128) :
    laneOf (mergeBytes mask old new) n k = if b then laneOf new n k else laneOf old n k := by
  apply Nat.eq_of_testBit_eq
  intro i
  rw [← apply_ite (fun v => laneOf v n k), testBit_laneOf, testBit_laneOf]
  by_cases hi : i < 8 * n
  · rw [Nat.mul_assoc, getLsbD_mergeBytes _ _ _ (by omega), hmask _ (by omega) (by omega)]
    cases b <;> rfl
  · simp [hi]

/-! ## Lane masks and packed lanes -/

/-- A lane lies in its register, where the lane size divides that of a register. -/
theorem activeLanes_places {n k : Nat} (hn : 16 / n * n = 16) (hk : k < 16 / n) : n * k + n ≤ 16 := by
  calc n * k + n = (k + 1) * n := by ring
    _ ≤ 16 / n * n := Nat.mul_le_mul_right n hk
    _ = 16 := hn

/-- A lane mask covers the active lanes and touches no other (R55). -/
theorem getLsbD_laneMask (mask : BitVec 16) {n k j : Nat} (hn : 16 / n * n = 16) (hk : k < 16 / n) (hj : n * k ≤ j)
    (hj' : j < n * k + n) : (laneMask mask n).getLsbD j = mask.getLsbD (k * n) := by
  have hlt : ∀ i < 16 / n, (if mask.getLsbD (i * n) then 2 ^ n - 1 else 0) < 2 ^ n := fun i _ => by
    have := Nat.two_pow_pos n
    split <;> omega
  have hplace := activeLanes_places hn hk
  have hdigit := congrArg (Nat.testBit · (j - n * k)) (digitSum_digit hlt hk)
  simp only [Nat.testBit_mod_two_pow, Nat.testBit_div_two_pow] at hdigit
  rw [decide_eq_true (by omega), Bool.true_and, Nat.sub_add_cancel hj] at hdigit
  rw [laneMask, activeLanes, foldl_filter_digitSum n _ _ _ _ (fun k => Nat.mul_comm k n), BitVec.getLsbD_ofNat,
    decide_eq_true (by omega), Bool.true_and, hdigit]
  cases mask.getLsbD (k * n)
  · simp
  · simp [Nat.testBit_two_pow_sub_one]; omega

/-- The lanes of a register packed from the active lanes. -/
theorem laneOf_vecLanes (mask : BitVec 16) {n k : Nat} {f : Nat → Nat} (hn : 16 / n * n = 16) (hf : ∀ i < 16 / n, f i < 2 ^ (8 * n))
    (hk : k < 16 / n) (ha : mask.getLsbD (k * n) = true) :
    laneOf (vecLanes n ((activeLanes mask n).map fun i => (i, f i))) n k = f k := by
  have hlt : ∀ i < 16 / n, (if mask.getLsbD (i * n) then f i else 0) < 2 ^ (8 * n) := fun i hi => by
    split
    · exact hf i hi
    · positivity
  have hwhole := digitSum_lt hlt
  rw [show 8 * n * (16 / n) = 128 by rw [Nat.mul_assoc, Nat.mul_comm n, hn]] at hwhole
  rw [laneOf, vecLanes, List.foldl_map, activeLanes, foldl_filter_digitSum (8 * n) _ _ _ _ (fun _ => rfl), BitVec.toNat_ofNat,
    Nat.mod_eq_of_lt hwhole, digitSum_digit hlt hk, if_pos ha]

/-- What a masked write of packed lanes leaves in each lane (R55, R214). -/
theorem laneOf_mergeLanes (mask : BitVec 16) {n k : Nat} {f : Nat → Nat} (hn : 16 / n * n = 16) (hf : ∀ i < 16 / n, f i < 2 ^ (8 * n))
    (hk : k < 16 / n) (old : V128) :
    laneOf (mergeBytes (laneMask mask n) old (vecLanes n ((activeLanes mask n).map fun i => (i, f i)))) n k =
      if mask.getLsbD (k * n) then f k else laneOf old n k := by
  rw [laneOf_mergeBytes (activeLanes_places hn hk) fun j hj hj' => getLsbD_laneMask mask hn hk hj hj']
  split
  · exact laneOf_vecLanes mask hn hf hk ‹_›
  · rfl

end Sys2Proof.Machine
end

section
/-! PROOF. Changes of the agent's thread set one after another, and the loop over the registers of a group (R56, R214). -/

namespace Sys2Proof.Machine

open Sys2Proof

/-! ## One change after another -/

theorem Map.erase_place {α : Type} (m : Map α) (k : Nat) (v : α) : Map.erase (Map.place m k v) k = Map.erase m k := by
  induction m with
  | nil => simp [Map.place, Map.erase]
  | cons c m ih =>
    rw [Map.place]
    split
    · simp [Map.erase]
    · simp [Map.erase, ih]

theorem Map.erase_erase {α : Type} (m : Map α) (k : Nat) : Map.erase (Map.erase m k) k = Map.erase m k := by
  induction m with
  | nil => rfl
  | cons c m ih =>
    obtain ⟨j, v⟩ := c
    by_cases h : k = j
    · subst h; simp [Map.erase, ih]
    · simp [Map.erase, h, ih]

/-- The last of two writes of one entry stands. -/
theorem Map.set_set {α : Type} (m : Map α) (k : Nat) (v v' : α) : Map.set (Map.set m k v) k v' = Map.set m k v' := by
  rw [Map.set, Map.set, Map.erase_place, Map.erase_erase, Map.set]

theorem vset_vset {α : Type} {n : Nat} (v : Vector α n) (i : Nat) (x y : α) : vset (vset v i x) i y = vset v i y := by
  simp [vset]

section
variable {m : Mach} {c t : Nat} (hc : m.cur = .core c t)
include hc

/-- A change of the agent's thread set says something of that thread set alone. -/
theorem Mach.modMe_congr {f g : ThreadSet → ThreadSet} (h : f m.me = g m.me) : m.modMe f = m.modMe g := by
  rw [Mach.me_of_cur hc] at h
  simp only [Mach.modMe_of_cur hc, Mach.modCore, Core.modTs, h]

variable (ht : t < 4)
include ht

theorem Mach.me_modMe (f : ThreadSet → ThreadSet) : (m.modMe f).me = f m.me := by
  have hc' : (m.modMe f).cur = .core c t := (m.cur_modMe f).trans hc
  rw [Mach.me_of_cur hc', Mach.core_modMe hc, if_pos rfl, Core.tset_modTs _ ht, if_pos rfl, Mach.me_of_cur hc]

/-- Two changes of the agent's thread set are one. -/
theorem Mach.modMe_modMe (f g : ThreadSet → ThreadSet) : (m.modMe f).modMe g = m.modMe fun u => g (f u) := by
  have hc' : (m.modMe f).cur = .core c t := (m.cur_modMe f).trans hc
  rw [Mach.modMe_of_cur hc', Mach.modCore, Mach.core_modMe hc, if_pos rfl, Mach.modMe_of_cur hc, Mach.modMe_of_cur hc, Mach.modCore,
    Mach.modCore, Mach.setCore, Mach.setCore, Mach.setCore]
  simp only [Map.set_set, Core.modTs, vset_vset, Core.tset, vget_vset_same _ _ _ ht]

/-- Listed changes of the agent's thread set, one after another. -/
theorem Mach.me_foldl_modMe {α : Type} (upd : α → ThreadSet → ThreadSet) (l : List α) :
    (l.foldl (fun m j => m.modMe (upd j)) m).me = l.foldl (fun u j => upd j u) m.me ∧
      (l.foldl (fun m j => m.modMe (upd j)) m).cur = .core c t := by
  induction l generalizing m with
  | nil => exact ⟨rfl, hc⟩
  | cons j l ih =>
    rw [List.foldl_cons, List.foldl_cons, ← Mach.me_modMe hc ht (upd j)]
    exact ih ((m.cur_modMe _).trans hc)

/-- They are one change, where there is one at all. -/
theorem Mach.foldl_modMe {α : Type} (upd : α → ThreadSet → ThreadSet) {l : List α} (hl : l ≠ []) :
    l.foldl (fun m j => m.modMe (upd j)) m = m.modMe fun u => l.foldl (fun u j => upd j u) u := by
  induction l using List.reverseRecOn with
  | nil => exact absurd rfl hl
  | append_singleton l j ih =>
    by_cases h : l = []
    · subst h; rfl
    · simp only [List.foldl_append, List.foldl_cons, List.foldl_nil]
      rw [ih h, Mach.modMe_modMe hc ht]

end

/-! ## The registers of a group -/

/-- The vector registers after those from `d` on have been written, `n` of them. -/
def groupRegs (d : Nat) (r : Nat → V128) (n : Nat) (v : Vector V128 32) : Vector V128 32 :=
  (List.range n).foldl (fun v k => vset v (d + k) (r k)) v

theorem vget_groupRegs {d n : Nat} (hd : d + n ≤ 32) (r : Nat → V128) (v : Vector V128 32) (i : Nat) :
    vget (groupRegs d r n v) 0 i = if d ≤ i ∧ i < d + n then r (i - d) else vget v 0 i := by
  induction n with
  | zero => rw [if_neg (by omega)]; rfl
  | succ n ih =>
    have hstep : groupRegs d r (n + 1) v = vset (groupRegs d r n v) (d + n) (r n) := by
      simp only [groupRegs, List.range_succ, List.foldl_append, List.foldl_cons, List.foldl_nil]
    rw [hstep]
    by_cases h : d + n = i
    · subst h
      rw [vget_vset_same _ _ _ (by omega), if_pos (by omega), Nat.add_sub_cancel_left]
    · rw [vget_vset_other _ _ _ h, ih (by omega)]
      exact if_congr (by omega) rfl rfl

/-- Register `k` of a group from `d` on, written with its flags raised. -/
def ThreadSet.writeLanes (t : ThreadSet) (d : Nat) (r : Nat → V128 × FFlags) (k : Nat) : ThreadSet :=
  { t with v := vset t.v (d + k) (r k).1, kfflags := t.kfflags ||| (r k).2 }

theorem ThreadSet.foldl_writeLanes (d : Nat) (r : Nat → V128 × FFlags) (n : Nat) (t : ThreadSet) :
    (List.range n).foldl (fun t k => t.writeLanes d r k) t =
      { t with v := groupRegs d (fun k => (r k).1) n t.v, kfflags := (List.range n).foldl (fun f k => f ||| (r k).2) t.kfflags } := by
  rw [groupRegs]
  generalize List.range n = l
  induction l generalizing t with
  | nil => rfl
  | cons k l ih => rw [List.foldl_cons, ih]; rfl

/-- The machine `m'` in the loop over a group from register `d` on: the agent of `m` runs alone, and the registers outside the first `k`
of the group stand as in `m`. -/
structure InGroup (m m' : Mach) (c t d k : Nat) : Prop where
  cur : m'.cur = .core c t
  unbound : m'.me.anyBound = false
  regErr : m'.me.regErr = []
  regs : ∀ i, i < d ∨ d + k ≤ i → vget m'.me.v 0 i = vget m.me.v 0 i

/-- A loop in which each pass completes. -/
theorem run_forM_range {body : Nat → Act Unit} {upd : Nat → Mach → Mach} {m : Mach} {n : Nat}
    (h : ∀ k < n, (body k).run ((List.range k).foldl (fun m j => upd j m) m) =
      .ok () (upd k ((List.range k).foldl (fun m j => upd j m) m))) :
    ((List.range n).forM body).run m = .ok () ((List.range n).foldl (fun m j => upd j m) m) := by
  rw [List.forM_eq_forM]
  induction n with
  | zero => rfl
  | succ n ih =>
    rw [List.range_succ, List.forM_append, run_bind_ok (ih fun k hk => h k (by omega)), List.foldl_append, List.forM_cons,
      run_bind_ok (h n (by omega))]
    rfl

/-- The loop over the registers of a group, each pass of which writes its register and raises its flags. -/
theorem groupLoop_run {m : Mach} {c t : Nat} (hc : m.cur = .core c t) (ht : t < 4) (hub : m.me.anyBound = false)
    (hre : m.me.regErr = []) {body : Nat → Act Unit} {d n : Nat} {r : Nat → V128 × FFlags} (hn : 0 < n) (hd : d + n ≤ 32)
    (hbody : ∀ k < n, ∀ m', InGroup m m' c t d k → (body k).run m' = .ok () (m'.modMe (·.writeLanes d r k))) :
    ((List.range n).forM body).run m = .ok () (m.modMe fun u =>
      { u with v := groupRegs d (fun k => (r k).1) n u.v, kfflags := (List.range n).foldl (fun f k => f ||| (r k).2) u.kfflags }) := by
  have hrun := run_forM_range (m := m) (n := n) (upd := fun k m => m.modMe (·.writeLanes d r k)) (body := body) fun k hk => by
    obtain ⟨hme, hcur⟩ := Mach.me_foldl_modMe hc ht (fun k u => u.writeLanes d r k) (List.range k)
    rw [ThreadSet.foldl_writeLanes] at hme
    refine hbody k hk _ ⟨hcur, ?_, ?_, fun i hi => ?_⟩
    · rw [hme]; exact hub
    · rw [hme]; exact hre
    · rw [hme]
      exact (vget_groupRegs (by omega) _ _ i).trans (if_neg (by omega))
  rw [hrun, Mach.foldl_modMe hc ht _ (by simp; omega)]
  simp only [ThreadSet.foldl_writeLanes]

end Sys2Proof.Machine
end

section
/-! PROOF. Every float operation and conversion gives a pattern of its format's width (R31, R41 to R45, R222, R225). -/

namespace Sys2Proof.Machine

open Sys2Proof

namespace FloatFmt

/-! ## Patterns -/

/-- The fraction has a quiet bit and its payload has room in 64 bits. -/
def Sound (f : FloatFmt) : Prop := 0 < f.fb ∧ f.fb ≤ 64

/-- A pattern without its sign bit. -/
theorem pack_pos_lt (f : FloatFmt) {e m : Nat} (he : e ≤ f.top) (hm : m < 2 ^ f.fb) : f.pack false e m < 2 ^ (f.eb + f.fb) := by
  have he' : e + 1 ≤ 2 ^ f.eb := by
    have := Nat.two_pow_pos f.eb
    rw [top] at he; omega
  calc f.pack false e m = e * 2 ^ f.fb + m := by simp [pack, b2n]
    _ < (e + 1) * 2 ^ f.fb := by rw [Nat.add_mul]; omega
    _ ≤ 2 ^ f.eb * 2 ^ f.fb := Nat.mul_le_mul_right _ he'
    _ = 2 ^ (f.eb + f.fb) := (pow_add ..).symm

/-- A sign bit over a magnitude. -/
theorem sign_add_lt (f : FloatFmt) (neg : Bool) {x : Nat} (h : x < 2 ^ (f.eb + f.fb)) : f.pack neg 0 0 + x < 2 ^ f.width := by
  have hw : 2 ^ f.width = 2 * 2 ^ (f.eb + f.fb) := by rw [width, Nat.add_assoc, pow_add]; ring
  cases neg <;> simp [pack, b2n, hw] <;> omega

theorem pack_lt (f : FloatFmt) (neg : Bool) {e m : Nat} (he : e ≤ f.top) (hm : m < 2 ^ f.fb) : f.pack neg e m < 2 ^ f.width := by
  have hsplit : f.pack neg e m = f.pack neg 0 0 + f.pack false e m := by simp [pack, b2n, Nat.add_assoc]
  rw [hsplit]
  exact f.sign_add_lt neg (f.pack_pos_lt he hm)

theorem infinity_lt (f : FloatFmt) (neg : Bool) : f.infinity neg < 2 ^ f.width := f.pack_lt neg le_rfl (by positivity)

theorem maxFinite_lt (f : FloatFmt) (tc : Bool) : f.maxFinite tc < 2 ^ (f.eb + f.fb) := by
  have := Nat.two_pow_pos f.fb
  unfold maxFinite
  split_ifs
  · exact f.pack_pos_lt le_rfl (by omega)
  · exact f.pack_pos_lt le_rfl (by omega)
  · exact f.pack_pos_lt (Nat.sub_le ..) (by omega)

theorem half_lt {f : FloatFmt} (h : f.Sound) : 2 ^ (f.fb - 1) < 2 ^ f.fb := Nat.pow_lt_pow_right (by decide) (by have := h.1; omega)

theorem defaultNan_lt {f : FloatFmt} (h : f.Sound) : f.defaultNan < 2 ^ f.width := by
  have := Nat.two_pow_pos f.fb
  have := half_lt h
  exact f.pack_lt false le_rfl (by split <;> omega)

theorem invalid_lt {f : FloatFmt} (h : f.Sound) : f.invalid.1 < 2 ^ f.width := defaultNan_lt h

theorem quiet_lt {f : FloatFmt} (h : f.Sound) (neg : Bool) {payload : Nat} (hp : payload < 2 ^ 64) :
    f.quiet neg payload < 2 ^ f.width := by
  obtain ⟨h0, h64⟩ := h
  have hpos := Nat.two_pow_pos f.fb
  have hpay : payload / 2 ^ (64 - (f.fb - 1)) < 2 ^ (f.fb - 1) := by
    rw [Nat.div_lt_iff_lt_mul (by positivity), ← pow_add, show f.fb - 1 + (64 - (f.fb - 1)) = 64 by omega]
    exact hp
  have htwice : 2 ^ f.fb = 2 ^ (f.fb - 1) + 2 ^ (f.fb - 1) := by
    rw [← two_mul, ← pow_succ', show f.fb - 1 + 1 = f.fb by omega]
  exact f.pack_lt neg le_rfl (by split <;> omega)

/-- Rounding stays at or below the largest finite value or gives an infinity (R41, R43). -/
theorem round_lt (f : FloatFmt) (tc : Bool) (mode : Nat) (neg : Bool) (m : Nat) (e : Int) (sticky : Bool) :
    (f.round tc mode neg m e sticky).1 < 2 ^ f.width := by
  have hmax := f.maxFinite_lt tc
  have hinf : f.infinity false < 2 ^ (f.eb + f.fb) := f.pack_pos_lt le_rfl (by positivity)
  have hfrac : 2 ^ f.fb ≤ 2 ^ (f.eb + f.fb) := Nat.pow_le_pow_right (by decide) (by omega)
  unfold round
  dsimp only
  generalize (if max (e + bitLen m - (f.fb + 1 : Nat)) f.qmin ≤ e then _ else _) = kx
  generalize (if kx.1 = 2 ^ (f.fb + 1) then _ else _) = kq
  by_cases htiny : kq.1 < 2 ^ (f.fb + 1 - 1)
  · simp only [htiny, if_true, decide_true, Bool.not_true, Bool.false_and, Bool.false_eq_true, if_false]
    exact f.sign_add_lt neg (htiny.trans_le hfrac)
  · simp only [htiny, if_false, decide_false, Bool.not_false, Bool.true_and, decide_eq_true_eq]
    split
    · refine f.sign_add_lt neg ?_
      split
      · exact hmax
      · exact hinf
    · rename_i hfits
      exact f.sign_add_lt neg ((Nat.le_of_not_lt hfits).trans_lt hmax)

theorem ofExact_lt (f : FloatFmt) (tc : Bool) (mode : Nat) (x : Exact) (z : Bool) : (f.ofExact tc mode x z).1 < 2 ^ f.width := by
  unfold ofExact
  split
  · exact f.pack_lt z (Nat.zero_le _) (by positivity)
  · exact f.round_lt ..

end FloatFmt

/-! ## Values (R34, R47) -/

/-- The payload of a NaN has at most 64 bits. -/
def FVal.Fits : FVal → Prop
  | .nan _ _ p => p < 2 ^ 64
  | _ => True

namespace FloatFmt

theorem read_fits {f : FloatFmt} (h : f.Sound) (tc : Bool) (x : Nat) : (f.read tc x).Fits := by
  have hpay : ∀ m, m % 2 ^ (f.fb - 1) * 2 ^ (64 - (f.fb - 1)) < 2 ^ 64 := fun m => by
    obtain ⟨h0, h64⟩ := h
    calc m % 2 ^ (f.fb - 1) * 2 ^ (64 - (f.fb - 1)) < 2 ^ (f.fb - 1) * 2 ^ (64 - (f.fb - 1)) :=
          Nat.mul_lt_mul_of_pos_right (Nat.mod_lt _ (by positivity)) (by positivity)
      _ = 2 ^ 64 := by rw [← pow_add, show f.fb - 1 + (64 - (f.fb - 1)) = 64 by omega]
  have hzero : 0 < 2 ^ 64 := by decide
  unfold read
  dsimp only
  split
  · split <;> trivial
  · split
    · split
      · split
        · trivial
        · exact hzero
      · split
        · exact hzero
        · split <;> trivial
    · split
      · trivial
      · exact hpay _

theorem firstNan_lt {f : FloatFmt} (h : f.Sound) {xs : List FVal} (hx : ∀ v ∈ xs, v.Fits) {r : Nat × FFlags}
    (hr : f.firstNan xs = some r) : r.1 < 2 ^ f.width := by
  unfold firstNan at hr
  split at hr
  · rename_i n s p hfind
    cases hr
    exact quiet_lt h n (hx _ (List.mem_of_find?_eq_some hfind))
  · cases hr

/-- The first NaN or a result of the format's width. -/
theorem firstNan_getD_lt {f : FloatFmt} (h : f.Sound) {xs : List FVal} (hx : ∀ v ∈ xs, v.Fits) {r : Nat × FFlags}
    (hr : r.1 < 2 ^ f.width) : ((f.firstNan xs).getD r).1 < 2 ^ f.width := by
  cases hn : f.firstNan xs with
  | none => exact hr
  | some q => exact firstNan_lt h hx hn

/-! ## Element operations (R222) -/

section
variable {f : FloatFmt} (h : f.Sound)
include h

theorem addVal_lt (mode : Nat) (a b : FVal) : (f.addVal mode a b).1 < 2 ^ f.width := by
  unfold addVal
  dsimp only
  split
  · exact invalid_lt h
  · split
    · exact f.infinity_lt _
    · split
      · exact f.infinity_lt _
      · exact f.ofExact_lt ..

theorem add_lt (mode x y : Nat) : (f.add mode x y).1 < 2 ^ f.width :=
  firstNan_getD_lt h (by simp [read_fits h]) (addVal_lt h ..)

theorem sub_lt (mode x y : Nat) : (f.sub mode x y).1 < 2 ^ f.width :=
  firstNan_getD_lt h (by simp [read_fits h]) (addVal_lt h ..)

omit h in
/-- A product of values that are no NaN is none. -/
theorem mulVal_isNan {a b v : FVal} (hv : mulVal a b = some v) : v.isNan = false := by
  unfold mulVal at hv
  split at hv
  · cases hv; rfl
  · split at hv <;> cases hv
    rfl

omit h in
theorem ofVal_lt (f : FloatFmt) (mode : Nat) {v : FVal} (hv : v.isNan = false) : (f.ofVal mode v).1 < 2 ^ f.width := by
  cases v with
  | nan n s p => cases hv
  | inf n => exact f.infinity_lt n
  | fin n m e => exact f.ofExact_lt ..

theorem mul_lt (mode x y : Nat) : (f.mul mode x y).1 < 2 ^ f.width := by
  refine firstNan_getD_lt h (by simp [read_fits h]) ?_
  split
  · exact invalid_lt h
  · rename_i hv
    exact f.ofVal_lt mode (mulVal_isNan hv)

theorem fma_lt (minus : Bool) (mode x y z : Nat) : (f.fma minus mode x y z).1 < 2 ^ f.width := by
  unfold fma
  dsimp only
  split
  · rename_i hn
    have hlt := firstNan_lt h (by simp [read_fits h]) hn
    exact hlt
  · split
    · exact invalid_lt h
    · exact addVal_lt h ..

theorem pick_lt (greater : Bool) {x y : Nat} (hx : x < 2 ^ f.width) (hy : y < 2 ^ f.width) : (f.pick greater x y).1 < 2 ^ f.width := by
  refine firstNan_getD_lt h (by simp [read_fits h]) ?_
  dsimp only
  split
  · exact hy
  · exact hx

theorem signOp_lt (inv : Bool) (x : Nat) : (f.signOp inv x).1 < 2 ^ f.width :=
  firstNan_getD_lt h (by simp [read_fits h]) (f.sign_add_lt _ (Nat.mod_lt _ (by positivity)))

theorem div_lt (mode x y : Nat) : (f.div mode x y).1 < 2 ^ f.width := by
  refine firstNan_getD_lt h (by simp [read_fits h]) ?_
  split
  · exact invalid_lt h
  · exact f.infinity_lt _
  · exact f.pack_lt _ (Nat.zero_le _) (by positivity)
  · split_ifs
    · exact invalid_lt h
    · exact f.infinity_lt _
    · exact f.pack_lt _ (Nat.zero_le _) (by positivity)
    · exact f.round_lt ..
  · exact invalid_lt h

theorem sqrt_lt (mode : Nat) {x : Nat} (hx : x < 2 ^ f.width) : (f.sqrt mode x).1 < 2 ^ f.width := by
  refine firstNan_getD_lt h (by simp [read_fits h]) ?_
  split
  · split
    · exact invalid_lt h
    · exact hx
  · split_ifs
    · exact hx
    · exact invalid_lt h
    · exact f.round_lt ..
  · exact invalid_lt h

/-! ## Conversions (R43 to R45, R225) -/

theorem convert_lt (tc : Bool) (mode : Nat) {v : FVal} (hv : v.Fits) : (f.convert tc mode v).1 < 2 ^ f.width := by
  cases v with
  | nan n s p =>
    unfold convert
    dsimp only
    split
    · positivity
    · exact quiet_lt h n hv
  | inf n =>
    unfold convert
    dsimp only
    split
    · exact f.sign_add_lt n (f.maxFinite_lt tc)
    · exact f.infinity_lt n
  | fin n m e => exact f.ofExact_lt ..

end

end FloatFmt

theorem bitsOfInt_lt (w : Nat) (n : Int) : bitsOfInt w n < 2 ^ w := by
  have hpos : (0 : Int) < 2 ^ w := by positivity
  have := Int.emod_lt_of_pos n hpos
  have := Int.emod_nonneg n hpos.ne'
  rw [bitsOfInt]
  zify
  omega

theorem convertInt_lt (signed : Bool) (w mode : Nat) (v : FVal) : (convertInt signed w mode v).1 < 2 ^ w := by
  unfold convertInt
  cases v with
  | nan n s p => positivity
  | inf n => exact bitsOfInt_lt ..
  | fin n m e =>
    dsimp only
    generalize (if n then (_ : Int) else _) = r
    split
    · exact bitsOfInt_lt ..
    · exact bitsOfInt_lt ..

theorem convertScale_lt (v : FVal) : (convertScale v).1 < 2 ^ 8 := by
  unfold convertScale
  cases v with
  | nan n s p => exact (by decide : 255 < 2 ^ 8)
  | inf n => exact (by decide : 255 < 2 ^ 8)
  | fin n m e =>
    dsimp only
    split
    · decide
    · dsimp only; omega

/-- The width of what a `vcvt` operand holds (R31). -/
def NumKind.bits : NumKind → Nat
  | .int _ w => w
  | .flt f => f.width
  | .scale => 8

/-- A kind whose float format, if it is one, is sound. -/
def NumKind.Sound : NumKind → Prop
  | .flt f => f.Sound
  | _ => True

/-- A source element reads as a value whose payload fits. -/
theorem NumKind.read_fits {k : NumKind} (h : k.Sound) (tc : Bool) (x : Nat) : (k.read tc x).Fits := by
  cases k with
  | int s w => trivial
  | flt f => exact FloatFmt.read_fits h tc x
  | scale =>
    unfold NumKind.read
    dsimp only
    split
    · exact Nat.two_pow_pos 64
    · trivial

/-- A converted element has the width of its target. -/
theorem convertElem_lt {src tgt : NumKind} (hs : src.Sound) (ht : tgt.Sound) (tc : Bool) (mode : Nat) {x : Nat}
    (hx : x < 2 ^ src.bits) : (convertElem src tgt tc mode x).1 < 2 ^ tgt.bits := by
  cases tgt with
  | int s w =>
    cases src with
    | int s' w' => exact bitsOfInt_lt ..
    | flt f => exact convertInt_lt ..
    | scale => exact convertInt_lt ..
  | flt f => cases src <;> exact FloatFmt.convert_lt ht tc mode (NumKind.read_fits hs tc x)
  | scale =>
    cases src with
    | int s w => exact convertScale_lt _
    | flt f => exact convertScale_lt _
    | scale => exact hx

theorem fmtBits_reserved {code : Nat} (h : 18 ≤ code) : fmtBits code = 0 := by
  rw [fmtBits.eq_def]
  split <;> omega

theorem floatFmt_sound {code : Nat} {f : FloatFmt} (h : floatFmt code = some f) : f.Sound ∧ f.width = fmtBits code := by
  unfold floatFmt at h
  split at h <;> cases h <;> exact ⟨⟨by decide, by decide⟩, rfl⟩

/-- The format codes that `vcvt` accepts name kinds of their width (R31, R225). -/
theorem numKind_of_code {code : Nat} (h : 4 ≤ fmtBits code) : (numKind code).Sound ∧ (numKind code).bits = fmtBits code := by
  have hlt : code < 18 := by
    by_contra hge
    rw [fmtBits_reserved (by omega)] at h
    omega
  unfold numKind
  cases hf : floatFmt code with
  | some f => exact floatFmt_sound hf
  | none =>
    have h16 : code ≠ 16 := fun h' => by rw [h'] at h; exact absurd h (by decide)
    have hint : code < 8 ∨ code = 17 := by
      by_contra hne
      obtain ⟨h8, h17⟩ := not_or.mp hne
      interval_cases code <;> simp_all [floatFmt]
    refine ⟨by dsimp only; split <;> trivial, ?_⟩
    rcases hint with h8 | rfl
    · interval_cases code <;> rfl
    · rfl

end Sys2Proof.Machine
end

section
/-! PROOF. The element-wise float forms, run over a group (R42, R55, R56, R214, R222). -/

namespace Sys2Proof.Machine

open Sys2Proof

/-! ## Flags (R42) -/

/-- Flags joined one after another are joined at once. -/
theorem foldl_or_flags (fs : List FFlags) (f : FFlags) : fs.foldl (· ||| ·) f = f ||| orFlags fs := by
  induction fs generalizing f with
  | nil => simp [orFlags]
  | cons g fs ih =>
    have hjoin : orFlags (g :: fs) = g ||| orFlags fs := by
      rw [orFlags, List.foldl_cons, ih]
      exact congrArg (· ||| orFlags fs) BitVec.zero_or
    rw [List.foldl_cons, ih, hjoin, BitVec.or_assoc]

/-! ## Formats of the lanes (R214) -/

/-- What the variant of a float form says of its lanes. -/
structure LaneFmt (v : BitVec 3) (f : FloatFmt) (n : Nat) : Prop where
  fmt : laneFmt v = f
  bytes : floatBytes v = n
  places : 16 / n * n = 16
  width : 8 * n = f.width
  sound : f.Sound

theorem laneFmt_of_variant {v : BitVec 3} {f : FloatFmt}
    (h : [(0, fmtF64), (1, fmtF32), (2, fmtF16), (3, fmtBf16)].contains (v.toNat, f) = true) :
    LaneFmt v f ((1 + f.eb + f.fb) / 8) := by
  simp only [List.contains_eq_mem, List.mem_cons, List.not_mem_nil, or_false, Prod.mk.injEq, decide_eq_true_eq] at h
  rcases h with ⟨hv, rfl⟩ | ⟨hv, rfl⟩ | ⟨hv, rfl⟩ | ⟨hv, rfl⟩ <;>
    exact ⟨by simp only [laneFmt, hv], by simp only [floatBytes, laneFmt, hv]; rfl, rfl, rfl, by decide, by decide⟩

/-- The active lanes, listed among the sixteen lanes of one byte. -/
theorem activeLanes_eq_filter (mask : BitVec 16) {n : Nat} (hn : 16 / n * n = 16) :
    ((List.range 16).filter fun l => decide (n * l < 16) && mask.getLsbD (n * l)) = activeLanes mask n := by
  have hrange : ∀ n ≤ 16, 16 / n * n = 16 → ((List.range 16).filter fun l => decide (n * l < 16)) = List.range (16 / n) := by decide
  have hle : n ≤ 16 := by
    by_contra h
    rw [Nat.div_eq_of_lt (by omega)] at hn
    omega
  rw [activeLanes, ← hrange n hle hn, List.filter_filter]
  exact List.filter_congr fun l _ => by rw [Bool.and_comm, Nat.mul_comm]

/-- The results of the active lanes, packed, and their flags, joined. -/
theorem floatLanes_eq (n : Nat) (mask : BitVec 16) (f : Nat → Nat × FFlags) : floatLanes n mask f =
    (vecLanes n ((activeLanes mask n).map fun k => (k, (f k).1)), orFlags ((activeLanes mask n).map fun k => (f k).2)) := by
  simp only [floatLanes, List.map_map]
  rfl

/-! ## Parts of a form, run -/

theorem ofNat_add_toNat {r : RegNo} {k n : Nat} (hr : r.toNat + n ≤ 32) (hk : k < n) : (r + BitVec.ofNat 5 k).toNat = r.toNat + k := by
  rw [BitVec.toNat_add, BitVec.toNat_ofNat, Nat.mod_eq_of_lt (a := k) (by omega), Nat.mod_eq_of_lt (by omega)]

/-- A vector register written where no register has an ECC error (R62). -/
theorem ThreadSet.setV_of_regErr {t : ThreadSet} (h : t.regErr = []) (n : RegNo) (v : V128) :
    t.setV n v = { t with v := vset t.v n.toNat v } := by
  simp [ThreadSet.setV, h, Map.erase]

section
variable {m : Mach} {c t : Nat} (hc : m.cur = .core c t) (ht : t < 4) (hub : m.me.anyBound = false) (hre : m.me.regErr = [])

include hub in
theorem vbinPorts_run (a : Args) : (vbinPorts a).run m = .ok () m := by
  cases h : a.short <;>
    simp [vbinPorts, EStateM.run_bind, groupPort_run hub, srcPort_run hub, dstPort_run hub, bothPort_run hub, h]

include hub in
theorem vunPorts_run (a : Args) : (vunPorts a).run m = .ok () m := by
  simp [vunPorts, EStateM.run_bind, groupPort_run hub, srcPort_run hub, dstPort_run hub]

include hub hre in
/-- The two sources of a form for register `k` of its group (R215). -/
theorem readVBin_run (a : Args) {n k : Nat} (hs : (if a.short then a.d else a.s).toNat + n ≤ 32)
    (hb : (if a.short then a.s else a.t).toNat + n ≤ 32) (hk : k < n) :
    (readVBin a k).run m = .ok (vget m.me.v 0 ((if a.short then a.d else a.s).toNat + k),
      vget m.me.v 0 ((if a.short then a.s else a.t).toNat + k)) m := by
  rw [readVBin, run_bind_ok (readV_run hub hre _), run_bind_ok (readV_run hub hre _), ofNat_add_toNat hs hk, ofNat_add_toNat hb hk]
  rfl

include hc ht hub hre in
/-- The results of the active lanes go to register `k` of the group, and their flags join kfflags (R42, R55). -/
theorem writeFloatLanes_run {d : RegNo} {n k : Nat} (hd : d.toNat + n ≤ 32) (hk : k < n) (mask : BitVec 16) (b : Nat)
    (f : Nat → Nat × FFlags) {r : Nat → V128 × FFlags} (hr : r k =
      (mergeBytes (laneMask mask b) (vget m.me.v 0 (d.toNat + k)) (floatLanes b mask f).1, (floatLanes b mask f).2)) :
    (do writeMasked (laneMask mask b) (d + BitVec.ofNat 5 k) (floatLanes b mask f).1
        raiseFlags (floatLanes b mask f).2 : Act Unit).run m = .ok () (m.modMe (·.writeLanes d.toNat r k)) := by
  have hw : (writeMasked (laneMask mask b) (d + BitVec.ofNat 5 k) (floatLanes b mask f).1).run m =
      .ok () (m.modMe (·.setV (d + BitVec.ofNat 5 k) (r k).1)) := by
    rw [writeMasked, run_bind_ok (oldV_run hub hre _), writeV_run hub, hr, ofNat_add_toNat hd hk]
  rw [run_bind_ok hw, raiseFlags, modMe_run, Mach.modMe_modMe hc ht]
  refine congrArg _ (Mach.modMe_congr hc ?_)
  simp only [ThreadSet.setV_of_regErr hre, ThreadSet.writeLanes, ofNat_add_toNat hd hk, hr]

end

/-! ## Forms over a group -/

/-- The lanes of register `k` of a group from those of three source registers, with the flags of the active lanes. -/
def groupLanes (m : Mach) (mask : BitVec 16) (n : Nat) (x y d : RegNo) (f : Nat → Nat → Nat → Nat × FFlags) (k : Nat) :
    V128 × FFlags :=
  let reg (r : RegNo) : V128 := vget m.me.v 0 (r.toNat + k)
  let r := floatLanes n mask fun l => f (laneOf (reg x) n l) (laneOf (reg y) n l) (laneOf (reg d) n l)
  (mergeBytes (laneMask mask n) (reg d) r.1, r.2)

/-- The machine after a group has been computed. -/
def groupDone (m : Mach) (a : Args) (x y : RegNo) (f : Nat → Nat → Nat → Nat × FFlags) : Mach :=
  let r := groupLanes m (m.me.preg a.p.toNat) (floatBytes a.v) x y a.d f
  m.modMe fun u => { u with v := groupRegs a.d.toNat (fun k => (r k).1) (groupWidth a) u.v,
                            kfflags := (List.range (groupWidth a)).foldl (fun g k => g ||| (r k).2) u.kfflags }

/-- A source group of `n` registers that lies in the register file and meets the destination group wholly or not at all. -/
def GroupFits (d r : RegNo) (n : Nat) : Prop :=
  r.toNat + n ≤ 32 ∧ (r = d ∨ r.toNat + n ≤ d.toNat ∨ d.toNat + n ≤ r.toNat)

theorem groupWidth_pos (a : Args) : 0 < groupWidth a := Nat.two_pow_pos _

/-- Registers of a source group that the loop has still to read stand as before it. -/
theorem InGroup.source {m m' : Mach} {c t k n : Nat} {d r : RegNo} (h : InGroup m m' c t d.toNat k) (hr : GroupFits d r n) (hk : k < n) :
    vget m'.me.v 0 (r.toNat + k) = vget m.me.v 0 (r.toNat + k) := by
  obtain ⟨-, rfl | hlt | hge⟩ := hr
  · exact h.regs _ (by omega)
  · exact h.regs _ (by omega)
  · exact h.regs _ (by omega)

section
variable {m : Mach} {c t : Nat} (hc : m.cur = .core c t) (ht : t < 4) (hub : m.me.anyBound = false) (hre : m.me.regErr = [])
  {a : Args} (hd : GroupFits a.d a.d (groupWidth a))
include hc ht hub hre hd

/-- A loop over a group, each pass of which ends in writing the results of its active lanes. -/
theorem floatLoop_run {body : Nat → Act Unit} {x y : RegNo} {f : Nat → Nat → Nat → Nat × FFlags}
    (hbody : ∀ k < groupWidth a, ∀ m', InGroup m m' c t a.d.toNat k →
      let mask := m.me.preg a.p.toNat
      let n := floatBytes a.v
      let reg (r : RegNo) : V128 := vget m.me.v 0 (r.toNat + k)
      let r := floatLanes n mask fun l => f (laneOf (reg x) n l) (laneOf (reg y) n l) (laneOf (reg a.d) n l)
      (body k).run m' = (do writeMasked (laneMask mask n) (a.d + BitVec.ofNat 5 k) r.1; raiseFlags r.2 : Act Unit).run m') :
    ((List.range (groupWidth a)).forM body).run m = .ok () (groupDone m a x y f) := by
  refine groupLoop_run hc ht hub hre (r := groupLanes m (m.me.preg a.p.toNat) (floatBytes a.v) x y a.d f) (groupWidth_pos a) hd.1
    fun k hk m' hm' => ?_
  rw [hbody k hk m' hm']
  exact writeFloatLanes_run hm'.cur ht hm'.unbound hm'.regErr hd.1 hk _ _ _ (by rw [hm'.source hd hk]; rfl)

section
variable (hs : GroupFits a.d (if a.short then a.d else a.s) (groupWidth a))
  (hb : GroupFits a.d (if a.short then a.s else a.t) (groupWidth a))
include hs hb

theorem semFBin_run (f : FloatFmt → Nat → Nat → Nat → Nat × FFlags) : (semFBin f a).run m =
    .ok () (groupDone m a (if a.short then a.d else a.s) (if a.short then a.s else a.t)
      fun x y _ => f (laneFmt a.v) a.m.toNat x y) := by
  rw [semFBin, run_bind_ok (vbinPorts_run hub a), run_bind_ok (readPred_run hre a)]
  refine floatLoop_run hc ht hub hre hd fun k hk m' hm' => ?_
  rw [run_bind_ok (readVBin_run hm'.unbound hm'.regErr a hs.1 hb.1 hk), hm'.source hs hk, hm'.source hb hk]

theorem semFma_run (minus : Bool) : (semFma minus a).run m =
    .ok () (groupDone m a (if a.short then a.d else a.s) (if a.short then a.s else a.t)
      fun x y z => (laneFmt a.v).fma minus a.m.toNat x y z) := by
  rw [semFma, run_bind_ok (vbinPorts_run hub a), run_bind_ok (bothPort_run hub _ _), run_bind_ok (readPred_run hre a)]
  refine floatLoop_run hc ht hub hre hd fun k hk m' hm' => ?_
  rw [run_bind_ok (readVBin_run hm'.unbound hm'.regErr a hs.1 hb.1 hk), hm'.source hs hk, hm'.source hb hk,
    run_bind_ok (readV_run hm'.unbound hm'.regErr _), ofNat_add_toNat hd.1 hk, hm'.source hd hk]

end

theorem semFUn_run (hs : GroupFits a.d a.s (groupWidth a)) (f : FloatFmt → Nat → Nat → Nat × FFlags) :
    (semFUn f a).run m = .ok () (groupDone m a a.s a.s fun x _ _ => f (laneFmt a.v) a.m.toNat x) := by
  rw [semFUn, run_bind_ok (vunPorts_run hub a), run_bind_ok (readPred_run hre a)]
  refine floatLoop_run hc ht hub hre hd fun k hk m' hm' => ?_
  rw [run_bind_ok (readV_run hm'.unbound hm'.regErr _), ofNat_add_toNat hs.1 hk, hm'.source hs hk]

end

/-! ## What a form leaves -/

/-- The instruction completes with the active lanes of its group computed by `f`, every other lane and register as it was, and the flags
of the active lanes in kfflags. -/
def ComputesLanes (s : State) (c t : Nat) (a : Args) (n : Nat) (o : Host.Outcome State Fault Refusal) (x y : RegNo)
    (f : Nat → Nat → Nat → Nat × FFlags) : Prop :=
  let u := s.mach.me
  let w := 2 ^ a.w.toNat
  let mask := u.preg a.p.toNat
  let lane (r : RegNo) (k l : Nat) : Nat := laneOf (vget u.v 0 (r.toNat + k)) n l
  let active := (List.range 16).filter fun l => decide (n * l < 16) && mask.getLsbD (n * l)
  ∃ v, o = .next v ∧
    let V := (v.mach.tset (.core c t)).v
    let res (k l : Nat) : Nat × FFlags := f (lane x k l) (lane y k l) (lane a.d k l)
    let flags := (List.range w).flatMap fun k => active.map fun l => (res k l).2
    v = s.after (s.mach.modMe fun u => { u with v := V, kfflags := flags.foldl (· ||| ·) u.kfflags }) ∧
    (∀ k ∈ List.range w, ∀ l ∈ List.range 16, n * l < 16 →
      laneOf (vget V 0 (a.d.toNat + k)) n l = if active.contains l then (res k l).1 else lane a.d k l) ∧
    (∀ r ∈ List.range 32, r < a.d.toNat ∨ a.d.toNat + w ≤ r → vget V 0 r = vget u.v 0 r)

/-- A lane of a computed group. -/
theorem laneOf_groupLanes (m : Mach) (mask : BitVec 16) {n : Nat} (hn : 16 / n * n = 16) (x y d : RegNo)
    {f : Nat → Nat → Nat → Nat × FFlags}
    (hf : ∀ x y z, x < 2 ^ (8 * n) → y < 2 ^ (8 * n) → z < 2 ^ (8 * n) → (f x y z).1 < 2 ^ (8 * n)) (k : Nat) {l : Nat}
    (hl : l < 16 / n) :
    let lane (r : RegNo) : Nat := laneOf (vget m.me.v 0 (r.toNat + k)) n l
    laneOf (groupLanes m mask n x y d f k).1 n l = if l ∈ activeLanes mask n then (f (lane x) (lane y) (lane d)).1 else lane d := by
  have hlane (v : V128) (i : Nat) : laneOf v n i < 2 ^ (8 * n) := Nat.mod_lt _ (by positivity)
  simp only [groupLanes, floatLanes_eq]
  rw [laneOf_mergeLanes mask hn (fun i _ => hf _ _ _ (hlane _ i) (hlane _ i) (hlane _ i)) hl]
  simp only [activeLanes, List.mem_filter, List.mem_range, hl, true_and]

/-- The flags of a computed group, register by register and lane by lane. -/
theorem foldl_groupLanes_flags (m : Mach) (mask : BitVec 16) (n w : Nat) (x y d : RegNo) (f : Nat → Nat → Nat → Nat × FFlags)
    (g : FFlags) :
    let lane (r : RegNo) (k l : Nat) : Nat := laneOf (vget m.me.v 0 (r.toNat + k)) n l
    (List.range w).foldl (fun g k => g ||| (groupLanes m mask n x y d f k).2) g = ((List.range w).flatMap fun k =>
      (activeLanes mask n).map fun l => (f (lane x k l) (lane y k l) (lane d k l)).2).foldl (· ||| ·) g := by
  simp only [List.foldl_flatMap, foldl_or_flags, groupLanes, floatLanes_eq]

/-- A form whose effect computes its group, at an agent that runs alone. -/
theorem computesLanes_of_run {s : State} {c t n : Nat} {a : Args} {fmt : FloatFmt} (hp : Plain s.mach c t = true) (hv : LaneFmt a.v fmt n)
    (hd : a.d.toNat + groupWidth a ≤ 32) {sem : Act Unit} {x y : RegNo} {f : Nat → Nat → Nat → Nat × FFlags}
    (hr : sem.run s.mach = .ok () (groupDone s.mach a x y f))
    (hf : ∀ x y z, x < 2 ^ fmt.width → y < 2 ^ fmt.width → z < 2 ^ fmt.width → (f x y z).1 < 2 ^ fmt.width) :
    ComputesLanes s c t a n (issue sem s) x y f := by
  obtain ⟨hc, -, ht, -⟩ := Plain.iff.mp hp
  rw [← hv.width] at hf
  rw [groupDone, hv.bytes] at hr
  refine ⟨_, issue_ok (Plain.alone hp) hr, ?_⟩
  dsimp only
  rw [State.tset_after_modMe hc hc _ ht, ThreadSet.advance_v, ← Mach.me_of_cur hc]
  simp only [activeLanes_eq_filter _ hv.places]
  refine ⟨?_, fun k hk l hl hnl => ?_, fun r _ hr => ?_⟩
  · refine congrArg s.after (Mach.modMe_congr hc ?_)
    rw [foldl_groupLanes_flags]
    rfl
  · have hk : k < groupWidth a := List.mem_range.mp hk
    have hl' : l < 16 / n := by
      by_contra h
      have hle := Nat.mul_le_mul_right n (Nat.le_of_not_lt h)
      rw [hv.places, Nat.mul_comm] at hle
      omega
    rw [vget_groupRegs hd, if_pos (by omega), Nat.add_sub_cancel_left, laneOf_groupLanes _ _ hv.places _ _ _ hf _ hl']
    simp only [List.contains_eq_mem, decide_eq_true_eq]
  · exact (vget_groupRegs hd _ _ r).trans (if_neg (by simp only [groupWidth]; omega))

end Sys2Proof.Machine

open Sys2Proof Sys2Proof.Machine

/-- Settles O29: each form's run over its group, and the width of what its lane operation gives. -/
theorem floatElementForms : Obligations.FloatElementForms := by
  intro s c t a fmt hp _ hv
  obtain ⟨hc, -, ht, -, -, -, hub, hre⟩ := Plain.iff.mp hp
  have hfmt := laneFmt_of_variant hv
  have hlane := hfmt.fmt
  have hsound := hfmt.sound
  dsimp only
  refine ⟨fun ⟨hd, hx, hy⟩ => ?_, fun ⟨hd, hx⟩ => ?_⟩
  · have hbin (f : FloatFmt → Nat → Nat → Nat → Nat × FFlags)
        (hf : ∀ x y, x < 2 ^ fmt.width → y < 2 ^ fmt.width → (f fmt a.m.toNat x y).1 < 2 ^ fmt.width) :=
      computesLanes_of_run hp hfmt hd.1 (semFBin_run hc ht hub hre hd hx hy f) fun x y _ hx hy _ => by rw [hlane]; exact hf x y hx hy
    have hfma (minus : Bool) :=
      computesLanes_of_run hp hfmt hd.1 (semFma_run hc ht hub hre hd hx hy minus) fun x y z _ _ _ => by
        rw [hlane]; exact FloatFmt.fma_lt hsound minus a.m.toNat x y z
    rw [hlane] at hbin hfma
    exact ⟨hbin (fun f m x y => f.add m x y) fun x y _ _ => FloatFmt.add_lt hsound _ x y,
      hbin (fun f m x y => f.sub m x y) fun x y _ _ => FloatFmt.sub_lt hsound _ x y,
      hbin (fun f m x y => f.mul m x y) fun x y _ _ => FloatFmt.mul_lt hsound _ x y,
      hbin (fun f m x y => f.div m x y) fun x y _ _ => FloatFmt.div_lt hsound _ x y, hfma false, hfma true,
      hbin (fun f _ x y => f.pick false x y) fun x y => FloatFmt.pick_lt hsound false,
      hbin (fun f _ x y => f.pick true x y) fun x y => FloatFmt.pick_lt hsound true⟩
  · have hun (f : FloatFmt → Nat → Nat → Nat × FFlags) (hf : ∀ x, x < 2 ^ fmt.width → (f fmt a.m.toNat x).1 < 2 ^ fmt.width) :=
      computesLanes_of_run hp hfmt hd.1 (semFUn_run hc ht hub hre hd hx f) fun x _ _ hx _ _ => by rw [hlane]; exact hf x hx
    rw [hlane] at hun
    exact ⟨hun (fun f _ x => f.signOp false x) fun x _ => FloatFmt.signOp_lt hsound false x,
      hun (fun f _ x => f.signOp true x) fun x _ => FloatFmt.signOp_lt hsound true x,
      hun (fun f m x => f.sqrt m x) fun x => FloatFmt.sqrt_lt hsound _⟩
end

section
/-! PROOF. Float reductions, the dot product, conversions and comparisons (R218, R223 to R225). -/

namespace Sys2Proof.Machine

open Sys2Proof

theorem orFlags_cons (f : FFlags) (fs : List FFlags) : orFlags (f :: fs) = f ||| orFlags fs := by
  rw [orFlags, List.foldl_cons, foldl_or_flags]
  exact congrArg (· ||| orFlags fs) BitVec.zero_or

/-- Results without flags at the places that are not listed add none. -/
theorem orFlags_map_ite {α β : Type} (p : α → Bool) (r : α → β × FFlags) (b : α → β) (l : List α) :
    orFlags (l.map fun j => (if p j then r j else (b j, 0)).2) = orFlags ((l.filter p).map fun j => (r j).2) := by
  induction l with
  | nil => rfl
  | cons j l ih =>
    rw [List.map_cons, orFlags_cons, ih]
    by_cases h : p j = true
    · rw [if_pos h, List.filter_cons_of_pos h, List.map_cons, orFlags_cons]
    · rw [if_neg h, List.filter_cons_of_neg h]
      exact BitVec.zero_or

/-- Elements packed one after another are the digits of a number (R37). -/
theorem foldl_zipIdx_digitSum {β : Type} (w n : Nat) (r : Nat → Nat × β) :
    ((List.range n).map r).zipIdx.foldl (fun v rj => v + rj.1.1 * 2 ^ (w * rj.2)) 0 = digitSum w (fun j => (r j).1) n := by
  induction n with
  | zero => rfl
  | succ n ih =>
    rw [List.range_succ, List.map_append, List.zipIdx_append, List.foldl_append, ih, digitSum_succ]
    simp

section
variable {m : Mach} {c t : Nat} (hc : m.cur = .core c t) (ht : t < 4) (hub : m.me.anyBound = false) (hre : m.me.regErr = [])
include hc ht hub hre

/-- A vector register is written whole, and its flags join kfflags (R42, R224). -/
theorem writeWhole_run (d : RegNo) (v : V128) (f : FFlags) : (do writeV d v; raiseFlags f : Act Unit).run m =
    .ok () (m.modMe fun u => { u with v := vset u.v d.toNat v, kfflags := u.kfflags ||| f }) := by
  rw [run_bind_ok (writeV_run hub d v), raiseFlags, modMe_run, Mach.modMe_modMe hc ht]
  exact congrArg _ (Mach.modMe_congr hc (by simp only [ThreadSet.setV_of_regErr hre]))

theorem semFRed_run (a : Args) (acc : FloatFmt) (f : List Nat → Nat → Nat × FFlags) :
    let r := f ((activeLanes (m.me.preg a.p.toNat) (floatBytes a.v)).map (laneOf (vget m.me.v 0 a.s.toNat) (floatBytes a.v)))
      (laneOf (vget m.me.v 0 a.t.toNat) (acc.width / 8) 0)
    (semFRed acc f a).run m = .ok () (m.modMe fun u =>
      { u with v := vset u.v a.d.toNat (BitVec.ofNat 128 r.1), kfflags := u.kfflags ||| r.2 }) := by
  rw [semFRed, run_bind_ok (srcPort_run hub _ _), run_bind_ok (srcPort_run hub _ _), run_bind_ok (dstPort_run hub _ _),
    run_bind_ok (readV_run hub hre _), run_bind_ok (readV_run hub hre _), run_bind_ok (readPred_run hre a)]
  exact writeWhole_run hc ht hub hre _ _ _

theorem semVdot_run (a : Args) :
    let reg (r : RegNo) : V128 := vget m.me.v 0 r.toNat
    let n := floatBytes a.v
    let r := dotSum (laneFmt a.v) (sumFmt a.v) a.m.toNat
      ((activeLanes (m.me.preg a.p.toNat) n).map fun l => (laneOf (reg a.s) n l, laneOf (reg a.t) n l))
      (laneOf (reg a.d) ((sumFmt a.v).width / 8) 0)
    (semVdot a).run m = .ok () (m.modMe fun u =>
      { u with v := vset u.v a.d.toNat (BitVec.ofNat 128 r.1), kfflags := u.kfflags ||| r.2 }) := by
  rw [semVdot, run_bind_ok (srcPort_run hub _ _), run_bind_ok (srcPort_run hub _ _), run_bind_ok (bothPort_run hub _ _),
    run_bind_ok (readV_run hub hre _), run_bind_ok (readV_run hub hre _), run_bind_ok (readV_run hub hre _),
    run_bind_ok (readPred_run hre a)]
  exact writeWhole_run hc ht hub hre _ _ _

/-! ## Conversions (R225) -/

omit hc ht hub hre in
/-- Element `j` of a converted register: of the source where the element is active, else the old one (R55, R225). -/
def cvtElem (m : Mach) (a : Args) (j : Nat) : Nat × FFlags :=
  let src := a.imm.toNat % 32
  let tgt := a.imm.toNat / 32 % 32
  if (m.me.preg a.p.toNat).getLsbD (j * fmtBits tgt / 8) then
    convertElem (numKind src) (numKind tgt) m.me.tc a.m.toNat (packedElem (vget m.me.v 0 a.s.toNat) (fmtBits src) j)
  else (packedElem (vget m.me.v 0 a.d.toNat) (fmtBits tgt) j, 0)

theorem semVcvt_run (a : Args) :
    let tgt := a.imm.toNat / 32 % 32
    let n := 128 / max (fmtBits (a.imm.toNat % 32)) (fmtBits tgt)
    (semVcvt a).run m = .ok () (m.modMe fun u =>
      { u with v := vset u.v a.d.toNat (BitVec.ofNat 128 (digitSum (fmtBits tgt) (fun j => (cvtElem m a j).1) n)),
               kfflags := u.kfflags ||| orFlags ((List.range n).map fun j => (cvtElem m a j).2) }) := by
  have hcodes : cvtCodes a.imm = (a.imm.toNat / 32 % 32, a.imm.toNat % 32) := by simp [cvtCodes, fld]
  rw [semVcvt, run_bind_ok (srcPort_run hub _ _), run_bind_ok (dstPort_run hub _ _), hcodes]
  dsimp only
  rw [run_bind_ok (readV_run hub hre _), run_bind_ok (oldV_run hub hre _), run_bind_ok (readPred_run hre a), run_bind_ok (me_run m),
    writeWhole_run hc ht hub hre, foldl_zipIdx_digitSum, List.map_map]
  rfl

end

/-- The elements of a converted register have the width of the target's format. -/
theorem cvtElem_lt (m : Mach) {a : Args} (hs : 4 ≤ fmtBits (a.imm.toNat % 32)) (ht : 4 ≤ fmtBits (a.imm.toNat / 32 % 32)) (j : Nat) :
    (cvtElem m a j).1 < 2 ^ fmtBits (a.imm.toNat / 32 % 32) := by
  obtain ⟨hsound, hbits⟩ := numKind_of_code hs
  obtain ⟨tsound, tbits⟩ := numKind_of_code ht
  unfold cvtElem
  dsimp only
  split
  · rw [← tbits]
    refine convertElem_lt hsound tsound _ _ ?_
    rw [hbits]
    exact Nat.mod_lt _ (by positivity)
  · exact Nat.mod_lt _ (by positivity)

/-! ## Comparisons (R223) -/

theorem getLsbD_laneBitsMask (n k : Nat) {j : Nat} (hj : j < 16) (hn : 0 < n) :
    (BitVec.ofNat 16 (laneBitsMask n k)).getLsbD j = decide (j / n = k) := by
  rw [laneBitsMask, BitVec.getLsbD_ofNat, decide_eq_true hj, Bool.true_and, Nat.testBit_mul_two_pow, Nat.testBit_two_pow_sub_one,
    ← Bool.decide_and]
  refine decide_eq_decide.mpr ?_
  rw [Nat.div_eq_iff hn, Nat.mul_comm k n]
  generalize n * k = i
  omega

/-- One lane of a predicate set or cleared. -/
theorem getLsbD_setLane {n j : Nat} (hj : j < 16) (hn : 0 < n) (k : Nat) (b : Bool) (old : BitVec 16) :
    (if b then old ||| BitVec.ofNat 16 (laneBitsMask n k) else old &&& ~~~BitVec.ofNat 16 (laneBitsMask n k)).getLsbD j =
      if j / n = k then b else old.getLsbD j := by
  cases b
  · rw [if_neg Bool.false_ne_true, BitVec.getLsbD_and, BitVec.getLsbD_not, getLsbD_laneBitsMask n k hj hn]
    by_cases hk : j / n = k <;> simp [hk, hj]
  · rw [if_pos rfl, BitVec.getLsbD_or, getLsbD_laneBitsMask n k hj hn]
    by_cases hk : j / n = k <;> simp [hk]

/-- The listed lanes of a predicate take their bits, and the others keep them (R218). -/
theorem getLsbD_setLanes {n j : Nat} (hj : j < 16) (hn : 0 < n) (f : Nat → Bool) (ls : List Nat) (old : BitVec 16) :
    (setLanes n old (ls.map fun k => (k, f k))).getLsbD j = if j / n ∈ ls then f (j / n) else old.getLsbD j := by
  induction ls generalizing old with
  | nil => simp [setLanes]
  | cons k ls ih =>
    have hstep : setLanes n old ((k :: ls).map fun k => (k, f k)) =
        setLanes n (if f k then old ||| BitVec.ofNat 16 (laneBitsMask n k) else old &&& ~~~BitVec.ofNat 16 (laneBitsMask n k))
          (ls.map fun k => (k, f k)) := rfl
    rw [hstep, ih, getLsbD_setLane hj hn]
    by_cases hk : j / n = k
    · subst hk; simp
    · simp [hk]

section
variable {m : Mach} {c t : Nat} (hc : m.cur = .core c t) (ht : t < 4) (hub : m.me.anyBound = false) (hre : m.me.regErr = [])
include hc ht hub hre

theorem semVCmp_run (a : Args) (n : Nat) (f : Nat → Nat → Bool × FFlags) :
    let r (l : Nat) := f (laneOf (vget m.me.v 0 a.s.toNat) n l) (laneOf (vget m.me.v 0 a.t.toNat) n l)
    let ls := activeLanes (m.me.preg a.p.toNat) n
    (semVCmp n f a).run m = .ok () (m.modMe fun u =>
      { u.setP a.d.toNat (setLanes n (u.preg a.d.toNat) (ls.map fun l => (l, (r l).1))) with
        kfflags := u.kfflags ||| orFlags (ls.map fun l => (r l).2) }) := by
  intro r ls
  have htail : (do modMe fun t => t.setP a.d.toNat (setLanes n (t.preg a.d.toNat) (ls.map fun l => (l, (r l).1)))
                   raiseFlags (orFlags (ls.map fun l => (r l).2)) : Act Unit).run m = .ok () (m.modMe fun u =>
      { u.setP a.d.toNat (setLanes n (u.preg a.d.toNat) (ls.map fun l => (l, (r l).1))) with
        kfflags := u.kfflags ||| orFlags (ls.map fun l => (r l).2) }) := by
    rw [run_bind_ok (modMe_run m _), raiseFlags, modMe_run, Mach.modMe_modMe hc ht]
    simp only [ThreadSet.setP_kfflags]
  rw [semVCmp, run_bind_ok (srcPort_run hub _ _), run_bind_ok (srcPort_run hub _ _), run_bind_ok (readV_run hub hre _),
    run_bind_ok (readV_run hub hre _), run_bind_ok (readPred_run hre a)]
  simp only [List.map_map]
  split
  · exact htail
  · rw [run_bind_ok (checkReg_run hre _)]
    exact htail

end

/-! ## The forms at an agent that runs alone -/

/-- The accumulator of a sum is the lowest element of its register (R48, R224). -/
theorem laneOf_sumFmt (v : BitVec 3) (x : V128) : laneOf x ((sumFmt v).width / 8) 0 = packedElem x (sumFmt v).width 0 := by
  have hbytes : 8 * ((sumFmt v).width / 8) = (sumFmt v).width := by
    unfold sumFmt
    split <;> rfl
  rw [laneOf, packedElem, hbytes]

/-- A vector register of the agent after an instruction that has written it whole. -/
theorem State.vget_after_write {s : State} {c t : Nat} (hc : s.mach.cur = .core c t) (ht : t < 4) (d : RegNo) (v : V128)
    (f : FFlags → FFlags) :
    vget ((s.after (s.mach.modMe fun u => { u with v := vset u.v d.toNat v, kfflags := f u.kfflags })).mach.tset (.core c t)).v 0 d.toNat =
      v := by
  rw [State.tset_after_modMe hc hc _ ht, ThreadSet.advance_v]
  exact vget_vset_same _ _ _ d.isLt

/-- A predicate register of the agent after an instruction that has written it. -/
theorem State.preg_after_setP {s : State} {c t : Nat} (hc : s.mach.cur = .core c t) (ht : t < 4) {d : Nat} (hd : d < 8) (hd7 : d ≠ 7)
    (p : ThreadSet → BitVec 16) (f : FFlags → FFlags) :
    ((s.after (s.mach.modMe fun u => { u.setP d (p u) with kfflags := f u.kfflags })).mach.tset (.core c t)).preg d = p s.mach.me := by
  rw [State.tset_after_modMe hc hc _ ht, Mach.me_of_cur hc]
  exact (ThreadSet.preg_setP _ hd _).trans (if_pos ⟨rfl, hd7⟩)

/-- The state after an instruction that has written its vector register whole and raised its flags. -/
def wroteWhole (s : State) (a : Args) (r : Nat × FFlags) : State := s.after (s.mach.modMe fun u =>
  { u with v := vset u.v a.d.toNat (BitVec.ofNat 128 r.1), kfflags := u.kfflags ||| r.2 })

/-- The active lanes of a source register. -/
def activeOf (s : State) (a : Args) (n : Nat) (r : RegNo) : List Nat :=
  (activeLanes (s.mach.me.preg a.p.toNat) n).map (laneOf (vget s.mach.me.v 0 r.toNat) n)

section
variable {s : State} {c t : Nat} (hp : Plain s.mach c t = true) {a : Args}
include hp

section
variable {fmt : FloatFmt} {n : Nat} (hv : LaneFmt a.v fmt n)
include hv

theorem exec_vredSumFloat : exec (.vredSumFloat a) s = .next (wroteWhole s a (reduceSum fmt (sumFmt a.v) a.m.toNat
    (activeOf s a n a.s) (packedElem (vget s.mach.me.v 0 a.t.toNat) (sumFmt a.v).width 0))) := by
  obtain ⟨hc, -, ht, -, -, -, hub, hre⟩ := Plain.iff.mp hp
  obtain rfl := hv.fmt
  obtain rfl := hv.bytes
  rw [← laneOf_sumFmt]
  exact issue_ok (Plain.alone hp) (semFRed_run hc ht hub hre a _ _)

theorem exec_vredMaxFloat : exec (.vredMaxFloat a) s = .next (wroteWhole s a (reducePick fmt true
    (activeOf s a n a.s) (laneOf (vget s.mach.me.v 0 a.t.toNat) n 0))) := by
  obtain ⟨hc, -, ht, -, -, -, hub, hre⟩ := Plain.iff.mp hp
  obtain rfl := hv.fmt
  obtain rfl := hv.bytes
  exact issue_ok (Plain.alone hp) (semFRed_run hc ht hub hre a _ _)

theorem exec_vredMinFloat : exec (.vredMinFloat a) s = .next (wroteWhole s a (reducePick fmt false
    (activeOf s a n a.s) (laneOf (vget s.mach.me.v 0 a.t.toNat) n 0))) := by
  obtain ⟨hc, -, ht, -, -, -, hub, hre⟩ := Plain.iff.mp hp
  obtain rfl := hv.fmt
  obtain rfl := hv.bytes
  exact issue_ok (Plain.alone hp) (semFRed_run hc ht hub hre a _ _)

theorem exec_vdot : exec (.vdot a) s = .next (wroteWhole s a (dotSum fmt (sumFmt a.v) a.m.toNat
    ((activeLanes (s.mach.me.preg a.p.toNat) n).map fun l =>
      (laneOf (vget s.mach.me.v 0 a.s.toNat) n l, laneOf (vget s.mach.me.v 0 a.t.toNat) n l))
    (packedElem (vget s.mach.me.v 0 a.d.toNat) (sumFmt a.v).width 0))) := by
  obtain ⟨hc, -, ht, -, -, -, hub, hre⟩ := Plain.iff.mp hp
  obtain rfl := hv.fmt
  obtain rfl := hv.bytes
  rw [← laneOf_sumFmt]
  exact issue_ok (Plain.alone hp) (semVdot_run hc ht hub hre a)

end

/-- A conversion leaves each element as converted or as it was, and raises the flags of the active ones (R42, R225). -/
theorem exec_vcvt (hs : 4 ≤ fmtBits (a.imm.toNat % 32)) (ht : 4 ≤ fmtBits (a.imm.toNat / 32 % 32)) :
    let u := s.mach.me
    let ws := fmtBits (a.imm.toNat % 32)
    let wt := fmtBits (a.imm.toNat / 32 % 32)
    let n := 128 / max ws wt
    let reg (r : RegNo) : V128 := vget u.v 0 r.toNat
    let cvt (j : Nat) :=
      convertElem (numKind (a.imm.toNat % 32)) (numKind (a.imm.toNat / 32 % 32)) u.tc a.m.toNat (packedElem (reg a.s) ws j)
    let on := (List.range n).filter fun j => (u.preg a.p.toNat).getLsbD (j * wt / 8)
    ∃ v, exec (.vcvt a) s = .next v ∧
      let vd := vget (v.mach.tset (.core c t)).v 0 a.d.toNat
      v = s.after (s.mach.modMe fun u =>
        { u with v := vset u.v a.d.toNat vd, kfflags := (on.map fun j => (cvt j).2).foldl (· ||| ·) u.kfflags }) ∧
      vd.toNat < 2 ^ (n * wt) ∧
      ∀ j ∈ List.range n, packedElem vd wt j = if on.contains j then (cvt j).1 else packedElem (reg a.d) wt j := by
  obtain ⟨hc, -, hts, -, -, -, hub, hre⟩ := Plain.iff.mp hp
  intro u ws wt n reg cvt on
  refine ⟨_, issue_ok (Plain.alone hp) (semVcvt_run hc hts hub hre a), ?_⟩
  dsimp only
  rw [State.vget_after_write hc hts a.d _ (· ||| _)]
  have hlt : digitSum wt (fun j => (cvtElem s.mach a j).1) n < 2 ^ (wt * n) := digitSum_lt fun j _ => cvtElem_lt _ hs ht j
  have hroom : wt * n ≤ 128 := calc
    wt * n ≤ max ws wt * (128 / max ws wt) := Nat.mul_le_mul_right _ (le_max_right ..)
    _ ≤ 128 := Nat.mul_div_le ..
  have hnat : (BitVec.ofNat 128 (digitSum wt (fun j => (cvtElem s.mach a j).1) n)).toNat =
      digitSum wt (fun j => (cvtElem s.mach a j).1) n := by
    rw [BitVec.toNat_ofNat, Nat.mod_eq_of_lt (hlt.trans_le (Nat.pow_le_pow_right (by decide) hroom))]
  refine ⟨?_, ?_, fun j hj => ?_⟩
  · refine congrArg s.after (Mach.modMe_congr hc ?_)
    rw [foldl_or_flags]
    simp only [cvtElem, orFlags_map_ite]
    rfl
  · rw [hnat, Nat.mul_comm]; exact hlt
  · rw [packedElem, hnat, digitSum_digit (fun i _ => cvtElem_lt _ hs ht i) (List.mem_range.mp hj)]
    have hon : on.contains j = (u.preg a.p.toNat).getLsbD (j * wt / 8) := by
      rw [List.contains_eq_mem, Bool.eq_iff_iff, decide_eq_true_eq, List.mem_filter, and_iff_right hj]
    rw [hon]
    exact apply_ite Prod.fst _ _ _

/-- A comparison sets the bits of the active lanes and raises their flags (R218, R223). -/
theorem exec_vcmpFloat {fmt : FloatFmt} {n : Nat} (hv : LaneFmt a.v fmt n) (hd : a.d.toNat < 8) :
    let u := s.mach.me
    let lane (r : RegNo) (l : Nat) : Nat := laneOf (vget u.v 0 r.toNat) n l
    let cmp (l : Nat) := fmt.compare a.m.toNat (lane a.s l) (lane a.t l)
    let active := activeLanes (u.preg a.p.toNat) n
    ∃ v, exec (.vcmpFloat a) s = .next v ∧
      let pd := (v.mach.tset (.core c t)).preg a.d.toNat
      v = s.after (s.mach.modMe fun u =>
        { u.setP a.d.toNat pd with kfflags := (active.map fun l => (cmp l).2).foldl (· ||| ·) u.kfflags }) ∧
      ∀ j ∈ List.range 16, a.d ≠ 7 → pd.getLsbD j = if active.contains (j / n) then (cmp (j / n)).1
        else (u.preg a.d.toNat).getLsbD j := by
  obtain ⟨hc, -, hts, -, -, -, hub, hre⟩ := Plain.iff.mp hp
  intro u lane cmp active
  have hrun := issue_ok (Plain.alone hp) (semVCmp_run hc hts hub hre a n fun x y => fmt.compare a.m.toNat x y)
  rw [← hv.bytes, ← hv.fmt] at hrun
  refine ⟨_, hrun, ?_⟩
  rw [hv.bytes, hv.fmt]
  by_cases h7 : a.d.toNat = 7
  · refine ⟨?_, fun j _ hd7 => absurd (BitVec.eq_of_toNat_eq h7) hd7⟩
    simp only [h7, ThreadSet.setP, if_true, foldl_or_flags]
    rfl
  · dsimp only
    rw [State.preg_after_setP hc hts hd h7 (fun u => setLanes n (u.preg a.d.toNat) _) (· ||| _)]
    refine ⟨?_, fun j hj _ => ?_⟩
    · refine congrArg s.after (Mach.modMe_congr hc ?_)
      rw [foldl_or_flags]
    · have hpos : 0 < n := Nat.pos_of_ne_zero fun h0 => by have := hv.places; simp [h0] at this
      rw [getLsbD_setLanes (List.mem_range.mp hj) hpos]
      simp only [List.contains_eq_mem, decide_eq_true_eq]
      rfl

end

end Sys2Proof.Machine

open Sys2Proof Sys2Proof.Machine

/-- Settles O31: each form's run, and for conversions and comparisons the elements of what it leaves. -/
theorem floatReductionForms : Obligations.FloatReductionForms := by
  intro s c t a fmt hp hv
  have hfmt := laneFmt_of_variant hv
  dsimp only
  rw [activeLanes_eq_filter _ hfmt.places]
  exact ⟨exec_vredSumFloat hp hfmt, exec_vredMaxFloat hp hfmt, exec_vredMinFloat hp hfmt, exec_vdot hp hfmt,
    fun ⟨hs, ht⟩ => exec_vcvt hp hs ht, fun hd => exec_vcmpFloat hp hfmt hd⟩
end

section
/-! PROOF. A gang-issue instruction at a core that an aborted round of the other PAIR value has among its members (R234, R235). -/

namespace Sys2Proof.Machine

open Sys2Proof

/-- A core that is owed a gang trap receives it in place of its next gang-issue instruction (R235). -/
theorem exec_mmag_owed {s : State} {c t : Nat} {a : Args} {r : FaultRec} {m : Mach} (hp : Alone s.mach c t = true)
    (hw : s.mach.gangWaits c (accNo a.d) = false) (hd : s.mach.gangDebt c = some (r, m)) :
    exec (.mmag a) s = .next { s with mach := m.trapEntry c t { r with pc := s.mach.me.pc } s.mach.me.pc } := by
  have hc := (Alone.iff.mp hp).1
  have hgate : (gangGate (accNo a.d)).run s.mach = .error (.trapKeep r) m := by
    simp only [gangGate, EStateM.run_bind, EStateM.run_get, Mach.here_of_cur hc, hw, hd, stallUntil_run, Bool.not_false, if_true,
      EStateM.run_set]
    rfl
  refine (issue_alone hp (semMmag a)).trans ?_
  rw [semMmag, run_bind_error hgate, hc]
  simp only [conclude, lift, Mach.tset_of_cur hc]
  rfl

/-- A member of a paired round that is cut is owed its abort until it has arrived there, whether or not its next gang-issue instruction
is a paired one (R234, R235). -/
theorem Mach.gangDebt_pair {m : Mach} {c row : Nat} {r : Round} {cut : Byte × Nat × Byte} (ho : (m.core c).gangOwed = none)
    (h0 : m.round (rowOf c false).1 false = none) (hrow : (rowOf c true).1 = row) (h1 : m.round row true = some r)
    (hm : (m.members row true).contains c = true) (ha : r.arrived.contains c = false) (hcut : r.cut = some cut) :
    m.gangDebt c = some (abortRec cut, m.modRound row true fun r => { r with arrived := r.arrived ++ [c] }) := by
  simp [Mach.gangDebt, ho, h0, hrow, h1, hm, ha, hcut, -List.contains_eq_mem]

/-- A round of the pair of rows that begins at core 0, which a fault at core 1 has aborted. -/
def cutPairRound : Round := { row := 0, pair := true, first := 0, arrived := [], cut := some (0x04, 1, 0) }

/-- Thread set 0 of core 0, with a trap handler and in a partition of two clusters, at a gang-issue instruction while that round is
open: its abort is noted, and the GANG_ABORT event has still to come. -/
def cutPairMach : Mach :=
  { cores := [(0, { ts := #v[{ busy := true, kvec := 2 }, {}, {}, {}], placed := true })], cur := .core 0 0, rounds := [cutPairRound]
    parts := Vector.replicate 16 { st := .running, w := 2, h := 1 } }

/-- The machine in which core 0 has received the abort. -/
def cutPairTaken : Mach := cutPairMach.modRound 0 true fun r => { r with arrived := r.arrived ++ [0] }

/-- Core 0 is a member of that round and has not arrived: it is owed the abort. -/
theorem cutPairMach_gangDebt : cutPairMach.gangDebt 0 = some (abortRec (0x04, 1, 0), cutPairTaken) :=
  Mach.gangDebt_pair rfl rfl rfl rfl (by decide) rfl rfl

/-- The trap issues no operation. -/
theorem cutPairTaken_mat (r : FaultRec) (pc : BitVec 14) : ((cutPairTaken.trapEntry 0 0 r pc).core 0).mat = [] := rfl

end Sys2Proof.Machine

open Sys2Proof Sys2Proof.Machine

/-- Refutes O32: the clause on `mmag` asks that the round of the instruction's own PAIR value is not cut, and not the same of the other
PAIR value, whose rounds have the core among their members too (R234). In `cutPairMach` every premise of the clause holds with PAIR 0,
and the instruction receives the abort of the paired round: no operation joins the unit's list. -/
theorem not_matrixIssue : ¬ Obligations.MatrixIssue := by
  intro h
  obtain ⟨-, hmmag, -⟩ := h { mach := cutPairMach } 0 0 {} (by decide)
  obtain ⟨v, hv, ⟨hmat, -⟩, -⟩ := hmmag (by decide)
  rw [exec_mmag_owed (t := 0) (by decide) (by decide) cutPairMach_gangDebt] at hv
  obtain rfl := Host.Outcome.next.inj hv
  exact absurd (hmat.symm.trans (cutPairTaken_mat _ _)) (by decide)
end

section
/-! PROOF. The module right after reset (R53, R58, R59, R66 to R68, R70, R73, R79, R86, R89, R350). -/

namespace Sys2Proof.Machine

open Sys2Proof

theorem vget_replicate {α : Type} (n : Nat) (x : α) (i : Nat) : vget (Vector.replicate n x) x i = x := by
  by_cases h : i < n <;> simp [vget, h]

theorem State.reset_core (c : Nat) : State.reset.mach.core c = if c = 73728 then resetHouse else {} := by
  by_cases h : c = 73728 <;> simp [Mach.core, State.reset, houseCore, Map.get, Map.find, h]

/-- Right after reset the thread set that runs the ROM has a level of its own, and every other one the values of the field maps (R66,
R350). -/
theorem State.reset_tset (c : Nat) {t : Nat} (ht : t < 4) : (State.reset.mach.core c).tset t =
    if c = 73728 ∧ t = 0 then { busy := true, priv := .house, sup := true } else {} := by
  rw [State.reset_core]
  by_cases h : c = 73728
  · rw [if_pos h]
    interval_cases t <;> simp [h, Core.tset, resetHouse, vget, resetHouseTs]
  · rw [if_neg h, if_neg fun h' => h h'.1]
    exact vget_replicate 4 _ t

/-- Beside its thread sets, every core holds the values of an empty core. -/
theorem State.reset_core_rest (c : Nat) : ∃ ts placed, State.reset.mach.core c = { ts := ts, placed := placed } := by
  rw [State.reset_core]
  split
  · exact ⟨_, true, rfl⟩
  · exact ⟨_, false, rfl⟩

theorem ThreadSet.xreg_zero (u : ThreadSet) (h : u.x = Vector.replicate 32 0) (r : RegNo) : u.xreg r = 0 := by
  rw [ThreadSet.xreg, h, vget_replicate, ite_self]

theorem ThreadSet.preg_zero (u : ThreadSet) (h : u.p = Vector.replicate 8 0) {n : Nat} (hn : n < 7) : u.preg n = 0 := by
  rw [ThreadSet.preg, h, vget_replicate, if_neg (by omega)]

end Sys2Proof.Machine

open Sys2Proof Sys2Proof.Machine

/-- Settles O59: thread sets by whether they run the ROM, and every other part by its value in the record. -/
theorem resetState : Obligations.ResetState := by
  refine ⟨fun c t n off q sh r ht hq => ?_, by decide, by decide, fun c => ?_, fun sh => rfl⟩
  · obtain ⟨ts, placed, hcore⟩ := State.reset_core_rest c
    have hpart : State.reset.mach.part q = {} := vget_replicate 16 _ q
    have hts := State.reset_tset c ht
    dsimp only
    rw [hts, hpart, hcore]
    refine ⟨?_, ?_, ?_, ⟨rfl, rfl, rfl, rfl, rfl, rfl, rfl⟩, ⟨rfl, rfl, rfl, rfl, rfl⟩, ⟨rfl, rfl, rfl, rfl, rfl⟩, ?_, ?_⟩
    · split <;> exact ⟨ThreadSet.xreg_zero _ rfl r, rfl, ThreadSet.preg_zero _ rfl, rfl, rfl, rfl⟩
    · split <;> exact ⟨rfl, rfl, rfl, rfl, rfl, rfl⟩
    · split <;> exact ⟨rfl, rfl, rfl, rfl, rfl, rfl, rfl, rfl⟩
    · intro h
      rw [if_pos h]
      exact ⟨rfl, rfl, rfl, rfl⟩
    · intro h
      rw [if_neg h]
      exact ⟨rfl, rfl⟩
  · obtain ⟨ts, placed, hcore⟩ := State.reset_core_rest c
    rw [hcore]
    exact ⟨rfl, rfl⟩
end

section
/-! PROOF. The plain system forms (R66, R68, R271, R308, R310). -/

namespace Sys2Proof.Machine

open Sys2Proof

/-! ## What losing a member changes of a core (R120, R313) -/

/-- A core that differs in its queued events at most. -/
def Core.EventsOnly (k k' : Core) : Prop := ∃ q, k' = { k with events := q }

theorem Core.EventsOnly.refl (k : Core) : k.EventsOnly k := ⟨k.events, rfl⟩

theorem Core.EventsOnly.trans {k k' k'' : Core} (h : k.EventsOnly k') (h' : k'.EventsOnly k'') : k.EventsOnly k'' := by
  obtain ⟨q, rfl⟩ := h
  obtain ⟨q', rfl⟩ := h'
  exact ⟨q', rfl⟩

/-- Every core of `m'` is that of `m`, its queued events apart. -/
def Mach.EventsOnly (m m' : Mach) : Prop := ∀ c, (m.core c).EventsOnly (m'.core c)

theorem Mach.EventsOnly.trans {m m' m'' : Mach} (h : m.EventsOnly m') (h' : m'.EventsOnly m'') : m.EventsOnly m'' :=
  fun c => (h c).trans (h' c)

theorem Mach.EventsOnly.of_core {m m' : Mach} (h : ∀ c, m'.core c = m.core c) : m.EventsOnly m' := fun c => by
  rw [h c]
  exact .refl _

/-- What each of a list of changes keeps, all of them keep. -/
theorem Mach.EventsOnly.foldl {α : Type} {f : Mach → α → Mach} (hf : ∀ (m : Mach) (a : α), m.EventsOnly (f m a)) (l : List α) (m : Mach) :
    m.EventsOnly (l.foldl f m) := by
  induction l generalizing m with
  | nil => exact .of_core fun _ => rfl
  | cons a l ih => exact (hf m a).trans (ih _)

theorem Mach.eventsOnly_event (m : Mach) (c : Nat) (r : FaultRec) (ts : Option Nat) : m.EventsOnly (m.event c r ts) := fun d => by
  rw [Mach.event, Mach.core_modCore]
  split
  · subst_vars
    exact ⟨_, rfl⟩
  · exact .refl _

theorem Mach.eventsOnly_runtimeEvent (m : Mach) (p : Nat) (r : FaultRec) (ts : Option Nat) : m.EventsOnly (m.runtimeEvent p r ts) := by
  unfold Mach.runtimeEvent
  split
  · exact m.eventsOnly_event _ _ _
  · exact .of_core fun _ => rfl

theorem Mach.eventsOnly_loseMember (m : Mach) (c : Nat) : m.EventsOnly (m.loseMember c) := by
  refine Mach.EventsOnly.foldl (fun m n => ?_) _ _
  dsimp only
  split
  · refine Mach.EventsOnly.trans (m' := m.modPart _ _) (.of_core fun _ => rfl) (.foldl (fun m d => ?_) _ _)
    split
    · exact m.eventsOnly_event _ _ _
    · exact .of_core fun _ => rfl
  · exact .of_core fun _ => rfl

/-! ## The forms, run -/

section
variable {m : Mach}

theorem semEret_run (h : m.me.cho = false) (hu : m.me.priv ≠ .user) (a : Args) : (semEret a).run m =
    if m.me.kepcPriv = 3 then .error (.trap { cause := 0x02 }) m
    else if m.me.priv.code < m.me.kepcPriv.toNat then .error (.trap { cause := 0x03 }) m
    else .ok () { m.modMe (·.trapReturn) with npc := m.me.kepcPc, taken := true } := by
  rw [semEret, run_bind_ok ((needSupervisor_run m).trans (if_neg hu)), run_bind_ok (notInChorus_run h), run_bind_ok (me_run m)]
  split
  · exact run_bind_error (by simp [*, faultOf, Cause.illegalOperation])
  · rw [run_bind_ok (m' := m) (a := ()) (by simpa using ‹¬m.me.kepcPriv = 3›)]
    split
    · exact run_bind_error (by simp [Nat.not_le.mpr ‹_›, faultOf, Cause.privilege])
    · rw [run_bind_ok (m' := m) (a := ()) (by simp [Nat.not_lt.mp ‹_›])]
      rfl

/-- The machine after `halt`: its core is halted, and the runtime core and its casts are told (R120, R271). -/
def haltMach (m : Mach) : Mach :=
  let m' := m.modCore m.here fun k => { k with halted := true }
  if meshCores ≤ m.here then m'
  else (m'.runtimeEvent (m'.core m.here).part.toNat
    ({ faultOf Cause.coreHalted with pc := m'.me.pc, priv := BitVec.ofNat 2 m'.me.priv.code }.from m.here) (some m'.tsNo)).loseMember m.here

theorem semHalt_run (h : m.me.cho = false) (hu : m.me.priv ≠ .user) (a : Args) : (semHalt a).run m = .ok () (haltMach m) := by
  rw [semHalt, run_bind_ok ((needSupervisor_run m).trans (if_neg hu)), run_bind_ok (notInChorus_run h), run_bind_ok (EStateM.run_get m)]
  exact EStateM.run_set _ _

/-- Telling others changes no core but for its queued events. -/
theorem haltMach_eventsOnly (m : Mach) : (m.modCore m.here fun k => { k with halted := true }).EventsOnly (haltMach m) := by
  unfold haltMach
  dsimp only
  split
  · exact .of_core fun _ => rfl
  · exact (Mach.eventsOnly_runtimeEvent _ _ _ _).trans (Mach.eventsOnly_loseMember _ _)

end

/-! ## The forms at an agent that runs alone -/

section
variable {s : State} {c t : Nat} (hp : Plain s.mach c t = true) {a : Args}
include hp

theorem exec_trap : exec (.trap a) s = .next { s with
    mach := s.mach.trapEntry c t { cause := 0x26, index := a.imm.setWidth 16, pc := s.mach.me.pc } s.mach.npc } := by
  have hc := (Plain.iff.mp hp).1
  refine (issue_alone (Plain.alone hp) (semTrap a)).trans ?_
  rw [hc, ← Mach.tset_of_cur hc]
  rfl

theorem exec_needSupervisor (hu : s.mach.me.priv = .user) :
    exec (.eret a) s = s.traps c t { cause := 0x03 } ∧ exec (.halt a) s = s.traps c t { cause := 0x03 } := by
  have htrap := (needSupervisor_run s.mach).trans (if_pos hu)
  exact ⟨issue_traps (Plain.alone hp) (sem := semEret a) (run_bind_error htrap),
    issue_traps (Plain.alone hp) (sem := semHalt a) (run_bind_error htrap)⟩

theorem exec_halt (hu : s.mach.me.priv ≠ .user) (off : Nat) : ∃ v, exec (.halt a) s = .next v ∧ (v.mach.core c).halted = true ∧
    (v.mach.core c).mem.byte off = s.mach.myCore.mem.byte off ∧ (v.mach.core c).acc = s.mach.myCore.acc := by
  obtain ⟨hc, -, -, hcho, -⟩ := Plain.iff.mp hp
  obtain ⟨q, hq⟩ := haltMach_eventsOnly s.mach c
  rw [Mach.here_of_cur hc, Mach.core_modCore, if_pos rfl] at hq
  refine ⟨_, issue_ok (Plain.alone hp) (semHalt_run hcho hu a), ?_⟩
  rw [State.core_after hc, if_pos rfl, hq, Mach.myCore_of_cur hc]
  exact ⟨rfl, rfl, rfl⟩

end

end Sys2Proof.Machine

open Sys2Proof Sys2Proof.Machine

/-- Settles O8: each form's run by the level of the thread set and of kepc. -/
theorem systemForms : Obligations.SystemForms := by
  intro s c t off a hp
  obtain ⟨hc, -, -, hcho, -⟩ := Plain.iff.mp hp
  have hal := Plain.alone hp
  refine ⟨exec_trap hp, fun hu => exec_needSupervisor hp hu, ?reserved, ?above, ?returns, fun hu => exec_halt hp hu off⟩
  case reserved =>
    rintro ⟨hu, h3⟩
    exact issue_traps hal ((semEret_run hcho hu a).trans (if_pos h3))
  case above =>
    rintro ⟨hu, h3, hlt⟩
    exact issue_traps hal ((semEret_run hcho hu a).trans ((if_neg h3).trans (if_pos hlt)))
  case returns =>
    rintro ⟨hu, hle⟩
    have h3 : s.mach.me.kepcPriv ≠ 3 := fun h => by
      rw [h] at hle
      cases hpr : s.mach.me.priv <;> simp [hpr, Priv.code] at hle
    refine (issue_ok hal ((semEret_run hcho hu a).trans ((if_neg h3).trans (if_neg (Nat.not_lt.mpr hle))))).trans ?_
    rw [Mach.modMe_congr hc (f := (·.trapReturn)) (g := fun v =>
      { v with priv := Priv.ofCode s.mach.me.kepcPriv.toNat, handler := false }) rfl]
end

section
/-! PROOF. kcurt while a fill of a curtain is on its way: a core outside its rectangle sees the phase bit cleared before the partition's
own bit falls (R64, R65, R73, R182, R262). -/

namespace Sys2Proof.Machine

open Sys2Proof

/-! ## `kget` and `kput`, run (R182) -/

section
variable {m : Mach} (hub : m.me.anyBound = false) (hre : m.me.regErr = []) {a : Args} {sel : Nat} (hsel : a.imm.toNat = sel)
include hub hre hsel

/-- `kget` of a register that the level may read, and whose value is no free one. -/
theorem semKget_run (hl : kregRead sel ≤ m.me.priv.code) (hf : kregFree m sel = m) : (semKget a).run m =
    .ok () (if (m.me.preg a.p.toNat).getLsbD 0 then m.modMe (·.setX a.d (m.kreg sel)) else m) := by
  subst hsel
  rw [semKget, run_bind_ok (dstPort_run hub _ _), run_bind_ok (EStateM.run_get m), run_bind_ok (m' := m) (a := ()) (by simp [hl]),
    run_bind_ok (predOn_run hre a), run_bind_ok (m' := m) (a := ()) (by rw [EStateM.run_modify, hf])]
  exact writeRes_run hub a _ _

/-- `kput` of a value that differs in a read-only bit from what the thread set reads (R64). -/
theorem semKput_readOnly (hon : (m.me.preg a.p.toNat).getLsbD 0 = true) {lvl : Nat} (hw : kregWrite sel = some lvl)
    (hl : lvl ≤ m.me.priv.code) (hr : m.me.xreg a.d &&& kregReserved sel = 0)
    (hro : (m.me.xreg a.d ^^^ m.kreg sel) &&& kregReadOnly sel ≠ 0) :
    (semKput a).run m = .error (.trap (kregTrap Cause.illegalOperation sel)) m := by
  subst hsel
  rw [semKput, run_bind_ok (srcPort_run hub _ _), run_bind_ok (readX_run hub hre _), run_bind_ok (predOn_run hre a), hon, if_pos rfl,
    run_bind_ok (EStateM.run_get m)]
  simp only [hw]
  rw [run_bind_ok (m' := m) (a := ()) (by simp [hl]), hr]
  exact run_bind_error (by simpa using hro)

end

/-! ## Completions and traps that differ -/

section
variable {s : State} {c t : Nat} (hc : s.mach.cur = .core c t) (ht : t < 4)
include hc ht

/-- An instruction gives one result. -/
theorem State.gives_inj {a : Args} (hon : s.on a = true) (hd : a.d ≠ 0) {v w : Word} (h : s.gives a v = s.gives a w) : v = w := by
  rw [State.gives, State.gives, hon, if_pos rfl, if_pos rfl] at h
  have hx := congrArg (fun v : State => (v.mach.tset (.core c t)).xreg a.d) (Host.Outcome.next.inj h)
  simp only [State.tset_after_modMe hc hc _ ht] at hx
  change ((((s.mach.core c).tset t).setX a.d v).xreg a.d) = (((s.mach.core c).tset t).setX a.d w).xreg a.d at hx
  rw [ThreadSet.xreg_setX, ThreadSet.xreg_setX, if_pos ⟨rfl, hd⟩, if_pos ⟨rfl, hd⟩] at hx
  exact hx

/-- A trap that goes to the handler is no completion at another PC. -/
theorem State.traps_ne_after {r : FaultRec} {m : Mach} (hk : s.mach.me.kvec ≠ 0) (hpc : m.npc ≠ s.mach.me.kvec) :
    s.traps c t r ≠ .next (s.after m) := by
  intro h
  rw [Mach.me_of_cur hc] at hk hpc
  have h := congrArg (fun v : State => (v.mach.tset (.core c t)).pc) (Host.Outcome.next.inj h)
  simp only [State.tset_after hc _ ht] at h
  refine hpc (h.symm.trans ?_)
  exact congrArg ThreadSet.pc (Mach.enterTrap_tset s.mach ht _ _ hk)

end

/-! ## A core that a fill does not reach (R262) -/

/-- The partition of the whole mesh in phase 1 of curtain context A. A fill for the columns 0 to 500 was issued in cycle 0; it reaches its
rectangle in cycle 87. -/
def fillingPart : Partition :=
  { st := .running, w := 32, h := 12, pha := true, curtain := #v[{ refills := [(0, 0, 0, 500, 143)] }, {}] }

/-- Core (511, 0), outside the rectangle, in cycle 64: its thread set 0 at supervisor level, with the value of TOE and PHA in x1. -/
def fillingMach : Mach :=
  { clk := 64, cur := .core 511 0, npc := 4, parts := Vector.replicate 16 fillingPart
    cores := [(511, { ts := #v[{ busy := true, sup := true, priv := .supervisor, kvec := 2, x := vset (Vector.replicate 32 0) 1 52 },
                               {}, {}, {}], placed := true })] }

/-- The core reads the phase bit as cleared, though the partition's own stands until the fill has reached the rectangle. -/
theorem fillingMach_kcurt : fillingMach.kreg 0x08 = 20 := by decide

/-- `kget` and `kput` of kcurt, from and to x1. -/
def kcurtArgs : Args := { d := 1, imm := BitVec.ofNat 64 0x08 }

end Sys2Proof.Machine

open Sys2Proof Sys2Proof.Machine

/-- Refutes O5: the clause on kcurt gives the phase bits of the partition, without asking that no fill of a curtain is on its way. In
`fillingMach` the cleared bit of a fill has come to core (511, 0) (R262), whose `kget` gives 20, where the clause gives 52. -/
theorem not_controlRegisterReads : ¬ Obligations.ControlRegisterReads := by
  intro h
  obtain ⟨-, -, -, -, -, -, -, -, hcurt, -⟩ := h.1 { mach := fillingMach } 511 0 { d := 1 } (by decide)
  have hrun := semKget_run (m := fillingMach) (a := kcurtArgs) (by decide) (by decide) rfl (by decide) rfl
  have hread : exec (.kget kcurtArgs) { mach := fillingMach } = State.gives { mach := fillingMach } kcurtArgs 20 := by
    rw [← fillingMach_kcurt]
    exact issue_ok (s := { mach := fillingMach }) (c := 511) (t := 0) (by decide) hrun
  exact absurd (State.gives_inj (c := 511) (t := 0) rfl (by decide) (by decide) (by decide) (hread.symm.trans (hcurt (by decide))))
    (by decide)

/-- Refutes O6: the clause on kcurt asks that the value written has the phase bits of the partition, which are not those that the core reads
while a fill of a curtain is on its way (R64, R262). In `fillingMach` the value 52 sets a read-only bit that core (511, 0) reads as 0, and
its `kput` traps. -/
theorem not_controlRegisterWrites : ¬ Obligations.ControlRegisterWrites := by
  intro h
  obtain ⟨-, -, -, -, -, -, hcurt, -⟩ := h { mach := fillingMach } 511 0 { d := 1 } (by decide) (by decide)
  have hrun := semKput_readOnly (m := fillingMach) (a := kcurtArgs) (sel := 0x08) (by decide) (by decide) rfl (by decide) (lvl := 1) rfl
    (by decide) (by decide) (by rw [fillingMach_kcurt]; decide)
  have htrap := issue_traps (s := { mach := fillingMach }) (c := 511) (t := 0) (by decide) hrun
  exact State.traps_ne_after rfl (by decide) (by decide) (by decide)
    (htrap.symm.trans (hcurt (by decide) (by decide) (by decide) (by decide) (by decide)))
end

section
/-! PROOF. A push that waits for another store stream of its thread set (R106, R185, R279). -/

namespace Sys2Proof.Machine

open Sys2Proof

section
variable {m : Mach} {a : Args} {i : Nat}

/-- A push whose element meets a word that another stream has still to write stalls (R185, R279). -/
theorem push_crossed {v : V128} (he : (m.myCore.slotTotal (m.me.slot i)).any (· ≤ (m.me.slot i).pos.toNat) = false)
    (hf : (m.myCore.pushFault (m.me.slot i) v).or (m.myCore.drainFault (m.me.slot i)) = none) (hk : (m.me.slot i).kind < 7)
    (hx : m.me.crossed i v = true) : (push i v).run m = .error (.wait .other) m := by
  have hlink : (8 ≤ (m.me.slot i).fifo.length && 7 ≤ (m.me.slot i).kind : Bool) = false := by simp; omega
  rw [push, run_bind_ok (me_run m), run_bind_ok (myCore_run m)]
  simp only [he, Bool.false_eq_true, if_false, hf]
  rw [run_bind_ok (EStateM.run_get m)]
  simp only [hlink, Bool.false_eq_true, if_false, hx, Bool.or_true, if_true]
  rfl

/-- `mov` from a register into a stream, where the push stalls. -/
theorem semMov_push_waits (hre : m.me.regErr = []) (hp : a.p = 7) (hs : m.me.portOf false a.s = none)
    (hd : m.me.portOf false a.d = some i) (hdir : (m.me.slot i).dir = true)
    (hpush : (push i ((m.me.xreg a.s).setWidth 128)).run m = .error (.wait .other) m) :
    (semUn id a).run m = .error (.wait .other) m := by
  have hread : (readUn a).run m = .ok (m.me.xreg a.s) m := by
    simp [readUn, srcPort, dstPort, readX, EStateM.run_bind, hs, hd, hdir, checkReg_run hre]
  have hon : (m.me.preg a.p.toNat).getLsbD 0 = true := by simp [hp, ThreadSet.preg]
  rw [semUn, run_bind_ok hread, run_bind_ok (predOn_run hre a), hon, writeRes, if_pos rfl, writeX, run_bind_ok (me_run m)]
  simp only [hd, id]
  exact hpush

end

/-- A stall is no completion at another PC. -/
theorem State.waits_ne_after {s : State} {c t : Nat} (hc : s.mach.cur = .core c t) (ht : t < 4) {k : WaitKind} {m : Mach}
    (hpc : m.npc ≠ s.mach.me.pc) : s.waits k ≠ .next (s.after m) := by
  intro h
  have h := congrArg (fun v : State => (v.mach.tset (.core c t)).pc) (Host.Outcome.next.inj h)
  rw [Mach.me_of_cur hc] at hpc
  simp only [State.tset_after hc _ ht, hc, Mach.tset_stall _ _ ht] at h
  exact hpc h.symm

/-- A store stream of one 8-byte element at offset 0, bound to the scalar name 24 + `port`. -/
def wordStream (port : Nat) : Slot := { bnd := true, w0 := BitVec.ofNat 64 (4353 + 32 * port), w1 := 0x100010001 }

/-- Thread set 0 of core 0 has bound x24 and x25 to such streams, and has pushed the element of x24, which is not yet written. -/
def crossedMach : Mach :=
  { cur := .core 0 0, npc := 4
    cores := [(0, { ts := #v[{ busy := true, prt := true, x := vset (Vector.replicate 32 0) 1 5,
                               sd := #v[{ wordStream 0 with fifo := [7], pos := 1 }, wordStream 1, {}, {}, {}, {}, {}, {}] },
                             {}, {}, {}], placed := true })] }

/-- The move that pushes x1 to the stream under x25. -/
def crossedArgs : Args := { d := 25, s := 1 }

end Sys2Proof.Machine

open Sys2Proof Sys2Proof.Machine

/-- Refutes O16: the clause on pushing into a store stream with room does not ask that no other store stream of the thread set holds an
element for the same word (R185, R279). In `crossedMach` the stream under x24 does, and the `mov` to x25 waits. -/
theorem not_streamOperands : ¬ Obligations.StreamOperands := by
  intro h
  obtain ⟨-, hpush, -⟩ := h { mach := crossedMach } 0 0 crossedArgs 1 (by decide)
  obtain ⟨-, hroom, -⟩ := hpush (by decide) (by decide) (by decide) (by decide) (by decide)
  have hrun := semMov_push_waits (m := crossedMach) (a := crossedArgs) (i := 1) (by decide) (by decide) (by decide) (by decide) (by decide)
    (push_crossed (by decide) (by decide) (by decide) (by decide))
  have hwait := issue_wait (s := { mach := crossedMach }) (c := 0) (t := 0) (by decide) hrun
  exact State.waits_ne_after (c := 0) (t := 0) rfl (by decide) (by decide)
    (hwait.symm.trans (hroom (by decide) (by decide) (by decide) (by decide)))
end

section
/-! PROOF. The close of a slot whose oldest element cannot be written (R80, R106, R203). -/

namespace Sys2Proof.Machine

open Sys2Proof

/-- An instruction that meets a stream fault: FLT is set with the fault, and the trap is taken (R106). -/
theorem issue_streamFault {s : State} {c t : Nat} (h : Alone s.mach c t = true) {sem : Act Unit} {i : Nat} {r : FaultRec} {m : Mach}
    (hr : sem.run s.mach = .error (.streamFault i r) m) : issue sem s = .next { s with
      mach := (s.mach.modMe fun u => u.setSlot i { u.slot i with flt := true, fault := some (r.cause, r.addr) }).trapEntry c t
        { r with pc := s.mach.me.pc } s.mach.me.pc } := by
  have hc := (Alone.iff.mp h).1
  rw [issue_alone h, hr, hc, ← Mach.tset_of_cur hc, Mach.modMe, hc]
  rfl

/-- A close meets the fault at which draining the oldest element stands still. -/
theorem closeSlot_drainFault {m : Mach} {i : Nat} {e : Byte × Word} (hb : (m.me.slot i).bnd = true)
    (hg : m.drainGate m.here m.tsNo (m.me.slot i).drainWords = true) (hf : m.myCore.drainFault (m.me.slot i) = some e) :
    (closeSlot i).run m = .error (.streamFault i ((m.me.slot i).faultRec i e.1 e.2)) m := by
  rw [closeSlot, run_bind_ok (me_run m), run_bind_ok (myCore_run m), run_bind_ok (EStateM.run_get m),
    run_bind_ok (m' := m) (a := ()) (by simp [hb])]
  simp only [hg, if_true, hf]
  exact run_bind_error rfl

/-- A slot of the affine store kind with DIR 0, which no descriptor that `sbind` takes has (R200), with one element of 4 bytes. -/
def strayStream : Slot := { bnd := true, w0 := 2049, w1 := 0x100010001, fifo := [7] }

/-- Thread set 0 of core 0 with that slot, a handler, and an uncorrectable error in the word that the element would be written to. -/
def strayMach : Mach :=
  { cur := .core 0 0, npc := 4
    cores := [(0, { ts := #v[{ busy := true, prt := true, kvec := 2, sd := #v[strayStream, {}, {}, {}, {}, {}, {}, {}] }, {}, {}, {}]
                    side := [(0, { ecc := .double })], placed := true })] }

end Sys2Proof.Machine

open Sys2Proof Sys2Proof.Machine

/-- Refutes O17: the clause on `sclose` has a slot with DIR 0 closed whatever its kind and its FIFO, and the model looks at the kind alone
before it writes the oldest element. In `strayMach` a slot of the affine store kind has DIR 0 and holds an element for a word that cannot
be written, and its `sclose` traps. The statement does not ask that a slot is one that `sbind` makes, and this one is not (R200). -/
theorem not_streamForms : ¬ Obligations.StreamForms := by
  intro h
  obtain ⟨-, -, -, -, hclose, -⟩ := h { mach := strayMach } 0 0 {} (by decide)
  have hrun := closeSlot_drainFault (m := strayMach) (i := 0) (e := (0x12, 0)) (by decide) (by decide) (by decide)
  have htrap := issue_streamFault (s := { mach := strayMach }) (c := 0) (t := 0) (by decide) hrun
  refine State.traps_ne_after (c := 0) (t := 0) (s := { mach := strayMach.modMe _ }) rfl (by decide) (by decide) (by decide)
    (htrap.symm.trans (hclose (by decide) (by decide) (by decide)))
end

section
/-! PROOF. Integer lanes: what a lane of a packed, a merged and a mapped register is, for the lane sizes of R214, and a register's 1 bits,
counted (R55, R214, R220, R226). -/

namespace Sys2Proof.Machine

open Sys2Proof

/-- Lanes of a page-2 variant fill a register. -/
theorem laneBytes_places (v : BitVec 3) : 16 / laneBytes v * laneBytes v = 16 := by
  have h : v.toNat % 4 < 4 := Nat.mod_lt _ (by decide)
  rw [laneBytes, sizeOf]
  interval_cases v.toNat % 4 <;> rfl

theorem laneBytes_pos (v : BitVec 3) : 0 < laneBytes v := Nat.two_pow_pos _

/-- A lane number below the sixteen bytes names a lane. -/
theorem lt_lanes {n l : Nat} (hn : 16 / n * n = 16) (hl : n * l < 16) : l < 16 / n := by
  by_contra h
  have hle := Nat.mul_le_mul_right n (Nat.le_of_not_lt h)
  rw [hn, Nat.mul_comm] at hle
  omega

theorem laneOf_lt (v : V128) (n k : Nat) : laneOf v n k < 2 ^ (8 * n) := Nat.mod_lt _ (by positivity)

theorem laneInt_eq (signed : Prop) [Decidable signed] (n x : Nat) :
    laneInt (decide signed) n x = if signed ∧ 2 ^ (8 * n - 1) ≤ x then (x : Int) - 2 ^ (8 * n) else x := by
  simp [laneInt]

/-- A lane's integer, by the variant that says whether its lanes are signed (R214). -/
theorem laneInt_variant (v : BitVec 3) (n : Nat) (x : V128) (l : Nat) :
    (if v.toNat < 4 ∧ 2 ^ (8 * n - 1) ≤ x.toNat / 2 ^ (8 * n * l) % 2 ^ (8 * n)
      then ((x.toNat / 2 ^ (8 * n * l) % 2 ^ (8 * n) : Nat) : Int) - 2 ^ (8 * n)
      else ((x.toNat / 2 ^ (8 * n * l) % 2 ^ (8 * n) : Nat) : Int)) = laneInt (laneSigned v) n (laneOf x n l) :=
  (laneInt_eq _ _ _).symm

/-- A lane's integer where every lane is signed. -/
theorem laneInt_true (n : Nat) (x : V128) (l : Nat) :
    (if 2 ^ (8 * n - 1) ≤ x.toNat / 2 ^ (8 * n * l) % 2 ^ (8 * n)
      then ((x.toNat / 2 ^ (8 * n * l) % 2 ^ (8 * n) : Nat) : Int) - 2 ^ (8 * n)
      else ((x.toNat / 2 ^ (8 * n * l) % 2 ^ (8 * n) : Nat) : Int)) = laneInt true n (laneOf x n l) := by
  rw [← decide_true, laneInt_eq]
  simp only [true_and]
  rfl

/-! ## Lanes packed, merged and mapped -/

/-- A masked write takes the active lanes from the new register and keeps the others (R55). -/
theorem laneOf_mergeBytes_laneMask (mask : BitVec 16) {n k : Nat} (hn : 16 / n * n = 16) (hk : k < 16 / n) (old new : V128) :
    laneOf (mergeBytes (laneMask mask n) old new) n k = if mask.getLsbD (n * k) then laneOf new n k else laneOf old n k := by
  rw [Nat.mul_comm n k]
  exact laneOf_mergeBytes (activeLanes_places hn hk) (fun j hj hj' => getLsbD_laneMask mask hn hk hj hj') old new

theorem activeLanes_allOnes {n : Nat} (hn : 16 / n * n = 16) : activeLanes (BitVec.allOnes 16) n = List.range (16 / n) := by
  refine List.filter_eq_self.mpr fun k hk => ?_
  have hplace := activeLanes_places hn (List.mem_range.mp hk)
  have hpos : 0 < n := Nat.pos_of_ne_zero fun h => by simp [h] at hn
  rw [Nat.mul_comm, BitVec.getLsbD_allOnes, decide_eq_true (by omega)]

/-- A lane of a register packed from all its lanes. -/
theorem laneOf_vecLanes_range {n k : Nat} {f : Nat → Nat} (hn : 16 / n * n = 16) (hf : ∀ i < 16 / n, f i < 2 ^ (8 * n))
    (hk : k < 16 / n) : laneOf (vecLanes n ((List.range (16 / n)).map fun i => (i, f i))) n k = f k := by
  have hpos : 0 < n := Nat.pos_of_ne_zero fun h => by simp [h] at hn
  have hplace := activeLanes_places hn hk
  rw [← activeLanes_allOnes hn]
  refine laneOf_vecLanes _ hn hf hk ?_
  rw [Nat.mul_comm, BitVec.getLsbD_allOnes, decide_eq_true (by omega)]

theorem laneOf_mapLanes {n k : Nat} (hn : 16 / n * n = 16) (f : Nat → Nat → Nat) (x y : V128) (hk : k < 16 / n) :
    laneOf (mapLanes n f x y) n k = f (laneOf x n k) (laneOf y n k) % 2 ^ (8 * n) :=
  laneOf_vecLanes_range hn (f := fun k => f (laneOf x n k) (laneOf y n k) % 2 ^ (8 * n)) (fun _ _ => Nat.mod_lt _ (by positivity)) hk

/-- The lane of a register packed from one lane. -/
theorem laneOf_vecLanes_one {n i x : Nat} (hn : 16 / n * n = 16) (hi : i < 16 / n) (hx : x < 2 ^ (8 * n)) :
    laneOf (vecLanes n [(i, x)]) n i = x := by
  have hplace := activeLanes_places hn hi
  have hlt : x * 2 ^ (8 * n * i) < 2 ^ 128 := calc
    x * 2 ^ (8 * n * i) < 2 ^ (8 * n) * 2 ^ (8 * n * i) := Nat.mul_lt_mul_of_pos_right hx (by positivity)
    _ = 2 ^ (8 * (n * i + n)) := by rw [← pow_add]; ring_nf
    _ ≤ 2 ^ 128 := Nat.pow_le_pow_right (by decide) (by omega)
  rw [vecLanes, List.foldl_cons, List.foldl_nil, laneOf, BitVec.toNat_ofNat, Nat.zero_add, Nat.mod_eq_of_lt hlt,
    Nat.mul_div_cancel _ (by positivity), Nat.mod_eq_of_lt hx]

/-- One lane of a register replaced (R220). -/
theorem laneOf_insert {n i l x : Nat} (hn : 16 / n * n = 16) (hi : i < 16 / n) (hl : l < 16 / n) (hx : x < 2 ^ (8 * n)) (old : V128) :
    laneOf (mergeBytes (BitVec.ofNat 16 (laneBitsMask n i)) old (vecLanes n [(i, x)])) n l = if l = i then x else laneOf old n l := by
  have hpos : 0 < n := Nat.pos_of_ne_zero fun h => by simp [h] at hn
  have hplace := activeLanes_places hn hl
  rw [laneOf_mergeBytes (b := decide (l = i)) hplace fun j hj hj' => by
    have hdiv : j / n = l := Nat.div_eq_of_lt_le (by rw [Nat.mul_comm]; omega) (by rw [Nat.succ_mul, Nat.mul_comm]; omega)
    rw [getLsbD_laneBitsMask n i (by omega) hpos, hdiv]]
  by_cases h : l = i
  · subst h
    simp only [decide_true, if_true, laneOf_vecLanes_one hn hi hx]
  · simp only [h, decide_false, Bool.false_eq_true, if_false]

/-! ## 1 bits -/

/-- The 1 bits of a number, counted place by place (R175, R226). -/
theorem popNat_eq (v n : Nat) : popNat v n = ((List.range n).filter v.testBit).length := by
  induction n generalizing v with
  | zero => rfl
  | succ n ih =>
    have hrest : ((List.range n).map Nat.succ).filter v.testBit = ((List.range n).filter (v / 2).testBit).map Nat.succ := by
      rw [List.filter_map]
      exact congrArg _ (List.filter_congr fun j _ => Nat.testBit_succ v j)
    rw [popNat, ih, List.range_succ_eq_map, List.filter_cons, hrest]
    by_cases h : v.testBit 0 = true
    · rw [if_pos h, List.length_cons, List.length_map]
      have := Nat.mod_two_eq_one_iff_testBit_zero.mpr h
      omega
    · rw [if_neg h, List.length_map]
      have := Nat.mod_two_eq_zero_iff_testBit_zero.mpr (Bool.eq_false_of_not_eq_true h)
      omega

end Sys2Proof.Machine
end

section
/-! PROOF. Broadcasts, lane accesses, integer comparisons and reductions, bit counts and predicate forms (R54, R218, R220, R221, R226,
R227). -/

namespace Sys2Proof.Machine

open Sys2Proof

/-! ## The forms, run -/

section
variable {m : Mach} (hub : m.me.anyBound = false) (hre : m.me.regErr = [])
include hub hre

/-- A masked write to an unbound name merges with the register as it was (R55). -/
theorem writeMasked_run (mask : BitVec 16) (d : RegNo) (v : V128) : (writeMasked mask d v).run m =
    .ok () (m.modMe (·.setV d (mergeBytes mask (vget m.me.v 0 d.toNat) v))) := by
  rw [writeMasked, run_bind_ok (oldV_run hub hre d), writeV_run hub]

theorem semVbcst_run (a : Args) : (semVbcst a).run m = .ok () (m.modMe (·.setV a.d
    (mergeBytes (laneMask (m.me.preg a.p.toNat) (laneBytes a.v)) (vget m.me.v 0 a.d.toNat)
      (mapLanes (laneBytes a.v) (fun _ _ => (m.me.xreg a.s).toNat) 0 0)))) := by
  rw [semVbcst, run_bind_ok (srcPort_run hub _ _), run_bind_ok (dstPort_run hub _ _), run_bind_ok (readX_run hub hre _),
    run_bind_ok (readPred_run hre a)]
  exact writeMasked_run hub hre _ _ _

theorem semVext_run (a : Args) : (semVext a).run m = .ok () (if (m.me.preg a.p.toNat).getLsbD 0
    then m.modMe (·.setX a.d (extLane a.v (laneOf (vget m.me.v 0 a.s.toNat) (laneBytes a.v) a.imm.toNat))) else m) := by
  rw [semVext, run_bind_ok (srcPort_run hub _ _), run_bind_ok (dstPort_run hub _ _), run_bind_ok (readV_run hub hre _),
    run_bind_ok (predOn_run hre a)]
  exact writeRes_run hub a _ _

theorem semVins_run (a : Args) : (semVins a).run m =
    if (m.me.preg a.p.toNat).getLsbD (laneBytes a.v * a.imm.toNat) then .ok () (m.modMe (·.setV a.d
      (mergeBytes (BitVec.ofNat 16 (laneBitsMask (laneBytes a.v) a.imm.toNat)) (vget m.me.v 0 a.d.toNat)
        (vecLanes (laneBytes a.v) [(a.imm.toNat, (m.me.xreg a.s).toNat % 2 ^ (8 * laneBytes a.v))]))))
    else .ok () m := by
  rw [semVins, run_bind_ok (srcPort_run hub _ _), run_bind_ok (bothPort_run hub _ _), run_bind_ok (readX_run hub hre _),
    run_bind_ok (readV_run hub hre _), run_bind_ok (readPred_run hre a)]
  split
  · exact writeV_run hub _ _
  · rfl

theorem semVRed_run (f : List Int → Int) (a : Args) : (semVRed f a).run m = .ok () (m.modMe (·.setX a.d
    (BitVec.ofInt 64 (f (activeInts a (m.me.preg a.p.toNat) (vget m.me.v 0 a.s.toNat)))))) := by
  rw [semVRed, run_bind_ok (srcPort_run hub _ _), run_bind_ok (dstPort_run hub _ _), run_bind_ok (readV_run hub hre _),
    run_bind_ok (readPred_run hre a)]
  exact writeX_run hub _ _

theorem semVpopc_run (a : Args) : (semVpopc a).run m = .ok () (m.modMe (·.setX a.d
    (wd (popNat (mergeBytes (m.me.preg a.p.toNat) 0 (vget m.me.v 0 a.s.toNat)).toNat 128)))) := by
  rw [semVpopc, run_bind_ok (srcPort_run hub _ _), run_bind_ok (dstPort_run hub _ _), run_bind_ok (readV_run hub hre _),
    run_bind_ok (readPred_run hre a)]
  exact writeX_run hub _ _

end

section
variable {m : Mach} (hre : m.me.regErr = [])
include hre

/-- The thread set after a predicate form: `x` where the governing predicate has a 1 (R227). -/
def ThreadSet.governed (u : ThreadSet) (a : Args) (gov x : BitVec 16) : ThreadSet :=
  u.setP a.d.toNat ((x &&& gov) ||| (u.preg a.d.toNat &&& ~~~gov))

theorem writeP_run (a : Args) (gov x : BitVec 16) : (writeP a.d gov x).run m = .ok () (m.modMe (·.governed a gov x)) := by
  unfold writeP
  split
  · rfl
  · rw [run_bind_ok (checkReg_run hre _)]; rfl

theorem semPBin_run (f : BitVec 16 → BitVec 16 → BitVec 16) (a : Args) : (semPBin f a).run m = .ok () (m.modMe (·.governed a
    (m.me.preg a.p.toNat)
    (f (m.me.preg (if a.short then a.d else a.s).toNat) (m.me.preg (if a.short then a.s else a.t).toNat)))) := by
  rw [semPBin, run_bind_ok (readP_run hre _), run_bind_ok (readP_run hre _), run_bind_ok (readPred_run hre a)]
  exact writeP_run hre a _ _

theorem semPUn_run (f : BitVec 16 → BitVec 16) (a : Args) :
    (semPUn f a).run m = .ok () (m.modMe (·.governed a (m.me.preg a.p.toNat) (f (m.me.preg a.s.toNat)))) := by
  rw [semPUn, run_bind_ok (readP_run hre _), run_bind_ok (readPred_run hre a)]
  exact writeP_run hre a _ _

theorem semPset_run (a : Args) :
    (semPset a).run m = .ok () (m.modMe (·.governed a (m.me.preg a.p.toNat) (a.imm.setWidth 16))) := by
  rw [semPset, run_bind_ok (readPred_run hre a)]
  exact writeP_run hre a _ _

end

/-! ## The results -/

/-- The lanes that a reduction folds, as integers of their kind. -/
theorem activeInts_eq (a : Args) (mask : BitVec 16) (x : V128) : activeInts a mask x =
    ((List.range (16 / laneBytes a.v)).filter fun l => mask.getLsbD (laneBytes a.v * l)).map fun l =>
      laneInt (laneSigned a.v) (laneBytes a.v) (laneOf x (laneBytes a.v) l) := by
  rw [activeInts, activeLanes]
  exact congrArg _ (List.filter_congr fun l _ => by rw [Nat.mul_comm])

/-- The bits that `vpopc` counts (R226). -/
theorem popNat_mergeBytes (mask : BitVec 16) (x : V128) : popNat (mergeBytes mask 0 x).toNat 128 =
    ((List.range 128).filter fun j => x.getLsbD j && mask.getLsbD (j / 8)).length := by
  rw [popNat_eq]
  refine congrArg List.length (List.filter_congr fun j hj => ?_)
  rw [← BitVec.getLsbD, getLsbD_mergeBytes _ _ _ (List.mem_range.mp hj)]
  cases mask.getLsbD (j / 8) <;> simp

/-- An integer comparison by its code, as a decision (R218). -/
theorem intCond_eq (code : Nat) (x y : Int) : intCond code x y =
    match code with
    | 0 => decide (x = y)
    | 1 => decide (x ≠ y)
    | 2 => decide (x < y)
    | _ => decide (x ≤ y) := by
  match code with
  | 0 => exact beq_eq_decide ..
  | 1 => simp [intCond, bne, Bool.beq_eq_decide_eq]
  | 2 => rfl
  | _ + 3 => rfl

theorem orFlags_zeros {α : Type} (l : List α) : orFlags (l.map fun _ => 0) = 0 := by
  induction l with
  | nil => rfl
  | cons _ l ih => rw [List.map_cons, orFlags_cons, ih]; rfl

theorem leastLane_eq (v : BitVec 3) : (laneRange v).1 = if v.toNat < 4 then -2 ^ (8 * laneBytes v - 1) else 0 := by
  simp only [laneRange, laneSigned, decide_eq_true_eq]
  split <;> rfl

theorem greatestLane_eq (v : BitVec 3) : (laneRange v).2 =
    if v.toNat < 4 then 2 ^ (8 * laneBytes v - 1) - 1 else 2 ^ (8 * laneBytes v) - 1 := by
  simp only [laneRange, laneSigned, decide_eq_true_eq]
  split <;> rfl

/-- An integer comparison raises no flag. -/
theorem semVCmpInt_run {m : Mach} {c t : Nat} (hc : m.cur = .core c t) (ht : t < 4) (hub : m.me.anyBound = false)
    (hre : m.me.regErr = []) (a : Args) :
    let n := laneBytes a.v
    let num (r : RegNo) (l : Nat) := laneInt (laneSigned a.v) n (laneOf (vget m.me.v 0 r.toNat) n l)
    (semVCmp n (fun x y => (intCond a.m.toNat (laneInt (laneSigned a.v) n x) (laneInt (laneSigned a.v) n y), 0)) a).run m =
      .ok () (m.modMe fun u => u.setP a.d.toNat (setLanes n (u.preg a.d.toNat)
        ((activeLanes (m.me.preg a.p.toNat) n).map fun l => (l, intCond a.m.toNat (num a.s l) (num a.t l))))) := by
  have hz (f : FFlags) : f ||| 0 = f := BitVec.or_zero
  intro n num
  refine (semVCmp_run hc ht hub hre a n _).trans (congrArg _ (Mach.modMe_congr hc ?_))
  simp only [orFlags_zeros, hz]
  rw [← ThreadSet.setP_kfflags]

/-! ## The forms at an agent that runs alone -/

section
variable {s : State} {c t : Nat} (hp : Plain s.mach c t = true) {a : Args}
include hp

/-- A form that writes its vector register whole, and what that register then holds. -/
theorem exists_setV {sem : Act Unit} {x : V128} (hr : sem.run s.mach = .ok () (s.mach.modMe (·.setV a.d x))) {P : V128 → Prop}
    (hx : P x) : ∃ v, issue sem s = .next v ∧
      let V := vget (v.mach.tset (.core c t)).v 0 a.d.toNat
      v = s.after (s.mach.modMe (·.setV a.d V)) ∧ P V := by
  obtain ⟨hc, -, ht, -⟩ := Plain.iff.mp hp
  refine ⟨_, issue_ok (Plain.alone hp) hr, ?_⟩
  rw [State.tset_after_modMe hc hc _ ht, ThreadSet.advance_v, ThreadSet.v_setV, if_pos rfl]
  exact ⟨rfl, hx⟩

theorem exec_vbcst :
    let n := laneBytes a.v
    ∃ v, exec (.vbcst a) s = .next v ∧
      let V := vget (v.mach.tset (.core c t)).v 0 a.d.toNat
      v = s.after (s.mach.modMe (·.setV a.d V)) ∧ ∀ l ∈ List.range 16, n * l < 16 →
        laneOf V n l = if (s.mach.me.preg a.p.toNat).getLsbD (n * l) then (s.mach.me.xreg a.s).toNat % 2 ^ (8 * n)
          else laneOf (vget s.mach.me.v 0 a.d.toNat) n l := by
  obtain ⟨-, -, -, -, -, -, hub, hre⟩ := Plain.iff.mp hp
  have hn := laneBytes_places a.v
  refine exists_setV hp (semVbcst_run hub hre a)
    (P := fun V => ∀ l ∈ List.range 16, laneBytes a.v * l < 16 → laneOf V (laneBytes a.v) l = if
      (s.mach.me.preg a.p.toNat).getLsbD (laneBytes a.v * l) then (s.mach.me.xreg a.s).toNat % 2 ^ (8 * laneBytes a.v)
      else laneOf (vget s.mach.me.v 0 a.d.toNat) (laneBytes a.v) l) fun l _ hl => ?_
  rw [laneOf_mergeBytes_laneMask _ hn (lt_lanes hn hl), laneOf_mapLanes hn _ _ _ (lt_lanes hn hl)]

theorem exec_vins (hi : laneBytes a.v * a.imm.toNat < 16)
    (hon : (s.mach.me.preg a.p.toNat).getLsbD (laneBytes a.v * a.imm.toNat) = true) :
    let n := laneBytes a.v
    ∃ v, exec (.vins a) s = .next v ∧
      let V := vget (v.mach.tset (.core c t)).v 0 a.d.toNat
      v = s.after (s.mach.modMe (·.setV a.d V)) ∧ ∀ l ∈ List.range 16, n * l < 16 →
        laneOf V n l = if l = a.imm.toNat then (s.mach.me.xreg a.s).toNat % 2 ^ (8 * n)
          else laneOf (vget s.mach.me.v 0 a.d.toNat) n l := by
  obtain ⟨-, -, -, -, -, -, hub, hre⟩ := Plain.iff.mp hp
  have hn := laneBytes_places a.v
  refine exists_setV hp ((semVins_run hub hre a).trans (if_pos hon))
    (P := fun V => ∀ l ∈ List.range 16, laneBytes a.v * l < 16 → laneOf V (laneBytes a.v) l = if l = a.imm.toNat
      then (s.mach.me.xreg a.s).toNat % 2 ^ (8 * laneBytes a.v) else laneOf (vget s.mach.me.v 0 a.d.toNat) (laneBytes a.v) l)
    fun l _ hl => ?_
  rw [laneOf_insert hn (lt_lanes hn hi) (lt_lanes hn hl) (Nat.mod_lt _ (by positivity))]

/-- A reduction writes its scalar whatever its predicate's bit 0 (R221). -/
theorem issue_semVRed (f : List Int → Int) : issue (semVRed f a) s = .next (s.after (s.mach.modMe (·.setX a.d (BitVec.ofInt 64
    (f (activeInts a (s.mach.me.preg a.p.toNat) (vget s.mach.me.v 0 a.s.toNat))))))) := by
  obtain ⟨-, -, -, -, -, -, hub, hre⟩ := Plain.iff.mp hp
  exact issue_ok (Plain.alone hp) (semVRed_run hub hre f a)

theorem exec_vcmpInt (hd : a.d.toNat < 8) :
    let n := laneBytes a.v
    let num (r : RegNo) (l : Nat) := laneInt (laneSigned a.v) n (laneOf (vget s.mach.me.v 0 r.toNat) n l)
    ∃ v, exec (.vcmpInt a) s = .next v ∧
      let pd := (v.mach.tset (.core c t)).preg a.d.toNat
      v = s.after (s.mach.modMe (·.setP a.d.toNat pd)) ∧ ∀ j ∈ List.range 16, a.d ≠ 7 →
        pd.getLsbD j = if (s.mach.me.preg a.p.toNat).getLsbD (j / n * n)
          then intCond a.m.toNat (num a.s (j / n)) (num a.t (j / n)) else (s.mach.me.preg a.d.toNat).getLsbD j := by
  obtain ⟨hc, -, ht, -, -, -, hub, hre⟩ := Plain.iff.mp hp
  intro n num
  refine ⟨_, issue_ok (Plain.alone hp) (semVCmpInt_run hc ht hub hre a), ?_⟩
  by_cases h7 : a.d.toNat = 7
  · refine ⟨congrArg s.after (Mach.modMe_congr hc ?_), fun j _ hd7 => absurd (BitVec.eq_of_toNat_eq h7) hd7⟩
    simp only [h7, ThreadSet.setP, if_true]
  · have hset (p : BitVec 16) (pc : BitVec 14) (clk : Nat) :
        ((s.mach.me.setP a.d.toNat p).advance pc clk).preg a.d.toNat = p :=
      (ThreadSet.preg_setP _ hd _).trans (if_pos ⟨rfl, h7⟩)
    dsimp only
    rw [State.tset_after_modMe hc hc _ ht, ← Mach.me_of_cur hc, hset]
    refine ⟨congrArg s.after (Mach.modMe_congr hc rfl), fun j hj _ => ?_⟩
    have hjn : j / n < 16 / n := by
      have hn : n * (16 / n) = 16 := (Nat.mul_comm _ _).trans (laneBytes_places a.v)
      exact Nat.div_lt_of_lt_mul (hn.symm ▸ List.mem_range.mp hj)
    rw [getLsbD_setLanes (List.mem_range.mp hj) (laneBytes_pos a.v)]
    refine if_congr ?_ rfl rfl
    rw [activeLanes, List.mem_filter, List.mem_range, and_iff_right hjn]

/-- What a predicate form leaves (R54, R227). -/
theorem exists_governed {sem : Act Unit} {x : BitVec 16} (hd : a.d.toNat < 8)
    (hr : sem.run s.mach = .ok () (s.mach.modMe (·.governed a (s.mach.me.preg a.p.toNat) x))) {f : Nat → Bool}
    (hx : ∀ j < 16, x.getLsbD j = f j) : ∃ v, issue sem s = .next v ∧
      let P := vget (v.mach.tset (.core c t)).p 0 a.d.toNat
      v = s.after (if a.d = 7 then s.mach.modMe id else s.mach.modMe fun v => { v with p := vset v.p a.d.toNat P }) ∧
      ∀ j ∈ List.range 16, a.d ≠ 7 → P.getLsbD j =
        if (s.mach.me.preg a.p.toNat).getLsbD j then f j else (s.mach.me.preg a.d.toNat).getLsbD j := by
  obtain ⟨hc, -, ht, -, -, -, -, hre⟩ := Plain.iff.mp hp
  refine ⟨_, issue_ok (Plain.alone hp) hr, ?_⟩
  by_cases h7 : a.d = 7
  · dsimp only
    rw [if_pos h7]
    refine ⟨congrArg s.after (Mach.modMe_congr hc ?_), fun j _ hd7 => absurd h7 hd7⟩
    rw [ThreadSet.governed, ThreadSet.setP, if_pos (by rw [h7]; rfl), id]
  · have h7' : a.d.toNat ≠ 7 := fun h => h7 (BitVec.eq_of_toNat_eq h)
    dsimp only
    rw [if_neg h7, State.tset_after_modMe hc hc _ ht, ← Mach.me_of_cur hc]
    have hset (y : BitVec 16) : s.mach.me.setP a.d.toNat y = { s.mach.me with p := vset s.mach.me.p a.d.toNat y } := by
      simp [ThreadSet.setP, h7', hre, Map.erase]
    simp only [ThreadSet.advance_p, ThreadSet.governed, hset]
    rw [vget_vset_same _ _ _ hd]
    refine ⟨congrArg s.after (Mach.modMe_congr hc (hset _)), fun j hj _ => ?_⟩
    have hj := List.mem_range.mp hj
    rw [BitVec.getLsbD_or, BitVec.getLsbD_and, BitVec.getLsbD_and, BitVec.getLsbD_not, hx j hj]
    cases (s.mach.me.preg a.p.toNat).getLsbD j <;> simp [hj]

end

end Sys2Proof.Machine

open Sys2Proof Sys2Proof.Machine

/-- Settles O28: each form's run, and the lanes or bits of what it writes. -/
theorem vectorLaneAndPredicateForms : Obligations.VectorLaneAndPredicateForms := by
  refine ⟨fun s c t a hp => ?lanes, fun s c t a hp hd => ?predicates⟩
  case lanes =>
    obtain ⟨-, -, -, -, -, -, hub, hre⟩ := Plain.iff.mp hp
    have hal := Plain.alone hp
    have hn : 2 ^ (a.v.toNat % 4) = Machine.laneBytes a.v := rfl
    dsimp only
    simp only [hn, laneInt_variant, ← activeInts_eq]
    refine ⟨exec_vbcst hp, fun _ => issue_ok hal (semVext_run hub hre a), fun ⟨hi, hon⟩ => exec_vins hp hi hon, fun hoff => ?skips,
      ?sum, ?greatest, ?least, ?count, fun hd => ?compared⟩
    case skips => exact issue_ok hal ((semVins_run hub hre a).trans (if_neg (ne_true_of_eq_false hoff)))
    case sum => rw [List.sum_eq_foldl]; exact issue_semVRed hp _
    case greatest => rw [← leastLane_eq]; exact issue_semVRed hp _
    case least => rw [← greatestLane_eq]; exact issue_semVRed hp _
    case count =>
      rw [← popNat_mergeBytes]
      exact issue_ok hal (semVpopc_run hub hre a)
    case compared =>
      obtain ⟨v, hv, hnext, hbits⟩ := exec_vcmpInt hp hd
      exact ⟨v, hv, hnext, fun j hj h7 => (hbits j hj h7).trans (if_congr Iff.rfl (intCond_eq ..) rfl)⟩
  case predicates =>
    obtain ⟨-, -, -, -, -, -, -, hre⟩ := Plain.iff.mp hp
    exact ⟨exists_governed hp hd (semPBin_run hre _ a) fun j _ => BitVec.getLsbD_and ..,
      exists_governed hp hd (semPBin_run hre _ a) fun j _ => BitVec.getLsbD_or ..,
      exists_governed hp hd (semPBin_run hre _ a) fun j _ => BitVec.getLsbD_xor ..,
      exists_governed hp hd (semPUn_run hre _ a) fun j hj => by rw [BitVec.getLsbD_not, decide_eq_true hj, Bool.true_and],
      exists_governed hp hd (semPUn_run hre _ a) fun j _ => rfl,
      exists_governed hp hd (semPset_run hre a) fun j hj => by rw [BitVec.getLsbD_setWidth, decide_eq_true hj, Bool.true_and]⟩
end

section
/-! PROOF. The element-wise integer and byte forms, run over a group (R55, R56, R214, R217, R219, R226). -/

namespace Sys2Proof.Machine

open Sys2Proof

/-! ## Bytes of a vector register -/

theorem laneOf_one (v : V128) (l : Nat) : laneOf v 1 l = (vbyte v l).toNat := by
  simp [laneOf, vbyte, BitVec.extractLsb', Nat.shiftRight_eq_div_pow]

/-- A byte of a register packed from sixteen. -/
theorem laneOf_vecOf_range (f : Nat → Byte) {l : Nat} (hl : l < 16) : laneOf (vecOf ((List.range 16).map f)) 1 l = (f l).toNat := by
  apply Nat.eq_of_testBit_eq
  intro i
  rw [testBit_laneOf]
  by_cases hi : i < 8
  · have hplace : 8 * l + i < 128 := by omega
    have hdiv : (8 * l + i) / 8 = l := by omega
    have hmod : (8 * l + i) % 8 = i := by omega
    rw [vecOf, BitVec.getLsbD_ofNat, testBit_leNat, hdiv, hmod]
    simp [hplace, hi, hl, BitVec.getLsbD]
  · have hbig : ((f l).toNat).testBit i = false :=
      Nat.testBit_lt_two_pow (lt_of_lt_of_le (f l).isLt (Nat.pow_le_pow_right (by decide) (by omega)))
    simp [hi, hbig]

/-! ## The bits of a lane's integer -/

theorem laneBits_lt (n : Nat) (x : Int) : laneBits n x < 2 ^ (8 * n) := by
  have hpos : (0 : Int) < 2 ^ (8 * n) := by positivity
  have hlt := Int.emod_lt_of_pos x hpos
  rw [laneBits, Int.toNat_lt' (by positivity)]
  exact_mod_cast hlt

theorem laneBits_natCast (n x : Nat) : laneBits n x = x % 2 ^ (8 * n) := by
  rw [laneBits]
  exact_mod_cast Int.toNat_natCast _

/-- A lane's pattern is the bits of its number. -/
theorem laneBits_laneOf (n : Nat) (v : V128) (l : Nat) : laneBits n (laneOf v n l) = laneOf v n l := by
  rw [laneBits_natCast, Nat.mod_eq_of_lt (laneOf_lt v n l)]

/-- Lanes computed as integers. -/
theorem laneOf_mapLanes_laneBits {n l : Nat} (hn : 16 / n * n = 16) (f : Nat → Nat → Int) (x y : V128) (hl : l < 16 / n) :
    laneOf (mapLanes n (fun x y => laneBits n (f x y)) x y) n l = laneBits n (f (laneOf x n l) (laneOf y n l)) := by
  rw [laneOf_mapLanes hn _ _ _ hl, Nat.mod_eq_of_lt (laneBits_lt ..)]

/-- Lanes computed as numbers. -/
theorem laneOf_mapLanes_natCast {n l : Nat} (hn : 16 / n * n = 16) (f : Nat → Nat → Nat) (x y : V128) (hl : l < 16 / n) :
    laneOf (mapLanes n f x y) n l = laneBits n (f (laneOf x n l) (laneOf y n l)) := by
  rw [laneOf_mapLanes hn _ _ _ hl, laneBits_natCast]

/-! ## The byte forms -/

theorem laneOf_permBytes (x i : V128) {l : Nat} (hl : l < 16) :
    laneOf (permBytes x i) 1 l = if 128 ≤ laneOf i 1 l then 0 else laneOf x 1 (laneOf i 1 l % 16) := by
  rw [permBytes, laneOf_vecOf_range _ hl]
  simp only [laneOf_one]
  have hbit : bit (vbyte i l) 7 = decide (128 ≤ (vbyte i l).toNat) := by
    have hlt := (vbyte i l).isLt
    rw [bit, fld, beq_eq_decide]
    exact decide_eq_decide.mpr (by omega)
  have hfld : fld (vbyte i l) 3 0 = (vbyte i l).toNat % 16 := by rw [fld, Nat.pow_zero, Nat.div_one]; rfl
  simp only [hbit, hfld, decide_eq_true_eq, apply_ite BitVec.toNat]
  rfl

/-- The count of the bits below a byte (R226). -/
theorem bitsBelow_eq (x : V128) {l : Nat} (hl : l < 16) :
    bitsBelow x l = ((List.range (8 * l)).filter fun j => x.getLsbD j).length := by
  have hsplit : List.range 128 = List.range (8 * l) ++ (List.range (128 - 8 * l)).map (8 * l + ·) := by
    rw [← List.range_add]
    congr 1
    omega
  have hlow : (List.range (8 * l)).filter (x.toNat % 2 ^ (8 * l)).testBit = (List.range (8 * l)).filter fun j => x.getLsbD j :=
    List.filter_congr fun j hj => by simp [Nat.testBit_mod_two_pow, List.mem_range.mp hj, BitVec.getLsbD]
  have hhigh : ((List.range (128 - 8 * l)).map (8 * l + ·)).filter (x.toNat % 2 ^ (8 * l)).testBit = [] :=
    List.filter_eq_nil_iff.mpr fun j hj => by
      obtain ⟨i, -, rfl⟩ := List.mem_map.mp hj
      simp [Nat.testBit_mod_two_pow]
  rw [bitsBelow, popNat_eq, hsplit, List.filter_append, hlow, hhigh, List.append_nil]

theorem laneOf_prefixCounts (x : V128) {l : Nat} (hl : l < 16) :
    laneOf (vecOf ((List.range 16).map fun j => BitVec.ofNat 8 (bitsBelow x j))) 1 l =
      ((List.range (8 * l)).filter fun j => x.getLsbD j).length := by
  have hle := List.length_filter_le (fun j => x.getLsbD j) (List.range (8 * l))
  rw [List.length_range] at hle
  rw [laneOf_vecOf_range _ hl, BitVec.toNat_ofNat, bitsBelow_eq x hl, Nat.mod_eq_of_lt (by omega)]

/-! ## Forms over a group -/

/-- The machine after each register `k` of the destination group has taken `g k`. -/
def wroteGroup (m : Mach) (a : Args) (g : Nat → V128) : Mach :=
  m.modMe fun u => { u with v := groupRegs a.d.toNat g (groupWidth a) u.v }

/-- The active lanes of a register, computed from two others. -/
def groupLane (m : Mach) (a : Args) (n : Nat) (x y : RegNo) (f : V128 → V128 → V128) (k : Nat) : V128 :=
  let reg (r : RegNo) : V128 := vget m.me.v 0 (r.toNat + k)
  mergeBytes (laneMask (m.me.preg a.p.toNat) n) (reg a.d) (f (reg x) (reg y))

section
variable {m : Mach} {c t : Nat} (hc : m.cur = .core c t) (ht : t < 4) (hub : m.me.anyBound = false) (hre : m.me.regErr = [])
  {a : Args} (hd : GroupFits a.d a.d (groupWidth a))
include hc ht hub hre hd

/-- A loop over a group, each pass of which writes its register and raises no flag. -/
theorem writeLoop_run {body : Nat → Act Unit} {g : Nat → V128} (hbody : ∀ k < groupWidth a, ∀ m', InGroup m m' c t a.d.toNat k →
    (body k).run m' = .ok () (m'.modMe (·.setV (a.d + BitVec.ofNat 5 k) (g k)))) :
    ((List.range (groupWidth a)).forM body).run m = .ok () (wroteGroup m a g) := by
  have hz (f : FFlags) : f ||| 0 = f := BitVec.or_zero
  have hfold (l : List Nat) (f : FFlags) : l.foldl (fun f _ => f ||| 0) f = f := by
    induction l with
    | nil => rfl
    | cons _ l ih => rw [List.foldl_cons, hz, ih]
  refine (groupLoop_run hc ht hub hre (r := fun k => (g k, 0)) (groupWidth_pos a) hd.1 fun k hk m' hm' => ?_).trans ?_
  · rw [hbody k hk m' hm']
    refine congrArg _ (Mach.modMe_congr hm'.cur ?_)
    rw [ThreadSet.setV_of_regErr hm'.regErr, ofNat_add_toNat hd.1 hk, ThreadSet.writeLanes, hz]
  · exact congrArg _ (Mach.modMe_congr hc (by rw [hfold]))

section
variable (hs : GroupFits a.d (if a.short then a.d else a.s) (groupWidth a))
  (hb : GroupFits a.d (if a.short then a.s else a.t) (groupWidth a))
include hs hb

theorem semVBin_run (n : Nat) (f : V128 → V128 → V128) : (semVBin n f a).run m =
    .ok () (wroteGroup m a (groupLane m a n (if a.short then a.d else a.s) (if a.short then a.s else a.t) f)) := by
  rw [semVBin, run_bind_ok (vbinPorts_run hub a), run_bind_ok (readPred_run hre a)]
  refine writeLoop_run hc ht hub hre hd fun k hk m' hm' => ?_
  rw [run_bind_ok (readVBin_run hm'.unbound hm'.regErr a hs.1 hb.1 hk), hm'.source hs hk, hm'.source hb hk]
  rw [writeMasked_run hm'.unbound hm'.regErr, ofNat_add_toNat hd.1 hk, hm'.source hd hk, groupLane]

theorem semVsel_run : (semVsel a).run m = .ok () (wroteGroup m a fun k => mergeBytes (m.me.preg a.p.toNat)
    (vget m.me.v 0 ((if a.short then a.s else a.t).toNat + k)) (vget m.me.v 0 ((if a.short then a.d else a.s).toNat + k))) := by
  rw [semVsel, run_bind_ok (vbinPorts_run hub a), run_bind_ok (readPred_run hre a)]
  refine writeLoop_run hc ht hub hre hd fun k hk m' hm' => ?_
  rw [run_bind_ok (readVBin_run hm'.unbound hm'.regErr a hs.1 hb.1 hk), hm'.source hs hk, hm'.source hb hk]
  exact writeV_run hm'.unbound _ _

end

theorem semVUn_run (hs : GroupFits a.d a.s (groupWidth a)) (n : Nat) (f : V128 → V128) :
    (semVUn n f a).run m = .ok () (wroteGroup m a (groupLane m a n a.s a.s fun x _ => f x)) := by
  rw [semVUn, run_bind_ok (vunPorts_run hub a), run_bind_ok (readPred_run hre a)]
  refine writeLoop_run hc ht hub hre hd fun k hk m' hm' => ?_
  rw [run_bind_ok (readV_run hm'.unbound hm'.regErr _), ofNat_add_toNat hs.1 hk, hm'.source hs hk,
    writeMasked_run hm'.unbound hm'.regErr, ofNat_add_toNat hd.1 hk, hm'.source hd hk, groupLane]

end

/-! ## What a form leaves -/

/-- The instruction completes with register `k` of its group as `P k` says and every other register as it was. -/
def LeavesGroup (s : State) (c t : Nat) (a : Args) (o : Host.Outcome State Fault Refusal) (P : Nat → V128 → Prop) : Prop :=
  let w := 2 ^ a.w.toNat
  ∃ v, o = .next v ∧
    let V := (v.mach.tset (.core c t)).v
    v = s.after (s.mach.modMe fun u => { u with v := V }) ∧
    (∀ k ∈ List.range w, P k (vget V 0 (a.d.toNat + k))) ∧
    (∀ r ∈ List.range 32, r < a.d.toNat ∨ a.d.toNat + w ≤ r → vget V 0 r = vget s.mach.me.v 0 r)

/-- A form whose effect writes its group, at an agent that runs alone. -/
theorem leavesGroup_of_run {s : State} {c t : Nat} {a : Args} (hp : Plain s.mach c t = true) (hd : a.d.toNat + groupWidth a ≤ 32)
    {sem : Act Unit} {g : Nat → V128} (hr : sem.run s.mach = .ok () (wroteGroup s.mach a g)) {P : Nat → V128 → Prop}
    (hP : ∀ k < groupWidth a, P k (g k)) : LeavesGroup s c t a (issue sem s) P := by
  obtain ⟨hc, -, ht, -⟩ := Plain.iff.mp hp
  refine ⟨_, issue_ok (Plain.alone hp) hr, ?_⟩
  dsimp only
  rw [wroteGroup, State.tset_after_modMe hc hc _ ht, ThreadSet.advance_v, ← Mach.me_of_cur hc]
  refine ⟨congrArg s.after (Mach.modMe_congr hc rfl), fun k hk => ?_, fun r _ hr => ?_⟩
  · have hk : k < groupWidth a := List.mem_range.mp hk
    rw [vget_groupRegs hd, if_pos (by omega), Nat.add_sub_cancel_left]
    exact hP k hk
  · exact (vget_groupRegs hd _ _ r).trans (if_neg (by simp only [groupWidth]; omega))

/-- Register `k` of a group after a form on lanes of `n` bytes: each active lane takes the integer `f`, the others stay (R55, R217). -/
def LanesFrom (s : State) (a : Args) (n : Nat) (x y : RegNo) (f : Nat → V128 → V128 → Int) (k : Nat) (v : V128) : Prop :=
  let reg (r : RegNo) : V128 := vget s.mach.me.v 0 (r.toNat + k)
  ∀ l ∈ List.range (16 / n), laneOf v n l =
    if (s.mach.me.preg a.p.toNat).getLsbD (n * l) then laneBits n (f l (reg x) (reg y)) else laneOf (reg a.d) n l

theorem lanesFrom_groupLane (s : State) (a : Args) {n : Nat} (hn : 16 / n * n = 16) (x y : RegNo) {g : V128 → V128 → V128}
    {f : Nat → V128 → V128 → Int} (hf : ∀ x y, ∀ l < 16 / n, laneOf (g x y) n l = laneBits n (f l x y)) (k : Nat) :
    LanesFrom s a n x y f k (groupLane s.mach a n x y g k) := by
  intro l hl
  have hl := List.mem_range.mp hl
  rw [groupLane, laneOf_mergeBytes_laneMask _ hn hl, hf _ _ l hl]

/-! ## The families of forms at an agent that runs alone -/

section
variable {s : State} {c t : Nat} (hp : Plain s.mach c t = true) {a : Args} (hd : GroupFits a.d a.d (groupWidth a))
include hp hd

section
variable (hs : GroupFits a.d (if a.short then a.d else a.s) (groupWidth a))
  (hb : GroupFits a.d (if a.short then a.s else a.t) (groupWidth a))
include hs hb

theorem leavesGroup_semVBin {n : Nat} (hn : 16 / n * n = 16) {g : V128 → V128 → V128} {f : Nat → V128 → V128 → Int}
    (hf : ∀ x y, ∀ l < 16 / n, laneOf (g x y) n l = laneBits n (f l x y)) : LeavesGroup s c t a (issue (semVBin n g a) s)
      (LanesFrom s a n (if a.short then a.d else a.s) (if a.short then a.s else a.t) f) := by
  obtain ⟨hc, -, ht, -, -, -, hub, hre⟩ := Plain.iff.mp hp
  exact leavesGroup_of_run hp hd.1 (semVBin_run hc ht hub hre hd hs hb n g) fun k _ => lanesFrom_groupLane s a hn _ _ hf k

/-- A form on the integers of the lanes (R217). -/
theorem leavesGroup_semVInt {g f : Int → Int → Int} (hg : ∀ x y, g x y = f x y) :
    let n := laneBytes a.v
    let num (l : Nat) (v : V128) : Int := laneInt (laneSigned a.v) n (laneOf v n l)
    LeavesGroup s c t a (issue (semVInt (fun _ => g) a) s) (LanesFrom s a n (if a.short then a.d else a.s)
      (if a.short then a.s else a.t) fun l x y => f (num l x) (num l y)) := by
  intro n num
  refine leavesGroup_semVBin hp hd hs hb (laneBytes_places a.v) fun x y l hl => ?_
  rw [laneOf_mapLanes_laneBits (laneBytes_places a.v) _ _ _ hl]
  exact congrArg _ (hg _ _)

/-- A shift of the lanes' patterns (R217). -/
theorem leavesGroup_semVShift {g : Nat → Nat → Nat} {f : Nat → Nat → Int} (hg : ∀ x y : Nat, (g x y : Int) = f x y) :
    let n := laneBytes a.v
    LeavesGroup s c t a (issue (semVShift (fun _ => g) a) s) (LanesFrom s a n (if a.short then a.d else a.s)
      (if a.short then a.s else a.t) fun l x y => f (laneOf x n l) (laneOf y n l % (8 * n))) := by
  intro n
  refine leavesGroup_semVBin hp hd hs hb (laneBytes_places a.v) fun x y l hl => ?_
  rw [laneOf_mapLanes_natCast (laneBytes_places a.v) _ _ _ hl, hg]

/-- A shift of the lanes' signed integers (R217). -/
theorem leavesGroup_semVShift_signed (g : Int → Nat → Int) :
    let n := laneBytes a.v
    LeavesGroup s c t a (issue (semVShift (fun n x c => laneBits n (g (laneInt true n x) c)) a) s) (LanesFrom s a n
      (if a.short then a.d else a.s) (if a.short then a.s else a.t) fun l x y =>
        g (laneInt true n (laneOf x n l)) (laneOf y n l % (8 * n))) :=
  leavesGroup_semVBin hp hd hs hb (laneBytes_places a.v) fun _ _ _ hl =>
    laneOf_mapLanes_laneBits (laneBytes_places a.v) (fun x y => g (laneInt true _ x) (y % (8 * laneBytes a.v))) _ _ hl

/-- A form on whole registers, byte by byte (R219). -/
theorem leavesGroup_bytes {g : V128 → V128 → V128} {f : Nat → V128 → V128 → Nat}
    (hg : ∀ x y, ∀ l < 16, laneOf (g x y) 1 l = f l x y) : LeavesGroup s c t a (issue (semVBin 1 g a) s)
      (LanesFrom s a 1 (if a.short then a.d else a.s) (if a.short then a.s else a.t) fun l x y => f l x y) := by
  refine leavesGroup_semVBin hp hd hs hb rfl fun x y l hl => ?_
  rw [← hg x y l hl, laneBits_laneOf]

theorem leavesGroup_vperm : LeavesGroup s c t a (issue (semVBin 1 permBytes a) s)
    (LanesFrom s a 1 (if a.short then a.d else a.s) (if a.short then a.s else a.t) fun l x y =>
      if 128 ≤ laneOf y 1 l then 0 else laneOf x 1 (laneOf y 1 l % 16)) := by
  refine leavesGroup_semVBin hp hd hs hb rfl fun x y l hl => ?_
  rw [← laneBits_laneOf, laneOf_permBytes x y hl]
  exact congrArg _ (Nat.cast_ite ..)

theorem leavesGroup_semVsel : LeavesGroup s c t a (issue (semVsel a) s) fun k v => ∀ l ∈ List.range 16, laneOf v 1 l =
    if (s.mach.me.preg a.p.toNat).getLsbD l then laneOf (vget s.mach.me.v 0 ((if a.short then a.d else a.s).toNat + k)) 1 l
    else laneOf (vget s.mach.me.v 0 ((if a.short then a.s else a.t).toNat + k)) 1 l := by
  obtain ⟨hc, -, ht, -, -, -, hub, hre⟩ := Plain.iff.mp hp
  refine leavesGroup_of_run hp hd.1 (semVsel_run hc ht hub hre hd hs hb) fun k _ l hl => ?_
  have hl := List.mem_range.mp hl
  refine laneOf_mergeBytes (by omega) (fun j hj hj' => ?_) _ _
  rw [show j = l by omega]

end

section
variable (hs : GroupFits a.d a.s (groupWidth a))
include hs

theorem leavesGroup_semVUn {n : Nat} (hn : 16 / n * n = 16) {g : V128 → V128} {f : Nat → V128 → Int}
    (hf : ∀ x, ∀ l < 16 / n, laneOf (g x) n l = laneBits n (f l x)) :
    LeavesGroup s c t a (issue (semVUn n g a) s) (LanesFrom s a n a.s a.s fun l x _ => f l x) := by
  obtain ⟨hc, -, ht, -, -, -, hub, hre⟩ := Plain.iff.mp hp
  exact leavesGroup_of_run hp hd.1 (semVUn_run hc ht hub hre hd hs n g) fun k _ => lanesFrom_groupLane s a hn _ _ (fun x _ => hf x) k

/-- A form of one source on the signed integers of the lanes (R217). -/
theorem leavesGroup_semVIntUn {g f : Int → Int} (hg : ∀ x, g x = f x) :
    let n := laneBytes a.v
    LeavesGroup s c t a (issue (semVIntUn g a) s)
      (LanesFrom s a n a.s a.s fun l x _ => f (laneInt true n (laneOf x n l))) := by
  intro n
  refine leavesGroup_semVUn hp hd hs (laneBytes_places a.v) fun x l hl => ?_
  rw [laneOf_mapLanes_laneBits (laneBytes_places a.v) (fun u _ => g (laneInt true _ u)) _ _ hl, hg]

/-- A form of one source on a whole register, byte by byte (R219, R226). -/
theorem leavesGroup_byteUn {g : V128 → V128} {f : Nat → V128 → Nat} (hg : ∀ x, ∀ l < 16, laneOf (g x) 1 l = f l x) :
    LeavesGroup s c t a (issue (semVUn 1 g a) s) (LanesFrom s a 1 a.s a.s fun l x _ => f l x) := by
  refine leavesGroup_semVUn hp hd hs rfl fun x l hl => ?_
  rw [← hg x l hl, laneBits_laneOf]

end

end

end Sys2Proof.Machine

open Sys2Proof Sys2Proof.Machine

/-- Settles O27: each form's run over its group, and the lanes of what it computes. -/
theorem vectorElementForms : Obligations.VectorElementForms := by
  intro s c t a hp _
  have hlanes : 2 ^ (a.v.toNat % 4) = Machine.laneBytes a.v := rfl
  refine ⟨fun ⟨hd, hx, hy⟩ => ?integers, fun ⟨hd, hx⟩ => ?unary, fun ⟨hd, hx, hy⟩ => ?bytes, fun ⟨hd, hx, hy⟩ =>
    leavesGroup_semVsel hp hd hx hy⟩
  case integers =>
    dsimp only
    simp only [hlanes, laneInt_variant, laneInt_true]
    exact ⟨leavesGroup_semVInt hp hd hx hy fun _ _ => rfl, leavesGroup_semVInt hp hd hx hy fun _ _ => rfl,
      leavesGroup_semVInt hp hd hx hy fun _ _ => rfl, leavesGroup_semVInt hp hd hx hy fun x y => min_def x y,
      leavesGroup_semVInt hp hd hx hy fun x y => max_def x y,
      leavesGroup_semVShift hp hd hx hy (g := fun x c => x * 2 ^ c) (f := fun x c => x * 2 ^ c) fun x c => by push_cast; rfl,
      leavesGroup_semVShift hp hd hx hy (g := fun x c => x / 2 ^ c) (f := fun x c => x / 2 ^ c) fun x c => by push_cast; rfl,
      leavesGroup_semVShift_signed hp hd hx hy fun x c => x / 2 ^ c⟩
  case unary =>
    dsimp only
    simp only [hlanes, laneInt_true]
    exact ⟨leavesGroup_semVIntUn hp hd hx fun x => (Int.abs_eq_natAbs x).symm, leavesGroup_semVIntUn hp hd hx fun _ => rfl,
      leavesGroup_byteUn hp hd hx fun _ _ _ => rfl, leavesGroup_byteUn hp hd hx fun x l hl => laneOf_prefixCounts x hl⟩
  case bytes =>
    exact ⟨leavesGroup_bytes hp hd hx hy fun _ _ _ _ => rfl, leavesGroup_bytes hp hd hx hy fun _ _ _ _ => rfl,
      leavesGroup_bytes hp hd hx hy fun _ _ _ _ => rfl, leavesGroup_bytes hp hd hx hy fun _ _ _ _ => rfl,
      leavesGroup_vperm hp hd hx hy⟩
end

section
/-! PROOF. Own local memory as the forms reach it: the place an address names, the waits and checks that an admitted access passes, and
what a load and a store then do (R75, R79, R80, R184, R185). -/

namespace Sys2Proof.Machine

open Sys2Proof

/-! ## Places -/

/-- An own address, by the two spaces that can name it. -/
theorem ownAt_iff {c off : Nat} {ea : Word} : ownAt c ea off = true ↔
    off < 65536 ∧ (ea.toNat = off ∨ ea.toNat = 2 ^ 60 + (posOf c).1 * 2 ^ 32 + (posOf c).2 * 2 ^ 24 + off) := by
  simp [ownAt]

theorem posOf_of_lt {c : Nat} (h : c < 73728) : posOf c = (c % 512, c / 512) := if_pos h

theorem posOf_of_ge {c : Nat} (h : 73728 ≤ c) : posOf c = (1023, c - 73728) := if_neg (Nat.not_lt.mpr h)

/-- The agent at a core's position is the core. -/
theorem agentAt_posOf {c : Nat} (h : c < 73732) : agentAt (posOf c).1 (posOf c).2 = some c := by
  rcases Nat.lt_or_ge c 73728 with hlt | hge
  · have hin : c % 512 < 512 ∧ c / 512 < 144 := by omega
    rw [posOf_of_lt hlt, agentAt, if_pos hin, Nat.mul_comm, Nat.div_add_mod]
  · have hout : ¬(1023 < 512 ∧ c - 73728 < 144) := by omega
    have hhouse : 1023 = 1023 ∧ c - 73728 < 4 := by omega
    rw [posOf_of_ge hge, agentAt, if_neg hout, if_pos hhouse, meshCores, Nat.add_sub_cancel' hge]

theorem posOf_lt {c : Nat} (h : c < 73732) : (posOf c).1 < 1024 ∧ (posOf c).2 < 256 := by
  rcases Nat.lt_or_ge c 73728 with hlt | hge
  · rw [posOf_of_lt hlt]
    dsimp only
    omega
  · rw [posOf_of_ge hge]
    dsimp only
    omega

/-- An address within the own memory a given distance after an own address. -/
theorem ownAt_add {c off d : Nat} {ea : Word} (hc : c < 73732) (h : ownAt c ea off = true) (hd : off + d < 65536) :
    ownAt c (ea + wd d) (off + d) = true := by
  obtain ⟨-, hea⟩ := ownAt_iff.mp h
  obtain ⟨hx, hy⟩ := posOf_lt hc
  refine ownAt_iff.mpr ⟨hd, ?_⟩
  rw [BitVec.toNat_add, wd, BitVec.toNat_ofNat, Nat.mod_eq_of_lt (a := d) (by omega)]
  omega

/-- Steps 1 to 3 of R184 pass an aligned own address. -/
theorem place_ownAt (m : Mach) {c off n : Nat} {ea : Word} (hc : c < 73732) (priv : Priv) (reach : MeshReach) (sys : Bool)
    (h : ownAt c ea off = true) (hn : n ∣ 65536) (hal : off % n = 0) : m.place c priv ea n reach sys = .ok (.own off) := by
  obtain ⟨hoff, hea⟩ := ownAt_iff.mp h
  obtain ⟨hx, hy⟩ := posOf_lt hc
  rcases hea with hea | hea
  · have hsp : fld ea 63 60 = 0 := by unfold fld; omega
    have hz : fld ea 59 16 = 0 := by unfold fld; omega
    have hlow : fld ea 15 0 = off := by unfold fld; omega
    simp only [Mach.place, hsp, hz, hlow, hea, hal, ne_eq, not_true_eq_false, if_true, if_false]
  · have hsp : fld ea 63 60 = 1 := by unfold fld; omega
    have hz : fld ea 59 42 = 0 := by unfold fld; omega
    have hz' : fld ea 23 16 = 0 := by unfold fld; omega
    have hlow : fld ea 15 0 = off := by unfold fld; omega
    have hcol : fld ea 41 32 = (posOf c).1 := by unfold fld; omega
    have hrow : fld ea 31 24 = (posOf c).2 := by unfold fld; omega
    have halign : ea.toNat % n = 0 := by
      have hbase : n ∣ 2 ^ 60 + (posOf c).1 * 2 ^ 32 + (posOf c).2 * 2 ^ 24 := hn.trans (by omega)
      rw [hea]
      exact Nat.mod_eq_zero_of_dvd (hbase.add (Nat.dvd_of_mod_eq_zero hal))
    simp [Mach.place, hsp, hz, hz', hlow, hcol, hrow, agentAt_posOf hc, halign]

/-! ## Admitted accesses -/

theorem admits_iff {m : Mach} {c t off n : Nat} {store : Bool} : m.admits c t off n store = true ↔
    m.gate c t off n store = .open_ ∧ (m.core c).badRead off n = none ∧ (store = true → (m.core c).protectedAt off n = none) := by
  rw [Mach.admits]
  cases m.gate c t off n store <;> cases store <;> simp

/-- No word of an aligned 8-byte access has an uncorrectable error (R80). -/
theorem Core.ecc_of_badRead {k : Core} {w : Nat} (h : k.badRead (8 * w) 8 = none) : (k.sideAt (8 * w)).ecc ≠ .double := by
  have hw := List.find?_eq_none.mp h w (by simp [ceilDiv])
  simpa using hw

/-- Two adjacent runs of bytes are free of protected areas at their ends, and so is their union (R84, R93). -/
theorem Core.protectedAt_append {k : Core} {off i j : Nat} (hj : 0 < j) (h : k.protectedAt off i = none)
    (h' : k.protectedAt (off + i) j = none) :
    k.protectedAt off (i + j) = none := by
  have hlast : off + (i + j) - 1 = off + i + j - 1 := by omega
  unfold Core.protectedAt at h h' ⊢
  rw [hlast]
  grind

section
variable {m : Mach} {c t : Nat} (hc : m.cur = .core c t)
include hc

theorem waitGate_run {off n : Nat} {store : Bool} (h : m.gate c t off n store = .open_) (k : WaitKind) :
    (waitGate off n store k).run m = .ok () m := by
  have hget : EStateM.run (get : Act Mach) m = .ok m m := rfl
  rw [waitGate, run_bind_ok hget, Mach.here_of_cur hc, Mach.tsNo_of_cur hc, h]
  rfl

theorem gateWords_run {store : Bool} {ws : List Nat} (h : ∀ w ∈ ws, m.gate c t (8 * w) 8 store = .open_) :
    (gateWords store ws).run m = .ok () m := by
  induction ws with
  | nil => rfl
  | cons w ws ih =>
    rw [gateWords, run_bind_ok (waitGate_run hc (h w List.mem_cons_self) _)]
    exact ih fun w hw => h w (List.mem_cons_of_mem _ hw)

/-- A store's check passes an aligned own address outside the protected areas. -/
theorem checkElem_own_run {off n : Nat} {ea : Word} (hcore : c < 73732) (h : ownAt c ea off = true) (hn : n ∣ 65536) (hal : off % n = 0)
    (hp : (m.core c).protectedAt off n = none) (reach : MeshReach) (sys : Bool) (lane : Nat) :
    (checkElem ea n reach sys true lane).run m = .ok (.own off) m := by
  have hget : EStateM.run (get : Act Mach) m = .ok m m := rfl
  simp only [checkElem]
  rw [run_bind_ok hget]
  simp only [hc, place_ownAt m hcore _ _ _ h hn hal, hp, if_true]
  rfl

/-- A store of bytes whose words the access may write is made (R79). -/
theorem storePlace_own_run {off : Nat} {cs : List (Nat × Byte)}
    (h : ∀ w ∈ cellWords (shiftCells off cs), m.gate c t (8 * w) 8 true = .open_ ∧ (m.core c).badRead (8 * w) 8 = none) (ea : Word) :
    (storePlace (.own off) cs ea).run m = .ok () (m.modCore c (·.store (shiftCells off cs))) := by
  have hget : EStateM.run (get : Act Mach) m = .ok m m := rfl
  have hgood : (m.core c).badWrite (shiftCells off cs) = none :=
    List.find?_eq_none.mpr fun w hw => by simp [Core.ecc_of_badRead (h w hw).2]
  simp only [storePlace]
  rw [run_bind_ok hget]
  simp only [hc]
  rw [run_bind_ok (gateWords_run hc fun w hw => (h w hw).1), storeOwn, run_bind_ok hget]
  simp only [hc, Mach.myCore_of_cur hc, hgood]
  rw [modMyCore_run, Mach.here_of_cur hc]

/-- A load of the own memory corrects the single-bit errors of its words and gives its bytes (R80). -/
theorem loadPlace_own_run {off n : Nat} (hg : m.gate c t off n false = .open_) (hb : (m.core c).badRead off n = none) (ea : Word) :
    (loadPlace (.own off) n ea).run m =
      .ok (((m.core c).correct off n).readN off n) (m.modCore c (·.correct off n)) := by
  have hget (m : Mach) : EStateM.run (get : Act Mach) m = .ok m m := rfl
  have hread : (eccRead c off n ea).run m = .ok () (m.modCore c (·.correct off n)) := by
    rw [eccRead, run_bind_ok (hget m), hb]
    rfl
  simp only [loadPlace]
  rw [run_bind_ok (hget m)]
  simp only [hc]
  rw [run_bind_ok (waitGate_run hc hg _), run_bind_ok hread, run_bind_ok (hget _), Mach.core_modCore, if_pos rfl]
  rfl

end

/-! ## What loads change (R80, R140) -/

/-- A core that differs by single-bit errors corrected and counted at most. -/
structure Core.Corrected (k k' : Core) : Prop where
  rest : ∃ sd n, k' = { k with side := sd, count := n }
  ecc : ∀ a, (k'.sideAt a).ecc = .double → (k.sideAt a).ecc = .double

theorem Core.Corrected.refl (k : Core) : k.Corrected k := ⟨⟨k.side, k.count, rfl⟩, fun _ => id⟩

theorem Core.Corrected.trans {k k' k'' : Core} (h : k.Corrected k') (h' : k'.Corrected k'') : k.Corrected k'' := by
  obtain ⟨⟨_, _, rfl⟩, he⟩ := h
  obtain ⟨⟨sd, n, rfl⟩, he'⟩ := h'
  exact ⟨⟨sd, n, rfl⟩, fun a => he a ∘ he' a⟩

theorem Core.corrected_correctWord (k : Core) (w : Nat) : k.Corrected (k.correctWord w) := by
  unfold Core.correctWord
  dsimp only
  split
  · refine ⟨⟨_, _, rfl⟩, fun a => ?_⟩
    simp only [Core.setSide, Core.sideAt, Map.get_put]
    split
    · intro h
      cases h
    · exact id
  · exact .refl k

theorem Core.corrected_correct (k : Core) (a n : Nat) : k.Corrected (k.correct a n) := by
  rw [Core.correct]
  generalize (List.range (ceilDiv (a % 8 + n) 8)).map (a / 8 + ·) = ws
  induction ws generalizing k with
  | nil => exact .refl k
  | cons w ws ih => exact (k.corrected_correctWord w).trans (ih _)

theorem Core.Corrected.badRead {k k' : Core} (h : k.Corrected k') {a n : Nat} (hb : k.badRead a n = none) : k'.badRead a n = none :=
  List.find?_eq_none.mpr fun w hw => by
    have hw := List.find?_eq_none.mp hb w hw
    simp only [decide_eq_true_eq] at hw ⊢
    exact fun hd => hw (h.ecc _ hd)

/-- The machine after loads of core `c`'s own memory. -/
structure Mach.Loaded (m m' : Mach) (c : Nat) : Prop where
  cur : m'.cur = m.cur
  npc : m'.npc = m.npc
  net : m'.net = m.net
  core : (m.core c).Corrected (m'.core c)

theorem Mach.Loaded.refl (m : Mach) (c : Nat) : m.Loaded m c := ⟨rfl, rfl, rfl, .refl _⟩

theorem Mach.Loaded.correct {m m' : Mach} {c : Nat} (h : m.Loaded m' c) (a n : Nat) : m.Loaded (m'.modCore c (·.correct a n)) c := by
  obtain ⟨hcur, hnpc, hnet, hcore⟩ := h
  refine ⟨hcur, hnpc, hnet, hcore.trans ?_⟩
  rw [Mach.core_modCore, if_pos rfl]
  exact Core.corrected_correct _ _ _

theorem Mach.Loaded.mem {m m' : Mach} {c : Nat} (h : m.Loaded m' c) : (m'.core c).mem = (m.core c).mem := by
  obtain ⟨_, _, hk⟩ := h.core.rest
  rw [hk]

theorem Mach.Loaded.acc {m m' : Mach} {c : Nat} (h : m.Loaded m' c) : (m'.core c).acc = (m.core c).acc := by
  obtain ⟨_, _, hk⟩ := h.core.rest
  rw [hk]

theorem Mach.Loaded.tset {m m' : Mach} {c : Nat} (h : m.Loaded m' c) (t : Nat) : (m'.core c).tset t = (m.core c).tset t := by
  obtain ⟨_, _, hk⟩ := h.core.rest
  rw [hk]
  rfl

/-- The waits of a load are no others after loads (R185). -/
theorem Mach.Loaded.gate {m m' : Mach} {c : Nat} (h : m.Loaded m' c) (t a n : Nat) : m'.gate c t a n false = m.gate c t a n false := by
  obtain ⟨_, _, hk⟩ := h.core.rest
  have hmark : (m'.core c).aboveMark a n = (m.core c).aboveMark a n := by rw [hk]; rfl
  have hchan : (m'.core c).chan = (m.core c).chan := by rw [hk]
  have hjobs : (m'.core c).jobBlocks a n false = (m.core c).jobBlocks a n false := by rw [hk]; rfl
  simp only [Mach.gate, Mach.unaccepted, hmark, hchan, hjobs, h.net, h.tset, Bool.false_and]

section
variable {m : Mach} {c t : Nat} (hc : m.cur = .core c t)
include hc

/-- A byte loaded, whatever the agent has loaded before. -/
theorem loadByte_run {m' : Mach} (h : m.Loaded m' c) {off : Nat} (ha : m.admits c t off 1 false = true) (ea : Word) :
    ∃ m'', (loadPlace (.own off) 1 ea).run m' = .ok ((m.core c).mem.byte off).toNat m'' ∧ m.Loaded m'' c := by
  obtain ⟨hg, hb, -⟩ := admits_iff.mp ha
  refine ⟨_, (loadPlace_own_run (h.cur.trans hc) ((h.gate _ _ _).trans hg) (h.core.badRead hb) ea).trans ?_, h.correct off 1⟩
  have hmem : ((m'.core c).correct off 1).mem = (m.core c).mem := by
    obtain ⟨_, _, hk⟩ := (Core.corrected_correct (m'.core c) off 1).rest
    rw [hk]
    exact h.mem
  rw [Core.readN, hmem]
  simp [Memory.bytes, leNat]

/-- Bytes loaded one after another. -/
theorem loadBytes_run {m' : Mach} (h : m.Loaded m' c) {off : Nat → Nat} {l : List Nat}
    (ha : ∀ j ∈ l, m.admits c t (off j) 1 false = true) (ea : Nat → Word) :
    ∃ m'', (l.mapM fun j => loadPlace (.own (off j)) 1 (ea j)).run m' = .ok (l.map fun j => ((m.core c).mem.byte (off j)).toNat) m'' ∧
      m.Loaded m'' c := by
  induction l generalizing m' with
  | nil => exact ⟨m', rfl, h⟩
  | cons j l ih =>
    obtain ⟨m₁, hr₁, h₁⟩ := loadByte_run hc h (ha j List.mem_cons_self) (ea j)
    obtain ⟨m₂, hr₂, h₂⟩ := ih h₁ fun i hi => ha i (List.mem_cons_of_mem _ hi)
    refine ⟨m₂, ?_, h₂⟩
    rw [List.mapM_cons, run_bind_ok hr₁, run_bind_ok hr₂]
    rfl

end

/-- Parts that complete and change nothing, one for each element of a list. -/
theorem run_mapM_of_forall {α β : Type} {m : Mach} {f : α → Act β} {g : α → β} {l : List α}
    (h : ∀ x ∈ l, (f x).run m = .ok (g x) m) :
    (l.mapM f).run m = .ok (l.map g) m := by
  induction l with
  | nil => rfl
  | cons x l ih =>
    rw [List.mapM_cons, run_bind_ok (h x List.mem_cons_self), run_bind_ok (ih fun y hy => h y (List.mem_cons_of_mem _ hy))]
    rfl

end Sys2Proof.Machine
end

section
/-! PROOF. The accumulator forms (R61, R237 to R239). -/

namespace Sys2Proof.Machine

open Sys2Proof

/-! ## Waits and ownership (R61, R238) -/

section
variable {m : Mach} {c t : Nat} (hc : m.cur = .core c t)
include hc

theorem waitAcc_run (n : Nat) : (waitAcc n).run m = if (m.core c).accBusy n then .error (.wait .other) m else .ok () m := by
  rw [waitAcc, run_bind_ok (myCore_run m), stallUntil_run, Mach.myCore_of_cur hc]
  cases (m.core c).accBusy n <;> rfl

theorem needOwner_run (n : Nat) : (needOwner n).run m = if (vget (m.core c).owner 0 n).toNat = t then .ok () m
    else .error (.trap { cause := 0x1B, reg := BitVec.ofNat 8 (80 + n) }) m := by
  have hget : EStateM.run (get : Act Mach) m = .ok m m := rfl
  rw [needOwner, run_bind_ok hget, require_run, Mach.myCore_of_cur hc, Mach.tsNo_of_cur hc]
  simp only [beq_iff_eq]
  rfl

end

/-! ## Elements of an accumulator -/

/-- The elements of an accumulator. -/
abbrev Accum := Vector (BitVec 32) 128

theorem toNat_append_eq {m n : Nat} (x : BitVec m) (y : BitVec n) : (x ++ y).toNat = x.toNat * 2 ^ n + y.toNat := by
  rw [BitVec.toNat_append, ← Nat.shiftLeft_add_eq_or_of_lt y.isLt, Nat.shiftLeft_eq]

theorem ofNat_eq_of_toNat {x : V128} {n : Nat} (h : n = x.toNat) : BitVec.ofNat 128 n = x := by
  rw [h, BitVec.ofNat_toNat, BitVec.setWidth_eq]

/-- Four digits summed at their places. -/
theorem foldl_four_digits (w a b c d : Nat) : [(0, a), (1, b), (2, c), (3, d)].foldl (fun v kx => v + kx.2 * 2 ^ (w * kx.1)) 0 =
    ((d * 2 ^ w + c) * 2 ^ w + b) * 2 ^ w + a := by
  simp only [List.foldl_cons, List.foldl_nil]
  ring

/-- A register packed from four 32-bit lanes (R237). -/
theorem vecLanes_four (a b c d : BitVec 32) :
    vecLanes 4 [(0, a.toNat), (1, b.toNat), (2, c.toNat), (3, d.toNat)] = d ++ c ++ b ++ a := by
  refine ofNat_eq_of_toNat ?_
  rw [toNat_append_eq, toNat_append_eq, toNat_append_eq]
  exact foldl_four_digits 32 ..

/-- Four elements written at their places, read as one vector (R237). -/
theorem foldl_vset_quad (A : Accum) (q : Nat) (f : Nat → BitVec 32) :
    (List.range 4).foldl (fun A j => vset A (q + j) (f j)) A =
      Vector.ofFn fun e => if q ≤ e.val ∧ e.val < q + 4 then f (e.val - q) else vget A 0 e.val := by
  refine Vector.ext fun e he => ?_
  have hold : A[e] = vget A 0 e := by rw [vget, Vector.getElem?_eq_getElem he, Option.getD_some]
  simp only [List.range_succ, List.range_zero, List.nil_append, List.cons_append, List.foldl_cons, List.foldl_nil, vset,
    Vector.getElem_setIfInBounds, Vector.getElem_ofFn, ← hold]
  by_cases hin : q ≤ e ∧ e < q + 4
  · obtain ⟨j, rfl⟩ := Nat.exists_eq_add_of_le hin.1
    have hj : j < 4 := by omega
    rw [if_pos hin, Nat.add_sub_cancel_left]
    interval_cases j <;> simp
  · have hne : ∀ j < 4, q + j ≠ e := fun j hj h => hin (by omega)
    rw [if_neg hin, if_neg (hne 3 (by decide)), if_neg (hne 2 (by decide)), if_neg (hne 1 (by decide)), if_neg (hne 0 (by decide))]

theorem cellsAt_map_range (f : Nat → Byte) (a n : Nat) : cellsAt a ((List.range n).map f) = (List.range n).map fun i => (a + i, f i) := by
  induction n generalizing a f with
  | zero => rfl
  | succ n ih =>
    simp only [List.range_succ_eq_map, List.map_cons, cellsAt, List.map_map]
    rw [ih]
    simp [Function.comp_def, Nat.add_assoc, Nat.add_comm 1]

theorem leBytes_eq_map (v n : Nat) : leBytes v n = (List.range n).map fun i => BitVec.ofNat 8 (v / 256 ^ i) := by
  induction n generalizing v with
  | zero => rfl
  | succ n ih =>
    rw [leBytes, ih, List.range_succ_eq_map, List.map_cons, List.map_map, Nat.pow_zero, Nat.div_one]
    exact congrArg _ (List.map_congr_left fun i _ => by
      rw [Function.comp, Nat.div_div_eq_div_mul, Nat.succ_eq_add_one, Nat.pow_succ'])

theorem leBytes_four (x : BitVec 32) : leBytes x.toNat 4 = (List.range 4).map fun i => x.extractLsb' (8 * i) 8 := by
  rw [leBytes_eq_map]
  refine List.map_congr_left fun i _ => ?_
  rw [BitVec.extractLsb', Nat.shiftRight_eq_div_pow, pow_mul]
  rfl

/-- The elements of a vector, listed. -/
theorem toList_eq_map_vget {α : Type} {n : Nat} (v : Vector α n) (d : α) : v.toList = (List.range n).map (vget v d) := by
  refine List.ext_getElem (by simp) fun i hi _ => ?_
  have hi : i < n := by simpa using hi
  simp [vget, hi]

/-- A range of `4 * n`, four by four. -/
theorem flatMap_range_four {α : Type} (f : Nat → α) (n : Nat) :
    ((List.range n).flatMap fun i => (List.range 4).map fun j => f (4 * i + j)) = (List.range (4 * n)).map f := by
  induction n with
  | zero => rfl
  | succ n ih =>
    rw [List.range_succ (n := n), List.flatMap_append, ih, Nat.mul_succ, List.range_add, List.map_append, List.map_map,
      List.flatMap_singleton]
    rfl

/-- The bytes that `macst` stores, each at its place (R237). -/
theorem shiftCells_accum (A : Accum) (off : Nat) : shiftCells off (cellsAt 0 (A.toList.flatMap fun e => leBytes e.toNat 4)) =
    (List.range 512).map fun b => (off + b, (vget A 0 (b / 4)).extractLsb' (8 * (b % 4)) 8) := by
  have hbytes (i : Nat) : leBytes (vget A 0 i).toNat 4 =
      (List.range 4).map fun j => (vget A 0 ((4 * i + j) / 4)).extractLsb' (8 * ((4 * i + j) % 4)) 8 := by
    rw [leBytes_four]
    refine List.map_congr_left fun j hj => ?_
    have hj := List.mem_range.mp hj
    rw [show (4 * i + j) / 4 = i by omega, show (4 * i + j) % 4 = j by omega]
  rw [toList_eq_map_vget A 0, List.flatMap_map]
  simp only [hbytes]
  rw [flatMap_range_four fun b => (vget A 0 (b / 4)).extractLsb' (8 * (b % 4)) 8, cellsAt_map_range, shiftCells, List.map_map]
  exact List.map_congr_left fun b _ => by rw [Function.comp, Nat.zero_add]

theorem cellWords_shiftCells {off w : Nat} (hoff : off % 16 = 0) {A : Accum}
    (h : w ∈ cellWords (shiftCells off (cellsAt 0 (A.toList.flatMap fun e => leBytes e.toNat 4)))) :
    ∃ j < 64, 8 * w = off + 8 * j := by
  rw [shiftCells_accum, cellWords, List.mem_eraseDups, List.map_map, List.mem_map] at h
  obtain ⟨b, hb, rfl⟩ := h
  have hb := List.mem_range.mp hb
  exact ⟨b / 8, by omega, by dsimp only [Function.comp]; omega⟩

/-! ## The forms, run -/

section
variable {m : Mach} {c t : Nat} (hc : m.cur = .core c t)

include hc in
theorem semMacz_run (a : Args) (hb : (m.core c).accBusy (accNo a.d) = false) : (semMacz a).run m = .ok () (m.modCore c fun k =>
    { k with acc := vset k.acc (accNo a.d) (Vector.replicate 128 0), owner := vset k.owner (accNo a.d) (BitVec.ofNat 2 t) }) := by
  have hget : EStateM.run (get : Act Mach) m = .ok m m := rfl
  simp only [semMacz]
  rw [run_bind_ok ((waitAcc_run hc _).trans (by rw [hb]; rfl)), run_bind_ok hget, modMyCore_run, Mach.here_of_cur hc, Mach.tsNo_of_cur hc]

variable (hub : m.me.anyBound = false) (hre : m.me.regErr = [])
include hc hub

/-- The forms that write or store a busy accumulator wait (R238). -/
theorem sem_waits_run (a : Args) (hb : (m.core c).accBusy (accNo a.d) = true) :
    (semMacz a).run m = .error (.wait .other) m ∧ (semMacw a).run m = .error (.wait .other) m ∧
      (semMacst a).run m = .error (.wait .other) m := by
  have hw : (waitAcc (accNo a.d)).run m = .error (.wait .other) m := (waitAcc_run hc _).trans (if_pos hb)
  simp only [semMacz, semMacw, semMacst]
  rw [run_bind_ok (srcPort_run hub _ _), run_bind_ok (srcPort_run hub _ _)]
  exact ⟨run_bind_error hw, run_bind_error hw, run_bind_error hw⟩

include hre in
theorem semMacw_run (a : Args) (hb : (m.core c).accBusy (accNo a.d) = false) :
    let q := 8 * fld a.imm 4 1 + 4 * fld a.imm 0 0
    (semMacw a).run m = .ok () (m.modCore c fun k =>
      { k with acc := vset k.acc (accNo a.d) (Vector.ofFn fun e => if q ≤ e.val ∧ e.val < q + 4
                 then (vget m.me.v 0 a.s.toNat).extractLsb' (32 * (e.val - q)) 32
                 else vget (vget (m.core c).acc (Vector.replicate 128 0) (accNo a.d)) 0 e.val),
               owner := vset k.owner (accNo a.d) (BitVec.ofNat 2 t) }) := by
  have hget : EStateM.run (get : Act Mach) m = .ok m m := rfl
  intro q
  simp only [semMacw]
  rw [run_bind_ok (srcPort_run hub _ _), run_bind_ok ((waitAcc_run hc _).trans (by rw [hb]; rfl)), run_bind_ok (readV_run hub hre _),
    run_bind_ok hget, modMyCore_run, Mach.here_of_cur hc, Mach.tsNo_of_cur hc]
  simp only [Mach.modCore, foldl_vset_quad, q]

include hre in
theorem semMacst_run_unowned (a : Args) (hb : (m.core c).accBusy (accNo a.d) = false)
    (ho : (vget (m.core c).owner 0 (accNo a.d)).toNat ≠ t) :
    (semMacst a).run m = .error (.trap { cause := 0x1B, reg := BitVec.ofNat 8 (80 + accNo a.d) }) m := by
  have heff : (effAddr a).run m = .ok (m.me.xreg a.s + a.imm) m := by rw [effAddr, run_bind_ok (readX_run hub hre _)]; rfl
  simp only [semMacst]
  rw [run_bind_ok (srcPort_run hub _ _), run_bind_ok ((waitAcc_run hc _).trans (by rw [hb]; rfl)), run_bind_ok heff]
  exact run_bind_error ((needOwner_run hc _).trans (if_neg ho))

theorem semMacr_run_unowned (a : Args) (hb : (m.core c).accBusy (accNo a.s) = false)
    (ho : (vget (m.core c).owner 0 (accNo a.s)).toNat ≠ t) :
    (semMacr a).run m = .error (.trap { cause := 0x1B, reg := BitVec.ofNat 8 (80 + accNo a.s) }) m := by
  simp only [semMacr]
  rw [run_bind_ok (dstPort_run hub _ _), run_bind_ok ((waitAcc_run hc _).trans (by rw [hb]; rfl))]
  exact run_bind_error ((needOwner_run hc _).trans (if_neg ho))

/-- `macr` of an accumulator at rest that the thread set owns, up to its conversion (R237). -/
theorem semMacr_run_plain (a : Args) (hb : (m.core c).accBusy (accNo a.s) = false)
    (ho : (vget (m.core c).owner 0 (accNo a.s)).toNat = t) (hcvt : bit a.imm 5 = false) :
    let q := 8 * fld a.imm 4 1 + 4 * fld a.imm 0 0
    let e (j : Nat) := vget (vget (m.core c).acc (Vector.replicate 128 0) (accNo a.s)) 0 (q + j)
    (semMacr a).run m = .ok () (m.modMe (·.setV a.d (e 3 ++ e 2 ++ e 1 ++ e 0))) := by
  intro q e
  simp only [semMacr]
  rw [run_bind_ok (dstPort_run hub _ _), run_bind_ok ((waitAcc_run hc _).trans (by rw [hb]; rfl)),
    run_bind_ok ((needOwner_run hc _).trans (if_pos ho)), run_bind_ok (me_run m), run_bind_ok (myCore_run m), Mach.myCore_of_cur hc, hcvt]
  refine (writeV_run hub _ _).trans ?_
  rw [← vecLanes_four]
  rfl

theorem semMacr_run_scaled (a : Args) (hb : (m.core c).accBusy (accNo a.s) = false)
    (ho : (vget (m.core c).owner 0 (accNo a.s)).toNat = t) (hcvt : bit a.imm 5 = true)
    (ha : m.me.kscla.toNat + 16 ≤ 65536) (hb' : m.me.ksclb.toNat + 8 ≤ 65536)
    (hsa : m.admits c t (m.me.kscla.toNat + fld a.imm 4 1) 1 false = true)
    (hsb : ∀ j ∈ List.range 4, m.admits c t (m.me.ksclb.toNat + 4 * fld a.imm 0 0 + j) 1 false = true) :
    let q := 8 * fld a.imm 4 1 + 4 * fld a.imm 0 0
    let sa := ((m.core c).mem.byte (m.me.kscla.toNat + fld a.imm 4 1)).toNat
    let sb (j : Nat) := ((m.core c).mem.byte (m.me.ksclb.toNat + 4 * fld a.imm 0 0 + j)).toNat
    let e (j : Nat) := bpScaled (vget (vget (m.core c).acc (Vector.replicate 128 0) (accNo a.s)) 0 (q + j)) sa (sb j)
    ∃ m', (semMacr a).run m = .ok () (m'.modMe (·.setV a.d (e 3 ++ e 2 ++ e 1 ++ e 0))) ∧ m.Loaded m' c := by
  intro q sa sb e
  obtain ⟨m₁, hr₁, h₁⟩ := loadByte_run hc (.refl m c) hsa (wd (m.me.kscla.toNat + fld a.imm 4 1))
  obtain ⟨m₂, hr₂, h₂⟩ := loadBytes_run hc h₁ hsb fun j => wd (m.me.ksclb.toNat + 4 * fld a.imm 0 0 + j)
  refine ⟨m₂, ?_, h₂⟩
  simp only [semMacr]
  rw [run_bind_ok (dstPort_run hub _ _), run_bind_ok ((waitAcc_run hc _).trans (by rw [hb]; rfl)),
    run_bind_ok ((needOwner_run hc _).trans (if_pos ho)), run_bind_ok (me_run m), run_bind_ok (myCore_run m), Mach.myCore_of_cur hc, hcvt]
  simp only [if_true]
  rw [run_bind_ok ((require_run _ _ _).trans (if_pos (decide_eq_true ha))),
    run_bind_ok ((require_run _ _ _).trans (if_pos (decide_eq_true hb'))), run_bind_ok hr₁, run_bind_ok hr₂]
  have hme : m₂.me = m.me := by
    rw [Mach.me_of_cur (h₂.cur.trans hc), Mach.me_of_cur hc, h₂.tset]
  refine (writeV_run (by rw [hme]; exact hub) _ _).trans ?_
  rw [← vecLanes_four]
  rfl

include hre in
theorem semMacst_run (a : Args) {off : Nat} (hcore : c < 73732) (hb : (m.core c).accBusy (accNo a.d) = false)
    (ho : (vget (m.core c).owner 0 (accNo a.d)).toNat = t) (hea : ownAt c (m.me.xreg a.s + a.imm) off = true) (hal : off % 16 = 0)
    (hend : off + 512 ≤ 65536) (hw : ∀ j < 64, m.admits c t (off + 8 * j) 8 true = true) :
    (semMacst a).run m = .ok () (m.modCore c (·.store ((List.range 512).map fun b =>
      (off + b, (vget (vget (m.core c).acc (Vector.replicate 128 0) (accNo a.d)) 0 (b / 4)).extractLsb' (8 * (b % 4)) 8)))) := by
  have heff : (effAddr a).run m = .ok (m.me.xreg a.s + a.imm) m := by rw [effAddr, run_bind_ok (readX_run hub hre _)]; rfl
  have hfree (i : Nat) (hi : i < 32) : (m.core c).protectedAt (off + 16 * i) 16 = none := by
    have hlow := (admits_iff.mp (hw (2 * i) (by omega))).2.2 rfl
    have hhigh := (admits_iff.mp (hw (2 * i + 1) (by omega))).2.2 rfl
    rw [show off + 8 * (2 * i) = off + 16 * i by omega] at hlow
    rw [show off + 8 * (2 * i + 1) = off + 16 * i + 8 by omega] at hhigh
    exact Core.protectedAt_append (i := 8) (j := 8) (by decide) hlow hhigh
  have hplaces : ((List.range 32).mapM fun i => checkElem (m.me.xreg a.s + a.imm + wd (16 * i)) 16 .own false true).run m =
      .ok ((List.range 32).map fun i => .own (off + 16 * i)) m :=
    run_mapM_of_forall fun i hi => by
      have hi := List.mem_range.mp hi
      exact checkElem_own_run hc hcore (ownAt_add hcore hea (by omega)) (by decide) (by omega) (hfree i hi) _ _ _
  simp only [semMacst]
  rw [run_bind_ok (srcPort_run hub _ _), run_bind_ok ((waitAcc_run hc _).trans (by rw [hb]; rfl)), run_bind_ok heff,
    run_bind_ok ((needOwner_run hc _).trans (if_pos ho)), run_bind_ok hplaces, run_bind_ok (myCore_run m), Mach.myCore_of_cur hc,
    ← shiftCells_accum]
  refine storePlace_own_run hc (fun w hwm => ?_) _
  obtain ⟨j, hj, hplace⟩ := cellWords_shiftCells hal hwm
  obtain ⟨hg, hgood, -⟩ := admits_iff.mp (hw j hj)
  rw [hplace]
  exact ⟨hg, hgood⟩

end

/-! ## The rehearsal (R239) -/

/-- What each of a list of changes keeps of the machine, all of them keep. -/
theorem foldl_keeps {α β : Type} {f : Mach → α → Mach} (g : Mach → β) (hf : ∀ m a, g (f m a) = g m) (l : List α) (m : Mach) :
    g (l.foldl f m) = g m := by
  induction l generalizing m with
  | nil => rfl
  | cons a l ih => rw [List.foldl_cons, ih, hf]

/-- The events of a rehearsal that fences sub-arrays. -/
def fenceEvents (m : Mach) (c : Nat) (new : BitVec 4) (ts : Option Nat) (pc : BitVec 14) (priv : Priv) : Mach :=
  (List.range 4).foldl (fun m i =>
    if bit new i then
      m.event c { faultOf Cause.rehearsalFence with index := BitVec.ofNat 16 i, pc := pc, priv := BitVec.ofNat 2 priv.code } ts
    else m) m

/-- A machine to which a rehearsal at core `c` has been done, its events apart (R239). -/
def rehearsed (m : Mach) (c : Nat) : Mach :=
  let sh : Vector (Vector (BitVec 32) 128) 4 :=
    Vector.ofFn fun i => Vector.ofFn fun j => (Config.freeWord (m.fresh + 128 * i.val + j.val)).setWidth 32
  Mach.modCore { m with fresh := m.fresh + 512 } c fun k =>
    { k.charge 1 with sinceReh := (k.mat.filter (!·.runs)).length, rehEnd := m.clk + 24, shadow := sh,
                      fence :=
                        k.fence ||| ((m.core c).failing &&& ~~~(m.core c).fence) }

theorem rehearse_eq (m : Mach) (c : Nat) (ts : Option Nat) (pc : BitVec 14) (priv : Priv) : m.rehearse c ts pc priv =
    fenceEvents (rehearsed m c) c ((m.core c).failing &&& ~~~(m.core c).fence) ts pc priv := rfl

section
variable (m : Mach) (c : Nat) (new : BitVec 4) (ts : Option Nat) (pc : BitVec 14) (priv : Priv)

/-- Events leave what no event changes. -/
theorem fenceEvents_keeps {β : Type} (g : Mach → β) (hg : ∀ m r, g (Mach.event m c r ts) = g m) :
    g (fenceEvents m c new ts pc priv) = g m :=
  foldl_keeps g (fun m i => by split <;> simp only [hg]) _ _

theorem fenceEvents_eventsOnly : m.EventsOnly (fenceEvents m c new ts pc priv) :=
  Mach.EventsOnly.foldl (fun m i => by
    split
    · exact m.eventsOnly_event _ _ _
    · exact .of_core fun _ => rfl) _ _

/-- A rehearsal that fences nothing new raises no event. -/
theorem fenceEvents_zero : fenceEvents m c 0 ts pc priv = m :=
  foldl_keeps id (fun m i => by simp [bit, fld]) _ _

end

section
variable {m : Mach} {c t : Nat} (hc : m.cur = .core c t)
include hc

theorem semMreh_run (a : Args) : (semMreh a).run m = if (m.core c).mat = [] ∧ (m.core c).rehEnd ≤ m.clk
    then .ok () ((m.rehearse c (some t) m.me.pc m.me.priv).modMe fun u => { u with notBefore := m.clk + 24 })
    else .error (.wait .other) m := by
  have hget : EStateM.run (get : Act Mach) m = .ok m m := rfl
  have hset (m' : Mach) : EStateM.run (set m' : Act Unit) m = .ok () m' := rfl
  rw [semMreh, run_bind_ok hget, Mach.myCore_of_cur hc, Mach.here_of_cur hc, Mach.tsNo_of_cur hc]
  split
  · rw [run_bind_ok ((stallUntil_run _ _ _).trans (if_pos (by simpa using ‹_›))), run_bind_ok (hset _), modMe_run]
  · refine run_bind_error ((stallUntil_run _ _ _).trans (if_neg fun h => ‹¬_› ?_))
    simpa using h

end

/-! ## What a form leaves -/

section
variable {s : State} {c t : Nat} (hc : s.mach.cur = .core c t) (ht : t < 4)
include hc ht

/-- An instruction that has loaded from the own memory and then written its vector register. -/
theorem State.after_loaded_setV (hre : s.mach.me.regErr = []) {m : Mach} (hm : s.mach.Loaded m c) (d : RegNo) (x : V128) :
    let v := s.after (m.modMe (·.setV d x))
    (v.mach.core c).acc = (s.mach.core c).acc ∧ (v.mach.core c).mem = (s.mach.core c).mem ∧
      (v.mach.tset (.core c t)).v = vset s.mach.me.v d.toNat x ∧ (v.mach.tset (.core c t)).x = s.mach.me.x ∧
      (v.mach.tset (.core c t)).pc = s.mach.npc := by
  have hmc := hm.cur.trans hc
  dsimp only
  rw [State.mem_after hc, State.core_after hc, State.tset_after_modMe hc hmc _ ht, Mach.core_modMe hmc, if_pos rfl, if_pos rfl, hm.tset,
    ← Mach.me_of_cur hc, ThreadSet.setV_of_regErr hre, hm.npc]
  exact ⟨hm.acc, hm.mem, rfl, rfl, rfl⟩

/-- An instruction that has rehearsed the free unit (R239). -/
theorem State.after_rehearse (hmat : (s.mach.core c).mat = []) (ts : Option Nat) (pc : BitVec 14) (priv : Priv) (n : Nat) :
    let v := s.after ((s.mach.rehearse c ts pc priv).modMe fun u => { u with notBefore := n })
    let k := s.mach.core c
    (v.mach.core c).fence = k.fence ||| k.failing ∧ (v.mach.core c).sinceReh = 0 ∧ (v.mach.core c).rehEnd = s.mach.clk + 24 ∧
      (v.mach.core c).acc = k.acc ∧ (v.mach.core c).mem = k.mem ∧ (v.mach.tset (.core c t)).pc = s.mach.npc ∧
      (k.failing &&& ~~~k.fence = 0 → (v.mach.core c).events = k.events) := by
  intro v k
  have hfence : k.fence ||| (k.failing &&& ~~~k.fence) = k.fence ||| k.failing := by
    ext i
    simp only [BitVec.getElem_or, BitVec.getElem_and, BitVec.getElem_not]
    cases k.fence[i] <;> simp
  have hcur : (s.mach.rehearse c ts pc priv).cur = .core c t := by
    rw [rehearse_eq, fenceEvents_keeps _ _ _ _ _ _ Mach.cur fun _ _ => rfl]
    exact hc
  have hnpc : (s.mach.rehearse c ts pc priv).npc = s.mach.npc := by
    rw [rehearse_eq, fenceEvents_keeps _ _ _ _ _ _ Mach.npc fun _ _ => rfl]
    rfl
  have hbase : (rehearsed s.mach c).core c = _ := (Mach.core_modCore _ c c _).trans (if_pos rfl)
  obtain ⟨q, hq⟩ := fenceEvents_eventsOnly (rehearsed s.mach c) c (k.failing &&& ~~~k.fence) ts pc priv c
  rw [← rehearse_eq, hbase] at hq
  have hcore : v.mach.core c = (((s.mach.rehearse c ts pc priv).core c).modTs t fun u => { u with notBefore := n }).modTs t
      (·.advance s.mach.npc (s.mach.rehearse c ts pc priv).clk) := by
    rw [State.core_after hc, if_pos rfl, Mach.core_modMe hcur, if_pos rfl, Mach.npc_modMe, Mach.clk_modMe, hnpc]
  have hset : (v.mach.tset (.core c t)).pc = s.mach.npc := by
    rw [State.tset_after_modMe hc hcur _ ht, hnpc]
    rfl
  refine ⟨?_, ?_, ?_, ?_, ?_, hset, fun hz => ?_⟩
  · rw [hcore, hq]; exact hfence
  · rw [hcore, hq]; exact congrArg (fun l => (l.filter (!MatOp.runs ·)).length) hmat
  · rw [hcore, hq]; rfl
  · rw [hcore, hq]; rfl
  · rw [hcore, hq]; rfl
  · have hnew : s.mach.rehearse c ts pc priv = rehearsed s.mach c := by rw [rehearse_eq, hz]; exact fenceEvents_zero ..
    rw [hcore, hnew, hbase]
    rfl

end

end Sys2Proof.Machine

open Sys2Proof Sys2Proof.Machine

/-- Settles O33: each form's run. -/
theorem accumulatorForms : Obligations.AccumulatorForms := by
  intro s c t a off hp
  obtain ⟨hc, hcore, ht, -, -, -, hub, hre⟩ := Plain.iff.mp hp
  have hal := Plain.alone hp
  have hrow : fld a.imm 4 1 = a.imm.toNat % 32 / 2 := by unfold fld; omega
  have hcol : fld a.imm 0 0 = a.imm.toNat % 32 % 2 := by unfold fld; omega
  have hbit : bit a.imm 5 = (a.imm.toNat / 32 % 2 == 1) := rfl
  have hwaits (n : Nat) (hb : (s.mach.core c).accBusy n = true) : (waitAcc n).run s.mach = .error (.wait .other) s.mach :=
    (waitAcc_run hc n).trans (if_pos hb)
  have hpasses (n : Nat) (hb : (s.mach.core c).accBusy n = false) : (waitAcc n).run s.mach = .ok () s.mach :=
    (waitAcc_run hc n).trans (if_neg (ne_true_of_eq_false hb))
  dsimp only
  rw [Mach.myCore_of_cur hc]
  refine ⟨fun hb => ?busy, fun hb => ?free, fun hb => ?macrWaits, fun ⟨hb, ho⟩ => ?macstOwner, fun ⟨hb, ho⟩ => ?macrOwner,
    fun ⟨hb, ho, hcvt⟩ => ?macr, fun ⟨hb, ho, hcvt, hka, hkb, hsa, hsb⟩ => ?macrScaled, fun ⟨hb, ho, hea, hoff, hend, hw⟩ => ?macst,
    fun hmat => ?mrehWaits, fun ⟨hmat, hend⟩ => ?mreh⟩
  case busy =>
    obtain ⟨hmacz, hmacw, hmacst⟩ := sem_waits_run hc hub a hb
    exact ⟨issue_wait hal hmacz, issue_wait hal hmacw, issue_wait hal hmacst, issue_wait hal (hwaits _ hb)⟩
  case free =>
    refine ⟨issue_ok hal (hpasses _ hb), issue_ok hal (semMacz_run hc a hb), ?_⟩
    rw [← hrow, ← hcol]
    exact issue_ok hal (semMacw_run hc hub hre a hb)
  case macrWaits =>
    refine issue_wait hal (m := s.mach) ?_
    rw [semMacr, run_bind_ok (dstPort_run hub _ _)]
    exact run_bind_error (hwaits _ hb)
  case macstOwner => exact issue_traps hal (semMacst_run_unowned hc hub hre a hb ho)
  case macrOwner => exact issue_traps hal (semMacr_run_unowned hc hub a hb ho)
  case macr =>
    rw [← hrow, ← hcol]
    exact issue_ok hal (semMacr_run_plain hc hub a hb ho (by rw [hbit, hcvt]; rfl))
  case macrScaled =>
    rw [← hrow] at hsa
    rw [← hcol] at hsb
    obtain ⟨m, hrun, hm⟩ := semMacr_run_scaled hc hub a hb ho (by rw [hbit, hcvt]; rfl) hka hkb hsa (List.all_eq_true.mp hsb)
    refine ⟨_, issue_ok hal hrun, ?_⟩
    rw [← hrow, ← hcol]
    exact State.after_loaded_setV hc ht hre hm _ _
  case macst =>
    exact issue_ok hal (semMacst_run hc hub hre a hcore hb ho hea hoff hend fun j hj => List.all_eq_true.mp hw j (List.mem_range.mpr hj))
  case mrehWaits => exact issue_wait hal ((semMreh_run hc a).trans (if_neg fun h => hmat h.1))
  case mreh =>
    exact ⟨_, issue_ok hal ((semMreh_run hc a).trans (if_pos ⟨hmat, hend⟩)), State.after_rehearse hc ht hmat _ _ _ _⟩
end

section
/-! PROOF. Faults at a far address: the record shows it with bits 61:60 as zero (R75, R184, R198). -/

namespace Sys2Proof.Machine

open Sys2Proof

/-- The address that a trap reports at the handler (R308, R310). -/
theorem State.traps_addr_inj {s : State} {c t : Nat} (ht : t < 4) (hk : ((s.mach.core c).tset t).kvec ≠ 0) {r r' : FaultRec}
    (h : s.traps c t r = s.traps c t r') : r.addr = r'.addr := by
  have haddr (q : FaultRec) :
      vget (((s.mach.trapEntry c t { q with pc := s.mach.me.pc } s.mach.me.pc).core c).tset t).kfault 0 1 = q.addr := by
    rw [Mach.trapEntry, Mach.enterTrap_tset _ ht _ _ hk]
    rfl
  have h := congrArg (fun v : State => vget ((v.mach.core c).tset t).kfault 0 1) (Host.Outcome.next.inj h)
  simp only [haddr] at h
  exact h

/-- A supervisor's thread set 0 of core 0 with a handler. x1 names space 0x5, which no unit answers; d0 is a far frame pointer with bits
61:60 of the same kind. -/
def farMach : Mach :=
  { cur := .core 0 0, npc := 4
    cores := [(0, { ts := #v[{ busy := true, kvec := 2, x := vset (Vector.replicate 32 0) 1 0x5000000000000000
                               d := vset (Vector.replicate 8 0) 0 0x5000000000000000 }, {}, {}, {}], placed := true })] }

/-- The address as a record shows it. -/
def farShown : Word := 0x4000000000000000

/-- The load of x1 + 0 meets the address fault (R184). -/
theorem farMach_load : (semLoad none 4 { s := 1 }).run farMach =
    .error (.trap { faultOf Cause.address with addr := farShown, lane := 0 }) farMach := by rfl

/-- `leave` with no frame of the codelet meets the depth fault (R198). -/
theorem farMach_leave : (semLeave {}).run farMach =
    .error (.trap { faultOf Cause.frameDepth with addr := farShown, index := 0 }) farMach := by rfl

end Sys2Proof.Machine

open Sys2Proof Sys2Proof.Machine

/-- Refutes O13: the record of an access outside every space shows a far address with bits 61:60 as zero (R75), where the clause on spaces
2 to 14 has the address as it was formed. In `farMach` the address 0x5000000000000000 traps as 0x4000000000000000. -/
theorem not_addressChecks : ¬ Obligations.AddressChecks := by
  intro h
  obtain ⟨hspace, -⟩ := h { mach := farMach } 0 0 0 0 0 { s := 1 } (by decide) (by decide)
  have hrun : exec (.ldW { s := 1 }) { mach := farMach } = _ :=
    issue_traps (s := { mach := farMach }) (c := 0) (t := 0) (by decide) farMach_load
  obtain ⟨-, -, hload, -⟩ := hspace (by decide)
  have haddr := State.traps_addr_inj (by decide) (by decide) (hrun.symm.trans hload)
  exact absurd haddr (by decide)

/-- Refutes O20: the record of `leave` at depth 3 or less shows the frame pointer with bits 61:60 as zero where it is a far address (R75),
and the clause has it as it stands. In `farMach` the display holds d0 = 0x5000000000000000 alone, and the record 0x4000000000000000. -/
theorem not_frameForms : ¬ Obligations.FrameForms := by
  intro h
  obtain ⟨-, -, -, hleave, -⟩ := h { mach := farMach } 0 0 {} 0 0 0 (by decide)
  have hrun := issue_traps (s := { mach := farMach }) (c := 0) (t := 0) (by decide) farMach_leave
  have haddr := State.traps_addr_inj (by decide) (by decide) (hrun.symm.trans (hleave (by decide)))
  exact absurd haddr (by decide)
end

section
/-! PROOF. A fetch whose walk has missed does not complete (R116, R361). -/

namespace Sys2Proof.Machine

open Sys2Proof

/-- A fetch does not complete once its walk is found to miss (R361). -/
theorem Mach.fetchComplete_misses {m : Mach} {sh q blk i : Nat} {b : Blk} (hb : (m.hand sh).onBoard q blk = some (i, b))
    (hm : b.misses = true) : m.fetchComplete sh q blk = none := by
  simp [Mach.fetchComplete, hb, hm]

/-- The waiter of context record 0 of core 0, parked at a read. -/
def missedWing : Wing := { addr := farAddr 0, kclk := 0, who := { core := 0, idx := 0, stall := false }, part := 0 }

/-- Block 0 of partition 0, whose fetch is due and whose walk has missed. -/
def missedBlk : Blk := { part := 0, win := 0, blk := 0, st := .fetching, wings := [missedWing], due := some 0, misses := true }

/-- A far request of no bytes, for the parts of the statement that the fetch does not reach. -/
def idleReq : FarReq :=
  { addr := 0, win := 0, off := 0, size := 0, data := none, core := 0, ts := 0, tgt := none, tag := none, part := 0, kclk := 0 }
/-- A move of no bytes, for the same. -/
def idleMove : Move := { id := 0, part := 0, kind := .copy 0 0 0, addr := 0, win := 0, off := 0, len := 0 }

/-- Stagehand 0 with that fetch on its callboard. -/
def missedMach : Mach := { hands := [(0, { board := [(0, missedBlk)] })] }

end Sys2Proof.Machine

open Sys2Proof Sys2Proof.Machine

/-- Refutes O47: the clause on FETCH_COMPLETE does not ask that the walk of the fetch has not missed, and such a fetch ends by its walk, with
no wake (R116, R361). In `missedMach` every premise of the clause holds, and no wake is sent. -/
theorem not_stagehandsServe : ¬ Obligations.StagehandsServe := by
  intro h
  obtain ⟨-, hfetch, -⟩ := h { mach := missedMach } 0 0 0 0 0 0 0 missedBlk missedWing { part := 0, win := 0, page := 0, hbm := 0, wr := false } 0
    { id := 0, src := 0, ts := 0, cid := 0, pc := 0, dst := 0, part := 0, body := .far idleReq, phase := .flying 0, win := none, sendAt := 0 }
    idleReq idleMove 0 0 { core := 0, job := 0, dst := 0, len := 0, entry := 0, arg0 := 0, arg1 := 0 } [] .absent (by decide) (by decide)
  obtain ⟨z, hz, -, hsent, -⟩ := hfetch ⟨rfl, rfl, rfl, rfl, ⟨rfl, rfl, rfl, rfl, Nat.le_refl 0⟩, rfl, rfl⟩
  change event (fun m => (m.fetchComplete 0 0 0).getD m) { mach := missedMach } = .next z at hz
  rw [event, Mach.fetchComplete_misses (i := 0) (b := missedBlk) rfl rfl] at hz
  obtain rfl := Host.Outcome.next.inj hz
  cases hsent
end

section
/-! PROOF. A fetch from a LOADING slot whose record a running operation holds back (R97, R230, R243). -/

namespace Sys2Proof.Machine

open Sys2Proof

/-- A fetch from a LOADING slot (R81). -/
theorem Mach.fetchEvent_loading {m : Mach} {c t : Nat} (hb : ((m.core c).tset t).busy = true) (hf : ((m.core c).tset t).fol = false)
    (hs : ((m.core c).slot (((m.core c).tset t).pc.toNat / 1024)).st = .loading) :
    m.fetchEvent c t = m.fetchPark c t (((m.core c).tset t).pc.toNat / 1024) := by
  simp [Mach.fetchEvent, Core.fetchStop, hb, hf, hs]

/-- A context does not park while the words of its record are held back (R230). -/
theorem Mach.fetchPark_held {m : Mach} {c t g i : Nat} (hf : (m.core c).freeRec = some i) (hh : m.recHeld c i = true) :
    m.fetchPark c t g = m.stall (.core c t) .other := by
  simp only [Mach.fetchPark, hf, hh, if_true, ite_self]

/-- Core 0, whose thread set 0 fetches from overlay slot 0, which is loading; a Schur operation of thread set 1 holds the words of context
record 0. -/
def loadingMach : Mach :=
  { cur := .core 0 0
    cores := [(0, { ts := #v[{ busy := true }, {}, {}, {}], placed := true, seg := vset (Vector.replicate 16 {}) 0 { st := .loading }
                    schur := some { ts := 1, done := 9, ranges := [(0xA000, 128)], writes := [], result := none, singular := none } })] }

end Sys2Proof.Machine

open Sys2Proof Sys2Proof.Machine

/-- Refutes O55: the clause on a fetch from a LOADING slot does not ask that no running operation holds the words of the context record back
(R230, R243). In `loadingMach` one does, and the thread set stays busy, waiting. -/
theorem not_fetchEvents : ¬ Obligations.FetchEvents := by
  intro h
  obtain ⟨-, -, -, hloading, -⟩ := h { mach := loadingMach } 0 0 0 0 (by decide)
  obtain ⟨v, hv, hbusy, -⟩ := hloading (by decide)
  change event (fun m => m.fetchEvent 0 0) { mach := loadingMach } = .next v at hv
  rw [event, Mach.fetchEvent_loading rfl rfl rfl, Mach.fetchPark_held (i := 0) rfl rfl] at hv
  obtain rfl := Host.Outcome.next.inj hv
  exact absurd hbusy (by decide)
end

section
/-! PROOF. Far accesses: the checks of a far address, the answer taken, and the forms over them (R75, R84, R87, R184, R196). -/

namespace Sys2Proof.Machine

open Sys2Proof

/-! ## Far addresses (R75) -/

/-- An address in far space is in none of the sixteen spaces from 0xC on. -/
theorem fld_space_of_far {ea : Word} (h : ea.toNat / 2 ^ 62 = 1) : isFar ea = true ∧ fld ea 63 60 ≠ 15 := by
  have hlt := ea.isLt
  have hfar : fld ea 63 62 = 1 := by unfold fld; omega
  refine ⟨by rw [isFar, hfar]; rfl, ?_⟩
  unfold fld
  omega

theorem fld_low60 (ea : Word) : fld ea 59 0 = ea.toNat % 2 ^ 60 := by simp [fld]

/-- A far address as records show it (R75). -/
theorem farAddr_of_far {a : Word} (h : isFar a = true) : farAddr a = BitVec.ofNat 64 (a.toNat % 2 ^ 60 + 2 ^ 62) := by
  have hfar : a.toNat / 2 ^ 62 % 2 ^ 2 = 1 := by simpa [isFar, fld] using h
  have htop : a.toNat.testBit 62 = true ∧ a.toNat.testBit 63 = false := by
    simp only [Nat.testBit_eq_decide_div_mod_eq]
    constructor <;> simp <;> omega
  have hsum : 2 ^ 62 + a.toNat % 2 ^ 60 = 2 ^ 62 ||| a.toNat % 2 ^ 60 := by
    simpa only [Nat.mul_one] using Nat.two_pow_add_eq_or_of_lt (b := a.toNat % 2 ^ 60) (i := 62) (by omega) 1
  refine BitVec.eq_of_getLsbD_eq fun i hi => ?_
  rw [Nat.add_comm, hsum, farAddr]
  simp only [BitVec.getLsbD_and, BitVec.getLsbD_not, BitVec.getLsbD_shiftLeft, BitVec.getLsbD_ofNat, Nat.testBit_or, Nat.testBit_mod_two_pow,
    Nat.testBit_two_pow]
  simp only [BitVec.getLsbD]
  rcases Nat.lt_or_ge i 60 with h60 | h60
  · simp [hi, h60]
    omega
  · have hthree : Nat.testBit 3 0 = true ∧ Nat.testBit 3 1 = true ∧ Nat.testBit 3 2 = false ∧ Nat.testBit 3 3 = false := by decide
    interval_cases i <;> simp [htop, hthree]

/-! ## A far access, run (R184, R196) -/

section
variable {m : Mach} {c t : Nat} (hc : m.cur = .core c t) (hmesh : c < 73728)

theorem effAddr_run (hub : m.me.anyBound = false) (hre : m.me.regErr = []) (a : Args) :
    (effAddr a).run m = .ok (m.me.xreg a.s + a.imm) m := by
  rw [effAddr, run_bind_ok (readX_run hub hre _)]; rfl

include hc hmesh

/-- An aligned far address of a window has its home there, and a store passes where it does not meet the header of the launch frame. -/
theorem checkFar_run {ea : Word} {n : Nat} {h : Nat × Nat × Nat} (hfar : ea.toNat / 2 ^ 62 = 1) (hal : ea.toNat % n = 0)
    (hhome : (m.part (m.core c).part.toNat).home (ea.toNat % 2 ^ 60) = some h) (store : Bool) :
    (checkFar ea n store).run m =
      if store && (m.part (m.core c).part.toNat).inFarHeader ea n then
        .error (.trap { faultOf Cause.frameHeader with addr := farAddr (m.part (m.core c).part.toNat).launch.d0 }) m
      else .ok h m := by
  obtain ⟨hf, hsp⟩ := fld_space_of_far hfar
  have hhouse : ¬ meshCores ≤ c := Nat.not_le.mpr hmesh
  rw [checkFar, run_bind_ok (EStateM.run_get m)]
  simp only [hf, hsp, hal, hc, hhouse, Mach.myPart_of_cur hc, fld_low60, hhome, false_and, if_false, ne_eq, not_true_eq_false,
    Bool.not_true, Bool.false_eq_true, decide_false]
  rw [EStateM.run_bind, headerGuard, run_bind_ok (EStateM.run_get m), require_run, Mach.myPart_of_cur hc]
  cases store && (m.part (m.core c).part.toNat).inFarHeader ea n <;> rfl

end

/-- Core `k` with the context record that the access of `u` reserved freed (R196). -/
def Core.farFreed (u : ThreadSet) (k : Core) : Core :=
  match u.farRec with
  | some i => k.freeReserved i
  | none => k

/-- The machine once the agent, of core `c`, has taken the answer of its far access. -/
def Mach.farEnded (m : Mach) (c : Nat) : Mach := (m.modCore c (Core.farFreed m.me)).modMe fun v => { v with far := .idle, farRec := none }

theorem farTake_idle {m : Mach} (h : m.me.far = .idle) : farTake.run m = .ok none m := by
  rw [farTake, run_bind_ok (me_run m), h]; rfl

theorem farTake_served {m : Mach} {c t : Nat} (hc : m.cur = .core c t) {bs : List Byte} (h : m.me.far = .answered (.served bs)) :
    farTake.run m = .ok (some bs) (m.farEnded c) := by
  rw [farTake, run_bind_ok (me_run m), h, ← Mach.here_of_cur hc]; rfl

theorem farTake_fault {m : Mach} {code : Byte} {e : Word} (h : m.me.far = .answered (.fault code e)) :
    farTake.run m = .error (.trap { cause := code, addr := e }) m := by
  rw [farTake, run_bind_ok (me_run m), h]; rfl

theorem farTake_notRecorded {m : Mach} (h : m.me.far = .answered .notRecorded) :
    farTake.run m = .error (.trap { cause := 0x17 }) m := by
  rw [farTake, run_bind_ok (me_run m), h]; rfl

section
variable {m : Mach} {c t : Nat} (hc : m.cur = .core c t) {ea : Word} {n : Nat} {h : Nat × Nat × Nat} {data : Option (List Byte)}
include hc

/-- A far access that fails a check, whatever its thread set has under way. -/
theorem farAccess_guarded {r : FaultRec} (hcheck : (checkFar ea n data.isSome).run m = .error (.trap r) m) :
    (farAccess m ea n data).run m = .error (.trap r) m := by
  simp only [farAccess, hc, farCore]
  exact run_bind_error hcheck

variable (hcheck : (checkFar ea n data.isSome).run m = .ok h m)
include hcheck

/-- A far access with no answer yet is sent and waits. -/
theorem farAccess_asks (hidle : m.me.far = .idle) (hw : m.windowFree c = true) :
    (farAccess m ea n data).run m = .error (.waitKeep .other) (m.sendFar ea n h data) := by
  simp only [farAccess, hc, farCore]
  rw [run_bind_ok hcheck, run_bind_ok (farTake_idle hidle)]
  dsimp only
  rw [Mach.here_of_cur hc, hw]
  rfl

/-- A far access that was served gives its bytes. -/
theorem farAccess_served {bs : List Byte} (hs : m.me.far = .answered (.served bs)) : 
    (farAccess m ea n data).run m = .ok bs (m.farEnded c) := by
  simp only [farAccess, hc, farCore]
  rw [run_bind_ok hcheck, run_bind_ok (farTake_served hc hs)]
  rfl

/-- A far access whose answer is a fault. -/
theorem farAccess_traps {r : FaultRec} (ht : farTake.run m = .error (.trap r) m) :
    (farAccess m ea n data).run m = .error (.trap r) m := by
  simp only [farAccess, hc, farCore]
  rw [run_bind_ok hcheck]
  exact run_bind_error ht

end

/-! ## The forms, run -/

section
variable {m : Mach} (hub : m.me.anyBound = false) (hre : m.me.regErr = []) {a : Args}
  (hon : (m.me.preg a.p.toNat).getLsbD 0 = true)
include hub hre hon

/-- `ldfar` is its access, and then the write of its result. -/
theorem semLdfar_run : (semLdfar a).run m =
    (farAccess m (m.me.xreg a.s + a.imm) (2 ^ (a.v.toNat % 4)) none >>= fun bs => writeRes a true (wd (leNat bs))).run m := by
  rw [semLdfar, run_bind_ok (EStateM.run_get m), run_bind_ok (srcPort_run hub _ _), run_bind_ok (dstPort_run hub _ _),
    run_bind_ok (effAddr_run hub hre a), run_bind_ok (predOn_run hre a), if_pos hon]
  rfl

theorem semVldfar_run : (semVldfar a).run m =
    (farAccess m (m.me.xreg a.s + a.imm) 16 none >>= fun bs => writeVRes a true (vecOf bs)).run m := by
  rw [semVldfar, run_bind_ok (EStateM.run_get m), run_bind_ok (srcPort_run hub _ _), run_bind_ok (dstPort_run hub _ _),
    run_bind_ok (effAddr_run hub hre a), run_bind_ok (predOn_run hre a), if_pos hon]

theorem semStfar_run : (semStfar a).run m =
    (farAccess m (m.me.xreg a.s + a.imm) (2 ^ (a.v.toNat % 4)) (some (leBytes (m.me.xreg a.d).toNat (2 ^ (a.v.toNat % 4)))) >>= fun _ => pure ()).run m := by
  have hstore : (readStore a).run m = .ok (m.me.xreg a.s + a.imm, m.me.xreg a.d) m := by
    rw [readStore, run_bind_ok (srcPort_run hub _ _), run_bind_ok (srcPort_run hub _ _), run_bind_ok (effAddr_run hub hre a),
      run_bind_ok (readX_run hub hre _)]
    rfl
  rw [semStfar, run_bind_ok (EStateM.run_get m), run_bind_ok hstore]
  dsimp only
  rw [run_bind_ok (predOn_run hre a), if_pos hon]
  rfl

end

/-- The thread set of the agent after its answer is taken. -/
theorem Mach.me_farEnded {m : Mach} {c t : Nat} (hc : m.cur = .core c t) (ht : t < 4) :
    (m.farEnded c).me = { m.me with far := .idle, farRec := none } := by
  have hfreed (k : Core) : (Core.farFreed m.me k).tset t = k.tset t := by
    unfold Core.farFreed Core.freeReserved
    split
    · split <;> rfl
    · rfl
  have hcur : (m.farEnded c).cur = .core c t := (Mach.cur_modMe _ _).trans hc
  have hmid : (m.modCore c (Core.farFreed m.me)).cur = .core c t := hc
  rw [Mach.me_of_cur hcur, Mach.farEnded, Mach.core_modMe hmid, if_pos rfl, Core.tset_modTs _ ht, if_pos rfl, Mach.core_modCore,
    if_pos rfl, hfreed, ← Mach.me_of_cur hc]

/-- The bytes of a store's register, lowest first. -/
theorem leBytes_word (x : Word) (n : Nat) : leBytes x.toNat n = (List.range n).map fun i => x.extractLsb' (8 * i) 8 := by
  rw [leBytes_eq_map]
  refine List.map_congr_left fun i _ => ?_
  rw [BitVec.extractLsb', Nat.shiftRight_eq_div_pow, pow_mul]
  rfl

theorem leNat_eq_foldr (bs : List Byte) : leNat bs = bs.foldr (fun b v => b.toNat + 256 * v) 0 := by
  induction bs with
  | nil => rfl
  | cons b bs ih => rw [leNat, List.foldr_cons, ih]

end Sys2Proof.Machine

open Sys2Proof Sys2Proof.Machine

/-- Settles O18: the checks and the home of the address, then what the thread set has of its access. -/
theorem farAccesses : Obligations.FarAccesses := by
  intro s c t a bs h code e hp hon hmesh
  obtain ⟨hc, -, ht, -, -, -, hub, hre⟩ := Plain.iff.mp hp
  have hal := Plain.alone hp
  have hub' : (s.mach.farEnded c).me.anyBound = false := by rw [Mach.me_farEnded hc ht]; exact hub
  dsimp only
  rw [Mach.myCore_of_cur hc, ← leNat_eq_foldr]
  have check {n : Nat} (hn : (s.mach.me.xreg a.s + a.imm).toNat / 2 ^ 62 = 1 ∧ (s.mach.me.xreg a.s + a.imm).toNat % n = 0 ∧
      (s.mach.part (s.mach.core c).part.toNat).home ((s.mach.me.xreg a.s + a.imm).toNat % 2 ^ 60) = some h) :=
    checkFar_run hc hmesh hn.1 hn.2.1 hn.2.2
  have load {n : Nat} hn := (check (n := n) hn false).trans (if_neg Bool.false_ne_true)
  have store {n : Nat} hn (hclear : (s.mach.part (s.mach.core c).part.toNat).inFarHeader (s.mach.me.xreg a.s + a.imm) n = false) :=
    (check hn true).trans (if_neg (by rw [Bool.true_and, hclear]; exact Bool.false_ne_true))
  have ldfar := semLdfar_run hub hre (a := a) hon
  have stfar := semStfar_run hub hre (a := a) hon
  have vldfar := semVldfar_run hub hre (a := a) hon
  refine ⟨?ldfar, ?stfar, ?vldfar, ?ldfarAsks, ?stfarAsks, ?stfarHeader, ?vldfarAsks, ?faults, ?notRecorded⟩
  case ldfar =>
    rintro ⟨hs, hn⟩
    rw [run_bind_ok (farAccess_served hc (data := none) (load hn) hs), writeRes_run hub', if_pos rfl] at ldfar
    exact issue_ok hal ldfar
  case stfar =>
    rintro ⟨hs, hn, hclear⟩
    rw [run_bind_ok (farAccess_served hc (data := some _) (store hn hclear) hs)] at stfar
    exact issue_ok hal stfar
  case vldfar =>
    rintro ⟨hs, hn, -⟩
    rw [run_bind_ok (farAccess_served hc (data := none) (load hn) hs), writeVRes, if_pos rfl, writeV_run hub'] at vldfar
    exact issue_ok hal vldfar
  case ldfarAsks =>
    rintro ⟨hi, hn, hw⟩
    exact issue_waitKeep hal (ldfar.trans (run_bind_error (farAccess_asks hc (data := none) (load hn) hi hw)))
  case stfarAsks =>
    rintro ⟨hi, hn, hclear, hw⟩
    rw [← leBytes_word]
    exact issue_waitKeep hal (stfar.trans (run_bind_error (farAccess_asks hc (data := some _) (store hn hclear) hi hw)))
  case stfarHeader =>
    rintro ⟨hn, hclear⟩
    have hin := eq_true_of_ne_false hclear
    have hd0 : isFar (s.mach.part (s.mach.core c).part.toNat).launch.d0 = true := (Bool.and_eq_true_iff.mp hin).1
    have hguard := (check hn true).trans (if_pos (by rw [Bool.true_and]; exact hin))
    rw [← farAddr_of_far hd0]
    exact issue_traps hal (stfar.trans (run_bind_error (farAccess_guarded hc (data := some _) hguard)))
  case vldfarAsks =>
    rintro ⟨hi, hn, hw⟩
    exact issue_waitKeep hal (vldfar.trans (run_bind_error (farAccess_asks hc (data := none) (load hn) hi hw)))
  case faults =>
    intro hf
    have hstop := farTake_fault hf
    exact ⟨fun hn => issue_traps hal (ldfar.trans (run_bind_error (farAccess_traps hc (data := none) (load hn) hstop))),
      fun ⟨hn, hclear⟩ => issue_traps hal (stfar.trans (run_bind_error (farAccess_traps hc (data := some _) (store hn hclear) hstop))),
      fun hn => issue_traps hal (vldfar.trans (run_bind_error (farAccess_traps hc (data := none) (load hn) hstop)))⟩
  case notRecorded =>
    intro hf
    have hstop := farTake_notRecorded hf
    exact ⟨fun hn => issue_traps hal (ldfar.trans (run_bind_error (farAccess_traps hc (data := none) (load hn) hstop))),
      fun ⟨hn, hclear⟩ => issue_traps hal (stfar.trans (run_bind_error (farAccess_traps hc (data := some _) (store hn hclear) hstop))),
      fun hn => issue_traps hal (vldfar.trans (run_bind_error (farAccess_traps hc (data := none) (load hn) hstop)))⟩
end

section
/-! PROOF. What transmitting deliveries changes: routers, the record of who has worked for a partition, and how far each delivery has
come; every core and stagehand stays as it is (R105, R138, R301, R314). -/

namespace Sys2Proof.Machine

open Sys2Proof

/-- A delivery without what its way through the mesh changes. -/
def Delivery.letter (d : Delivery) : Delivery := { d with phase := .queued, sent := 0, flitAt := 0 }

/-- A partition without the record of the classes in which routers and stagehands have worked for it (R138). -/
def Partition.calm (p : Partition) : Partition := { p with active := 0 }

/-- `m'` is `m` after deliveries have travelled: the same deliveries are under way, and nothing beside the mesh has changed. -/
structure Mach.Carried (m m' : Mach) : Prop where
  rest : ∃ net parts routers, m' = { m with net := net, parts := parts, routers := routers }
  letters : m'.net.map Delivery.letter = m.net.map Delivery.letter
  parts : m'.parts.map Partition.calm = m.parts.map Partition.calm

namespace Mach.Carried

theorem refl (m : Mach) : m.Carried m := ⟨⟨m.net, m.parts, m.routers, rfl⟩, rfl, rfl⟩

theorem trans {m m' m'' : Mach} (h : m.Carried m') (h' : m'.Carried m'') : m.Carried m'' := by
  obtain ⟨⟨_, _, _, rfl⟩, hl, hp⟩ := h
  obtain ⟨⟨net, parts, routers, rfl⟩, hl', hp'⟩ := h'
  exact ⟨⟨net, parts, routers, rfl⟩, hl'.trans hl, hp'.trans hp⟩

variable {m m' : Mach} (h : m.Carried m')
include h

theorem cores : m'.cores = m.cores := by obtain ⟨⟨_, _, _, rfl⟩, -⟩ := h; rfl
theorem core (c : Nat) : m'.core c = m.core c := by obtain ⟨⟨_, _, _, rfl⟩, -⟩ := h; rfl
theorem hands : m'.hands = m.hands := by obtain ⟨⟨_, _, _, rfl⟩, -⟩ := h; rfl
theorem clk : m'.clk = m.clk := by obtain ⟨⟨_, _, _, rfl⟩, -⟩ := h; rfl
theorem npc : m'.npc = m.npc := by obtain ⟨⟨_, _, _, rfl⟩, -⟩ := h; rfl

theorem net_nil (hn : m.net = []) : m'.net = [] := by simpa [hn] using h.letters

/-- A delivery under way before is under way, the same but for how far it has come. -/
theorem exists_mem {d : Delivery} (hd : d ∈ m.net) : ∃ e ∈ m'.net, e.letter = d.letter :=
  List.mem_map.mp (h.letters ▸ List.mem_map_of_mem hd)

/-- No delivery has come that was not under way before. -/
theorem exists_of_mem {e : Delivery} (he : e ∈ m'.net) : ∃ d ∈ m.net, e.letter = d.letter := by
  obtain ⟨d, hd, hl⟩ := List.mem_map.mp (h.letters.symm ▸ List.mem_map_of_mem (f := Delivery.letter) he)
  exact ⟨d, hd, hl.symm⟩

end Mach.Carried

/-! ## Steps of the mesh -/

theorem Mach.carried_charge (m : Mach) (q : Nat) (cs : BitVec 6) : m.Carried (m.charge q cs) := by
  refine ⟨⟨m.net, _, m.routers, rfl⟩, rfl, Vector.ext fun i hi => ?_⟩
  simp only [Mach.charge, Mach.modPart, vset, Vector.getElem_map, Vector.getElem_setIfInBounds]
  split
  · next heq =>
    subst heq
    simp [Partition.calm, Mach.part, vget, hi]
  · rfl

theorem Mach.carried_modRouter (m : Mach) (c : Nat) (f : Router → Router) : m.Carried (m.modRouter c f) :=
  ⟨⟨m.net, m.parts, _, rfl⟩, rfl, rfl⟩

theorem Mach.carried_countFlits (m : Mach) (src q n : Nat) : m.Carried (m.countFlits src q n) := by
  unfold Mach.countFlits
  split
  · exact .refl m
  · exact m.carried_modRouter _ _

theorem Mach.carried_carry (m : Mach) (way : List (Nat × Nat × Nat)) (n : Nat) : m.Carried (m.carry way n) := by
  unfold Mach.carry
  induction way generalizing m with
  | nil => exact .refl m
  | cons s way ih =>
    refine .trans ?_ (ih _)
    dsimp only
    split
    · exact m.carried_modRouter _ _
    · exact .refl m

/-- A delivery changed in how far it has come. -/
theorem Mach.carried_modDelivery (m : Mach) (id : Nat) {f : Delivery → Delivery} (hf : ∀ d, (f d).letter = d.letter) :
    m.Carried (m.modDelivery id f) := by
  refine ⟨⟨_, m.parts, m.routers, rfl⟩, ?_, rfl⟩
  simp only [Mach.modDelivery, List.map_map]
  refine List.map_congr_left fun d _ => ?_
  rw [Function.comp]
  split
  · exact hf d
  · rfl

theorem Mach.carried_inject (m : Mach) (d : Delivery) : m.Carried (m.inject d) := by
  unfold Mach.inject
  extract_lets n m' p m''
  have hcount : m.Carried m' := (m.carried_charge _ _).trans (Mach.carried_countFlits _ _ _ _)
  have hmod : m.Carried m'' := hcount.trans (m'.carried_modDelivery _ fun _ => rfl)
  split
  · exact hcount.trans (m'.carried_modDelivery _ fun _ => rfl)
  · split
    · exact hmod.trans (m''.carried_carry _ _)
    · exact hmod

theorem carried_transmitFrom (src : Nat) (before ds : List Delivery) (m : Mach) : m.Carried (transmitFrom src before ds m) := by
  induction ds generalizing before m with
  | nil => exact .refl m
  | cons d ds ih =>
    rw [transmitFrom]
    refine .trans ?_ (ih _ _)
    split
    · exact m.carried_inject d
    · exact .refl m

theorem Mach.carried_transmit (m : Mach) (src : Nat) : m.Carried (m.transmit src) := carried_transmitFrom src [] m.net m

/-- Posting a delivery adds it to those under way (R105). -/
theorem Mach.carried_post (m : Mach) (src ts dst : Nat) (body : Payload) (win : Option Nat) (own rel : Bool) (after : List (Nat × Nat))
    (cast : Option (Nat × Nat)) (lead : Bool) : ∃ d : Delivery, d.src = src ∧ d.dst = dst ∧ d.body = body ∧
      ({ m with net := m.net ++ [d], nextId := m.nextId + 1 } : Mach).Carried (m.post src ts dst body win own rel after cast lead) :=
  ⟨_, rfl, rfl, rfl, Mach.carried_transmit _ src⟩

end Sys2Proof.Machine
end

section
/-! PROOF. `cfetch` and `cstat`: the checks in their order, and the request for the directory entry (R81, R82, R127, R213). -/

namespace Sys2Proof.Machine

open Sys2Proof

/-- A segment number below 4,096 has zeros above it. -/
theorem fld_seg_eq (x : Word) : (fld x 63 12 == 0) = decide (x.toNat < 4096) := by
  have hlt := x.isLt
  rw [Bool.eq_iff_iff, beq_iff_eq, decide_eq_true_iff, fld]
  omega

/-- A core's slot after a change of it. -/
theorem Core.slot_modSlot (k : Core) {g : Nat} (hg : g < 16) (f : Overlay → Overlay) : (k.modSlot g f).slot g = f (k.slot g) :=
  vget_vset_same _ _ _ hg

/-! ## A request of an overlay fetch -/

/-- The request for a part of a segment leaves the PC that follows as it was. -/
theorem Mach.fetchPart_npc (m : Mach) (c t g : Nat) (dir : Bool) (ea : Word) (n : Nat) : (m.fetchPart c t g dir ea n).npc = m.npc := by
  unfold Mach.fetchPart
  split
  · rfl
  · next w sh l _ =>
    obtain ⟨d, -, -, -, hd⟩ := ({ m with nextId := m.nextId + 1 } : Mach).carried_post c t (handBase + sh)
      (.move { id := m.nextId, part := (m.core c).part.toNat, kind := .fetch c g dir, addr := farWord (fld ea 59 0), win := w, off := l,
               len := n }) none true false [] none true
    exact hd.npc

/-- With a home, the stagehand is asked, and the core stays as it is. -/
theorem Mach.fetchPart_home (m : Mach) {c : Nat} (t g : Nat) (dir : Bool) {ea : Word} (n : Nat) {h : Nat × Nat × Nat} (hmesh : c < 73728)
    (hfar : ea.toNat / 2 ^ 62 = 1) (hhome : (m.part (m.core c).part.toNat).home (ea.toNat % 2 ^ 60) = some h) :
    (m.fetchPart c t g dir ea n).core c = m.core c ∧
      ∃ d ∈ (m.fetchPart c t g dir ea n).net, d.src = c ∧ d.dst = 100000 + h.2.1 ∧ d.body =
        .move { id := m.nextId, part := (m.core c).part.toNat, kind := .fetch c g dir, addr := BitVec.ofNat 64 (2 ^ 62 + ea.toNat % 2 ^ 60),
                win := h.1, off := h.2.2, len := n } := by
  obtain ⟨w, sh, l⟩ := h
  have hpart : (m.farPart c).bind (fun p => p.home (fld ea 59 0)) = some (w, sh, l) := by
    rw [Mach.farPart, if_neg (show ¬meshCores ≤ c from Nat.not_le.mpr hmesh), Option.bind_some, fld_low60]
    exact hhome
  obtain ⟨d, hsrc, hdst, hbody, hd⟩ := ({ m with nextId := m.nextId + 1 } : Mach).carried_post c t (handBase + sh)
    (.move { id := m.nextId, part := (m.core c).part.toNat, kind := .fetch c g dir, addr := farWord (fld ea 59 0), win := w, off := l,
             len := n }) none true false [] none true
  rw [Mach.fetchPart, if_pos (fld_space_of_far hfar).1]
  simp only [hpart]
  obtain ⟨e, he, hletter⟩ := hd.exists_mem (d := d) (by simp)
  refine ⟨hd.core c, e, he, (congrArg Delivery.src hletter).trans hsrc, (congrArg Delivery.dst hletter).trans hdst, ?_⟩
  refine (congrArg Delivery.body hletter).trans (hbody.trans ?_)
  rw [farWord, wd, fld_low60]

/-! ## The forms, run -/

theorem require_passes {b : Bool} (h : b = true) (r : FaultRec) (m : Mach) : (require b r).run m = .ok () m := by subst h; rfl

theorem require_stops {b : Bool} (h : b = false) (r : FaultRec) (m : Mach) : (require b r).run m = .error (.trap r) m := by subst h; rfl

theorem stallUntil_passes {b : Bool} (h : b = true) (k : WaitKind) (m : Mach) : (stallUntil b k).run m = .ok () m := by subst h; rfl

theorem stallUntil_stops {b : Bool} (h : b = false) (k : WaitKind) (m : Mach) : (stallUntil b k).run m = .error (.wait k) m := by
  subst h; rfl

section
variable {m : Mach} {c t : Nat} (hc : m.cur = .core c t) (hub : m.me.anyBound = false) (hre : m.me.regErr = []) {a : Args}
include hc hub hre

/-- `cfetch`, by its checks in their order. -/
theorem semCfetch_run : (semCfetch a).run m =
    if m.me.pc.toNat / 1024 = a.d.toNat % 16 then .error (.trap { cause := 0x02, addr := m.me.xreg a.s }) m
    else if (m.core c).useCount (a.d.toNat % 16) ≠ 0 then .error (.trap { cause := 0x16, index := BitVec.ofNat 16 (a.d.toNat % 16) }) m
    else if 4096 ≤ (m.me.xreg a.s).toNat then .error (.trap { cause := 0x02, addr := m.me.xreg a.s }) m
    else if ((m.core c).slot (a.d.toNat % 16)).st = .loading ∨ m.windowFree c = false then .error (.wait .other) m
    else .ok () ((m.modCore c (·.modSlot (a.d.toNat % 16) fun _ => { st := .loading, seg := (m.me.xreg a.s).setWidth 16 })).fetchPart c t
      (a.d.toNat % 16) true ((m.core c).segDir + m.me.xreg a.s * 16) 16) := by
  rw [semCfetch, run_bind_ok (srcPort_run hub _ _), run_bind_ok (readX_run hub hre _), run_bind_ok (EStateM.run_get m)]
  simp only [Mach.here_of_cur hc, Mach.myCore_of_cur hc, fld_seg_eq]
  split
  · next hown => exact run_bind_error (require_stops (by simp [hown]) _ _)
  next hown =>
  rw [run_bind_ok (require_passes (by simpa using hown) _ _)]
  split
  · next huse => exact run_bind_error (require_stops (by simpa using huse) _ _)
  next huse =>
  rw [run_bind_ok (require_passes (by simpa using huse) _ _)]
  split
  · next hseg => exact run_bind_error (require_stops (by simpa using hseg) _ _)
  next hseg =>
  rw [run_bind_ok (require_passes (by simpa using hseg) _ _)]
  by_cases hload : ((m.core c).slot (a.d.toNat % 16)).st = .loading
  · rw [if_pos (.inl hload)]
    exact run_bind_error (stallUntil_stops (by simp [hload]) _ _)
  rw [run_bind_ok (stallUntil_passes (by simpa using hload) _ _)]
  cases hfree : m.windowFree c with
  | false =>
    rw [if_pos (.inr rfl)]
    exact run_bind_error (stallUntil_stops rfl _ _)
  | true =>
    rw [if_neg (by simp [hload]), run_bind_ok (stallUntil_passes rfl _ _)]
    have hc' (f : Core → Core) : (m.modCore c f).cur = .core c t := hc
    rw [Mach.here_of_cur (hc' _), Mach.tsNo_of_cur (hc' _)]
    rfl

omit hre in
/-- `cstat` reads the slot's state, its fault, its uses, its segment and its cause. -/
theorem semCstat_run : (semCstat a).run m = .ok () (m.modMe (·.setX a.d (wd (
    (match ((m.core c).slot (a.imm.toNat % 16)).st with
      | .empty => 0
      | .loading => 1
      | .valid => 2) + ((m.core c).slot (a.imm.toNat % 16)).flt.toNat * 4 + (m.core c).useCount (a.imm.toNat % 16) * 256 +
      ((m.core c).slot (a.imm.toNat % 16)).seg.toNat * 2 ^ 16 + ((m.core c).slot (a.imm.toNat % 16)).cause.toNat * 2 ^ 40)))) := by
  rw [semCstat, run_bind_ok (dstPort_run hub _ _), run_bind_ok (myCore_run m), Mach.myCore_of_cur hc]
  refine (writeX_run hub _ _).trans ?_
  cases ((m.core c).slot (a.imm.toNat % 16)).flt <;> rfl

end

end Sys2Proof.Machine

open Sys2Proof Sys2Proof.Machine

/-- Settles O24: the checks of `cfetch` in their order, its request, and the fields that `cstat` reads. -/
theorem overlayForms : Obligations.OverlayForms := by
  intro s c t a h hp hmesh
  obtain ⟨hc, -, ht, -, -, -, hub, hre⟩ := Plain.iff.mp hp
  have hal := Plain.alone hp
  have hrun := semCfetch_run hc hub hre (a := a)
  have hg : a.d.toNat % 16 < 16 := Nat.mod_lt _ (by decide)
  dsimp only
  rw [Mach.myCore_of_cur hc]
  refine ⟨?begins, ?cstat, ?own, ?busy, ?large, ?waits⟩
  case begins =>
    rintro ⟨⟨hown, huse⟩, hseg, hload, hw⟩
    rw [if_neg hown, if_neg (not_not.mpr huse), if_neg (Nat.not_le.mpr hseg), if_neg (by simp [hload, hw])] at hrun
    refine ⟨_, issue_ok hal hrun, ?_, ?_⟩
    · rw [State.tset_after hc _ ht]
      exact Mach.fetchPart_npc _ _ _ _ _ _ _
    · rintro ⟨hfar, hhome⟩
      let m := s.mach.modCore c (·.modSlot (a.d.toNat % 16) fun _ => { st := .loading, seg := (s.mach.me.xreg a.s).setWidth 16 })
      have hk : m.core c = (s.mach.core c).modSlot (a.d.toNat % 16) fun _ => { st := .loading, seg := (s.mach.me.xreg a.s).setWidth 16 } := by
        rw [Mach.core_modCore, if_pos rfl]
      have hpart : (m.core c).part = (s.mach.core c).part := by rw [hk]; rfl
      obtain ⟨hcore, d, hd, hsrc, hdst, hbody⟩ := m.fetchPart_home t (a.d.toNat % 16) true 16 hmesh hfar (by rw [hpart]; exact hhome)
      refine ⟨?_, List.any_eq_true.mpr ⟨d, ?_, ?_⟩⟩
      · rw [State.core_after hc, if_pos rfl]
        change ((m.fetchPart c t _ true _ 16).core c).slot _ = _
        rw [hcore, hk, Core.slot_modSlot _ hg]
      · simpa only [State.after, Mach.complete, hc, Mach.modCore_net] using hd
      · rw [hpart] at hbody
        simp only [hsrc, hdst, hbody, beq_self_eq_true, Bool.and_true]
        exact beq_self_eq_true _
  case cstat => exact issue_ok hal (semCstat_run hc hub)
  case own =>
    intro hown
    exact issue_traps hal (hrun.trans (if_pos hown))
  case busy =>
    rintro ⟨hown, huse⟩
    rw [if_neg hown, if_pos huse] at hrun
    exact issue_traps hal hrun
  case large =>
    rintro ⟨⟨hown, huse⟩, hseg⟩
    rw [if_neg hown, if_neg (not_not.mpr huse), if_pos hseg] at hrun
    exact issue_traps hal hrun
  case waits =>
    rintro ⟨⟨hown, huse⟩, hseg, hwait⟩
    rw [if_neg hown, if_neg (not_not.mpr huse), if_neg (Nat.not_le.mpr hseg), if_pos hwait] at hrun
    exact issue_wait hal hrun
end

section
/-! PROOF. The slice and key forms of page 15 at house level (R88, R126, R273, R274, R303). -/

namespace Sys2Proof.Machine

open Sys2Proof

/-! ## Bytes of local memory as a number -/

theorem Memory.leNat_bytes (m : Memory) (a n : Nat) :
    leNat (Memory.bytes m a n) = ((List.range n).map fun i => (m.byte (a + i)).toNat * 256 ^ i).sum := by
  induction n generalizing a with
  | zero => rfl
  | succ n ih =>
    rw [Memory.bytes, leNat, ih, List.range_succ_eq_map, List.map_cons, List.sum_cons, List.map_map, ← List.sum_map_mul_left]
    congr 1
    · simp
    · exact congrArg _ (List.map_congr_left fun i _ => by simp only [Function.comp, Nat.succ_eq_add_one, pow_succ]; ring_nf)

/-- The number in local memory is what a read of its bytes gives (R33). -/
theorem Core.readN_eq_number (k : Core) (off n : Nat) : k.readN off n = k.number off n := Memory.leNat_bytes k.mem off n

/-! ## The slice table (R273) -/

/-- Instants rise strictly when each is before the one after it. -/
theorem risingInstants_eq (es : List (Nat × Word × Nat)) : risingInstants es =
    (List.range (es.length - 1)).all fun j => (es.getD j (0, 0, 0)).2.1.toNat < (es.getD (j + 1) (0, 0, 0)).2.1.toNat := by
  induction es with
  | nil => rfl
  | cons e es ih =>
    cases es with
    | nil => rfl
    | cons e' es =>
      rw [risingInstants, ih]
      simp only [List.length_cons, Nat.add_sub_cancel, List.range_succ_eq_map, List.all_cons, List.all_map]
      rfl

section
variable {m : Mach} (hl : m.me.priv = .house) {a : Args}
include hl

theorem needHouse_run : needHouse.run m = .ok () m := by
  rw [needHouse, run_bind_ok (me_run m), hl]; rfl

variable (hub : m.me.anyBound = false) (hre : m.me.regErr = [])
include hub hre

/-- `slice.put` refuses an entry with bits between V and PART. -/
theorem semSlicePut_run : (semSlicePut a).run m =
    if (m.me.xreg a.t).toNat / 16 % 2 ^ 59 = 0 then
      .ok () (m.putSlice ((m.me.xreg a.d).toNat % 16) (m.me.xreg a.s) (m.me.xreg a.t))
    else .error (.trap { cause := 0x02, addr := m.me.xreg a.t, data := Config.refusalCause m.here m.clk }) m := by
  have hslot : fld (m.me.xreg a.d) 3 0 = (m.me.xreg a.d).toNat % 16 := by simp [fld]
  have hzero : fld (m.me.xreg a.t) 62 4 = (m.me.xreg a.t).toNat / 16 % 2 ^ 59 := rfl
  rw [semSlicePut, run_bind_ok (needHouse_run hl), run_bind_ok (srcPort_run hub _ _), run_bind_ok (srcPort_run hub _ _),
    run_bind_ok (srcPort_run hub _ _), run_bind_ok (readX_run hub hre _), run_bind_ok (readX_run hub hre _),
    run_bind_ok (readX_run hub hre _), hzero, hslot]
  by_cases hz : (m.me.xreg a.t).toNat / 16 % 2 ^ 59 = 0
  · rw [if_neg (not_not.mpr hz), if_pos hz]; rfl
  · rw [if_pos hz, if_neg hz]; exact run_bind_error rfl

omit hub hre in
/-- `slice.arm` refuses a table whose instants do not rise or that names a partition without a save area. -/
theorem semSliceArm_run : (semSliceArm a).run m =
    if risingInstants m.validSlices && m.validSlices.all fun e => (m.part e.2.2).launch.save != 0 then
      .ok () { m with armed := m.validSlices.filter fun e => m.kptp.toNat < e.2.1.toNat
                      sliceSet := (m.validSlices.map (·.2.2)).eraseDups }
    else .error (.trap { cause := 0x02, data := Config.refusalCause m.here m.clk }) m := by
  rw [semSliceArm, run_bind_ok (needHouse_run hl), run_bind_ok (EStateM.run_get m), Mach.armSlices]
  cases risingInstants m.validSlices && m.validSlices.all fun e => (m.part e.2.2).launch.save != 0 <;> rfl

end

/-! ## Key slots (R88, R126, R274) -/

/-- A change of the stagehands of a list changes nothing but stagehands. -/
theorem Mach.foldl_modHand_rest (l : List Nat) (f : Stagehand → Stagehand) (m : Mach) :
    ∃ hs, l.foldl (fun m s => m.modHand s f) m = { m with hands := hs } := by
  induction l generalizing m with
  | nil => exact ⟨m.hands, rfl⟩
  | cons s l ih =>
    obtain ⟨hs, h⟩ := ih (m.modHand s f)
    exact ⟨hs, h⟩

/-- What the change makes true of a stagehand holds of every one of the list. -/
theorem Mach.hand_foldl_modHand {f : Stagehand → Stagehand} {P : Stagehand → Prop} (hf : ∀ h, P (f h)) {l : List Nat} {s : Nat}
    (hs : s ∈ l) (m : Mach) : P ((l.foldl (fun m s => m.modHand s f) m).hand s) := by
  induction l using List.reverseRecOn with
  | nil => cases hs
  | append_singleton l r ih =>
    rw [List.foldl_append, List.foldl_cons, List.foldl_nil, Mach.hand_modHand]
    split
    · exact hf _
    · next hne =>
      rw [List.mem_append, List.mem_singleton] at hs
      exact ih (hs.resolve_right hne)

/-- The stagehand named by number, or each of the partition. -/
theorem Mach.mem_keyHands {m : Mach} {q s : Nat} {v : Word}
    (h : s = v.toNat % 512 ∧ v.getLsbD 9 = false ∨ v.getLsbD 9 = true ∧ (m.part q).hands.contains s = true) : s ∈ m.keyHands q v := by
  rw [Mach.keyHands, bit_eq_getLsbD]
  rcases h with ⟨rfl, hb⟩ | ⟨hb, hs⟩
  · rw [hb]
    simp [fld]
  · rw [hb]
    simpa using hs

theorem slotFree_run (q : Nat) (m : Mach) : (slotFree q).run m =
    if (m.part q).st ≠ .running ∧ (m.part q).st ≠ .suspended then .ok () m
    else .error (.trap { cause := 0x02, data := Config.refusalCause m.here m.clk }) m := by
  rw [slotFree, run_bind_ok (EStateM.run_get m)]
  dsimp only
  split
  · next h => rw [if_neg (by tauto)]; rfl
  · next h => rw [if_pos (by tauto)]; rfl

/-- A record of aligned bytes that the access may read (R185, R274). -/
theorem houseBytes_run {m : Mach} {c t : Nat} (hc : m.cur = .core c t) {v : Word} {n align : Nat} (hin : v.toNat + n ≤ 65536)
    (hal : v.toNat % align = 0) (ha : m.admits c t v.toNat n false = true) :
    (houseBytes v n align).run m = .ok ((m.core c).mem.bytes v.toNat n) (m.modCore c (·.correct v.toNat n)) := by
  obtain ⟨hg, hb, -⟩ := admits_iff.mp ha
  have hread : (eccRead c v.toNat n v).run m = .ok () (m.modCore c (·.correct v.toNat n)) := by
    rw [eccRead, run_bind_ok (EStateM.run_get m), hb]
    rfl
  obtain ⟨_, _, hk⟩ := ((m.core c).corrected_correct v.toNat n).rest
  have hc' (f : Core → Core) : (m.modCore c f).cur = .core c t := hc
  rw [houseBytes, run_bind_ok (require_passes (by simpa using hin) _ _), run_bind_ok (require_passes (by simpa using hal) _ _),
    run_bind_ok (waitGate_run hc hg _), run_bind_ok (EStateM.run_get m), Mach.here_of_cur hc, run_bind_ok hread,
    run_bind_ok (myCore_run _), Mach.myCore_of_cur (hc' _), Mach.core_modCore, if_pos rfl, hk]
  rfl

section
variable {m : Mach} (hl : m.me.priv = .house) (hub : m.me.anyBound = false) (hre : m.me.regErr = []) {a : Args}
include hl hub hre

/-- `key.zero`: its check, and the change of the stagehands named. -/
theorem semKeyZero_run : (semKeyZero a).run m = (slotFree ((m.me.xreg a.d).toNat % 16) >>= fun _ =>
    modify fun m' => (m'.keyHands ((m.me.xreg a.d).toNat % 16) (m.me.xreg a.s)).foldl (fun m' s =>
      m'.modHand s fun h => { h with keys := Map.erase h.keys ((m.me.xreg a.d).toNat % 16) }) m').run m := by
  have hslot : fld (m.me.xreg a.d) 3 0 = (m.me.xreg a.d).toNat % 16 := by simp [fld]
  rw [semKeyZero, run_bind_ok (needHouse_run hl), run_bind_ok (srcPort_run hub _ _), run_bind_ok (srcPort_run hub _ _),
    run_bind_ok (readX_run hub hre _), run_bind_ok (readX_run hub hre _), hslot]

/-- `key.put`: its checks, its bytes, and the change of the stagehands named. -/
theorem semKeyPut_run : (semKeyPut a).run m = (slotFree ((m.me.xreg a.d).toNat % 16) >>= fun _ => houseBytes (m.me.xreg a.t) 64 64 >>= fun b =>
    modify fun m' => (m'.keyHands ((m.me.xreg a.d).toNat % 16) (m.me.xreg a.s)).foldl (fun m' s =>
      m'.modHand s fun h => { h with keys := Map.set h.keys ((m.me.xreg a.d).toNat % 16) (BitVec.ofNat 512 (leNat b)) }) m').run m := by
  have hslot : fld (m.me.xreg a.d) 3 0 = (m.me.xreg a.d).toNat % 16 := by simp [fld]
  rw [semKeyPut, run_bind_ok (needHouse_run hl), run_bind_ok (srcPort_run hub _ _), run_bind_ok (srcPort_run hub _ _),
    run_bind_ok (srcPort_run hub _ _), run_bind_ok (readX_run hub hre _), run_bind_ok (readX_run hub hre _),
    run_bind_ok (readX_run hub hre _), hslot]

end

/-- A form that has changed stagehands alone goes on with the registers and the memory of its agent, and its change stands. -/
theorem State.after_modHands {s : State} {c t : Nat} (hc : s.mach.cur = .core c t) (ht : t < 4) {m : Mach} (hnpc : m.npc = s.mach.npc)
    (hts : ((m.core c).tset t) = (s.mach.core c).tset t) (hmem : (m.core c).mem = (s.mach.core c).mem) (l : List Nat)
    (f : Stagehand → Stagehand) :
    let v := s.after (l.foldl (fun m r => m.modHand r f) m)
    (v.mach.tset (.core c t)).pc = s.mach.npc ∧ (v.mach.tset (.core c t)).x = s.mach.me.x ∧ (v.mach.core c).mem = (s.mach.core c).mem ∧
      ∀ {P : Stagehand → Prop}, (∀ h, P (f h)) → ∀ {r}, r ∈ l → P (v.mach.hand r) := by
  obtain ⟨hs, hrest⟩ := Mach.foldl_modHand_rest l f m
  have hcore : ({ m with hands := hs } : Mach).core c = m.core c := rfl
  refine ⟨?_, ?_, ?_, fun hP r hr => ?_⟩
  · rw [State.tset_after hc _ ht, hrest]
    exact hnpc
  · rw [State.tset_after hc _ ht, hrest, hcore, hts, Mach.me_of_cur hc]
    rfl
  · rw [State.mem_after hc, hrest, hcore, hmem]
  · have h := Mach.hand_foldl_modHand hP hr m
    simp only [State.after, Mach.complete, hc]
    exact h

end Sys2Proof.Machine

open Sys2Proof Sys2Proof.Machine

/-- Settles O43: the table's checks, and the key slot of every stagehand that the operand names. -/
theorem sliceAndKeyForms : Obligations.SliceAndKeyForms := by
  intro s c t a off hand hp hl
  obtain ⟨hc, -, ht, -, -, -, hub, hre⟩ := Plain.iff.mp hp
  have hal := Plain.alone hp
  have hput := semSlicePut_run hl hub hre (a := a)
  have harm := semSliceArm_run hl (a := a)
  have hkeyPut := semKeyPut_run hl hub hre (a := a)
  have hkeyZero := semKeyZero_run hl hub hre (a := a)
  have hfree := slotFree_run ((s.mach.me.xreg a.d).toNat % 16) s.mach
  rw [Mach.here_of_cur hc] at hput harm hfree
  rw [risingInstants_eq] at harm
  dsimp only
  rw [Mach.myCore_of_cur hc]
  refine ⟨?put, ?putRefused, ?arm, ?armRefused, ?keyPut, ?keyZero, ?keyRefused⟩
  case put =>
    intro hz
    rw [if_pos hz, Mach.putSlice, bit_eq_getLsbD] at hput
    exact issue_ok hal hput
  case putRefused =>
    intro hz
    exact issue_traps hal (hput.trans (if_neg hz))
  case arm =>
    rintro ⟨hrise, hsave⟩
    exact issue_ok hal (harm.trans (if_pos (Bool.and_eq_true_iff.mpr ⟨hrise, hsave⟩)))
  case armRefused =>
    intro h
    refine issue_traps hal (harm.trans (if_neg fun hboth => ?_))
    obtain ⟨hrise, hsave⟩ := Bool.and_eq_true_iff.mp hboth
    rcases h with h | h
    · exact Bool.false_ne_true (h.symm.trans hrise)
    · exact Bool.false_ne_true (h.symm.trans hsave)
  case keyPut =>
    rintro ⟨hidle, ⟨hoff, hin, hmul, ha⟩, hnamed⟩
    subst hoff
    obtain ⟨_, _, hk⟩ := ((s.mach.core c).corrected_correct (s.mach.me.xreg a.t).toNat 64).rest
    rw [run_bind_ok (hfree.trans (if_pos hidle)), run_bind_ok (houseBytes_run hc hin hmul ha)] at hkeyPut
    have hcore : (s.mach.modCore c (·.correct (s.mach.me.xreg a.t).toNat 64)).core c = (s.mach.core c).correct (s.mach.me.xreg a.t).toNat 64 := by
      rw [Mach.core_modCore, if_pos rfl]
    obtain ⟨hpc, hx, hmem, hhand⟩ := State.after_modHands hc ht (m := s.mach.modCore c (·.correct (s.mach.me.xreg a.t).toNat 64)) rfl
      (by rw [hcore, hk]; rfl) (by rw [hcore, hk]) ((s.mach.modCore c (·.correct (s.mach.me.xreg a.t).toNat 64)).keyHands
        ((s.mach.me.xreg a.d).toNat % 16) (s.mach.me.xreg a.s)) fun h => { h with
          keys := Map.set h.keys ((s.mach.me.xreg a.d).toNat % 16)
            (BitVec.ofNat 512 (leNat ((s.mach.core c).mem.bytes (s.mach.me.xreg a.t).toNat 64))) }
    refine ⟨_, issue_ok hal hkeyPut, ⟨hpc, hx⟩, ?_, hmem⟩
    refine hhand (P := fun h => Map.find h.keys ((s.mach.me.xreg a.d).toNat % 16) = _) (fun h => ?_) (Mach.mem_keyHands hnamed)
    rw [Map.find_set, if_pos rfl, Memory.leNat_bytes]
    rfl
  case keyZero =>
    rintro ⟨hidle, hnamed⟩
    rw [run_bind_ok (hfree.trans (if_pos hidle))] at hkeyZero
    obtain ⟨hpc, hx, -, hhand⟩ := State.after_modHands hc ht (m := s.mach) rfl rfl rfl
      (s.mach.keyHands ((s.mach.me.xreg a.d).toNat % 16) (s.mach.me.xreg a.s)) fun h => { h with
        keys := Map.erase h.keys ((s.mach.me.xreg a.d).toNat % 16) }
    refine ⟨_, issue_ok hal hkeyZero, ⟨hpc, hx⟩, ?_⟩
    exact hhand (P := fun h => Map.find h.keys ((s.mach.me.xreg a.d).toNat % 16) = none) (fun h => Map.find_erase_same _ _)
      (Mach.mem_keyHands hnamed)
  case keyRefused =>
    intro hbusy
    have hstop := hfree.trans (if_neg hbusy)
    exact ⟨issue_traps hal (hkeyZero.trans (run_bind_error hstop)), issue_traps hal (hkeyPut.trans (run_bind_error hstop))⟩
end

section
/-! PROOF. Engines: what a store of bytes leaves, what a delivery taken from the mesh leaves, and where a fault goes (R79, R105, R186). -/

namespace Sys2Proof.Machine

open Sys2Proof

/-! ## Bytes stored at successive addresses -/

theorem Memory.byte_pokes (bs : List Byte) (m : Memory) (a x : Nat) :
    (m.pokes a bs).byte x = if a ≤ x ∧ x < a + bs.length then bs.getD (x - a) 0 else m.byte x := by
  induction bs generalizing m a with
  | nil => rw [if_neg (by simp)]; rfl
  | cons b bs ih =>
    rw [Memory.pokes, ih, List.length_cons, Memory.byte_poke]
    by_cases hx : a + 1 ≤ x ∧ x < a + 1 + bs.length
    · obtain ⟨d, rfl⟩ : ∃ d, x = a + 1 + d := ⟨x - (a + 1), by omega⟩
      have hd : a + 1 + d - a = d + 1 := by omega
      rw [if_pos hx, if_pos (by omega), hd, Nat.add_sub_cancel_left, List.getD_cons_succ]
    · rw [if_neg hx]
      by_cases heq : x = a
      · rw [if_pos heq, if_pos (by omega), heq, Nat.sub_self]
        rfl
      · rw [if_neg heq, if_neg (by omega)]

theorem Memory.foldl_poke_cellsAt (bs : List Byte) (m : Memory) (a : Nat) :
    (cellsAt a bs).foldl (fun m c => Memory.poke m c.1 c.2) m = m.pokes a bs := by
  induction bs generalizing m a with
  | nil => rfl
  | cons b bs ih => exact ih (m.poke a b) (a + 1)

/-- A store of bytes at successive addresses. -/
theorem Core.byte_store_cellsAt (k : Core) (a : Nat) (bs : List Byte) (x : Nat) :
    (k.store (cellsAt a bs)).mem.byte x = if a ≤ x ∧ x < a + bs.length then bs.getD (x - a) 0 else k.mem.byte x := by
  rw [Core.mem_store]
  exact (congrArg (Memory.byte · x) (Memory.foldl_poke_cellsAt bs k.mem a)).trans (Memory.byte_pokes bs k.mem a x)

/-- A store changes memory, its sidecar and the count of corrected errors. -/
theorem Core.store_rest (k : Core) (cs : List (Nat × Byte)) :
    ∃ sd n, k.store cs = { k with mem := (k.poke cs).mem, side := sd, count := n } := by
  have hword (k : Core) (w : Nat) : ∃ sd n, Core.storeWord cs k w = { k with side := sd, count := n } := by
    obtain ⟨sd, n, h⟩ := (k.corrected_correctWord w).rest
    unfold Core.storeWord
    split
    · exact ⟨_, _, rfl⟩
    · rw [h]
      exact ⟨_, _, rfl⟩
  have hwords (ws : List Nat) (k : Core) : ∃ sd n, ws.foldl (Core.storeWord cs) k = { k with side := sd, count := n } := by
    induction ws generalizing k with
    | nil => exact ⟨k.side, k.count, rfl⟩
    | cons w ws ih =>
      obtain ⟨_, _, h⟩ := hword k w
      obtain ⟨sd, n, h'⟩ := ih (Core.storeWord cs k w)
      rw [List.foldl_cons, h', h]
      exact ⟨sd, n, rfl⟩
  exact hwords (cellWords cs) (k.poke cs)

/-! ## Machines that differ in one core and in what is under way -/

/-- Beside core `c`, `m'` differs from `m` at most in what is under way in the mesh and at the stagehands. -/
structure Mach.OnlyCore (m m' : Mach) (c : Nat) : Prop where
  parts : m'.parts.map Partition.calm = m.parts.map Partition.calm
  clk : m'.clk = m.clk
  core : ∀ q, q ≠ c → m'.core q = m.core q

theorem Mach.OnlyCore.trans {m m' m'' : Mach} {c : Nat} (h : m.OnlyCore m' c) (h' : m'.OnlyCore m'' c) : m.OnlyCore m'' c :=
  ⟨h'.parts.trans h.parts, h'.clk.trans h.clk, fun q hq => (h'.core q hq).trans (h.core q hq)⟩

theorem Mach.Carried.onlyCore {m m' : Mach} (h : m.Carried m') (c : Nat) : m.OnlyCore m' c := ⟨h.parts, h.clk, fun q _ => h.core q⟩

theorem Mach.onlyCore_setCore (m : Mach) (c : Nat) (k : Core) : m.OnlyCore (m.setCore c k) c :=
  ⟨rfl, rfl, fun q hq => by rw [Mach.core_setCore, if_neg hq]⟩

theorem Mach.onlyCore_modCore (m : Mach) (c : Nat) (f : Core → Core) : m.OnlyCore (m.modCore c f) c := m.onlyCore_setCore c _

/-! ## A delivery taken from the mesh (R105) -/

/-- The core without a delivery in its holding buffer. -/
def Core.unhold (k : Core) (id : Nat) : Core := { k with hold := k.hold.filter (· != id) }

/-- The machine without a delivery, before what it held back is transmitted. -/
def Mach.without (m : Mach) (d : Delivery) : Mach :=
  { m.modCore d.dst (·.unhold d.id) with net := m.net.filter (·.id != d.id) }

theorem Mach.carried_dropDelivery (m : Mach) (d : Delivery) : (m.without d).Carried (m.dropDelivery d) :=
  ((m.without d).carried_charge d.part 8).trans (Mach.carried_transmit _ _)

theorem Mach.onlyCore_dropDelivery (m : Mach) (d : Delivery) : m.OnlyCore (m.dropDelivery d) d.dst :=
  have hwithout : m.OnlyCore (m.without d) d.dst := ⟨rfl, rfl, (m.onlyCore_modCore d.dst (·.unhold d.id)).core⟩
  hwithout.trans ((m.carried_dropDelivery d).onlyCore _)

theorem Mach.core_dropDelivery (m : Mach) (d : Delivery) : (m.dropDelivery d).core d.dst = (m.core d.dst).unhold d.id := by
  rw [(m.carried_dropDelivery d).core]
  exact (Mach.core_modCore m d.dst d.dst (·.unhold d.id)).trans (if_pos rfl)

theorem Mach.delivery_dropDelivery (m : Mach) (d : Delivery) : (m.dropDelivery d).delivery d.id = none := by
  refine List.find?_eq_none.mpr fun e he => ?_
  obtain ⟨e', he', hl⟩ := (m.carried_dropDelivery d).exists_of_mem he
  have hid : e.letter.id = e'.letter.id := congrArg Delivery.id hl
  change e.id = e'.id at hid
  have hne := (List.mem_filter.mp he').2
  rw [hid]
  simpa using hne

theorem Mach.net_dropDelivery {m : Mach} {d : Delivery} (h : m.net = [d]) : (m.dropDelivery d).net = [] :=
  (m.carried_dropDelivery d).net_nil (by simp [Mach.without, h])

/-! ## A fault goes to the thread set that runs its codelet (R186) -/

/-- Thread set `t` is the first of core `c` that runs the codelet `cid`, and follows no lead. -/
def Core.issuer (k : Core) (t cid : Nat) : Prop :=
  (k.tset t).busy = true ∧ (k.tset t).fol = false ∧ (k.tset t).cid = cid ∧ (List.range t).all (fun y => (k.tset y).cid != cid) = true

theorem Mach.deliverFault_issuer {m : Mach} {c t ts cid : Nat} (hmesh : c < 73728) (ht : t < 4) (h : (m.core c).issuer t cid)
    (r : FaultRec) : m.deliverFault c ts cid r =
      m.modCore c (·.modTs t fun s => { s with pend := s.pend ++ [{ r with async := true, time := wd m.clk }] }) := by
  obtain ⟨hb, hf, hid, hfirst⟩ := h
  have hhand : ¬handBase ≤ c := by rw [handBase]; omega
  have hfind : (List.range 4).find? (fun t => ((m.core c).tset t).busy && ((m.core c).tset t).cid == cid) = some t := by
    refine List.find?_range_eq_some.mpr ⟨by simp [hb, hid], List.mem_range.mpr ht, fun y hy => ?_⟩
    have := List.all_eq_true.mp hfirst y (List.mem_range.mpr hy)
    simp only [bne_iff_ne, ne_eq] at this
    simp [this]
  simp only [Mach.deliverFault, if_neg hhand, hfind, hf, Bool.false_eq_true, if_false]

/-- What a thread set has been told after a fault for it. -/
theorem Core.told_modTs {k : Core} {t : Nat} (ht : t < 4) (r : FaultRec) :
    ((((k.modTs t fun s => { s with pend := s.pend ++ [r] }).tset t).pend.drop (k.tset t).pend.length).map (·.cause.toNat)) =
      [r.cause.toNat] := by
  rw [Core.tset_modTs _ ht, if_pos rfl]
  simp

end Sys2Proof.Machine
end

section
/-! PROOF. The engines at work: streams, copies, jobs, overlay fetches and collectives (R79, R106, R107, R136, R137, R186, R204, R206, R207,
R213, R266, R297). -/

namespace Sys2Proof.Machine

open Sys2Proof

/-! ## The words of bytes at successive addresses -/

theorem bounds_of_mem_cellsAt {bs : List Byte} {a : Nat} {x : Nat × Byte} (h : x ∈ cellsAt a bs) : a ≤ x.1 ∧ x.1 < a + bs.length := by
  induction bs generalizing a with
  | nil => cases h
  | cons b bs ih =>
    rcases List.mem_cons.mp h with rfl | h
    · simp
    · have := ih h
      simp only [List.length_cons]
      omega

/-- The bytes of an aligned word whose sidecar holds no uncorrectable error may be written. -/
theorem Core.badWrite_word {k : Core} {ea : Nat} {bs : List Byte} (hal : ea % 8 = 0) (hlen : bs.length = 8) (hgood : k.badRead ea 8 = none) :
    k.badWrite (cellsAt ea bs) = none := by
  obtain ⟨w, rfl⟩ : ∃ w, ea = 8 * w := ⟨ea / 8, by omega⟩
  refine List.find?_eq_none.mpr fun w' hw' => ?_
  obtain ⟨x, hx, rfl⟩ := List.mem_map.mp (List.mem_eraseDups.mp hw')
  have hb := bounds_of_mem_cellsAt hx
  have hword : x.1 / 8 = w := by omega
  simp [hword, Core.ecc_of_badRead hgood]

/-! ## Streams (R106, R107) -/

/-- The slot of a stream engine's thread set after a change of it, with the registers as they were. -/
theorem Core.slot_modTs {k k' : Core} (hts : k'.ts = k.ts) {t i : Nat} (ht : t < 4) (hi : i < 8) (p : Slot) :
    ((k'.modTs t (·.setSlot i p)).tset t).slot i = p ∧ ((k'.modTs t (·.setSlot i p)).tset t).x = (k.tset t).x ∧
      ((k'.modTs t (·.setSlot i p)).tset t).v = (k.tset t).v := by
  have htset : k'.tset t = k.tset t := by rw [Core.tset, hts]; rfl
  rw [Core.tset_modTs _ ht, if_pos rfl, htset]
  exact ⟨vget_vset_same _ _ _ hi, rfl, rfl⟩

section
variable {m : Mach} {c t i ea : Nat}

/-- The next element of an affine input is read, and single-bit errors of its word are corrected. -/
theorem Mach.fillSlot_affine {p : Slot} (hp : ((m.core c).tset t).slot i = p) (hb : p.bnd = true) (hd : p.dir = false) (hk : p.kind = 0)
    (hf : p.fault = none) (hlen : p.fifo.length < 8) (hmore : p.moved < p.n0 * p.n1 * p.n2) (haddr : p.elemAt p.moved = ea)
    (hsize : p.esize = 8) (hal : ea % 8 = 0) (hin : ea + 8 ≤ 65536) (ha : m.admits c t ea 8 false = true) :
    ∃ sd n, m.fillSlot c t i = some (m.setCore c ((({ m.core c with side := sd, count := n } : Core).charge 4).modTs t
      (·.setSlot i { p with fifo := p.fifo ++ [BitVec.ofNat 128 ((m.core c).number ea 8)], moved := p.moved + 1 }))) := by
  obtain ⟨hg, hbad, -⟩ := admits_iff.mp ha
  obtain ⟨sd, n, hcorr⟩ := ((m.core c).corrected_correct ea 8).rest
  have hread : (m.core c).readElem ea 8 = .ok ((m.core c).number ea 8) := by
    have hneg : ¬((ea : Int) < 0 ∨ (65536 : Int) < (ea : Int) + (8 : Nat)) := by omega
    rw [Core.readElem]
    simp only [if_neg hneg, Int.toNat_natCast, hal, ne_eq, not_true_eq_false, if_false, hbad, Core.readN_eq_number]
  have hnext : (m.core c).nextElem p = some (.ok (BitVec.ofNat 128 ((m.core c).number ea 8), { p with moved := p.moved + 1 })) := by
    simp only [Core.nextElem, hk, if_neg (Nat.not_le.mpr hmore), haddr, hsize, hread]
  have hranges : (m.core c).fillRanges p = [(ea, 8)] := by
    simp [Core.fillRanges, hk, haddr, hsize]
  have hone : m.fillOne c t i p = some (.ok (BitVec.ofNat 128 ((m.core c).number ea 8), { p with moved := p.moved + 1 })) := by
    simp [Mach.fillOne, hnext, hranges, hg]
  refine ⟨sd, n, ?_⟩
  simp [Mach.fillSlot, hp, hb, hd, hk, hf, hlen, hone, hranges, hcorr]

/-- The oldest element of an affine output is stored. -/
theorem Mach.drainSlot_affine {p : Slot} {e : V128} (hp : ((m.core c).tset t).slot i = p) (hb : p.bnd = true) (hk : p.kind = 1)
    (hfifo : p.fifo = [e]) (haddr : p.elemAt p.moved = ea) (hsize : p.esize = 8) (hal : ea % 8 = 0)
    (hgood : (m.core c).badRead ea 8 = none) (hg : m.drainGate c t [ea / 8] = true) :
    m.drainSlot c t i = some (m.setCore c ((((m.core c).store (cellsAt ea (leBytes e.toNat 8))).charge 4).modTs t
      (·.setSlot i { p with fifo := [], moved := p.moved + 1, flt := false, fault := none }))) := by
  have hwords : p.drainWords = [ea / 8] := by
    have haddr' : ({ p with fifo := [e] } : Slot).elemAt p.moved = ea := haddr
    have hk' : ({ p with fifo := [e] } : Slot).kind = 1 := hk
    have hsize' : ({ p with fifo := [e] } : Slot).esize = 8 := hsize
    simp [Slot.drainWords, Slot.undrainedWords, hfifo, hk', haddr', hsize', hal, ceilDiv]
  have hcells : p.drainCells = cellsAt ea (leBytes e.toNat 8) := by simp [Slot.drainCells, hfifo, haddr, hsize]
  have hok : (m.core c).drainFault p = none := by
    rw [Core.drainFault, if_pos hk, hcells, Core.badWrite_word hal (length_leBytes _ _) hgood]
    rfl
  simp [Mach.drainSlot, hp, hfifo, hb, hk, hwords, hg, hok, hcells]

/-- The oldest element of an output to a neighbour leaves for its link buffer. -/
theorem Mach.drainSlot_link {p : Slot} {e : V128} {q : Nat} (hp : ((m.core c).tset t).slot i = p) (hb : p.bnd = true) (hd : p.dir = true)
    (hk : 7 ≤ p.kind) (hfifo : p.fifo = [e]) (hnet : m.net = []) (hq : m.neighbour c (p.kind - 7) = some q)
    (hroom : (vget (m.core q).link [] (m.linkBuffer c q (p.kind - 7))).length < 8) :
    m.drainSlot c t i = some ((m.setCore c ((m.core c).modTs t (·.setSlot i { p with fifo := [] }))).post c t q
      (.element (m.linkBuffer c q (p.kind - 7)) (p.kind - 7) e) none) := by
  have hpass : m.passElem c t i = some ((m.setCore c ((m.core c).modTs t (·.setSlot i { p with fifo := [] }))).post c t q
      (.element (m.linkBuffer c q (p.kind - 7)) (p.kind - 7) e) none) := by
    simp [Mach.passElem, hp, hfifo, Slot.linkDir, hq, hnet, hroom]
  have h1 : p.kind ≠ 1 := by omega
  have h2 : p.kind ≠ 2 := by omega
  simp [Mach.drainSlot, hp, hfifo, hb, h1, h2, hk, hd, hpass]

end

/-- What a delivery carries and between whom, of those under way in a mesh that held none before. -/
theorem Mach.net_post {m : Mach} (hn : m.net = []) (src ts dst : Nat) (body : Payload) :
    (m.post src ts dst body none).net.map (fun d => (d.src, d.dst, d.body)) = [(src, dst, body)] := by
  obtain ⟨d, rfl, rfl, rfl, hd⟩ := m.carried_post src ts dst body none false false [] none true
  have hl := congrArg (List.map fun d : Delivery => (d.src, d.dst, d.body)) hd.letters
  simpa [hn, Function.comp_def, Delivery.letter] using hl

/-! ## Copies (R137, R204) -/

/-- Bytes at the watermark of a channel raise it past them. -/
theorem Chan.fill_at_mark {ch : Chan} {a n : Nat} (hf : ch.flt = false) (hr : ch.filled = []) (hw : ch.wm.toNat = a) (hn : 0 < n) :
    ch.fill a n = { ch with left := ch.left - n, busy := ch.left - n != 0 || ch.todo != 0, wm := BitVec.ofNat 16 (a + n), filled := [] } := by
  simp [Chan.fill, hf, hr, hw, raiseMark, hn]

section
variable {m : Mach} {c i ea due : Nat} {d : Delivery} {v : Move}
  (hd : m.delivery d.id = some d) (hfly : d.phase = .flying due) (hdue : due ≤ m.clk)
include hd hfly hdue

/-- Bytes pushed for a copy are stored, and its channel takes note. -/
theorem Mach.copyPush_stores {bs : List Byte} (hbody : d.body = .push v bs) (hkind : v.kind = .copy c i ea)
    (hheld : m.heldRange c ea bs.length = false) (hprot : (m.core c).protectedCells (cellsAt ea bs) = none)
    (hmark : ((((m.core c).channel i).fill ea bs.length).wm == (((m.core c).channel i).fill ea bs.length).limit) = false) (hi : i < 4) :
    m.copyPush d.id = some ((m.dropDelivery d).modCore c fun q =>
      { (((m.core c).store (cellsAt ea bs)).charge 4).modChan i (·.fill ea bs.length) with hold := q.hold.filter (· != d.id) }) := by
  obtain ⟨_, _, hst⟩ := (m.core c).store_rest (cellsAt ea bs)
  have hchan : ((((m.core c).store (cellsAt ea bs)).charge 4).modChan i (·.fill ea bs.length)).channel i =
      ((m.core c).channel i).fill ea bs.length := by
    rw [hst]
    exact vget_vset_same _ _ _ hi
  simp only [Mach.copyPush, hd, hbody, hfly, hkind, hheld, hprot, if_neg (Nat.not_lt.mpr hdue), hchan, hmark, Bool.and_false,
    Bool.false_eq_true, if_false]

/-- A move of a copy that failed marks its channel and is told to the issuer. -/
theorem Mach.copyFault_fails {f : Byte} (hbody : d.body = .moveFault v f) (hkind : v.kind = .copy c i ea) :
    m.copyFault d.id = some ((m.dropDelivery d).failCopy c i v.len f (farAddr v.addr)) := by
  simp only [Mach.copyFault, hd, hbody, hfly, hkind, if_neg (Nat.not_lt.mpr hdue)]

end

/-- A channel after its first fault (R137). -/
def Chan.failed (ch : Chan) (len : Nat) (f : Byte) (addr : Word) : Chan :=
  { ch with left := ch.left - len, busy := ch.left - len != 0 || ch.todo != 0, flt := true, fault := some (f, addr) }

/-- The first fault of a channel goes to the thread set that runs its codelet. -/
theorem Mach.failCopy_issuer {m : Mach} {c t i : Nat} (hmesh : c < 73728) (ht : t < 4)
    (hflt : ((m.core c).channel i).flt = false) (h : (m.core c).issuer t ((m.core c).channel i).cid) (len : Nat) (f : Byte) (addr : Word) :
    ∃ r : FaultRec, r.cause = 0x24 ∧ m.OnlyCore (m.failCopy c i len f addr) c ∧ (m.failCopy c i len f addr).net = m.net ∧
      (m.failCopy c i len f addr).core c = ((m.core c).modChan i fun _ => ((m.core c).channel i).failed len f addr).modTs t fun s =>
        { s with pend := s.pend ++ [r] } := by
  let m' := m.modCore c (·.modChan i fun _ => ((m.core c).channel i).failed len f addr)
  let r : FaultRec := { (((m.core c).channel i).failed len f addr).faultRec i with
    pc := ((m.core c).channel i).pc, priv := BitVec.ofNat 2 ((m.core c).channel i).priv.code }
  have hk : m'.core c = (m.core c).modChan i fun _ => ((m.core c).channel i).failed len f addr := by rw [Mach.core_modCore, if_pos rfl]
  have hfail : m.failCopy c i len f addr = m'.deliverFault c ((m.core c).channel i).ts ((m.core c).channel i).cid r := by
    simp only [Mach.failCopy, hflt, Bool.not_false, if_true]
    rfl
  rw [hfail, Mach.deliverFault_issuer hmesh ht (by rw [hk]; exact h)]
  refine ⟨{ r with async := true, time := wd m'.clk }, rfl, (m.onlyCore_modCore c _).trans (m'.onlyCore_modCore c _), rfl, ?_⟩
  rw [Mach.core_modCore, if_pos rfl, hk]

/-! ## Jobs (R136, R206, R207, R297) -/

section
variable {m : Mach} {c : Nat} {j : Job} (hj : (m.core c).jobs = [j])
include hj

/-- A queued local copy starts; it takes a cycle for each 8 bytes. -/
theorem Mach.jobStart_copy (hs : m.coreStarts c = true) (hq : j.phase = .queued) (hk : j.kind = 0) :
    m.jobStart c j.uid = some ((m.modCore c (·.charge 4)).modJob c j.uid fun q =>
      { q with phase := .running (some (m.clk + fld (j.word 5) 47 32 / 8)) }) := by
  have hnext : j.nextElem = none := by simp [Job.nextElem, hk]
  have hready : m.jobReady c [] j = true := by simp [Mach.jobReady, hq, hk]
  have hstart : m.startJob c j = (m.modCore c (·.charge 4)).modJob c j.uid fun q =>
      { q with phase := .running (some (m.clk + fld (j.word 5) 47 32 / 8)) } := by
    simp only [Mach.startJob, Job.class_, hk]
    rfl
  simp [Mach.jobStart, hj, hs, hnext, Mach.pickJob, hready, hq, hstart]

/-- A local copy at its end writes its bytes, raises its counter and leaves the queue. -/
theorem Mach.jobComplete_copy {due ea : Nat} (hk : j.kind = 0) (hrun : j.phase = .running (some due)) (hdue : due ≤ m.clk)
    (hdst : fld (j.word 5) 31 16 = ea) (hgood : (m.core c).badRead (fld (j.word 5) 15 0) (fld (j.word 5) 47 32) = none)
    (hheld : m.heldRange c ea (fld (j.word 5) 47 32) = false)
    (hprot : (m.core c).protectedCells (cellsAt ea ((m.core c).mem.bytes (fld (j.word 5) 15 0) (fld (j.word 5) 47 32))) = none) :
    ∃ sd n, m.jobComplete c j.uid = some (m.modCore c fun _ =>
      let k : Core := { m.core c with
        mem := ((m.core c).poke (cellsAt ea ((m.core c).mem.bytes (fld (j.word 5) 15 0) (fld (j.word 5) 47 32)))).mem, side := sd, count := n }
      { (if bit (j.word 0) 59 then k.bump (fld (j.word 0) 58 53) 1 else k) with jobs := [] }) := by
  obtain ⟨_, _, hcorr⟩ := ((m.core c).corrected_correct (fld (j.word 5) 15 0) (fld (j.word 5) 47 32)).rest
  obtain ⟨sd, n, hst⟩ := ((m.core c).correct (fld (j.word 5) 15 0) (fld (j.word 5) 47 32)).store_rest
    (cellsAt ea ((m.core c).mem.bytes (fld (j.word 5) 15 0) (fld (j.word 5) 47 32)))
  have hwrites : (m.core c).jobWrites j = .ok (ea, (m.core c).mem.bytes (fld (j.word 5) 15 0) (fld (j.word 5) 47 32)) := by
    simp only [Core.jobWrites, hk, hgood, hdst]
  refine ⟨sd, n, ?_⟩
  simp only [Mach.jobComplete, hj, List.find?_cons, beq_self_eq_true, hrun, if_neg (Nat.not_lt.mpr hdue), hwrites, Memory.length_bytes, hheld,
    hprot, Bool.false_eq_true, if_false, Mach.modCore, hk, if_true, hst]
  rw [hcorr]
  cases bit (j.word 0) 59 <;> simp [Core.bump, hj, Core.poke]

/-- A faulted job is told to the thread set that runs its codelet, and leaves the queue. -/
theorem Mach.jobFault_issuer {t : Nat} {f : Byte} (hmesh : c < 73728) (ht : t < 4) (hf : j.phase = .faulted f 0 0 0 0)
    (h : (m.core c).issuer t j.cid) : ∃ (r : FaultRec) (m' : Mach), r.cause = 0x25 ∧ m.jobFault c j.uid = some m' ∧ m.OnlyCore m' c ∧
      m'.core c = ({ m.core c with jobs := [] } : Core).modTs t fun s => { s with pend := s.pend ++ [r] } := by
  let m' := m.modCore c fun k => { k with jobs := k.jobs.filter (·.uid != j.uid) }
  let r : FaultRec :=
    { faultOf Cause.jobFault with
      inner := f, index := j.num, pc := j.pc, priv := BitVec.ofNat 2 j.priv.code
      mask := if j.kind = 1 then j.complete ||| j.word 7 else 0 }
  have hcore : m'.core c = { m.core c with jobs := [] } := by
    rw [Mach.core_modCore, if_pos rfl, hj]
    simp
  have hfault : m.jobFault c j.uid = some (m'.deliverFault c j.ts j.cid r) := by
    simp only [Mach.jobFault, hj, List.find?_cons, beq_self_eq_true, hf]
    rfl
  refine ⟨{ r with async := true, time := wd m'.clk }, _, rfl, hfault, ?_, ?_⟩ <;>
    rw [Mach.deliverFault_issuer hmesh ht (by rw [hcore]; exact h)]
  · exact (m.onlyCore_modCore c _).trans (m'.onlyCore_modCore c _)
  · rw [Mach.core_modCore, if_pos rfl, hcore]

end

end Sys2Proof.Machine
end

section
/-! PROOF. Overlay fetches and collectives at their ends, and O48 from the engines' lemmas (R79, R82, R127, R213, R266). -/

namespace Sys2Proof.Machine

open Sys2Proof

/-! ## Overlay fetches (R82, R127, R213) -/

/-- Bytes cleared read as 0. -/
theorem Memory.byte_clear {m : Memory} {a n x : Nat} (h : a ≤ x ∧ x < a + n) : (m.clear a n).byte x = 0 := by
  have hfind : Map.find (m.clear a n) x = none := by
    unfold Memory.clear
    induction m with
    | nil => rfl
    | cons e m ih =>
      rw [List.filter_cons]
      split
      · next hout =>
        have hne : x ≠ e.1 := by rintro rfl; simp [h] at hout
        rw [Map.find, if_neg hne, ih]
      · exact ih
  rw [Memory.byte, Map.get, hfind]
  rfl

/-- The first bytes of a segment fill its slot, with zeros after them. -/
theorem Core.byte_fillSlot {k : Core} {g : Nat} (hgot : (k.slot g).got = 0) (bs : List Byte) (last : Bool) {x : Nat} (hx : x < 1024) :
    (k.fillSlot g bs last).imem.byte (1024 * g + x) = (bs.take 1024).getD x 0 := by
  simp only [Core.fillSlot, hgot, if_true, Nat.add_zero, Nat.sub_zero]
  rw [Memory.byte_pokes, Nat.add_sub_cancel_left]
  split
  · rfl
  · next hout =>
    rw [Memory.byte_clear (by omega), List.getD_eq_default]
    omega

section
variable {m : Mach} {c g due : Nat} {d : Delivery} {v : Move} (hnet : m.net = [d]) (hfly : d.phase = .flying due) (hdue : due ≤ m.clk)
include hnet hfly hdue

/-- A segment has come. -/
theorem Mach.overlayDone_fills {bs : List Byte} (hbody : d.body = .push v bs) (hkind : v.kind = .fetch c g false) :
    m.overlayDone c g = some ((m.dropDelivery d).modCore c (·.fillSlot g bs (bs.length == v.len))) := by
  simp [Mach.overlayDone, hnet, hbody, hfly, hkind, hdue]

/-- An overlay fetch has failed. -/
theorem Mach.overlayDone_fails {f : Byte} {dir : Bool} (hbody : d.body = .moveFault v f) (hkind : v.kind = .fetch c g dir) :
    m.overlayDone c g = some ((m.dropDelivery d).modCore c (·.modSlot g fun o =>
      { o with st := .empty, flt := true, cause := if f = 0x12 then 2 else 1 })) := by
  simp [Mach.overlayDone, hnet, hbody, hfly, hkind, hdue]
  rfl

end

/-! ## Collectives (R266) -/

section
variable {m : Mach} {q n : Nat} {r : CastRound} (hrounds : (m.part q).rounds = [r]) (hcast : r.cast = n)
include hrounds hcast

/-- A round whose only member, its root, has joined ends with the root's contribution as its result. -/
theorem Mach.castRound_alone {c form : Nat} {x : Contribution} (hmembers : ((m.part q).cast n).members = [c])
    (hlost : ((m.part q).cast n).lostAt = []) (hroot : ((m.part q).cast n).root = some c) (hfault : r.fault = none)
    (hvalue : r.value = none) (hform : r.form = some (0, form)) (hjoined : r.joined = [c]) (hparts : r.parts = [x]) (hx : x.core = c)
    (htree : m.treeAt n c = 0xE000) :
    m.castRound q n = some ((m.modJob c x.job fun j =>
      { j with result := x.src, phase := .running (some (m.clk + 4)) }).modPart q fun p => { p with rounds := [] }) := by
  have hlive : ((m.part q).cast n).live = [c] := by simp [Cast.live, hmembers, hlost]
  have hall : (m.part q).allJoined r = true := by simp [Partition.allJoined, hcast, hlive, hjoined]
  have hdue : (m.part q).roundDue r = true := by simp [Partition.roundDue, hfault, hall, hform]
  have hplace : ((m.part q).cast n).ry.toNat * 512 + ((m.part q).cast n).rx.toNat = c := by
    unfold Cast.root meshCore at hroot
    split at hroot
    · exact Option.some.inj hroot
    · cases hroot
  have hhops : hops c c = 0 := by simp [hops, dist]
  have hbits : bit (0xE000 : BitVec 16) 9 = false ∧ bit (0xE000 : BitVec 16) 10 = false ∧ bit (0xE000 : BitVec 16) 11 = false ∧
      bit (0xE000 : BitVec 16) 12 = false := by decide
  obtain ⟨h9, h10, h11, h12⟩ := hbits
  have hvals : Map.find (r.parts.foldl (fun (v : Map (List Word)) x => Map.set v x.core x.src) []) c = some x.src := by
    rw [hparts, List.foldl_cons, List.foldl_nil, Map.find_set, if_pos hx.symm]
  have hres : m.combine n 0 (r.parts.foldl (fun (v : Map (List Word)) x => Map.set v x.core x.src) []) 1024
      ((m.part q).cast n).rx.toNat ((m.part q).cast n).ry.toNat = some x.src := by
    rw [Mach.combine]
    simp only [hplace, htree, h9, h10, h11, h12, Bool.false_eq_true, if_false, List.foldl_cons, List.foldl_nil, hvals]
    rfl
  have hfind : (m.part q).rounds.find? (fun r => r.cast == n && (m.part q).roundDue r) = some r := by
    rw [hrounds, List.find?_cons, hdue]
    simp [hcast]
  have hform' : (r.form.map (·.1)).getD 0 = 0 := by rw [hform]; rfl
  simp only [Mach.castRound, hfind, hfault, hvalue, hform', hres, hroot, Option.getD_some]
  simp only [hparts, List.foldl_cons, List.foldl_nil, hx, hhops, Nat.add_zero]
  have hpart (f : Job → Job) : (m.modJob c x.job f).part q = m.part q := rfl
  simp only [Mach.modPart, hpart, hall, if_true, hrounds]
  simp

/-- A round that waits for one of its two members too long carries the fault of the member that is missing. -/
theorem Mach.collectiveTimeout_one {c e first : Nat} (hmembers : ((m.part q).cast n).members = [c, e])
    (hlost : ((m.part q).cast n).lostAt = []) (hfault : r.fault = none) (hjoined : r.joined = [c]) (hne : e ≠ c)
    (hfirst : r.first = some first) (hlate : first + 2 ^ 20 ≤ m.clk) :
    m.collectiveTimeout q n = some (m.modPart q fun p => { p with rounds := [{ r with fault := some (0x27, 1) }] }) := by
  have hlive : ((m.part q).cast n).live = [c, e] := by simp [Cast.live, hmembers, hlost]
  have hout : (m.part q).allJoined r = false := by simp [Partition.allJoined, hcast, hlive, hjoined, hne]
  have hlate' : (r.first.any fun f => f + 2 ^ 20 ≤ m.clk) = true := by
    rw [hfirst, Option.any_some]
    exact decide_eq_true hlate
  have hmissing : ((m.part q).cast n).live.filter (!r.joined.contains ·) = [e] := by simp [hlive, hjoined, hne]
  have hfind : (m.part q).rounds.find? (fun r => r.cast == n && r.fault.isNone && !(m.part q).allJoined r &&
      r.first.any fun f => f + 2 ^ 20 ≤ m.clk) = some r := by
    rw [hrounds, List.find?_cons_of_pos]
    simp only [hcast, hfault, hout, hlate', beq_self_eq_true, Option.isNone_none, Bool.not_false, Bool.and_self]
  simp only [Mach.collectiveTimeout, hfind, hmissing]
  simp only [Mach.modPart, hrounds, List.map_cons, List.map_nil, beq_self_eq_true, Bool.and_self, if_true]
  rfl

end

end Sys2Proof.Machine
end

section
/-! PROOF. What each engine's event leaves, and O48 from it. -/

namespace Sys2Proof.Machine

open Sys2Proof

/-- An event that happens. -/
theorem event_of_some {f : Mach → Option Mach} {s : State} {m : Mach} (h : f s.mach = some m) :
    event (fun m => (f m).getD m) s = .next { s with mach := m } := by rw [event, h]; rfl

/-- The core after a change of it alone. -/
theorem Mach.core_setCore_same (m : Mach) (c : Nat) (k : Core) : (m.setCore c k).core c = k := (m.core_setCore c c k).trans (if_pos rfl)

theorem Mach.core_modCore_same (m : Mach) (c : Nat) (f : Core → Core) : (m.modCore c f).core c = f (m.core c) := m.core_setCore_same c _

/-- Core `k'` holds the elements `l` in slot `i` of thread set `t`, of which the hardware has moved so many, and is else as `k`. -/
def Core.FifoOf (k k' : Core) (t i : Nat) (l : List V128) (moved : Nat) : Prop :=
  ((k'.tset t).slot i).fifo = l ∧ ((k'.tset t).slot i).moved = moved ∧ ((k'.tset t).slot i).pos = ((k.tset t).slot i).pos ∧
    (k'.tset t).x = (k.tset t).x ∧ (k'.tset t).v = (k.tset t).v

/-- The bytes `bs` stand at `a` of core `k'`, and around them those of `k`. -/
def Core.BytesAt (k k' : Core) (a : Nat) (bs : List Byte) : Prop :=
  ∀ x, k'.mem.byte x = if a ≤ x ∧ x < a + bs.length then bs.getD (x - a) 0 else k.mem.byte x

section
variable {m : Mach} {c t i ea : Nat} (ht : t < 4) (hi : i < 8)
include ht hi

theorem Core.fifoOf_modTs {k k' : Core} (hts : k'.ts = k.ts) {p : Slot} (hpos : p.pos = ((k.tset t).slot i).pos) :
    k.FifoOf (k'.modTs t (·.setSlot i p)) t i p.fifo p.moved := by
  obtain ⟨hslot, hx, hv⟩ := Core.slot_modTs hts ht hi p
  exact ⟨congrArg _ hslot, congrArg _ hslot, (congrArg _ hslot).trans hpos, hx, hv⟩

/-- STREAM_FILL of an affine input. -/
theorem Mach.streamFills {p : Slot} (hp : ((m.core c).tset t).slot i = p) (hb : p.bnd = true) (hd : p.dir = false) (hk : p.kind = 0)
    (hf : p.fault = none) (hlen : p.fifo.length < 8) (hmore : p.moved < p.n0 * p.n1 * p.n2) (haddr : p.elemAt p.moved = ea)
    (hsize : p.esize = 8) (hal : ea % 8 = 0) (hin : ea + 8 ≤ 65536) (ha : m.admits c t ea 8 false = true) :
    ∃ m', m.fillSlot c t i = some m' ∧ m.OnlyCore m' c ∧
      (m.core c).FifoOf (m'.core c) t i (p.fifo ++ [BitVec.ofNat 128 ((m.core c).number ea 8)]) (p.moved + 1) ∧
      (m'.core c).mem = (m.core c).mem := by
  obtain ⟨sd, n, h⟩ := Mach.fillSlot_affine hp hb hd hk hf hlen hmore haddr hsize hal hin ha
  refine ⟨_, h, m.onlyCore_setCore c _, ?_, ?_⟩ <;> rw [Mach.core_setCore_same]
  · exact Core.fifoOf_modTs (k := m.core c) (k' := ({ m.core c with side := sd, count := n } : Core).charge 4) ht hi rfl (by rw [hp])
  · rfl

/-- STREAM_DRAIN of an affine output. -/
theorem Mach.streamDrains {p : Slot} {e : V128} (hp : ((m.core c).tset t).slot i = p) (hb : p.bnd = true) (hk : p.kind = 1)
    (hfifo : p.fifo = [e]) (haddr : p.elemAt p.moved = ea) (hsize : p.esize = 8) (hal : ea % 8 = 0)
    (hgood : (m.core c).badRead ea 8 = none) (hg : m.drainGate c t [ea / 8] = true) :
    ∃ m', m.drainSlot c t i = some m' ∧ m.OnlyCore m' c ∧ (m.core c).FifoOf (m'.core c) t i [] (p.moved + 1) ∧
      (m.core c).BytesAt (m'.core c) ea (leBytes e.toNat 8) := by
  obtain ⟨_, _, hst⟩ := (m.core c).store_rest (cellsAt ea (leBytes e.toNat 8))
  refine ⟨_, Mach.drainSlot_affine hp hb hk hfifo haddr hsize hal hgood hg, m.onlyCore_setCore c _, ?_, fun x => ?_⟩ <;>
    rw [Mach.core_setCore_same]
  · exact Core.fifoOf_modTs (k := m.core c) ht hi (by rw [hst]; rfl) (by rw [hp])
  · exact Core.byte_store_cellsAt _ _ _ _

/-- STREAM_DRAIN of an output to a neighbour. -/
theorem Mach.streamPasses {p : Slot} {e : V128} {q : Nat} (hp : ((m.core c).tset t).slot i = p) (hb : p.bnd = true) (hd : p.dir = true)
    (hk : 7 ≤ p.kind) (hfifo : p.fifo = [e]) (hnet : m.net = []) (hq : m.neighbour c (p.kind - 7) = some q)
    (hroom : (vget (m.core q).link [] (m.linkBuffer c q (p.kind - 7))).length < 8) :
    ∃ m', m.drainSlot c t i = some m' ∧ (m.core c).FifoOf (m'.core c) t i [] p.moved ∧
      m'.net.map (fun d => (d.src, d.dst, d.body)) = [(c, q, .element (m.linkBuffer c q (p.kind - 7)) (p.kind - 7) e)] := by
  refine ⟨_, Mach.drainSlot_link hp hb hd hk hfifo hnet hq hroom, ?_, Mach.net_post (m := m.setCore c _) hnet c t q _⟩
  obtain ⟨_, -, -, -, hpost⟩ := (m.setCore c ((m.core c).modTs t (·.setSlot i { p with fifo := [] }))).carried_post c t q
    (.element (m.linkBuffer c q (p.kind - 7)) (p.kind - 7) e) none false false [] none true
  rw [(hpost.core c).trans (Mach.core_setCore_same _ _ _)]
  exact Core.fifoOf_modTs (k := m.core c) ht hi rfl (by rw [hp])

end

/-! ## Copies, jobs and overlay fetches -/

section
variable {m : Mach} {i ea due : Nat} {d : Delivery} {v : Move}
  (hd : m.delivery d.id = some d) (hfly : d.phase = .flying due) (hdue : due ≤ m.clk) (hi : i < 4)
include hd hfly hdue hi

/-- COPY_PUSH at the watermark of a channel that is not filled by it. -/
theorem Mach.copyPushes {bs : List Byte} (hbody : d.body = .push v bs) (hkind : v.kind = .copy d.dst i ea)
    (hheld : m.heldRange d.dst ea bs.length = false) (hprot : (m.core d.dst).protectedCells (cellsAt ea bs) = none)
    (hflt : ((m.core d.dst).channel i).flt = false) (hfilled : ((m.core d.dst).channel i).filled = [])
    (hmark : ((m.core d.dst).channel i).wm.toNat = ea) (hbs : bs ≠ []) (hlt : ea + bs.length < 65536)
    (hlimit : ((m.core d.dst).channel i).limit.toNat ≠ ea + bs.length) :
    ∃ m', m.copyPush d.id = some m' ∧ m.OnlyCore m' d.dst ∧ (m.core d.dst).BytesAt (m'.core d.dst) ea bs ∧ m'.delivery d.id = none ∧
      ((m'.core d.dst).channel i).wm.toNat = ea + bs.length ∧
      ((m'.core d.dst).channel i).left = ((m.core d.dst).channel i).left - bs.length ∧
      (m'.core d.dst).mb = (m.core d.dst).mb ∧ (m'.core d.dst).ts = (m.core d.dst).ts := by
  have hfill := Chan.fill_at_mark hflt hfilled hmark (List.length_pos_iff.mpr hbs)
  have hwm : (BitVec.ofNat 16 (ea + bs.length)).toNat = ea + bs.length := by
    rw [BitVec.toNat_ofNat, Nat.mod_eq_of_lt (by omega)]
  have hpush := Mach.copyPush_stores hd hfly hdue hbody hkind hheld hprot (by
    rw [hfill]
    refine beq_false_of_ne fun h => hlimit ?_
    rw [← hwm]
    exact (congrArg BitVec.toNat h).symm) hi
  obtain ⟨_, _, hst⟩ := (m.core d.dst).store_rest (cellsAt ea bs)
  have hchan : ((((m.core d.dst).store (cellsAt ea bs)).charge 4).modChan i (·.fill ea bs.length)).channel i =
      ((m.core d.dst).channel i).fill ea bs.length := by
    rw [hst]
    exact vget_vset_same _ _ _ hi
  refine ⟨_, hpush, (m.onlyCore_dropDelivery d).trans (Mach.onlyCore_modCore _ _ _), fun x => ?_, m.delivery_dropDelivery d, ?_, ?_, ?_, ?_⟩
    <;> rw [Mach.core_modCore_same]
  · exact Core.byte_store_cellsAt _ _ _ _
  · exact (congrArg (fun ch : Chan => ch.wm.toNat) (hchan.trans hfill)).trans hwm
  · exact congrArg Chan.left (hchan.trans hfill)
  · rw [hst]
    rfl
  · rw [hst]
    rfl

/-- COPY_FAULT, the first of its channel. -/
theorem Mach.copyFaults {t : Nat} {f : Byte} (hmesh : d.dst < 73728) (ht : t < 4) (hbody : d.body = .moveFault v f)
    (hkind : v.kind = .copy d.dst i ea) (hflt : ((m.core d.dst).channel i).flt = false)
    (h : (m.core d.dst).issuer t ((m.core d.dst).channel i).cid) :
    ∃ m', m.copyFault d.id = some m' ∧ m.OnlyCore m' d.dst ∧ m'.delivery d.id = none ∧ ((m'.core d.dst).channel i).flt = true ∧
      ((m'.core d.dst).channel i).wm = ((m.core d.dst).channel i).wm ∧
      ((((m'.core d.dst).tset t).pend.drop ((m.core d.dst).tset t).pend.length).map (·.cause.toNat)) = [0x24] ∧
      (m'.core d.dst).mem = (m.core d.dst).mem := by
  have hcore := m.core_dropDelivery d
  obtain ⟨r, hr, honly, hnet, hk⟩ := Mach.failCopy_issuer (m := m.dropDelivery d) hmesh ht (i := i) (by rw [hcore]; exact hflt)
    (by rw [hcore]; exact h) v.len f (farAddr v.addr)
  rw [hcore] at hk
  have hchan : ((((m.core d.dst).unhold d.id).modChan i fun _ => (((m.core d.dst).unhold d.id).channel i).failed v.len f (farAddr v.addr)).channel
      i) = ((m.core d.dst).channel i).failed v.len f (farAddr v.addr) := vget_vset_same _ _ _ hi
  refine ⟨_, Mach.copyFault_fails hd hfly hdue hbody hkind, (m.onlyCore_dropDelivery d).trans honly, ?_, ?_, ?_, ?_, ?_⟩
  · rw [Mach.delivery, hnet]
    exact m.delivery_dropDelivery d
  all_goals rw [hk]
  · exact (congrArg Chan.flt hchan).trans rfl
  · exact (congrArg Chan.wm hchan).trans rfl
  · have htold := Core.told_modTs (k := ((m.core d.dst).unhold d.id).modChan i fun _ =>
      (((m.core d.dst).unhold d.id).channel i).failed v.len f (farAddr v.addr)) ht r
    rw [hr] at htold
    exact htold
  · rfl

end

section
variable {m : Mach} {c : Nat} {j : Job} (hj : (m.core c).jobs = [j])
include hj

/-- The only job of a core, changed. -/
theorem Mach.jobs_modJob (f : Job → Job) : ((m.modJob c j.uid f).core c).jobs = [f j] := by
  rw [Mach.modJob, Mach.core_modCore_same]
  simp [hj]

/-- JOB_START of a local copy. -/
theorem Mach.jobStarts (hs : m.coreStarts c = true) (hq : j.phase = .queued) (hk : j.kind = 0) :
    ∃ m', m.jobStart c j.uid = some m' ∧ m.OnlyCore m' c ∧
      (m'.core c).jobs = [{ j with phase := .running (some (m.clk + fld (j.word 5) 47 32 / 8)) }] ∧ (m'.core c).mem = (m.core c).mem := by
  refine ⟨_, Mach.jobStart_copy hj hs hq hk, (m.onlyCore_modCore c _).trans (Mach.onlyCore_modCore _ _ _), ?_, ?_⟩ <;>
    rw [Mach.modJob, Mach.core_modCore_same, Mach.core_modCore_same]
  · simp [Core.charge, hj]
  · rfl

/-- JOB_COMPLETE of a local copy. -/
theorem Mach.jobCompletes {due ea : Nat} (hk : j.kind = 0) (hrun : j.phase = .running (some due)) (hdue : due ≤ m.clk)
    (hdst : fld (j.word 5) 31 16 = ea) (hgood : (m.core c).badRead (fld (j.word 5) 15 0) (fld (j.word 5) 47 32) = none)
    (hheld : m.heldRange c ea (fld (j.word 5) 47 32) = false)
    (hprot : (m.core c).protectedCells (cellsAt ea ((m.core c).mem.bytes (fld (j.word 5) 15 0) (fld (j.word 5) 47 32))) = none) :
    ∃ m', m.jobComplete c j.uid = some m' ∧ m.OnlyCore m' c ∧ (m'.core c).jobs = [] ∧
      (m.core c).BytesAt (m'.core c) ea ((m.core c).mem.bytes (fld (j.word 5) 15 0) (fld (j.word 5) 47 32)) ∧
      (m'.core c).ts = (m.core c).ts ∧
      ((j.word 0).getLsbD 59 = true → vget (m'.core c).mb 0 (fld (j.word 0) 58 53) = vget (m.core c).mb 0 (fld (j.word 0) 58 53) + 1) ∧
      ((j.word 0).getLsbD 59 = false → (m'.core c).mb = (m.core c).mb) := by
  obtain ⟨sd, n, h⟩ := Mach.jobComplete_copy hj hk hrun hdue hdst hgood hheld hprot
  have hmb : fld (j.word 0) 58 53 < 64 := Nat.mod_lt _ (by decide)
  have hbyte (x : Nat) := (m.core c).byte_store_cellsAt ea ((m.core c).mem.bytes (fld (j.word 5) 15 0) (fld (j.word 5) 47 32)) x
  simp only [Core.mem_store] at hbyte
  rw [bit_eq_getLsbD] at h
  refine ⟨_, h, m.onlyCore_modCore c _, ?_, fun x => ?_, ?_, fun hb => ?_, fun hb => ?_⟩ <;> rw [Mach.core_modCore_same]
  · cases (j.word 0).getLsbD 59 <;> exact hbyte x
  · cases (j.word 0).getLsbD 59 <;> rfl
  · rw [hb]
    exact vget_vset_same _ _ _ hmb
  · rw [hb]
    rfl

end

section
variable {m : Mach} {g due : Nat} {d : Delivery} {v : Move} (hnet : m.net = [d]) (hfly : d.phase = .flying due) (hdue : due ≤ m.clk)
  (hg : g < 16)
include hnet hfly hdue hg

/-- OVERLAY_FETCH_DONE, when the whole segment has come at once. -/
theorem Mach.overlayFills {bs : List Byte} (hbody : d.body = .push v bs) (hkind : v.kind = .fetch d.dst g false) (hlen : bs.length = v.len)
    (hgot : ((m.core d.dst).slot g).got = 0) : ∃ m', m.overlayDone d.dst g = some m' ∧ m.OnlyCore m' d.dst ∧ m'.net = [] ∧
      ((m'.core d.dst).slot g).st = .valid ∧ ((m'.core d.dst).slot g).flt = false ∧ (m'.core d.dst).ts = (m.core d.dst).ts ∧
      ∀ x < 1024, (m'.core d.dst).imem.byte (1024 * g + x) = (bs.take 1024).getD x 0 := by
  refine ⟨_, Mach.overlayDone_fills hnet hfly hdue hbody hkind, (m.onlyCore_dropDelivery d).trans (Mach.onlyCore_modCore _ _ _),
    Mach.net_dropDelivery hnet, ?_, ?_, ?_, fun x hx => ?_⟩ <;> rw [Mach.core_modCore_same, Mach.core_dropDelivery, hlen, beq_self_eq_true]
  · exact congrArg Overlay.st (vget_vset_same _ _ _ hg)
  · exact congrArg Overlay.flt (vget_vset_same _ _ _ hg)
  · rfl
  · exact Core.byte_fillSlot (k := (m.core d.dst).unhold d.id) hgot bs _ hx

/-- OVERLAY_FETCH_DONE, when the fetch has failed. -/
theorem Mach.overlayFails {f : Byte} {dir : Bool} (hbody : d.body = .moveFault v f) (hkind : v.kind = .fetch d.dst g dir) :
    ∃ m', m.overlayDone d.dst g = some m' ∧ m.OnlyCore m' d.dst ∧ m'.net = [] ∧ ((m'.core d.dst).slot g).st = .empty ∧
      ((m'.core d.dst).slot g).flt = true ∧ ((m'.core d.dst).slot g).cause = (if f = 0x12 then 2 else 1) ∧
      (m'.core d.dst).imem = (m.core d.dst).imem := by
  refine ⟨_, Mach.overlayDone_fails hnet hfly hdue hbody hkind, (m.onlyCore_dropDelivery d).trans (Mach.onlyCore_modCore _ _ _),
    Mach.net_dropDelivery hnet, ?_, ?_, ?_, ?_⟩ <;> rw [Mach.core_modCore_same, Mach.core_dropDelivery]
  · exact congrArg Overlay.st (Core.slot_modSlot _ hg _)
  · exact congrArg Overlay.flt (Core.slot_modSlot _ hg _)
  · exact congrArg Overlay.cause (Core.slot_modSlot _ hg _)
  · rfl

end

end Sys2Proof.Machine

open Sys2Proof Sys2Proof.Machine

/-- Settles O48: each engine's event by its own lemma, and the frame by what an event of one core and the mesh can change. -/
theorem enginesWork : Obligations.EnginesWork := by
  intro s c t i id ea due q x n j d bs v f r e hmesh ht hi
  have named (h : s.mach.delivery id = some d) : d.id = id := by simpa using List.find?_some h
  dsimp only
  refine ⟨?fill, ?drain, ?link, ?push, ?copyFault, ?start, ?complete, ?fault, ?segment, ?noSegment, ?round, ?timeout⟩
  case fill =>
    rintro ⟨hb, hd, hk, -, hf, -, hlen, hmore, haddr, hsize, hal, hin, ha⟩
    obtain ⟨m', h, honly, hfifo, hmem⟩ := Mach.streamFills ht hi rfl hb hd hk hf hlen hmore haddr hsize hal hin ha
    exact ⟨_, event_of_some (f := (·.fillSlot c t i)) h, ⟨honly.parts, honly.clk, honly.core q⟩, hfifo, hmem⟩
  case drain =>
    rintro ⟨hb, -, hk, hfifo, haddr, hsize, hal, -, hgood, hg⟩
    obtain ⟨m', h, honly, hfifo, hbytes⟩ := Mach.streamDrains ht hi rfl hb hk hfifo haddr hsize hal (Option.isNone_iff_eq_none.mp hgood) hg
    exact ⟨_, event_of_some (f := (·.drainSlot c t i)) h, ⟨honly.parts, honly.clk, honly.core q⟩, hfifo, hbytes x⟩
  case link =>
    rintro ⟨hb, hd, hk, -, hfifo, hnet, hq, -, hroom⟩
    obtain ⟨m', h, hfifo, hpass⟩ := Mach.streamPasses ht hi rfl hb hd hk hfifo hnet hq hroom
    exact ⟨_, event_of_some (f := (·.drainSlot c t i)) h, hfifo, hpass⟩
  case push =>
    rintro ⟨⟨hdel, hbody, hfly, hdue, rfl⟩, hkind, hi4, hheld, hprot, hflt, hfilled, hmark, hbs, hlt, hlimit⟩
    obtain rfl := named hdel
    obtain ⟨m', h, honly, hbytes, hgone, hwm, hleft, hmb, hts⟩ := Mach.copyPushes hdel hfly hdue hi4 hbody hkind hheld
      (Option.isNone_iff_eq_none.mp hprot) hflt hfilled hmark hbs hlt hlimit
    exact ⟨_, event_of_some (f := (·.copyPush d.id)) h, ⟨honly.parts, honly.clk, honly.core q⟩, hbytes x, hgone, hwm, hleft, hmb, hts⟩
  case copyFault =>
    rintro ⟨⟨hdel, hbody, hfly, hdue, rfl⟩, hkind, hi4, hflt, hcid, -, hbusy, hfol, hfirst⟩
    obtain rfl := named hdel
    obtain ⟨m', h, honly, hgone, hflt', hwm, htold, hmem⟩ := Mach.copyFaults hdel hfly hdue hi4 hmesh ht hbody hkind hflt
      (by rw [hcid]; exact ⟨hbusy, hfol, rfl, hfirst⟩)
    exact ⟨_, event_of_some (f := (·.copyFault d.id)) h, ⟨honly.parts, honly.clk, honly.core q⟩, hgone, hflt', hwm, htold, hmem⟩
  case start =>
    rintro ⟨hj, hs, hq, hk⟩
    obtain ⟨m', h, honly, hjobs, hmem⟩ := Mach.jobStarts hj hs hq hk
    exact ⟨_, event_of_some (f := (·.jobStart c j.uid)) h, ⟨honly.parts, honly.clk, honly.core q⟩, hjobs, hmem⟩
  case complete =>
    rintro ⟨hj, hk, hrun, hdue, hdst, rfl, hgood, hheld, hprot⟩
    have hsrc : (j.word 5).toNat % 2 ^ 16 = fld (j.word 5) 15 0 := by simp [fld]
    rw [hsrc] at hgood hprot ⊢
    obtain ⟨m', h, honly, hjobs, hbytes, hts, hmb, hmb'⟩ := Mach.jobCompletes hj hk hrun hdue hdst (Option.isNone_iff_eq_none.mp hgood) hheld
      (Option.isNone_iff_eq_none.mp hprot)
    exact ⟨_, event_of_some (f := (·.jobComplete c j.uid)) h, ⟨honly.parts, honly.clk, honly.core q⟩, hjobs, hbytes x, hts, hmb, hmb'⟩
  case fault =>
    rintro ⟨hj, hf, -, hcid, hbusy, hfol, hfirst⟩
    obtain ⟨r, m', hr, h, honly, hcore⟩ := Mach.jobFault_issuer hj hmesh ht hf (by rw [hcid]; exact ⟨hbusy, hfol, rfl, hfirst⟩)
    have htold := Core.told_modTs (k := { s.mach.core c with jobs := [] }) ht r
    rw [hr, ← hcore] at htold
    exact ⟨_, event_of_some (f := (·.jobFault c j.uid)) h, ⟨honly.parts, honly.clk, honly.core q⟩, congrArg Core.jobs hcore, htold,
      (congrArg Core.mb hcore).trans rfl, (congrArg Core.mem hcore).trans rfl⟩
  case segment =>
    rintro ⟨hnet, ⟨-, hbody, hfly, hdue, rfl⟩, hkind, hlen, hgot⟩
    obtain ⟨m', h, honly, hnone, hst, hflt, hts, himem⟩ := Mach.overlayFills hnet hfly hdue (by omega) hbody hkind hlen hgot
    exact ⟨_, event_of_some (f := (·.overlayDone d.dst i)) h, ⟨honly.parts, honly.clk, honly.core q⟩, hnone, hst, hflt, hts, himem x⟩
  case noSegment =>
    rintro ⟨hnet, ⟨-, hbody, hfly, hdue, rfl⟩, hkind⟩
    obtain ⟨m', h, honly, hrest⟩ := Mach.overlayFails hnet hfly hdue (by omega) hbody hkind
    exact ⟨_, event_of_some (f := (·.overlayDone d.dst i)) h, ⟨honly.parts, honly.clk, honly.core q⟩, hrest⟩
  case round =>
    rintro ⟨⟨hrounds, hcast⟩, hj, hmembers, hlost, hroot, hfault, hvalue, hform, hjoined, hparts, htree⟩
    have h := Mach.castRound_alone hrounds hcast hmembers hlost hroot hfault hvalue hform hjoined hparts rfl htree
    refine ⟨_, event_of_some (f := (·.castRound (s.mach.core c).part.toNat n)) h, ?_, ?_⟩
    · dsimp only
      rw [Mach.part_modPart _ (s.mach.core c).part.isLt, if_pos rfl]
    · exact Mach.jobs_modJob hj _
  case timeout =>
    rintro ⟨⟨hrounds, hcast⟩, hmembers, hlost, hfault, hjoined, hne, hfirst, hlate⟩
    have h := Mach.collectiveTimeout_one hrounds hcast hmembers hlost hfault hjoined hne hfirst hlate
    refine ⟨_, event_of_some (f := (·.collectiveTimeout (s.mach.core c).part.toNat n)) h, rfl, ?_⟩
    dsimp only
    rw [Mach.part_modPart _ (s.mach.core c).part.isLt, if_pos rfl]
end

section
/-! PROOF. What a slice switch does to the partitions that it suspends and resumes: it changes cores, stagehands and what is under way in the
mesh, and of the partitions their state (R273, R303, R304, R312). -/

namespace Sys2Proof.Machine

open Sys2Proof

/-- `m'` differs from `m` in cores, stagehands, gang rounds and what is under way in the mesh alone. -/
structure Mach.Keeps (m m' : Mach) : Prop where
  rest : ∃ cores hands routers net parts nextId rounds, m' =
    { m with cores := cores, hands := hands, routers := routers, net := net, parts := parts, nextId := nextId, rounds := rounds }
  parts : m'.parts.map Partition.calm = m.parts.map Partition.calm

namespace Mach.Keeps

theorem refl (m : Mach) : m.Keeps m := ⟨⟨m.cores, m.hands, m.routers, m.net, m.parts, m.nextId, m.rounds, rfl⟩, rfl⟩

theorem trans {m m' m'' : Mach} (h : m.Keeps m') (h' : m'.Keeps m'') : m.Keeps m'' := by
  obtain ⟨⟨_, _, _, _, _, _, _, rfl⟩, hp⟩ := h
  obtain ⟨⟨cores, hands, routers, net, parts, nextId, rounds, rfl⟩, hp'⟩ := h'
  exact ⟨⟨cores, hands, routers, net, parts, nextId, rounds, rfl⟩, hp'.trans hp⟩

theorem foldl {α : Type} {f : Mach → α → Mach} (hf : ∀ (m : Mach) (a : α), m.Keeps (f m a)) (l : List α) (m : Mach) :
    m.Keeps (l.foldl f m) := by
  induction l generalizing m with
  | nil => exact refl m
  | cons a l ih => exact (hf m a).trans (ih _)

theorem modCore (m : Mach) (c : Nat) (f : Core → Core) : m.Keeps (m.modCore c f) :=
  ⟨⟨_, m.hands, m.routers, m.net, m.parts, m.nextId, m.rounds, rfl⟩, rfl⟩

theorem modHand (m : Mach) (s : Nat) (f : Stagehand → Stagehand) : m.Keeps (m.modHand s f) :=
  ⟨⟨m.cores, _, m.routers, m.net, m.parts, m.nextId, m.rounds, rfl⟩, rfl⟩

theorem of_carried {m m' : Mach} (h : m.Carried m') : m.Keeps m' := by
  obtain ⟨⟨net, parts, routers, rfl⟩, -, hp⟩ := h
  exact ⟨⟨m.cores, m.hands, routers, net, parts, m.nextId, m.rounds, rfl⟩, hp⟩

theorem event (m : Mach) (c : Nat) (r : FaultRec) (ts : Option Nat) : m.Keeps (m.event c r ts) := modCore m c _

theorem runtimeEvent (m : Mach) (q : Nat) (r : FaultRec) (ts : Option Nat) : m.Keeps (m.runtimeEvent q r ts) := by
  unfold Mach.runtimeEvent
  split
  · exact event m _ r ts
  · exact refl m

theorem post (m : Mach) (src ts dst : Nat) (body : Payload) (win : Option Nat) (own : Bool) :
    m.Keeps (m.post src ts dst body win own) := by
  obtain ⟨d, -, -, -, h⟩ := m.carried_post src ts dst body win own false [] none true
  exact (show m.Keeps { m with net := m.net ++ [d], nextId := m.nextId + 1 } from
    ⟨⟨m.cores, m.hands, m.routers, _, m.parts, _, m.rounds, rfl⟩, rfl⟩).trans (of_carried h)

/-- A partition is as it was but for the record of who has worked for it. -/
theorem calm {m m' : Mach} (h : m.Keeps m') (q : Nat) : (m'.part q).calm = (m.part q).calm := by
  have hq := congrArg (fun v => vget v (Partition.calm {}) q) h.parts
  simp only [vget, Vector.getElem?_map, Option.getD_map] at hq
  exact hq

end Mach.Keeps

/-! ## Suspension (R304) -/

theorem Mach.keeps_sendJoin {m m' : Mach} {c t : Nat} {j : Word} {flt : Bool} (h : m.sendJoin c t j flt = some m') : m.Keeps m' := by
  unfold Mach.sendJoin at h
  split at h
  · cases h
    exact .refl m
  · split at h
    · cases h
      exact .event m _ _ _
    · split at h
      · cases h
        exact .post m _ _ _ _ _ _
      · cases h

theorem Mach.keeps_killEnd (m : Mach) (c t : Nat) (j : Word) (r : FaultRec) : m.Keeps (m.killEnd c t j r) := by
  unfold Mach.killEnd
  extract_lets s stay m'
  have hstay (m : Mach) (l : Bool) : m.Keeps (stay m l) := .modCore m c _
  have hleft : m.Keeps m' := by
    unfold m'
    split
    · exact .modCore m c _
    · exact .refl m
  split
  · exact hstay m true
  · split
    · exact hleft.trans (hstay m' false)
    · next hjoin => exact hleft.trans ((Mach.keeps_sendJoin hjoin).trans ((Keeps.event _ _ _ _).trans (.modCore _ _ _)))

theorem Mach.keeps_killJoin (m : Mach) (c t : Nat) (j : Word) (r : FaultRec) : m.Keeps (m.killJoin c t j r) := by
  unfold Mach.killJoin
  extract_lets m₁ m₂ m₃ desc m₄
  have h₁ : m.Keeps m₁ := .foldl (fun m q => .modCore m q _) _ m
  have h₂ : m₁.Keeps m₂ := by
    unfold m₂ Mach.freeFollowers
    split
    · exact (Keeps.foldl (fun m q => .modCore m q _) _ m₁).trans (.modCore _ _ _)
    · exact .refl m₁
  have h₃ : m₂.Keeps m₃ := by
    unfold m₃ Mach.cutRounds
    split
    · exact ⟨⟨_, _, _, _, _, _, _, rfl⟩, rfl⟩
    · exact .refl m₂
  exact ((h₁.trans h₂).trans h₃).trans ((Keeps.modCore m₃ c _).trans (m₄.keeps_killEnd c t j _))

theorem Mach.keeps_kill (m : Mach) (c t : Nat) (r : FaultRec) : m.Keeps (m.kill c t r) :=
  (Keeps.modCore m c _).trans (Mach.keeps_killJoin _ c t _ r)

theorem Mach.keeps_killUnread (m : Mach) (c t : Nat) : m.Keeps (m.killUnread c t) := by
  unfold Mach.killUnread
  dsimp only
  split
  · exact .modCore m c _
  · split
    · exact m.keeps_kill _ _ _
    · exact .refl m

theorem Mach.keeps_farWrite {m m' : Mach} {q a : Nat} {bs : List Byte} {fuel : Nat} (h : m.farWrite q a bs fuel = .ok m') : m.Keeps m' := by
  induction fuel generalizing m a bs with
  | zero =>
    cases h
    exact .refl _
  | succ fuel ih =>
    rw [Mach.farWrite] at h
    split at h
    · cases h
      exact .refl _
    · dsimp only at h
      split at h
      · split at h
        · exact (Keeps.modHand m _ _).trans (ih h)
        · cases h
      · split at h
        · exact (Keeps.modHand m _ _).trans (ih h)
        · cases h
      all_goals cases h

theorem Mach.keeps_farTry (q a : Nat) (bs : List Byte) (s : Mach × Option Nat) : s.1.Keeps (Mach.farTry q a bs s).1 := by
  unfold Mach.farTry
  split
  · next h => exact Mach.keeps_farWrite h
  · exact .refl s.1

theorem Mach.keeps_saveAll (m : Mach) (q : Nat) : m.Keeps (m.saveAll q).1 := by
  unfold Mach.saveAll
  extract_lets cs save m'
  split
  · exact .refl m
  · have hkill : m.Keeps m' := Keeps.foldl (fun m c => .foldl (fun m t => m.keeps_killUnread c t) _ m) _ m
    refine hkill.trans ?_
    generalize cs.zipIdx = l
    have hsave (s : Mach × Option Nat) : s.1.Keeps (l.foldl (fun s ci =>
        let k := s.1.core ci.1
        Mach.farTry q (save + 8192 * cs.length + 4096 * ci.2) k.savedFifos
          (Mach.farTry q (save + 8192 * ci.2) (k.saved (s.1.part q) s.1.clk) s)) s).1 := by
      induction l generalizing s with
      | nil => exact .refl s.1
      | cons ci l ih => exact ((Mach.keeps_farTry _ _ _ _).trans (Mach.keeps_farTry _ _ _ _)).trans (ih _)
    exact hsave (m', none)

/-- A suspension marks the partition, and keeps every other. -/
theorem Mach.suspendNow_keeps (m : Mach) (q : Nat) : ∃ m', m.Keeps m' ∧
    (m'.modPart q fun p => { p with st := .suspended, stopping := false, stopped := m.clk }).Keeps (m.suspendNow q) := by
  refine ⟨(m.saveAll q).1, m.keeps_saveAll q, ?_⟩
  unfold Mach.suspendNow
  split
  next m' bad heq =>
  rw [heq]
  dsimp only
  split
  · exact .refl _
  · exact .event _ _ _ _

/-! ## Resumption (R304) -/

theorem Mach.keeps_deliverFault (m : Mach) (c ts cid : Nat) (r : FaultRec) : m.Keeps (m.deliverFault c ts cid r) := by
  unfold Mach.deliverFault
  dsimp only
  split
  · exact .refl m
  · split
    · split <;> exact .modCore m _ _
    · split
      · exact .modCore m _ _
      · exact .event m _ _ _

theorem Mach.keeps_unrestored (m : Mach) (c a t : Nat) : m.Keeps (m.unrestored c a t) := by
  unfold Mach.unrestored
  dsimp only
  split
  · exact m.keeps_deliverFault _ _ _ _
  · exact .refl m

theorem Mach.keeps_restoreCore (m : Mach) (q n c i : Nat) : m.Keeps (m.restoreCore q n c i) := by
  unfold Mach.restoreCore
  extract_lets save core fifo shared m'
  have hsets : m.Keeps m' := by
    refine Keeps.foldl (fun m t => ?_) _ m
    split
    · exact .modCore m _ _
    · exact m.keeps_unrestored _ _ _
    · exact m.keeps_unrestored _ _ _
  split
  · exact hsets.trans (.modCore _ _ _)
  · exact hsets.trans (.foldl (fun m t => m.keeps_unrestored _ _ _) _ _)

/-- A resumption marks the partition as running, and keeps every other. -/
theorem Mach.resumeNow_keeps (m : Mach) (q : Nat) : ∃ (m' : Mach) (f : Partition → Partition), m.Keeps m' ∧
    m.resumeNow q = m'.modPart q f ∧ ∀ p, (f p).st = .running ∧ (f p).rtx = p.rtx ∧ (f p).rty = p.rty := by
  let n := m.clk - (m.part q).stopped
  let cs := m.liveCores q
  let m₁ := cs.foldl (fun m c => m.modCore c (·.shifted n)) m
  let m₂ := if (m₁.part q).launch.save = 0 then m₁ else cs.zipIdx.foldl (fun m ci => m.restoreCore q cs.length ci.1 ci.2) m₁
  let m₃ := (m₂.part q).hands.foldl (fun m s => m.modHand s (·.shifted q n m.clk)) m₂
  have h₁ : m.Keeps m₁ := .foldl (fun m c => .modCore m c _) _ m
  have h₂ : m₁.Keeps m₂ := by
    unfold m₂
    split
    · exact .refl m₁
    · exact .foldl (fun m ci => m.keeps_restoreCore _ _ _ _) _ m₁
  have h₃ : m₂.Keeps m₃ := .foldl (fun m s => .modHand m s _) _ m₂
  exact ⟨m₃, fun p => { p with st := .running, curtain := p.curtain.map fun k => { k with first := k.first.map (· + n) } },
    (h₁.trans h₂).trans h₃, rfl, fun p => ⟨rfl, rfl, rfl⟩⟩

end Sys2Proof.Machine
end

section
/-! PROOF. An energy update charges a running partition for what it did in the period, whatever it charges the others (R138, R344). -/

namespace Sys2Proof.Machine

open Sys2Proof

/-- `m'` differs from `m` in cores and partitions alone, and its partitions stand on the cores on which they stood. -/
structure Mach.Billed (m m' : Mach) : Prop where
  rest : ∃ cores parts, m' = { m with cores := cores, parts := parts }
  rect : ∀ o, (m'.part o).rect = (m.part o).rect

namespace Mach.Billed

theorem refl (m : Mach) : m.Billed m := ⟨⟨m.cores, m.parts, rfl⟩, fun _ => rfl⟩

theorem trans {m m' m'' : Mach} (h : m.Billed m') (h' : m'.Billed m'') : m.Billed m'' := by
  obtain ⟨⟨_, _, rfl⟩, hr⟩ := h
  obtain ⟨⟨cores, parts, rfl⟩, hr'⟩ := h'
  exact ⟨⟨cores, parts, rfl⟩, fun o => (hr' o).trans (hr o)⟩

theorem modCore (m : Mach) (c : Nat) (f : Core → Core) : m.Billed (m.modCore c f) := ⟨⟨_, m.parts, rfl⟩, fun _ => rfl⟩

theorem modPart (m : Mach) (q : Nat) {f : Partition → Partition} (hf : ∀ p, (f p).rect = p.rect) : m.Billed (m.modPart q f) := by
  refine ⟨⟨m.cores, _, rfl⟩, fun o => ?_⟩
  by_cases hq : q < 16
  · rw [Mach.part_modPart m hq]
    split
    · subst_vars
      exact hf _
    · rfl
  · rw [Mach.modPart, vset_out _ _ (Nat.not_lt.mp hq)]

theorem foldl {α : Type} {f : Mach → α → Mach} (hf : ∀ (m : Mach) (a : α), m.Billed (f m a)) (l : List α) (m : Mach) :
    m.Billed (l.foldl f m) := by
  induction l generalizing m with
  | nil => exact refl m
  | cons a l ih => exact (hf m a).trans (ih _)

theorem liveCores {m m' : Mach} (h : m.Billed m') (o : Nat) : m'.liveCores o = m.liveCores o := by
  obtain ⟨⟨_, _, rfl⟩, hr⟩ := h
  simp only [Mach.liveCores, hr o]
  rfl

end Mach.Billed

/-- `m'` leaves partition `q`, and what its cores have noted of their activity, as they are in `m`. -/
structure Mach.Aside (q : Nat) (m m' : Mach) : Prop where
  billed : m.Billed m'
  part : m'.part q = m.part q
  work : ∀ c ∈ m.liveCores q, (m'.core c).active = (m.core c).active ∧ (m'.core c).idled = (m.core c).idled

namespace Mach.Aside

variable {q : Nat}

theorem refl (m : Mach) : m.Aside q m := ⟨.refl m, rfl, fun _ _ => ⟨rfl, rfl⟩⟩

theorem trans {m m' m'' : Mach} (h : m.Aside q m') (h' : m'.Aside q m'') : m.Aside q m'' := by
  refine ⟨h.billed.trans h'.billed, h'.part.trans h.part, fun c hc => ?_⟩
  obtain ⟨ha, hi⟩ := h.work c hc
  obtain ⟨ha', hi'⟩ := h'.work c (h.billed.liveCores q ▸ hc)
  exact ⟨ha'.trans ha, hi'.trans hi⟩

theorem modPart (m : Mach) {o : Nat} (ho : o ≠ q) (ho16 : o < 16) {f : Partition → Partition} (hf : ∀ p, (f p).rect = p.rect) :
    m.Aside q (m.modPart o f) :=
  ⟨.modPart m o hf, by rw [Mach.part_modPart m ho16, if_neg (Ne.symm ho)], fun _ _ => ⟨rfl, rfl⟩⟩

theorem event (m : Mach) (o : Nat) (r : FaultRec) (ts : Option Nat) : m.Aside q (m.runtimeEvent o r ts) := by
  have hevents := m.eventsOnly_runtimeEvent o r ts
  have hbilled : m.Billed (m.runtimeEvent o r ts) := by
    unfold Mach.runtimeEvent
    split
    · exact .modCore m _ _
    · exact .refl m
  refine ⟨hbilled, ?_, fun c _ => ?_⟩
  · unfold Mach.runtimeEvent
    split <;> rfl
  · obtain ⟨_, hc⟩ := hevents c
    rw [hc]
    exact ⟨rfl, rfl⟩

/-- The classes in which a partition was active, the cycles that its cores idled, and so what it is charged. -/
theorem energyIn {m m' : Mach} (h : m.Aside q m') : m'.activeIn q = m.activeIn q ∧ m'.idleCycles q = m.idleCycles q ∧
    ∀ n, m'.energyIn q n = m.energyIn q n := by
  have hactive : m'.activeIn q = m.activeIn q := by
    unfold Mach.activeIn
    rw [h.part, h.billed.liveCores q]
    exact List.foldl_ext _ _ _ fun a c hc => by rw [(h.work c hc).1]
  have hidle : m'.idleCycles q = m.idleCycles q := by
    unfold Mach.idleCycles
    rw [h.billed.liveCores q]
    exact List.foldl_ext _ _ _ fun a c hc => by rw [(h.work c hc).2]
  have hweights : m'.weights = m.weights := by
    obtain ⟨⟨_, _, rfl⟩, -⟩ := h.billed
    rfl
  refine ⟨hactive, hidle, fun n => funext fun c => ?_⟩
  unfold Mach.energyIn
  rw [hactive, hidle, hweights]

end Mach.Aside

/-! ## One partition's update -/

/-- A core whose activity is noted anew. -/
def Core.anew (k : Core) : Core := { k with active := 0, idled := 0 }

/-- Noting a core's activity anew where it has any. -/
def Mach.renew (m : Mach) (c : Nat) : Mach := if (m.core c).active = 0 && (m.core c).idled = 0 then m else m.modCore c Core.anew

theorem Mach.newPeriod_eq (m : Mach) (q : Nat) :
    m.newPeriod q = (m.liveCores q).foldl Mach.renew (m.modPart q fun p => { p with active := 0 }) := rfl

theorem Mach.part_foldl_renew (q : Nat) (l : List Nat) (m : Mach) : (l.foldl Mach.renew m).part q = m.part q := by
  induction l generalizing m with
  | nil => rfl
  | cons c l ih =>
    refine (ih _).trans ?_
    unfold Mach.renew
    split <;> rfl

theorem Mach.billed_renew (m : Mach) (c : Nat) : m.Billed (m.renew c) := by
  unfold Mach.renew
  split
  · exact .refl m
  · exact .modCore m c _

theorem Mach.core_renew_other (m : Mach) {c d : Nat} (h : d ≠ c) : (m.renew c).core d = m.core d := by
  unfold Mach.renew
  split
  · rfl
  · rw [Mach.core_modCore, if_neg h]

/-- Renewing the cores of one list, those of none of which is `d`, leaves `d` alone. -/
theorem Mach.core_foldl_renew_other {l : List Nat} {d : Nat} (h : d ∉ l) (m : Mach) : (l.foldl Mach.renew m).core d = m.core d := by
  induction l generalizing m with
  | nil => rfl
  | cons c l ih =>
    rw [List.mem_cons, not_or] at h
    exact (ih h.2 _).trans (m.core_renew_other h.1)

/-- A core with nothing noted. -/
def Core.Fresh (k : Core) : Prop := k.active = 0 ∧ k.idled = 0

theorem Mach.fresh_renew (m : Mach) (c : Nat) : ((m.renew c).core c).Fresh := by
  unfold Mach.renew
  split
  · next h => simpa only [Core.Fresh, Bool.and_eq_true, decide_eq_true_eq] using h
  · rw [Mach.core_modCore_same]
    exact ⟨rfl, rfl⟩

theorem Mach.fresh_foldl_renew {l : List Nat} {d : Nat} (m : Mach) (h : d ∈ l ∨ (m.core d).Fresh) : ((l.foldl Mach.renew m).core d).Fresh := by
  induction l generalizing m with
  | nil => simpa using h
  | cons c l ih =>
    refine ih _ ?_
    by_cases hd : d = c
    · exact .inr (hd ▸ m.fresh_renew c)
    · rw [m.core_renew_other hd]
      simpa [hd] using h

/-- The allotment and the threshold with which an energy update leaves a partition (R138). -/
def Mach.remAfter (m : Mach) (q n : Nat) : BitVec 63 × BitVec 63 :=
  ((m.part q).allotted m.clk).getD (BitVec.ofNat 63 ((m.part q).rem.toNat - m.energySum q n), (m.part q).warn)

/-- A partition after its energy update (R138). -/
def Mach.chargedPart (m : Mach) (q n : Nat) (p : Partition) : Partition :=
  { p with
    energy := Vector.ofFn fun c => vget (m.part q).energy 0 c.val + wd (m.energyIn q n c.val)
    rem := (m.remAfter q n).1
    warn := (m.remAfter q n).2
    low := decide ((m.remAfter q n).1.toNat < (m.remAfter q n).2.toNat)
    pending := (m.part q).pending.filter (m.clk ≤ ·.1) }

theorem Mach.energyOf_eq (m : Mach) (q n : Nat) : m.energyOf q n =
    if decide ((m.remAfter q n).1.toNat < (m.remAfter q n).2.toNat) && !(m.part q).low &&
      ((m.part q).st == .running || (m.part q).st == .suspended) then ((m.newPeriod q).modPart q (m.chargedPart q n)).energyLow q
    else (m.newPeriod q).modPart q (m.chargedPart q n) := rfl

/-- What follows the charging of a partition tells its runtime core at most. -/
theorem Mach.aside_energyOf_charged (m : Mach) (q n o : Nat) :
    ((m.newPeriod q).modPart q (m.chargedPart q n)).Aside o (m.energyOf q n) := by
  rw [Mach.energyOf_eq]
  split
  · exact .event _ _ _ _
  · exact .refl _

theorem Mach.billed_newPeriod (m : Mach) (q : Nat) : m.Billed (m.newPeriod q) :=
  (Billed.modPart m q (f := fun p => { p with active := 0 }) fun _ => rfl).trans (.foldl Mach.billed_renew _ _)

/-- The update of a partition on other cores leaves `q` as it is. -/
theorem Mach.aside_energyOf {m : Mach} {q o : Nat} (n : Nat) (ho : o ≠ q) (ho16 : o < 16)
    (hapart : ∀ c ∈ m.liveCores q, c ∉ m.liveCores o) : m.Aside q (m.energyOf o n) := by
  have hnew : m.Aside q (m.newPeriod o) := by
    refine ⟨m.billed_newPeriod o, ?_, fun c hc => ?_⟩
    · rw [Mach.newPeriod_eq, Mach.part_foldl_renew, Mach.part_modPart m ho16, if_neg (Ne.symm ho)]
    · rw [Mach.newPeriod_eq, Mach.core_foldl_renew_other (hapart c hc)]
      exact ⟨rfl, rfl⟩
  exact (hnew.trans (.modPart _ ho ho16 (f := m.chargedPart o n) fun _ => rfl)).trans (m.aside_energyOf_charged o n q)

/-- So do the updates of several such. -/
theorem Mach.aside_foldl_energyOf {l : List Nat} {q : Nat} (n : Nat) (m : Mach)
    (h : ∀ o ∈ l, o ≠ q ∧ o < 16 ∧ ∀ c ∈ m.liveCores q, c ∉ m.liveCores o) : m.Aside q (l.foldl (fun m o => m.energyOf o n) m) := by
  induction l generalizing m with
  | nil => exact .refl m
  | cons o l ih =>
    obtain ⟨⟨ho, ho16, hapart⟩, hl⟩ := List.forall_mem_cons.mp h
    have hfirst : m.Aside q (m.energyOf o n) := Mach.aside_energyOf n ho ho16 hapart
    refine hfirst.trans (ih _ fun o' ho' => ?_)
    rw [hfirst.billed.liveCores q, hfirst.billed.liveCores o']
    exact hl o' ho'

/-- What an energy update makes of partition `q` and of the activity noted at its cores. -/
structure Mach.Charges (q n : Nat) (m m' : Mach) : Prop where
  billed : m.Billed m'
  part : m'.part q = m.chargedPart q n { m.part q with active := 0 }
  fresh : ∀ c ∈ m.liveCores q, (m'.core c).Fresh

theorem Mach.charges_energyOf (m : Mach) {q : Nat} (hq : q < 16) (n : Nat) : m.Charges q n (m.energyOf q n) := by
  obtain ⟨hbilled, hpart, hwork⟩ := m.aside_energyOf_charged q n q
  have hnew : m.Billed ((m.newPeriod q).modPart q (m.chargedPart q n)) := (m.billed_newPeriod q).trans (.modPart _ _ fun _ => rfl)
  refine ⟨hnew.trans hbilled, ?_, fun c hc => ?_⟩
  · rw [hpart, Mach.part_modPart _ hq, if_pos rfl, Mach.newPeriod_eq, Mach.part_foldl_renew, Mach.part_modPart m hq, if_pos rfl]
  · obtain ⟨ha, hi⟩ := hwork c (hnew.liveCores q ▸ hc)
    obtain ⟨ha', hi'⟩ : ((m.newPeriod q).core c).Fresh := Mach.fresh_foldl_renew _ (.inl hc)
    exact ⟨ha.trans ha', hi.trans hi'⟩

theorem Mach.Charges.of_aside {q n : Nat} {m m₁ m₂ m₃ : Mach} (h : m.Aside q m₁) (h' : m₁.Charges q n m₂) (h'' : m₂.Aside q m₃) :
    m.Charges q n m₃ := by
  obtain ⟨-, -, hin⟩ := h.energyIn
  have hclk : m₁.clk = m.clk := by
    obtain ⟨⟨_, _, rfl⟩, -⟩ := h.billed
    rfl
  have hsame : m₁.chargedPart q n = m.chargedPart q n := by
    unfold Mach.chargedPart Mach.remAfter Mach.energySum
    rw [hin n, hclk, h.part]
  refine ⟨(h.billed.trans h'.billed).trans h''.billed, ?_, fun c hc => ?_⟩
  · rw [h''.part, h'.part, hsame, h.part]
  · rw [← h.billed.liveCores q] at hc
    obtain ⟨ha, hi⟩ := h''.work c (h'.billed.liveCores q ▸ hc)
    obtain ⟨ha', hi'⟩ := h'.fresh c hc
    exact ⟨ha.trans ha', hi.trans hi'⟩

/-- A list splits around any member of it that stands in it once. -/
theorem range_split {q k : Nat} (h : q < k) : ∃ l l', List.range k = l ++ q :: l' ∧ ∀ o, o ∈ l ∨ o ∈ l' → o ≠ q ∧ o < k := by
  obtain ⟨l, l', hsplit⟩ := List.append_of_mem (List.mem_range.mpr h)
  refine ⟨l, l', hsplit, fun o ho => ⟨?_, List.mem_range.mp (hsplit ▸ by simpa using ho.imp_right .inr)⟩⟩
  have hnodup : (l ++ q :: l').Nodup := hsplit ▸ List.nodup_range
  rintro rfl
  exact (List.nodup_middle.mp hnodup).notMem (List.mem_append.mpr ho)

/-- The energy update charges a partition that shares no core with another. -/
theorem Mach.energyUpdate_charges {m : Mach} {q : Nat} (hq : q < 16) (hclk : 65536 * (m.energyPeriod + 1) ≤ m.clk)
    (hapart : ∀ o < 16, o ≠ q → ∀ c ∈ m.liveCores q, c ∉ m.liveCores o) : ∃ m' charged,
      m.energyUpdate = some { m' with energyPeriod := m.energyPeriod + 1, charged := charged } ∧ m.Charges q (m.energyPeriod + 1) m' := by
  refine ⟨_, _, if_pos hclk, ?_⟩
  obtain ⟨l, l', hsplit, hother⟩ := range_split hq
  rw [hsplit, List.foldl_append, List.foldl_cons]
  have hbefore : m.Aside q _ := Mach.aside_foldl_energyOf (l := l) (m.energyPeriod + 1) m fun o ho => by
    obtain ⟨hne, ho16⟩ := hother o (.inl ho)
    exact ⟨hne, ho16, hapart o ho16 hne⟩
  have hmine := Mach.charges_energyOf (l.foldl (fun m' o => m'.energyOf o (m.energyPeriod + 1)) m) hq (m.energyPeriod + 1)
  have hbilled : m.Billed _ := hbefore.billed.trans hmine.billed
  refine .of_aside hbefore hmine (Mach.aside_foldl_energyOf (l := l') (m.energyPeriod + 1) _ fun o ho => ?_)
  obtain ⟨hne, ho16⟩ := hother o (.inr ho)
  rw [hbilled.liveCores q, hbilled.liveCores o]
  exact ⟨hne, ho16, hapart o ho16 hne⟩

end Sys2Proof.Machine
end

section
/-! PROOF. The ends of a budget and of a power period, and the go instant of a launch (R139, R295, R345). -/

namespace Sys2Proof.Machine

open Sys2Proof

/-! ## Budgets and power -/

/-- The machine in which every USED count has returned to 0 (R139). -/
def Mach.unspent (m : Mach) : Mach :=
  { m with
    budgetPeriod := m.budgetPeriod + 1
    hands := m.hands.map fun e => (e.1, { e.2 with used := [], served := [] })
    routers := m.routers.map fun e => (e.1, { e.2 with used := [] }) }

theorem Mach.budgetUpdate_due {m : Mach} (h : 65536 * (m.budgetPeriod + 1) ≤ m.clk) : m.budgetUpdate = some m.unspent := if_pos h

theorem Mach.hand_unspent (m : Mach) (i : Nat) : m.unspent.hand i = { m.hand i with used := [], served := [] } :=
  Map.get_map m.hands (fun _ h => { h with used := [], served := [] }) {} i rfl

theorem Mach.router_unspent (m : Mach) (i : Nat) : m.unspent.router i = { m.router i with used := [] } :=
  Map.get_map m.routers (fun _ r => { r with used := [] }) {} i rfl

theorem packagePower_eq (n nj : Nat) : packagePower n nj = Config.power n + (1700 * nj + 65535) / 65536 := by
  rw [packagePower, ceilDiv, Nat.add_sub_assoc (by decide)]

theorem gateAfter_toNat (g : BitVec 2) (mw : Nat) : (gateAfter g mw).toNat =
    if 15000000 < mw then min 3 (g.toNat + 1) else if mw ≤ 14250000 then 0 else g.toNat := by
  unfold gateAfter
  split
  · revert g
    decide
  · split <;> rfl

theorem Mach.powerUpdate_due {m : Mach} (h : 65536 * (m.powerPeriod + 1) ≤ m.clk) (he : m.powerPeriod + 1 ≤ m.energyPeriod) :
    m.powerUpdate = some { m with
      powerPeriod := m.powerPeriod + 1
      powerMw := packagePower (m.powerPeriod + 1) m.charged
      pgate := gateAfter m.pgate (packagePower (m.powerPeriod + 1) m.charged) } :=
  if_pos (by simp [h, he])

/-! ## The go instant (R295) -/

/-- A core at the go instant: its initial entries are in its rings, and it is placed (R295). -/
def Core.atGo (k : Core) : Core :=
  { k.initial.foldl (fun k e => k.rawPush e.1 (ringEntry 0 0 e.2.toNat)) k with placed := true, initial := [], sevens := 0 }

theorem Core.foldl_rawPush (l : List (Bool × BitVec 16)) (k : Core) :
    let k' := l.foldl (fun k e => k.rawPush e.1 (ringEntry 0 0 e.2.toNat)) k
    k'.ts = k.ts ∧ k'.pushedA = k.pushedA + (l.filter (!·.1)).length ∧ k'.pushedB = k.pushedB + (l.filter (·.1)).length := by
  induction l generalizing k with
  | nil => exact ⟨rfl, rfl, rfl⟩
  | cons e l ih =>
    obtain ⟨hts, hA, hB⟩ := ih (k.rawPush e.1 (ringEntry 0 0 e.2.toNat))
    obtain ⟨hA', hB'⟩ := k.rawPush_counts e.1 (ringEntry 0 0 e.2.toNat)
    have hts' : (k.rawPush e.1 (ringEntry 0 0 e.2.toNat)).ts = k.ts := by
      unfold Core.rawPush
      split <;> rfl
    refine ⟨hts.trans hts', hA.trans ?_, hB.trans ?_⟩
    · rw [hA']
      cases h : e.1 <;> simp +arith [h]
    · rw [hB']
      cases h : e.1 <;> simp +arith [h]

/-- What the go instant makes of a core. -/
structure Core.Gone (k k' : Core) : Prop where
  placed : k'.placed = true
  initial : k'.initial = []
  ts : k'.ts = k.ts
  pushedA : k'.pushedA = k.pushedA + (k.initial.filter (!·.1)).length
  pushedB : k'.pushedB = k.pushedB + (k.initial.filter (·.1)).length

theorem Core.gone_atGo (k : Core) : k.Gone k.atGo := by
  obtain ⟨hts, hA, hB⟩ := Core.foldl_rawPush k.initial k
  exact ⟨rfl, rfl, hts, hA, hB⟩

/-- A second time adds nothing. -/
theorem Core.Gone.atGo {k k' : Core} (h : k.Gone k') : k.Gone k'.atGo := by
  obtain ⟨hplaced, hinitial, hts, hA, hB⟩ := k'.gone_atGo
  rw [h.initial] at hA hB
  exact ⟨hplaced, hinitial, hts.trans h.ts, hA.trans h.pushedA, hB.trans h.pushedB⟩

theorem Core.Gone.of_events {k k' k'' : Core} (h : k.Gone k') (h' : k'.EventsOnly k'') : k.Gone k'' := by
  obtain ⟨_, rfl⟩ := h'
  exact ⟨h.placed, h.initial, h.ts, h.pushedA, h.pushedB⟩

/-- A change of each core of a list reaches every core of the list. -/
theorem Mach.core_foldl_modCore {f : Core → Core} {P : Core → Prop} {l : List Nat} {c : Nat} (m : Mach) (hc : c ∈ l)
    (hfirst : P (f (m.core c))) (hnext : ∀ k, P k → P (f k)) : P ((l.foldl (fun m d => m.modCore d f) m).core c) := by
  have hall (l : List Nat) (m : Mach) (h : P (m.core c) ∨ c ∈ l ∧ P (f (m.core c))) : P ((l.foldl (fun m d => m.modCore d f) m).core c) := by
    induction l generalizing m with
    | nil => exact h.resolve_right fun h => List.not_mem_nil h.1
    | cons d l ih =>
      refine ih _ ?_
      rw [Mach.core_modCore]
      split
      · subst_vars
        exact .inl (h.elim (hnext _) (·.2))
      · next hne => exact h.imp_right fun ⟨hmem, hP⟩ => ⟨(List.mem_cons.mp hmem).resolve_left hne, hP⟩
  exact hall l m (.inr ⟨hc, hfirst⟩)

theorem mem_rectCores {x0 y0 w h c : Nat} (hx : x0 ≤ c % 512) (hx' : c % 512 < x0 + w) (hy : y0 ≤ c / 512) (hy' : c / 512 < y0 + h) :
    c ∈ rectCores x0 y0 w h := by
  unfold rectCores
  simp only [List.mem_flatMap, List.mem_map, List.mem_range]
  exact ⟨c / 512 - y0, by omega, c % 512 - x0, by omega, by omega⟩

/-- A live core at a place that a partition holds is among its live cores. -/
theorem Mach.mem_liveCores {m : Mach} {q c : Nat} (hold : (m.part q).holds (c % 512) (c / 512) = true) (hlive : m.live c = true) :
    c ∈ m.liveCores q := by
  simp only [Partition.holds, Bool.and_eq_true, decide_eq_true_eq] at hold
  obtain ⟨⟨⟨⟨-, hx⟩, hx'⟩, hy⟩, hy'⟩ := hold
  exact List.mem_filter.mpr ⟨mem_rectCores hx hx' hy hy', hlive⟩

/-- A partition at its go instant. -/
def Partition.atGo (p : Partition) : Partition := { p with launch := { p.launch with go := none }, low := p.rem.toNat < p.warn.toNat }

/-- The machine at the go instant of a partition: its cores and its stagehands are placed, and its launch is over (R295). -/
def Mach.atGo (m : Mach) (q : Nat) : Mach :=
  ((m.part q).hands.foldl (fun m s => m.modHand s fun h => { h with place := Map.erase h.place q })
    ((m.liveCores q).foldl (fun m c => m.modCore c Core.atGo) m)).modPart q Partition.atGo

/-- At the go instant the runtime core is told at most that the allotment is low. -/
theorem Mach.launchGo_due {m : Mach} {q g : Nat} (hgo : (m.part q).launch.go = some g) (hg : g ≤ m.clk) : ∃ m',
    m.launchGo q = some m' ∧ (m.atGo q).Aside q m' ∧ (m.atGo q).EventsOnly m' := by
  have hrun : m.launchGo q = some (if (m.part q).rem.toNat < (m.part q).warn.toNat && !(m.part q).low then (m.atGo q).energyLow q
      else m.atGo q) := if_pos (by simp [hgo, hg])
  rw [hrun]
  split
  · exact ⟨_, rfl, .event _ _ _ _, Mach.eventsOnly_runtimeEvent _ _ _ _⟩
  · exact ⟨_, rfl, .refl _, .of_core fun _ => rfl⟩

theorem Mach.foldl_modCore_rest (l : List Nat) (f : Core → Core) (m : Mach) :
    ∃ cores, l.foldl (fun m c => m.modCore c f) m = { m with cores := cores } := by
  induction l generalizing m with
  | nil => exact ⟨m.cores, rfl⟩
  | cons c l ih =>
    obtain ⟨cores, h⟩ := ih (m.modCore c f)
    exact ⟨cores, h⟩

/-- What the go instant of a partition leaves unchanged. -/
theorem Mach.atGo_rest (m : Mach) (q : Nat) : ∃ cores hands, m.atGo q = ({ m with cores := cores, hands := hands } : Mach).modPart q Partition.atGo := by
  obtain ⟨cores, hcores⟩ := Mach.foldl_modCore_rest (m.liveCores q) Core.atGo m
  unfold Mach.atGo
  rw [hcores]
  obtain ⟨hands, hhands⟩ := Mach.foldl_modHand_rest (m.part q).hands (fun h => { h with place := Map.erase h.place q }) { m with cores := cores }
  rw [hhands]
  exact ⟨cores, hands, rfl⟩

theorem Mach.gone_atGo {m : Mach} {q c : Nat} (hc : c ∈ m.liveCores q) : (m.core c).Gone ((m.atGo q).core c) := by
  have hcore : (m.atGo q).core c = ((m.liveCores q).foldl (fun m c => m.modCore c Core.atGo) m).core c := by
    unfold Mach.atGo
    obtain ⟨hands, hhands⟩ := Mach.foldl_modHand_rest (m.part q).hands (fun h => { h with place := Map.erase h.place q })
      ((m.liveCores q).foldl (fun m c => m.modCore c Core.atGo) m)
    rw [hhands]
    rfl
  rw [hcore]
  exact Mach.core_foldl_modCore m hc (Core.gone_atGo _) fun _ => Core.Gone.atGo

end Sys2Proof.Machine
end

section
/-! PROOF. A slice switch in its two halves, and the skip of a slice (R302, R303). -/

namespace Sys2Proof.Machine

open Sys2Proof

section
variable {m : Mach} {q other : Nat} {t : Word}

theorem Mach.outgoing_pair (hset : m.sliceSet = [other, q]) (hne : other ≠ q) (hrun : (m.part other).st = .running) :
    m.outgoing q = [other] := by
  simp [Mach.outgoing, hset, hne, hrun]

/-- The start of a switch that is not late: the outgoing partition is to stop (R303). -/
theorem Mach.sliceSwitch_starts {i : Nat} {rest : List (Nat × Word × Nat)} (harmed : m.armed = (i, t, q) :: rest)
    (hidle : m.switching = none) (hdue : t.toNat ≤ m.kptp.toNat) (hruns : (m.part q).st = .running ∨ (m.part q).st = .suspended)
    (hout : m.outgoing q = [other]) (hontime : m.ptpNs ≤ instantNs t) : m.sliceSwitch =
      some { m.modPart other fun p => { p with stopping := true } with switching := some (t, q, [other]), armed := rest } := by
  have hstart : m.sliceSwitch = some (m.startSwitch t q) := by
    unfold Mach.sliceSwitch
    rw [hidle, harmed]
    dsimp only
    rw [if_neg (Nat.not_lt.mpr hdue), if_neg (by rcases hruns with h | h <;> simp [h])]
  rw [hstart]
  unfold Mach.startSwitch
  dsimp only
  rw [if_neg (Nat.not_lt.mpr hontime), hout, harmed]
  rfl

/-- A slice of a partition that does not run is skipped, and the house told of it (log entry 71). -/
theorem Mach.sliceSwitch_skips {i : Nat} {rest : List (Nat × Word × Nat)} (harmed : m.armed = (i, t, q) :: rest)
    (hidle : m.switching = none) (hdue : t.toNat ≤ m.kptp.toNat) (hruns : ¬((m.part q).st = .running ∨ (m.part q).st = .suspended)) :
    m.sliceSwitch = some ({ m with armed := rest }.event houseCore { faultOf Cause.sliceSkip with index := BitVec.ofNat 16 i }) := by
  unfold Mach.sliceSwitch
  rw [hidle, harmed]
  dsimp only
  rw [if_neg (Nat.not_lt.mpr hdue), if_pos (by simpa using hruns)]

/-- What a core without events has after one. -/
theorem Mach.events_event_nil {c : Nat} (h : (m.core c).events = []) (r : FaultRec) : ∃ r', ((m.event c r).core c).events = [r'] ∧
    r'.cause = r.cause ∧ r'.index = r.index := by
  rw [Mach.event, Mach.core_modCore_same, h]
  exact ⟨_, rfl, rfl, rfl⟩

end

/-! ## The end of a switch -/

/-- What a switch from `other` to `q` makes of the machine (R303, R304). -/
structure Mach.Swapped (other q : Nat) (m m' : Mach) : Prop where
  rest : ∃ cores hands routers net parts nextId rounds, m' =
    { m with cores := cores, hands := hands, routers := routers, net := net, parts := parts, nextId := nextId, rounds := rounds }
  outgoing : (m'.part other).st = .suspended
  incoming : (m'.part q).st = .running
  runtimeCore : m'.runtimeCore q = m.runtimeCore q

theorem Mach.Keeps.runtimeCore {m m' : Mach} (h : m.Keeps m') (q : Nat) : m'.runtimeCore q = m.runtimeCore q := by
  have hx : (m'.part q).rtx = (m.part q).rtx := (congrArg Partition.rtx (h.calm q) :)
  have hy : (m'.part q).rty = (m.part q).rty := (congrArg Partition.rty (h.calm q) :)
  rw [Mach.runtimeCore, Mach.runtimeCore, hx, hy]

theorem Mach.Keeps.st {m m' : Mach} (h : m.Keeps m') (q : Nat) : (m'.part q).st = (m.part q).st := (congrArg Partition.st (h.calm q) :)

theorem Mach.swapped_suspend_resume {m : Mach} {other q : Nat} (hne : other ≠ q) (ho : other < 16) (hq : q < 16) :
    m.Swapped other q ((m.suspendNow other).resumeNow q) := by
  obtain ⟨m₁, h₁, h₂⟩ := m.suspendNow_keeps other
  obtain ⟨m₂, f, h₃, hresume, hf⟩ := (m.suspendNow other).resumeNow_keeps q
  have h := h₂.trans h₃
  obtain ⟨hst, hx, hy⟩ := hf (m₂.part q)
  rw [hresume]
  refine ⟨?_, ?_, ?_, ?_⟩
  · obtain ⟨⟨_, _, _, _, _, _, _, rfl⟩, -⟩ := h₁
    obtain ⟨⟨_, _, _, _, _, _, _, rfl⟩, -⟩ := h
    exact ⟨_, _, _, _, _, _, _, rfl⟩
  · rw [Mach.part_modPart _ hq, if_neg hne, h.st, Mach.part_modPart _ ho, if_pos rfl]
  · rw [Mach.part_modPart _ hq, if_pos rfl, hst]
  · calc (m₂.modPart q f).runtimeCore q
      _ = m₂.runtimeCore q := by
        rw [Mach.runtimeCore, Mach.runtimeCore, Mach.part_modPart _ hq, if_pos rfl, hx, hy]
      _ = m₁.runtimeCore q := by
        rw [h.runtimeCore, Mach.runtimeCore, Mach.runtimeCore, Mach.part_modPart _ ho, if_neg (Ne.symm hne)]
      _ = m.runtimeCore q := h₁.runtimeCore q

/-- The report of a switch to the runtime core of the incoming partition (R303). -/
def Mach.sliceDoneCore (m : Mach) (t : Word) (q : Nat) : List Reply :=
  match m.runtimeCore q with
  | some h => [Reply.sliceDoneCore h t q]
  | none => []

/-- A machine with the report of a switch sent, to the host and to the runtime core (R303). -/
def Mach.reported (m : Mach) (t : Word) (q : Nat) : Mach :=
  { m.send (.sliceDone t q) with switching := none, replies := (m.send (.sliceDone t q)).replies ++ m.sliceDoneCore t q }

/-- The resumption of the incoming partition of a switch, if it was suspended (R303). -/
def Mach.incoming (m : Mach) (q : Nat) : Mach := if (m.part q).st = .suspended then m.resumeNow q else m

theorem Mach.endSwitch_eq (m : Mach) (t : Word) (q : Nat) (out : List Nat) : m.endSwitch t q out =
    ((out.filter fun o => (m.part o).st = .running && (m.part o).stopping).foldl Mach.suspendNow m |>.incoming q).reported t q := rfl

/-- The end of a switch: the outgoing partition is suspended, and the incoming one, if it was suspended, runs (R303, R304). -/
theorem Mach.sliceSwitch_ends {m : Mach} {q other : Nat} {t : Word} (hswitch : m.switching = some (t, q, [other]))
    (hstop : (m.part other).stopping = true) (hstopped : m.stopped other = true) (hne : other ≠ q) (ho : other < 16)
    (hrun : (m.part other).st = .running) (hsusp : (m.part q).st = .suspended) :
    m.sliceSwitch = some (((m.suspendNow other).resumeNow q).reported t q) := by
  have hfilter : ([other].filter fun o => (m.part o).st = .running && (m.part o).stopping) = [other] := by simp [hrun, hstop]
  have hcalm : ((m.suspendNow other).part q).st = .suspended := by
    obtain ⟨m₁, h₁, h₂⟩ := m.suspendNow_keeps other
    rw [h₂.st, Mach.part_modPart _ ho, if_neg (Ne.symm hne), h₁.st, hsusp]
  have hend : m.sliceSwitch = some (m.endSwitch t q [other]) := by
    unfold Mach.sliceSwitch
    rw [hswitch]
    exact if_pos (by simp [hstopped])
  rw [hend, Mach.endSwitch_eq, hfilter, List.foldl_cons, List.foldl_nil, Mach.incoming, if_pos hcalm]

/-- What the report leaves unchanged. -/
theorem Mach.reported_rest (m : Mach) (t : Word) (q : Nat) :
    ∃ ports replies outbox, m.reported t q = { m with ports := ports, replies := replies, outbox := outbox, switching := none } := by
  unfold Mach.reported Mach.send
  split <;> exact ⟨_, _, _, rfl⟩

theorem Mach.Swapped.replies {m m' : Mach} {other q : Nat} (h : m.Swapped other q m') (t : Word) :
    (m'.reported t q).replies = (m.send (.sliceDone t q)).replies ++ m.sliceDoneCore t q := by
  have hcore : m'.sliceDoneCore t q = m.sliceDoneCore t q := by
    rw [Mach.sliceDoneCore, Mach.sliceDoneCore, h.runtimeCore]
  have hsend : (m'.send (.sliceDone t q)).replies = (m.send (.sliceDone t q)).replies := by
    obtain ⟨⟨_, _, _, _, _, _, _, rfl⟩, -⟩ := h
    unfold Mach.send
    dsimp only
    split <;> rfl
  exact congrArg₂ _ hsend hcore

end Sys2Proof.Machine
end

section
/-! PROOF. Links that are resynchronised or die, and the exceptions that lead around a dead link (R122, R125, R302). -/

namespace Sys2Proof.Machine

open Sys2Proof

/-! ## The way of a delivery depends on routes alone -/

@[simp] theorem Mach.router_modRouter (m : Mach) (c r : Nat) (f : Router → Router) :
    (m.modRouter c f).router r = if r = c then f (m.router c) else m.router r := Map.get_set _ _ _ _ _

/-- `m'` differs from `m` in routers alone, and these have the same route exceptions. -/
structure Mach.Routed (m m' : Mach) : Prop where
  rest : ∃ routers, m' = { m with routers := routers }
  routes : ∀ r, (m'.router r).routes = (m.router r).routes

namespace Mach.Routed

theorem refl (m : Mach) : m.Routed m := ⟨⟨m.routers, rfl⟩, fun _ => rfl⟩

theorem trans {m m' m'' : Mach} (h : m.Routed m') (h' : m'.Routed m'') : m.Routed m'' := by
  obtain ⟨⟨_, rfl⟩, hr⟩ := h
  obtain ⟨⟨routers, rfl⟩, hr'⟩ := h'
  exact ⟨⟨routers, rfl⟩, fun r => (hr' r).trans (hr r)⟩

theorem foldl {α : Type} {f : Mach → α → Mach} (hf : ∀ (m : Mach) (a : α), m.Routed (f m a)) (l : List α) (m : Mach) :
    m.Routed (l.foldl f m) := by
  induction l generalizing m with
  | nil => exact refl m
  | cons a l ih => exact (hf m a).trans (ih _)

theorem modRouter (m : Mach) (c : Nat) {f : Router → Router} (hf : ∀ r, (f r).routes = r.routes) : m.Routed (m.modRouter c f) := by
  refine ⟨⟨_, rfl⟩, fun r => ?_⟩
  rw [Mach.router_modRouter]
  split
  · subst_vars
    exact hf _
  · rfl

theorem port {m m' : Mach} (h : m.Routed m') (at_ dst : Nat × Nat) : m'.port at_ dst = m.port at_ dst := by
  rw [Mach.port, h.routes]
  rfl

theorem path {m m' : Mach} (h : m.Routed m') (dst : Nat × Nat) (n : Nat) (at_ : Nat × Nat) : m'.path at_ dst n = m.path at_ dst n := by
  induction n generalizing at_ with
  | zero => rfl
  | succ n ih =>
    rw [Mach.path, Mach.path, h.port]
    simp only [ih]

theorem crosses {m m' : Mach} (h : m.Routed m') (d : Delivery) (c dir : Nat) : m'.crosses d c dir = m.crosses d c dir := by
  have hway : m'.way d = m.way d := by
    have hto : m'.wayTo d = m.wayTo d := by
      obtain ⟨⟨_, rfl⟩, -⟩ := h
      rfl
    simp only [Mach.way, hto, h.path]
  have hclk : m'.clk = m.clk := by
    obtain ⟨⟨_, rfl⟩, -⟩ := h
    rfl
  unfold Mach.crosses
  rw [hway, hclk]

theorem modLink (m : Mach) (c dir : Nat) (f : Link → Link) : m.Routed (m.modRouter c (·.modLink dir f)) := modRouter m c fun _ => rfl

end Mach.Routed

theorem Mach.link_modLink (m : Mach) (c : Nat) {dir : Nat} (h : dir < 4) (f : Link → Link) :
    ((m.modRouter c (·.modLink dir f)).router c).link dir = f ((m.router c).link dir) := by
  rw [Mach.router_modRouter, if_pos rfl]
  exact vget_vset_same _ _ _ h

/-! ## A link is resynchronised, or dies -/

section
variable {m : Mach} {c dir : Nat}

/-- A link that the module may resynchronise, or find dead (R122). -/
def Mach.linkLive (m : Mach) (c dir : Nat) : Bool := c < meshCores && onMesh (c % 512) (c / 512) dir && !((m.router c).link dir).dead

/-- The machine in which what crosses a link is 40 cycles later (R122). -/
def Mach.delayed (m : Mach) (c dir : Nat) : Mach := { m with net := m.net.map fun d => if m.crosses d c dir then d.later 40 else d }

theorem Mach.linkResync_live (h : m.linkLive c dir = true) : m.linkResync c dir =
    let l := (m.router c).link dir
    if l.silent then
      if 2 ≤ l.resyncs then some ((m.delayed c dir).killLink c dir)
      else some ((m.delayed c dir).modRouter c (·.modLink dir fun l => { l with resyncs := l.resyncs + 1, retry := m.clk + 40 }))
    else some ((m.delayed c dir).modRouter c
      (·.modLink dir fun l => { l with resyncs := 0, audit := 0, expect := l.seq, window := [], pending := none })) :=
  if_pos h

theorem Mach.linkDead_live (h : m.linkLive c dir = true) : m.linkDead c dir = some (m.killLink c dir) := if_pos h

theorem Mach.link_killLink (m : Mach) (c : Nat) {dir : Nat} (h : dir < 4) :
    ((m.killLink c dir).router c).link dir = { (m.router c).link dir with dead := true } := m.link_modLink c h _

/-- What is under way when a link dies: what crosses it, and what had not left, is sent again (R122). -/
theorem Mach.net_killLink (m : Mach) (c dir : Nat) :
    (m.killLink c dir).net = m.net.map fun d => if m.crosses d c dir || m.clk < d.sendAt then d.again else d := by
  have hrouted := Routed.modLink m c dir fun l => { l with dead := true }
  refine List.map_congr_left fun d _ => ?_
  rw [hrouted.crosses]
  rfl

end

/-- What crosses a link comes later: it is under way, and due at a later cycle. -/
theorem Mach.later_crossing (m : Mach) (d : Delivery) (c dir : Nat) : (if m.crosses d c dir then d.later 40 else d) = match d.phase with
    | .flying due => if m.crosses d c dir then { d with phase := .flying (due + 40) } else d
    | _ => d := by
  unfold Delivery.later Mach.crosses
  cases h : d.phase <;> simp

/-- What is sent again is what was under way. -/
theorem Delivery.again_if (d : Delivery) (b : Bool) (late : Prop) [Decidable late] : (if b || late then d.again else d) = match d.phase with
    | .flying _ => if b = true ∨ late then { d with phase := .queued } else d
    | _ => d := by
  unfold Delivery.again
  cases d.phase <;> simp

/-! ## Exceptions around a dead link (R122, R302) -/

/-- The change of a route exception. -/
def Mach.except (m : Mach) (re : Nat × RouteEx) : Mach := m.modRouter re.1 fun r => { r with routes := (r.routes ++ [re.2]).take 64 }

theorem Mach.routed_setTree (m : Mach) (r n : Nat) (e : BitVec 16) : m.Routed (m.setTree r n e) := .modRouter m r fun _ => rfl

theorem Mach.routed_buildTree (m : Mach) (n root : Nat) (members : List Nat) : m.Routed (m.buildTree n root members) :=
  (Routed.foldl (fun m _ => m.routed_setTree _ _ _) _ m).trans (.foldl (fun m _ => m.routed_setTree _ _ _) _ _)

/-- The machine whose cast trees avoid the links that died (R302). -/
def Mach.replant (m : Mach) (dead : List (Nat × Nat)) (live : List Nat) : Mach :=
  live.foldl (fun m q => (List.range 256).foldl (fun m n =>
    let k := (m.part q).cast n
    if dead.any fun cd => m.treeCrosses q n cd.1 cd.2 then m.buildTree n (k.ry.toNat * 512 + k.rx.toNat) k.members else m) m) m

theorem Mach.routed_replant (m : Mach) (dead : List (Nat × Nat)) (live : List Nat) : m.Routed (m.replant dead live) := by
  refine .foldl (fun m q => .foldl (fun m n => ?_) _ m) _ m
  dsimp only
  split
  · exact m.routed_buildTree _ _ _
  · exact .refl m

/-- The partitions whose runtime cores are told of new routes. -/
def Mach.livePartitions (m : Mach) : List Nat := (List.range 16).filter fun q => (m.part q).st = .running || (m.part q).st = .suspended

/-- What the runtime cores are told of the links that died (R314). -/
def Mach.tellRoutes (m : Mach) (dead : List (Nat × Nat)) (live : List Nat) : Mach :=
  dead.foldl (fun m cd => live.foldl (fun m q =>
    m.runtimeEvent q { faultOf Cause.routeChange with data := wd (cd.1 % 512 + cd.1 / 512 * 2 ^ 10 + cd.2 * 2 ^ 18) }) m) m

/-- The machine with the exceptions around links that died (R302). -/
def Mach.detoured (m : Mach) (dead : List (Nat × Nat)) : Mach := dead.foldl (fun m cd => (detour cd.1 cd.2).foldl Mach.except m) m

/-- The machine in which injection goes on, with what was found lost. -/
def Mach.goesOn (m : Mach) (gone : List Nat) : Mach :=
  ({ m with deadLinks := [], injPaused := false, gone := m.gone ++ gone } : Mach).resumeWakes

/-- What was under way is found lost where it is, and sent on where it can be. -/
def Mach.resettle (m : Mach) : Mach :=
  let m := (m.net.map (·.id)).foldl (fun m id => (m.lostDue id).getD m) m
  (m.net.map (·.src)).eraseDups.foldl Mach.transmit m

/-- The suspected cores that a change of routes finds lost. -/
def Mach.lostCores (m : Mach) : List Nat := m.suspects.filter fun c => m.isolated c && !m.gone.contains c

theorem Mach.routeChange_eq {m : Mach} (h : m.deadLinks ≠ []) : m.routeChange = some (m.lostCores.foldl Mach.loseMember
    (((((m.detoured m.deadLinks).replant m.deadLinks m.livePartitions).goesOn m.lostCores).resettle).tellRoutes
      m.deadLinks m.livePartitions)) := if_neg h

/-- With nothing under way there is nothing to find lost, or to send on. -/
theorem Mach.resettle_nil {m : Mach} (h : m.net = []) : m.resettle = m := by
  unfold Mach.resettle
  rw [h]
  simp [h]

theorem Mach.net_goesOn {m : Mach} (h : m.net = []) (gone : List Nat) : (m.goesOn gone).net = [] := by
  simp [Mach.goesOn, Mach.resumeWakes, h]

/-- The exception around a link that died to the east, but in the last row (R302). -/
theorem Mach.detoured_east (m : Mach) {c : Nat} (hc : c / 512 < 143) :
    m.detoured [(c, 1)] = m.except (c, { port := 2, x0 := c % 512 + 1, x1 := 511, y0 := 0, y1 := 255 }) := by
  simp [Mach.detoured, detour, hc]

/-- The change of routes around one link that died to the east, with nothing under way and no core lost. -/
theorem Mach.routeChange_east {m : Mach} {c : Nat} (hdead : m.deadLinks = [(c, 1)]) (hnet : m.net = [])
    (hsus : m.suspects.filter m.isolated = []) (hc : c / 512 < 143) :
    ∃ m₁, (m.except (c, { port := 2, x0 := c % 512 + 1, x1 := 511, y0 := 0, y1 := 255 })).Routed m₁ ∧
      m.routeChange = some ((m₁.goesOn []).tellRoutes [(c, 1)] m.livePartitions) := by
  have hlost : m.lostCores = [] := by
    rw [Mach.lostCores, List.filter_eq_nil_iff]
    intro a ha
    simp [List.filter_eq_nil_iff.mp hsus a ha]
  refine ⟨_, Mach.routed_replant _ [(c, 1)] m.livePartitions, ?_⟩
  have hrouted := Mach.routed_replant (m.except (c, { port := 2, x0 := c % 512 + 1, x1 := 511, y0 := 0, y1 := 255 })) [(c, 1)] m.livePartitions
  rw [Mach.routeChange_eq (by simp [hdead]), hdead, hlost, Mach.detoured_east m hc, Mach.resettle_nil, List.foldl_nil]
  refine Mach.net_goesOn ?_ _
  obtain ⟨⟨routers, h⟩, -⟩ := hrouted
  rw [h]
  exact hnet

/-! ## Events told -/

theorem modFirst_ne_nil {α : Type} (p : α → Bool) (f : α → α) {l : List α} (h : l ≠ []) : modFirst p f l ≠ [] := by
  cases l with
  | nil => exact absurd rfl h
  | cons a l =>
    rw [modFirst]
    split <;> exact List.cons_ne_nil _ _

theorem modLast_ne_nil {α : Type} (f : α → α) {l : List α} (h : l ≠ []) : modLast f l ≠ [] := by
  match l with
  | [] => exact absurd rfl h
  | [_] => exact List.cons_ne_nil _ _
  | _ :: _ :: _ => exact List.cons_ne_nil _ _

/-- A queue that an event has entered is not empty. -/
theorem queueEvent_ne_nil (l : List FaultRec) (r : FaultRec) : queueEvent l r ≠ [] := by
  unfold queueEvent
  split
  · exact List.append_ne_nil_of_right_ne_nil _ (List.cons_ne_nil _ _)
  · next hfull =>
    have hl : l ≠ [] := fun h => hfull (by simp [h])
    split
    · exact modFirst_ne_nil _ _ hl
    · exact modLast_ne_nil _ hl

theorem Mach.runtimeEvent_routers (m : Mach) (q : Nat) (r : FaultRec) : ∃ cores, m.runtimeEvent q r = { m with cores := cores } := by
  unfold Mach.runtimeEvent
  split
  · exact ⟨_, rfl⟩
  · exact ⟨m.cores, rfl⟩

/-- Telling a core of something leaves no core that has events without any. -/
theorem Mach.events_event_ne_nil (m : Mach) (c d : Nat) (r : FaultRec) (h : d = c ∨ (m.core d).events ≠ []) :
    ((m.event c r).core d).events ≠ [] := by
  rw [Mach.event, Mach.core_modCore]
  split
  · exact queueEvent_ne_nil _ _
  · next hne => exact h.resolve_left hne

/-- Telling the runtime cores of a list of partitions changes cores alone, and leaves each of these cores with events. -/
theorem Mach.foldl_runtimeEvent (f : Nat → FaultRec) (l : List Nat) (m : Mach) {d : Nat}
    (h : (m.core d).events ≠ [] ∨ ∃ q ∈ l, m.runtimeCore q = some d) :
    ((l.foldl (fun m q => m.runtimeEvent q (f q)) m).core d).events ≠ [] := by
  induction l generalizing m with
  | nil => simpa using h
  | cons q l ih =>
    have hparts : ∀ q', (m.runtimeEvent q (f q)).runtimeCore q' = m.runtimeCore q' := fun q' => by
      obtain ⟨cores, h⟩ := m.runtimeEvent_routers q (f q)
      rw [h]
      rfl
    refine ih _ ?_
    by_cases hq : m.runtimeCore q = some d ∨ (m.core d).events ≠ []
    · left
      change ((m.runtimeEvent q (f q)).core d).events ≠ []
      unfold Mach.runtimeEvent
      split
      · next c hc =>
        refine m.events_event_ne_nil c d _ (hq.imp_left fun h => ?_)
        exact Option.some.inj (h.symm.trans hc)
      · next hc => exact hq.resolve_left (by simp [hc])
    · rw [not_or] at hq
      obtain ⟨q', hmem, hq'⟩ := h.resolve_left hq.2
      right
      refine ⟨q', (List.mem_cons.mp hmem).resolve_left ?_, (hparts q').trans hq'⟩
      rintro rfl
      exact hq.1 hq'

/-- Telling runtime cores changes cores alone. -/
theorem Mach.foldl_runtimeEvent_rest (f : Nat → FaultRec) (l : List Nat) (m : Mach) :
    ∃ cores, l.foldl (fun m q => m.runtimeEvent q (f q)) m = { m with cores := cores } := by
  induction l generalizing m with
  | nil => exact ⟨m.cores, rfl⟩
  | cons q l ih =>
    obtain ⟨cores, h⟩ := m.runtimeEvent_routers q (f q)
    obtain ⟨cores', h'⟩ := ih (m.runtimeEvent q (f q))
    exact ⟨cores', by rw [List.foldl_cons, h', h]⟩

end Sys2Proof.Machine
end

section
/-! PROOF. The module's periodic and other events, clause by clause (R122, R125, R138, R139, R295, R302, R303, R345). -/

namespace Sys2Proof.Machine

open Sys2Proof

theorem vget_ofFn {α : Type} {n : Nat} (f : Fin n → α) (d : α) {i : Nat} (h : i < n) : vget (Vector.ofFn f) d i = f ⟨i, h⟩ := by
  simp [vget, h]

/-- What the weight of each class makes of what a partition did in a period, as the classes are written by number (R138, R344). -/
theorem Mach.energyIn_eq (m : Mach) (q n : Nat) : m.energyIn q n = fun y =>
    (if y = 5 then (m.liveCores q).foldl (fun x k => x + (m.core k).idled) 0 else
      if (m.activeIn q).getLsbD y then Config.activity q y n else 0) * m.weights.getD y 0 := by
  funext y
  simp only [Mach.energyIn, bit_eq_getLsbD]
  rfl

/-- The end of the zeroing of a partition that no request waits for (R303). -/
theorem State.zeroingDone_due {s : State} {q g : Nat} (hst : (s.mach.part q).st = .zeroing) (hzero : (s.mach.part q).zeroDone = some g)
    (hg : g ≤ s.mach.clk) (hrequests : s.mach.requests = []) : s.zeroingDone q =
      { s with mach := s.mach.modPart q fun p => { p with st := .configured, zeroDone := none } } := by
  unfold State.zeroingDone
  dsimp only
  rw [if_pos (by simp [hst, hzero, hg])]
  split
  · rfl
  · next hcons => exact absurd (hcons.symm.trans hrequests) (List.cons_ne_nil _ _)

end Sys2Proof.Machine

open Sys2Proof Sys2Proof.Machine

/-- Settles O50: each event of the module is due, or is performed, under the condition that the clause names. -/
theorem moduleEvents : Obligations.ModuleEvents := by
  intro s q i c dir cls other g time rest d hq hcls m p n act idled inc sum apart taken rem warn mw frame runs armed one link old lost live
  have hlinkLive (h : live) : m.linkLive c dir = true := by
    obtain ⟨hc, -, hmesh, hdead⟩ := h
    simp only [Mach.linkLive, Bool.and_eq_true, decide_eq_true_eq, Bool.not_eq_true']
    exact ⟨⟨hc, hmesh⟩, hdead⟩
  refine ⟨?_, ?_, ?_, ?_, ?_, ?_, ?_, ?_, ?_, ?_, ?_, ?_⟩
  · rintro ⟨hclk, hapart⟩
    have hshare : ∀ o < 16, o ≠ q → ∀ c ∈ m.liveCores q, c ∉ m.liveCores o := fun o ho hne c hc hc' => by
      simpa [hne, hc] using (List.all_eq_true.mp ((Bool.or_eq_true _ _).mp (List.all_eq_true.mp hapart o (List.mem_range.mpr ho))
        |>.resolve_left (by simpa using hne)) c hc')
    obtain ⟨m', charged, hrun, ⟨⟨cores, parts, rfl⟩, -⟩, hpart, hfresh⟩ := Mach.energyUpdate_charges hq hclk hshare
    have hinc : m.energyIn q n = inc := m.energyIn_eq q n
    have hrem : m.remAfter q n = (rem, warn) := by
      have htaken : (m.part q).allotted m.clk = taken := rfl
      rw [Mach.remAfter, htaken, Mach.energySum, hinc]
      clear_value taken
      cases taken <;> rfl
    unfold Mach.chargedPart at hpart
    rw [hrem, hinc] at hpart
    refine ⟨_, event_of_some hrun, ⟨rfl, rfl, rfl, rfl⟩, rfl, ?_, (congrArg Partition.active hpart :), (congrArg Partition.rem hpart :),
      (congrArg Partition.warn hpart :), (congrArg Partition.low hpart :), (congrArg Partition.pending hpart :),
      (congrArg Partition.st hpart :), rfl, fun hmem => hfresh c (List.contains_iff_mem.mp hmem)⟩
    refine (congrArg (fun p => vget p.energy 0 cls) hpart).trans ?_
    exact vget_ofFn _ _ hcls
  · intro h
    exact ⟨_, event_of_some (Mach.budgetUpdate_due h), ⟨rfl, rfl, rfl, rfl⟩, rfl, (congrArg Stagehand.used (m.hand_unspent i) :),
      (congrArg Router.used (m.router_unspent i) :), (congrArg Stagehand.board (m.hand_unspent i) :), rfl, rfl⟩
  · rintro ⟨hclk, henergy⟩
    refine ⟨_, event_of_some (Mach.powerUpdate_due hclk henergy), ⟨rfl, rfl, rfl, rfl⟩, rfl, packagePower_eq _ _, rfl, rfl, ?_⟩
    rw [gateAfter_toNat, packagePower_eq]
  · rintro ⟨hgo, hg, hold, hlive⟩
    obtain ⟨m', hrun, ⟨⟨⟨cores', parts', rfl⟩, -⟩, hpart, -⟩, hevents⟩ := Mach.launchGo_due hgo hg
    have hgone := (Mach.gone_atGo (Mach.mem_liveCores hold hlive)).of_events (hevents c)
    obtain ⟨cores, hands, hrest⟩ := m.atGo_rest q
    have hatGo : (m.atGo q).part q = (m.part q).atGo := by
      rw [hrest, Mach.part_modPart _ hq, if_pos rfl]
      rfl
    rw [hatGo] at hpart
    refine ⟨_, event_of_some (f := (·.launchGo q)) hrun, ?_, hgone.placed, hgone.initial, hgone.ts, hgone.pushedA, hgone.pushedB, ?_, ?_⟩
    · rw [hrest]
      exact ⟨rfl, rfl, rfl, rfl⟩
    · exact congrArg (fun p => p.launch.go) hpart
    · exact (congrArg Partition.low hpart :)
  · rintro ⟨hst, hzero, hg, hrequests⟩
    exact congrArg Host.Outcome.next (State.zeroingDone_due hst hzero hg hrequests)
  · rintro ⟨harmed, ⟨hset, hne, ho, hrun⟩, hidle, hdue, hruns, hontime⟩
    have hpart (o : Nat) : (m.modPart other fun p => { p with stopping := true }).part o =
        if o = other then { m.part other with stopping := true } else m.part o := m.part_modPart ho o _
    refine ⟨_, event_of_some (f := Mach.sliceSwitch)
      (Mach.sliceSwitch_starts harmed hidle hdue hruns (Mach.outgoing_pair hset hne hrun) hontime), ⟨rfl, rfl, rfl, rfl⟩, rfl, ?_⟩
    refine ⟨(congrArg Partition.stopping ((hpart other).trans (if_pos rfl)) :), ?_, (hpart q).trans (if_neg (Ne.symm hne)), rfl, rfl⟩
    exact (congrArg Partition.st ((hpart other).trans (if_pos rfl))).trans hrun
  · rintro ⟨harmed, hidle, hdue, hruns⟩
    refine ⟨_, event_of_some (f := Mach.sliceSwitch) (Mach.sliceSwitch_skips harmed hidle hdue hruns), ⟨rfl, rfl, rfl, rfl⟩, rfl, rfl,
      hidle, fun hnil => ?_⟩
    obtain ⟨r, hone, hcause, hindex⟩ := Mach.events_event_nil (m := { m with armed := rest }) hnil
      { faultOf Cause.sliceSkip with index := BitVec.ofNat 16 i }
    refine (congrArg (List.map _) hone).trans ?_
    simp [hcause, hindex, faultOf, Cause.sliceSkip]
  · rintro ⟨hswitch, ⟨hset, hne, ho, hrun⟩, hstop, hstopped, hsusp⟩
    have hswap := Mach.swapped_suspend_resume (m := m) hne ho hq
    have hreplies := hswap.replies time
    obtain ⟨ports, replies, outbox, hreported⟩ := ((m.suspendNow other).resumeNow q).reported_rest time q
    obtain ⟨⟨cores, hands, routers, net, parts, nextId, rounds, hrest⟩, hout, hin, -⟩ := hswap
    refine ⟨_, event_of_some (f := Mach.sliceSwitch) (Mach.sliceSwitch_ends hswitch hstop hstopped hne ho hrun hsusp), ?_⟩
    rw [hrest] at hreported hout hin hreplies ⊢
    rw [hreported] at hreplies ⊢
    exact ⟨⟨rfl, rfl, rfl, rfl⟩, hout, hin, rfl, rfl, hreplies⟩
  · rintro ⟨hlive, hfew, hnet⟩
    have hdir : dir < 4 := hlive.2.1
    have hlater : (m.delayed c dir).net = [match d.phase with
        | .flying due => if m.crosses d c dir then { d with phase := .flying (due + 40) } else d
        | _ => d] := by
      rw [Mach.delayed, hnet, List.map_singleton]
      exact congrArg (fun x => [x]) (m.later_crossing d c dir)
    by_cases hsilent : lost = true
    · have hresyncs : ¬2 ≤ ((m.router c).link dir).resyncs := Nat.not_le.mpr (hfew.resolve_left (by simp [hsilent]))
      refine ⟨_, event_of_some (f := (·.linkResync c dir)) ((Mach.linkResync_live (hlinkLive hlive)).trans
        ((if_pos hsilent).trans (if_neg hresyncs))), ⟨rfl, rfl, rfl, rfl⟩, rfl, rfl, ?_, hlater⟩
      exact ((m.delayed c dir).link_modLink c hdir _).trans (if_pos hsilent).symm
    · refine ⟨_, event_of_some (f := (·.linkResync c dir)) ((Mach.linkResync_live (hlinkLive hlive)).trans
        (if_neg hsilent)), ⟨rfl, rfl, rfl, rfl⟩, rfl, rfl, ?_, hlater⟩
      exact ((m.delayed c dir).link_modLink c hdir _).trans (if_neg hsilent).symm
  · rintro ⟨hlive, hlost, hthree⟩
    refine ⟨_, event_of_some (f := (·.linkResync c dir)) ((Mach.linkResync_live (hlinkLive hlive)).trans
      ((if_pos hlost).trans (if_pos hthree))), ?_, rfl⟩
    exact (congrArg Link.dead ((m.delayed c dir).link_killLink c hlive.2.1) :)
  · rintro ⟨hlive, hnet⟩
    refine ⟨_, event_of_some (f := (·.linkDead c dir)) (Mach.linkDead_live (hlinkLive hlive)), ⟨rfl, rfl, rfl, rfl⟩, rfl, rfl,
      m.link_killLink c hlive.2.1, rfl, rfl, ?_⟩
    rw [m.net_killLink c dir, hnet, List.map_singleton]
    exact congrArg (fun x => [x]) (d.again_if (m.crosses d c dir) (m.clk < d.sendAt))
  · rintro ⟨hdead, hc, hrow, hsus, hnet, hroutes⟩
    obtain ⟨m₁, ⟨⟨routers, hm₁⟩, hroutes₁⟩, hrun⟩ := Mach.routeChange_east hdead hnet hsus hrow
    have htell : (m₁.goesOn []).tellRoutes [(c, 1)] m.livePartitions = m.livePartitions.foldl (fun m q => m.runtimeEvent q
        { faultOf Cause.routeChange with data := wd (c % 512 + c / 512 * 2 ^ 10 + 1 * 2 ^ 18) }) (m₁.goesOn []) := rfl
    obtain ⟨cores, htold⟩ := Mach.foldl_runtimeEvent_rest
      (fun _ => { faultOf Cause.routeChange with data := wd (c % 512 + c / 512 * 2 ^ 10 + 1 * 2 ^ 18) }) m.livePartitions (m₁.goesOn [])
    have hrouter : (m₁.router c).routes = [{ port := 2, x0 := c % 512 + 1, x1 := 511, y0 := 0, y1 := 255 }] := by
      rw [hroutes₁, Mach.except, Mach.router_modRouter, if_pos rfl, hroutes]
      rfl
    refine ⟨_, event_of_some (f := Mach.routeChange) hrun, ?_, ?_, ?_, ?_, ?_⟩
    · rw [htell, htold, hm₁]
      exact ⟨rfl, rfl, rfl, rfl⟩
    · rw [htell, htold]
      rfl
    · rw [htell, htold]
      rfl
    · rw [htell, htold]
      exact hrouter
    · rintro ⟨hst, hruntime⟩
      rw [htell]
      refine Mach.foldl_runtimeEvent _ _ _ (.inr ⟨q, ?_, ?_⟩)
      · exact List.mem_filter.mpr ⟨List.mem_range.mpr hq, by simp [p, hst]⟩
      · rw [hm₁]
        exact hruntime
end

section
/-! PROOF. The unit of belief propagation: its f32 steps, the reads by which it prepares, and how an operation begins (R243, R249). -/

namespace Sys2Proof.Machine

open Sys2Proof

/-! ## f32 steps (R243) -/

theorem isNan_f32 (x : Nat) : (fmtF32.read false x).isNan = decide (0x7F800000 < x % 2 ^ 31) := by
  by_cases h : 0x7F800000 < x % 2 ^ 31
  · rw [read_f32_nan h, decide_eq_true h]
    rfl
  · rw [isNan_read_f32 h, decide_eq_false h]

/-- A step gives the default NaN for every NaN. -/
theorem step32_eq (r : Nat × FFlags) : step32 r = if 0x7F800000 < r.1 % 2 ^ 31 then 0x7FC00000 else r.1 := by
  simp only [step32, isNan_f32, decide_eq_true_eq]
  rfl

theorem sound_f32 : fmtF32.Sound := ⟨by decide, by decide⟩

theorem step32_lt {r : Nat × FFlags} (h : r.1 < 2 ^ 32) : step32 r < 2 ^ 32 := by
  rw [step32_eq]
  split
  · decide
  · exact h

theorem sub32_lt (x y : Nat) : sub32 x y < 2 ^ 32 := step32_lt (FloatFmt.sub_lt sound_f32 0 x y)

/-- The magnitude of a difference, with the default NaN for every NaN (R248). -/
theorem residual_eq (x y : Nat) : residual x y =
    if 0x7F800000 < (fmtF32.sub 0 x y).1 % 2 ^ 31 then 0x7FC00000 else (fmtF32.sub 0 x y).1 % 2 ^ 31 := by
  simp only [residual, isNan_f32, decide_eq_true_eq, sub32, step32_eq]
  split
  · rfl
  · rfl

/-- To exceed is to be compared greater; no NaN exceeds (R245). -/
theorem compare_f32_less (x y : Nat) : (fmtF32.compare 2 x y).1 = gt32 y x := by
  unfold FloatFmt.compare gt32
  dsimp only
  cases (fmtF32.read false x).isNan <;> cases (fmtF32.read false y).isNan <;> rfl

/-! ## Reads by which an operation prepares (R80, R185) -/

/-- A machine that differs by single-bit errors of its cores' memories corrected and counted at most. -/
structure Mach.Fixed (m m' : Mach) : Prop where
  rest : ∃ cores, m' = { m with cores := cores }
  core : ∀ d, (m.core d).Corrected (m'.core d)

namespace Mach.Fixed

theorem refl (m : Mach) : m.Fixed m := ⟨⟨m.cores, rfl⟩, fun _ => .refl _⟩

theorem correct {m m' : Mach} (h : m.Fixed m') (c a n : Nat) : m.Fixed (m'.modCore c (·.correct a n)) := by
  obtain ⟨⟨_, rfl⟩, hcore⟩ := h
  refine ⟨⟨_, rfl⟩, fun d => (hcore d).trans ?_⟩
  rw [Mach.core_modCore]
  split
  · subst_vars
    exact Core.corrected_correct _ _ _
  · exact .refl _

theorem mem {m m' : Mach} (h : m.Fixed m') (d : Nat) : (m'.core d).mem = (m.core d).mem := by
  obtain ⟨_, _, hk⟩ := (h.core d).rest
  rw [hk]

theorem tset {m m' : Mach} (h : m.Fixed m') (d t : Nat) : (m'.core d).tset t = (m.core d).tset t := by
  obtain ⟨_, _, hk⟩ := (h.core d).rest
  rw [hk]
  rfl

theorem cur {m m' : Mach} (h : m.Fixed m') : m'.cur = m.cur := by
  obtain ⟨⟨_, rfl⟩, -⟩ := h
  rfl

theorem loaded {m m' : Mach} (h : m.Fixed m') (c : Nat) : m.Loaded m' c := by
  obtain ⟨⟨_, rfl⟩, hcore⟩ := h
  exact ⟨rfl, rfl, rfl, hcore c⟩

theorem heldRange {m m' : Mach} (h : m.Fixed m') (c a n : Nat) : m'.heldRange c a n = m.heldRange c a n := by
  have hmat (d : Nat) : (m'.core d).mat = (m.core d).mat := by
    obtain ⟨_, _, hk⟩ := (h.core d).rest
    rw [hk]
  have hschur : (m'.core c).schur = (m.core c).schur := by
    obtain ⟨_, _, hk⟩ := (h.core c).rest
    rw [hk]
  have hleader (d : Nat) : m'.leaderOf d = m.leaderOf d := by
    obtain ⟨⟨_, rfl⟩, -⟩ := h
    rfl
  simp only [Mach.heldRange, Mach.matHeld, Mach.heldRow, hmat, hschur, hleader]

/-- The waits of an access are no others after the reads (R185). -/
theorem gate {m m' : Mach} (h : m.Fixed m') (c t a n : Nat) (store : Bool) : m'.gate c t a n store = m.gate c t a n store := by
  obtain ⟨_, _, hk⟩ := (h.core c).rest
  have hmark : (m'.core c).aboveMark a n = (m.core c).aboveMark a n := by rw [hk]; rfl
  have hchan : (m'.core c).chan = (m.core c).chan := by rw [hk]
  have hjobs : (m'.core c).jobBlocks a n store = (m.core c).jobBlocks a n store := by rw [hk]; rfl
  have hnet : m'.net = m.net := (h.loaded c).net
  simp only [Mach.gate, Mach.unaccepted, hmark, hchan, hjobs, hnet, h.tset, h.heldRange]
  rfl

/-- Nor is an access that was admitted refused. -/
theorem admits {m m' : Mach} (h : m.Fixed m') {c t a n : Nat} {store : Bool} (ha : m.admits c t a n store = true) :
    m'.admits c t a n store = true := by
  obtain ⟨hg, hb, hp⟩ := admits_iff.mp ha
  obtain ⟨_, _, hk⟩ := (h.core c).rest
  refine admits_iff.mpr ⟨(h.gate c t a n store).trans hg, (h.core c).badRead hb, fun hs => ?_⟩
  rw [hk]
  exact hp hs

end Mach.Fixed

/-- A part of a meaning that, whatever single-bit errors have been corrected before, gives `v` and corrects some more at most. -/
def Mach.Gives {α : Type} (m : Mach) (x : Act α) (v : α) : Prop := ∀ m', m.Fixed m' → ∃ m'', x.run m' = .ok v m'' ∧ m.Fixed m''

/-- A part of a meaning that traps, whatever single-bit errors have been corrected before. -/
def Mach.Traps {α : Type} (m : Mach) (x : Act α) (r : FaultRec) : Prop := ∀ m', m.Fixed m' → ∃ m'', x.run m' = .error (.trap r) m''

section
variable {m : Mach} {α β : Type}

theorem Mach.Gives.bind {x : Act α} {f : α → Act β} {a : α} {b : β} (h : m.Gives x a) (h' : m.Gives (f a) b) : m.Gives (x >>= f) b :=
  fun m₁ h₁ => by
    obtain ⟨m₂, hr, h₂⟩ := h m₁ h₁
    obtain ⟨m₃, hr', h₃⟩ := h' m₂ h₂
    exact ⟨m₃, (run_bind_ok hr).trans hr', h₃⟩

theorem Mach.Gives.traps {x : Act α} {f : α → Act β} {a : α} {r : FaultRec} (h : m.Gives x a) (h' : m.Traps (f a) r) :
    m.Traps (x >>= f) r := fun m₁ h₁ => by
  obtain ⟨m₂, hr, h₂⟩ := h m₁ h₁
  obtain ⟨m₃, hr'⟩ := h' m₂ h₂
  exact ⟨m₃, (run_bind_ok hr).trans hr'⟩

theorem Mach.gives_pure (v : α) : m.Gives (pure v) v := fun m' h => ⟨m', rfl, h⟩

theorem Mach.gives_require {b : Bool} (h : b = true) (r : FaultRec) : m.Gives (require b r) () :=
  fun m' hm => ⟨m', require_passes h r m', hm⟩

theorem Mach.Traps.bind {x : Act α} {f : α → Act β} {r : FaultRec} (h : m.Traps x r) : m.Traps (x >>= f) r := fun m' hm => by
  obtain ⟨m'', hr⟩ := h m' hm
  exact ⟨m'', run_bind_error hr⟩

theorem Mach.traps_require {b : Bool} (h : b = false) (r : FaultRec) : m.Traps (require b r) r :=
  fun m' _ => ⟨m', require_stops h r m'⟩

/-- What is made of the core's memory is what it was before the reads. -/
theorem gives_myCore {c t : Nat} (hc : m.cur = .core c t) {f : Core → Act β} {b : β}
    (h : ∀ k, (m.core c).Corrected k → m.Gives (f k) b) : m.Gives (myCore >>= f) b := fun m' hm => by
  rw [run_bind_ok (myCore_run m'), Mach.myCore_of_cur (hm.cur.trans hc)]
  exact h _ (hm.core c) m' hm

theorem gives_me {c t : Nat} (hc : m.cur = .core c t) : m.Gives me m.me := fun m' hm =>
  ⟨m', by rw [me_run, Mach.me_of_cur (hm.cur.trans hc), hm.tset, Mach.me_of_cur hc], hm⟩

end

section
variable {m : Mach} {c t : Nat} (hc : m.cur = .core c t)
include hc

theorem schurRead_gives {a n : Nat} (h : m.admits c t a n false = true) : m.Gives (schurRead a n) () := fun m' hm => by
  obtain ⟨hg, hb, -⟩ := admits_iff.mp (hm.admits h)
  have hcur := hm.cur.trans hc
  have hget : EStateM.run (get : Act Mach) m' = .ok m' m' := rfl
  refine ⟨_, ?_, hm.correct c a n⟩
  rw [schurRead, run_bind_ok (waitGate_run hcur hg _), run_bind_ok hget, eccRead, Mach.here_of_cur hcur, run_bind_ok hget, hb]
  rfl

/-- Ranges in which every store is admitted are ready. -/
theorem schurGate_gives {cs : List (Nat × Byte)} (h : ∀ w ∈ cellWords cs, m.admits c t (8 * w) 8 true = true) :
    m.Gives (schurGate cs) () := fun m' hm => by
  have hcur := hm.cur.trans hc
  have hget : EStateM.run (get : Act Mach) m' = .ok m' m' := rfl
  have hall (w : Nat) (hw : w ∈ cellWords cs) := admits_iff.mp (hm.admits (h w hw))
  have hgood : (m'.core c).badWrite cs = none :=
    List.find?_eq_none.mpr fun w hw => by simp [Core.ecc_of_badRead (hall w hw).2.1]
  have hfree : ((cellWords cs).findSome? fun w => ((m'.core c).protectedAt (8 * w) 8).map (w, ·)) = none :=
    List.findSome?_eq_none_iff.mpr fun w hw => by simp [(hall w hw).2.2 rfl]
  refine ⟨m', ?_, hm⟩
  rw [schurGate, run_bind_ok (gateWords_run hcur fun w hw => (hall w hw).1), run_bind_ok hget, Mach.myCore_of_cur hcur, hgood, hfree]
  rfl

end

/-! ## An operation begins (R243) -/

/-- The operation that a plan begins. -/
def SchurPlan.op (p : SchurPlan) (t clk : Nat) : Schur :=
  { ts := t, done := clk + p.cycles, ranges := p.ranges, writes := p.writes, result := p.result, singular := p.singular }

theorem runSchur_begins {m : Mach} {c t : Nat} (hc : m.cur = .core c t) (hfree : m.myCore.schur = none) {plan : Act SchurPlan}
    {p : SchurPlan} (h : m.Gives plan p) (a : Args) : (runSchur a plan m).run m =
      .error (.waitKeep .other) (m.modCore c fun k => { k with schur := some (p.op t m.clk) }) := by
  obtain ⟨m', hr, -⟩ := h m (.refl m)
  unfold runSchur
  rw [hfree]
  dsimp only
  rw [run_bind_ok hr, Mach.here_of_cur hc, Mach.tsNo_of_cur hc]
  rfl

theorem runSchur_traps {m : Mach} (hfree : m.myCore.schur = none) {plan : Act SchurPlan} {r : FaultRec} (h : m.Traps plan r) (a : Args) :
    ∃ m', (runSchur a plan m).run m = .error (.trap r) m' := by
  obtain ⟨m', hr⟩ := h m (.refl m)
  refine ⟨m', ?_⟩
  unfold runSchur
  rw [hfree]
  exact run_bind_error hr

/-- What an instruction whose operation begins leaves: the operation in the unit, its core's memory, and its thread set where it stands. -/
theorem begins_of_run {s : State} {c t : Nat} (hp : Plain s.mach c t = true) {sem : Act Unit} {q : Schur}
    (hr : sem.run s.mach = .error (.waitKeep .other) (s.mach.modCore c fun k => { k with schur := some q })) :
    ∃ v, issue sem s = .next v ∧ (v.mach.core c).schur = some q ∧ (v.mach.core c).mem = s.mach.myCore.mem ∧
      (v.mach.tset (.core c t)).pc = s.mach.me.pc ∧ (v.mach.tset (.core c t)).x = s.mach.me.x := by
  obtain ⟨hc, -, ht, -⟩ := Plain.iff.mp hp
  refine ⟨_, issue_waitKeep (Plain.alone hp) hr, ?_, ?_, ?_, ?_⟩
  · rw [hc, Mach.core_stall, if_pos rfl, Mach.core_modCore_same]
    rfl
  · rw [hc, Mach.mem_stall, Mach.core_modCore_same, Mach.myCore_of_cur hc]
  · rw [hc, Mach.tset_stall _ _ ht, Mach.core_modCore_same, Mach.me_of_cur hc]
    rfl
  · rw [hc, Mach.tset_stall _ _ ht, Mach.core_modCore_same, Mach.me_of_cur hc]
    rfl

end Sys2Proof.Machine
end

section
/-! PROOF. Message slots: their headers, their values, and the plans of `gacc`, `gsub` and `gres` (R91, R242, R244, R248). -/

namespace Sys2Proof.Machine

open Sys2Proof

/-! ## Records -/

theorem triSize_two_mul (n : Nat) : 2 * triSize n = n * (n + 1) := Nat.two_mul_div_two_of_even (Nat.even_mul_succ_self n)

theorem recordSize_eq (n : Nat) : recordSize n = 16 + 4 * n + 2 * n * (n + 1) := by
  have htri := triSize_two_mul n
  rw [recordSize, Nat.mul_assoc 2 n, ← htri]
  omega

/-- A record's values after its header. -/
theorem recordSize_values (n : Nat) : (recordSize n - 16) / 4 = n + triSize n := by
  rw [recordSize]
  omega

/-! ## Numbers in memory -/

theorem leNat_lt (bs : List Byte) : leNat bs < 256 ^ bs.length := by
  induction bs with
  | nil => exact Nat.one_pos
  | cons b bs ih =>
    have hb := b.isLt
    rw [leNat, List.length_cons, Nat.pow_succ]
    omega

theorem Core.number_lt (k : Core) (a n : Nat) : k.number a n < 256 ^ n := by
  rw [← Core.readN_eq_number]
  have h := leNat_lt (Memory.bytes k.mem a n)
  rwa [Memory.length_bytes] at h

theorem Core.mem64_toNat (k : Core) {a : Nat} (h : a % 8 = 0) : (k.mem64 a).toNat = k.number a 8 := by
  have hlt : k.number a 8 < 2 ^ 64 := k.number_lt a 8
  rw [Core.mem64, Nat.div_mul_cancel (Nat.dvd_of_mod_eq_zero h), Core.readN_eq_number, wd, BitVec.toNat_ofNat, Nat.mod_eq_of_lt hlt]

theorem Core.Corrected.number {k k' : Core} (h : k.Corrected k') (a n : Nat) : k'.number a n = k.number a n := by
  obtain ⟨⟨_, _, rfl⟩, -⟩ := h
  rfl

theorem Core.Corrected.mem64 {k k' : Core} (h : k.Corrected k') (a : Nat) : k'.mem64 a = k.mem64 a := by
  obtain ⟨⟨_, _, rfl⟩, -⟩ := h
  rfl

theorem Core.Corrected.floats {k k' : Core} (h : k.Corrected k') (a n : Nat) :
    k'.floats a n = (List.range n).map fun i => k.number (a + 4 * i) 4 := by
  simp only [Core.floats, Core.readN_eq_number, h.number]

/-! ## Values as cells -/

theorem floatCells_map (a n : Nat) (g : Nat → Nat) : floatCells a ((List.range n).map g) = (List.range n).flatMap fun i =>
    (List.range 4).map fun b => (a + 4 * i + b, BitVec.ofNat 8 (g i / 256 ^ b)) := by
  have hbytes (i : Nat) : leBytes (g i) 4 = (List.range 4).map fun b => BitVec.ofNat 8 (g ((4 * i + b) / 4) / 256 ^ ((4 * i + b) % 4)) := by
    rw [leBytes_eq_map]
    refine List.map_congr_left fun b hb => ?_
    have hb := List.mem_range.mp hb
    rw [show (4 * i + b) / 4 = i by omega, show (4 * i + b) % 4 = b by omega]
  have hcells (i : Nat) : (List.range 4).map (fun b => (a + 4 * i + b, BitVec.ofNat 8 (g i / 256 ^ b))) =
      (List.range 4).map fun b => (a + (4 * i + b), BitVec.ofNat 8 (g ((4 * i + b) / 4) / 256 ^ ((4 * i + b) % 4))) :=
    List.map_congr_left fun b hb => by
      have hb := List.mem_range.mp hb
      rw [show (4 * i + b) / 4 = i by omega, show (4 * i + b) % 4 = b by omega, Nat.add_assoc]
  rw [floatCells, List.flatMap_map]
  simp only [hbytes, hcells]
  rw [flatMap_range_four fun b => BitVec.ofNat 8 (g (b / 4) / 256 ^ (b % 4)), cellsAt_map_range,
    flatMap_range_four fun b => (a + b, BitVec.ofNat 8 (g (b / 4) / 256 ^ (b % 4)))]

theorem mem_cellWords {cs : List (Nat × Byte)} {w : Nat} : w ∈ cellWords cs ↔ ∃ x ∈ cs, x.1 / 8 = w := by
  rw [cellWords, List.mem_eraseDups, List.mem_map]

/-- The words of values that begin at a word. -/
theorem cellWords_floatCells {a : Nat} (ha : a % 8 = 0) {xs : List Nat} {w : Nat} (h : w ∈ cellWords (floatCells a xs)) :
    ∃ i < (xs.length + 1) / 2, 8 * w = a + 8 * i := by
  obtain ⟨x, hx, rfl⟩ := mem_cellWords.mp h
  have hlen : (xs.flatMap fun x => leBytes x 4).length = 4 * xs.length := by
    simp [List.length_flatMap, Nat.mul_comm]
  obtain ⟨hlo, hhi⟩ := bounds_of_mem_cellsAt hx
  rw [hlen] at hhi
  exact ⟨x.1 / 8 - a / 8, by omega, by omega⟩

theorem cellWords_append {cs ds : List (Nat × Byte)} {w : Nat} : w ∈ cellWords (cs ++ ds) ↔ w ∈ cellWords cs ∨ w ∈ cellWords ds := by
  simp only [mem_cellWords, List.mem_append, or_and_right, exists_or]

/-- The words of bytes that begin at a word. -/
theorem cellWords_cellsAt {a : Nat} (ha : a % 8 = 0) {bs : List Byte} {w : Nat} (h : w ∈ cellWords (cellsAt a bs)) :
    ∃ i < (bs.length + 7) / 8, 8 * w = a + 8 * i := by
  obtain ⟨x, hx, rfl⟩ := mem_cellWords.mp h
  obtain ⟨hlo, hhi⟩ := bounds_of_mem_cellsAt hx
  exact ⟨x.1 / 8 - a / 8, by omega, by omega⟩

/-! ## The checks of operands (R242) -/

/-- A message slot of dimension `n` at `x`, whose words may be read (R91). -/
structure Mach.SlotAt (m : Mach) (c t x n : Nat) : Prop where
  low : 1 ≤ n
  high : n ≤ 6
  aligned : x % 128 = 0
  fits : x + recordSize n ≤ 65536
  dim : (m.core c).number x 8 / 2 ^ 27 % 8 = n
  kind : (m.core c).number x 8 / 2 ^ 19 % 2 ^ 7 = 0
  second : (m.core c).number (x + 8) 8 % 2 ^ 32 = 0
  head : m.admits c t x 16 false = true
  whole : m.admits c t x (recordSize n) false = true

section
variable {m : Mach} {c t : Nat}

theorem schurOff_gives {x : Word} {al : Nat} (hx : x.toNat < 65536) (hal : x.toNat % al = 0) : m.Gives (schurOff x al) x.toNat := by
  have hfld : fld x 63 16 = 0 := by
    rw [fld, Nat.div_eq_of_lt (show x.toNat < 2 ^ 16 from hx), Nat.zero_mod]
  exact (Mach.gives_require (by simp [hfld]) _).bind ((Mach.gives_require (by simp [hal]) _).bind (Mach.gives_pure _))

theorem schurFits_gives {a n : Nat} (h : a + n ≤ 65536) : m.Gives (schurFits a n) () := Mach.gives_require (by simp [h]) _

theorem schurApart_gives {a n b k : Nat} {equalOk : Bool} (h : equalOk = true ∧ a = b ∨ a + n ≤ b ∨ b + k ≤ a) :
    m.Gives (schurApart a n b k equalOk) () := by
  refine Mach.gives_require ?_ _
  rcases h with ⟨rfl, rfl⟩ | h | h
  · simp
  · simp [meets, h]
  · simp [meets, h]

theorem Mach.SlotAt.lt {x n : Nat} (h : m.SlotAt c t x n) : x < 65536 := by
  have := h.fits
  rw [recordSize] at this
  omega

variable (hc : m.cur = .core c t)
include hc

theorem slotDim_gives {x n : Nat} (h : m.SlotAt c t x n) : m.Gives (slotDim x) n := by
  have hsize : 16 ≤ recordSize n := by rw [recordSize]; omega
  have h0 : x % 8 = 0 := by have := h.aligned; omega
  refine (schurFits_gives (by have := h.fits; omega)).bind ((schurRead_gives hc h.head).bind (gives_myCore hc fun k hk => ?_))
  have hw0 := (congrArg BitVec.toNat (hk.mem64 x)).trans ((m.core c).mem64_toNat h0)
  have hw1 := (congrArg BitVec.toNat (hk.mem64 (x + 8))).trans ((m.core c).mem64_toNat (a := x + 8) (by omega))
  have hkind : fld (k.mem64 x) 25 19 = 0 := by
    rw [fld, hw0]
    exact h.kind
  have hsecond : fld (k.mem64 (x + 8)) 31 0 = 0 := by
    rw [fld, hw1, Nat.pow_zero, Nat.div_one]
    exact h.second
  have hdim : fld (k.mem64 x) 29 27 = n := by
    rw [fld, hw0]
    exact h.dim
  have hlow := h.low
  have hhigh := h.high
  dsimp only
  rw [hkind, hsecond, hdim]
  refine (Mach.gives_require rfl _).bind ((Mach.gives_require ?_ _).bind ((schurFits_gives h.fits).bind
    ((schurRead_gives hc h.whole).bind (Mach.gives_pure n))))
  simp only [Bool.and_eq_true, bne_iff_ne]
  omega

/-! ## Sums, differences and residuals (R244, R248) -/

/-- Two slots of one dimension: the sum or difference is written over the first (R244). -/
theorem planAcc_gives {op : Nat → Nat → Nat} {d x : Word} {n : Nat} (hd : m.SlotAt c t d.toNat n) (hx : m.SlotAt c t x.toNat n)
    (hapart : d.toNat = x.toNat ∨ d.toNat + recordSize n ≤ x.toNat ∨ x.toNat + recordSize n ≤ d.toNat)
    (hw : ∀ i < (n + triSize n + 1) / 2, m.admits c t (d.toNat + 16 + 8 * i) 8 true = true) : m.Gives (planAcc op d x)
      { cycles := 24, ranges := [(d.toNat, recordSize n), (x.toNat, recordSize n)]
        writes := floatCells (d.toNat + 16) ((List.range (n + triSize n)).map fun i =>
          op ((m.core c).number (d.toNat + 16 + 4 * i) 4) ((m.core c).number (x.toNat + 16 + 4 * i) 4)) } := by
  refine (schurOff_gives hd.lt hd.aligned).bind ((schurOff_gives hx.lt hx.aligned).bind ((slotDim_gives hc hd).bind
    ((slotDim_gives hc hx).bind ((Mach.gives_require (by simp) _).bind ((schurApart_gives (by simpa using hapart)).bind
      (gives_myCore hc fun k hk => ?_))))))
  dsimp only
  rw [hk.floats, hk.floats, List.zipWith_map, List.zipWith_self]
  refine (schurGate_gives hc fun w h => ?_).bind (Mach.gives_pure _)
  obtain ⟨i, hi, hat⟩ := cellWords_floatCells (by have := hd.aligned; omega) h
  rw [hat]
  refine hw i (hi.trans_le ?_)
  simp

/-- Slots of unlike dimensions trap (R244). -/
theorem planAcc_traps {op : Nat → Nat → Nat} {d x : Word} {n n' : Nat} (hd : m.SlotAt c t d.toNat n) (hx : m.SlotAt c t x.toNat n')
    (hne : n ≠ n') : m.Traps (planAcc op d x) { faultOf Cause.illegalOperation with addr := x } := by
  have htrap : m.Traps (planAcc op d x) { faultOf Cause.illegalOperation with addr := wd x.toNat } :=
    (schurOff_gives hd.lt hd.aligned).traps ((schurOff_gives hx.lt hx.aligned).traps ((slotDim_gives hc hd).traps
      ((slotDim_gives hc hx).traps (Mach.traps_require (beq_false_of_ne hne) _).bind)))
  rwa [show wd x.toNat = x by simp [wd]] at htrap

/-- The residual of two slots of one dimension is the greatest magnitude of a difference (R248). -/
theorem planRes_gives {x y : Word} {n : Nat} (hx : m.SlotAt c t x.toNat n) (hy : m.SlotAt c t y.toNat n)
    (hapart : x.toNat = y.toNat ∨ x.toNat + recordSize n ≤ y.toNat ∨ y.toNat + recordSize n ≤ x.toNat) : m.Gives (planRes x y)
      { cycles := 24, ranges := [(x.toNat, recordSize n), (y.toNat, recordSize n)]
        result := some (wd (((List.range (n + triSize n)).map fun i =>
          residual ((m.core c).number (x.toNat + 16 + 4 * i) 4) ((m.core c).number (y.toNat + 16 + 4 * i) 4)).foldl max 0)) } := by
  refine (schurOff_gives hx.lt hx.aligned).bind ((schurOff_gives hy.lt hy.aligned).bind ((slotDim_gives hc hx).bind
    ((slotDim_gives hc hy).bind ((Mach.gives_require (by simp) _).bind ((schurApart_gives (by simpa using hapart)).bind
      (gives_myCore hc fun k hk => ?_))))))
  dsimp only
  rw [hk.floats, hk.floats, List.zipWith_map, List.zipWith_self]
  exact Mach.gives_pure _

end

end Sys2Proof.Machine
end

section
/-! PROOF. Elimination: a record's matrix and vector as functions, and what a pivot eliminated makes of them (R245, R247). -/

namespace Sys2Proof.Machine

open Sys2Proof

/-! ## Places in the packed triangle (R91) -/

/-- The place at which row `i` of a packed upper triangle begins. -/
def triRow (n i : Nat) : Nat := i * n - i * (i - 1) / 2

theorem triRow_succ {n i : Nat} (h : i < n) : triRow n (i + 1) = triRow n i + (n - i) := by
  have hle : i * (i - 1) / 2 ≤ i * n := (Nat.div_le_self _ _).trans (Nat.mul_le_mul_left i (by omega))
  have hstep := Nat.triangle_succ i
  rw [triRow, triRow, hstep, Nat.succ_mul]
  omega

theorem triRow_mono {n i j : Nat} (hij : i ≤ j) (hj : j ≤ n) : triRow n i ≤ triRow n j := by
  induction j, hij using Nat.le_induction with
  | base => exact le_rfl
  | succ j hij ih =>
    rw [triRow_succ (by omega)]
    exact (ih (by omega)).trans (Nat.le_add_right _ _)

theorem triRow_self (n : Nat) : triRow n n = triSize n := by
  have htri := triSize_two_mul n
  have hpred := Nat.two_mul_div_two_of_even (Nat.even_mul_pred_self n)
  rw [triRow]
  cases n with
  | zero => rfl
  | succ k =>
    rw [Nat.add_sub_cancel] at hpred ⊢
    have h₁ : (k + 1) * (k + 1) = (k + 1) * k + (k + 1) := by ring
    have h₂ : (k + 1) * (k + 1 + 1) = (k + 1) * k + 2 * (k + 1) := by ring
    omega

theorem triAt_of_le (n : Nat) {i j : Nat} (h : i ≤ j) : triAt n i j = triRow n i + (j - i) := by
  rw [triAt, Nat.min_eq_left h, Nat.max_eq_right h]
  rfl

theorem triAt_min_max (n i j : Nat) : triAt n (min i j) (max i j) = triAt n i j := by
  rcases Nat.le_total i j with h | h
  · rw [Nat.min_eq_left h, Nat.max_eq_right h]
  · rw [Nat.min_eq_right h, Nat.max_eq_left h, triAt, triAt, Nat.min_comm, Nat.max_comm]

/-- A place of row `i` comes before every later row. -/
theorem triAt_lt_triRow {n i j : Nat} (h : i ≤ j) (hj : j < n) : triAt n i j < triRow n (i + 1) := by
  rw [triAt_of_le n h, triRow_succ (by omega)]
  omega

theorem triAt_lt {n i j : Nat} (h : i ≤ j) (hj : j < n) : triAt n i j < triSize n :=
  (triAt_lt_triRow h hj).trans_le ((triRow_mono (by omega) le_rfl).trans_eq (triRow_self n))

/-- Distinct places hold distinct entries. -/
theorem triAt_inj {n i j i' j' : Nat} (h : i ≤ j) (hj : j < n) (h' : i' ≤ j') (hj' : j' < n) (heq : triAt n i j = triAt n i' j') :
    i = i' ∧ j = j' := by
  have hrow {a b a' b' : Nat} (h : a ≤ b) (hb : b < n) (h' : a' ≤ b') (hb' : b' < n) (heq : triAt n a b = triAt n a' b') : a' ≤ a := by
    by_contra hlt
    have hbefore := (triAt_lt_triRow h hb).trans_le (triRow_mono (show a + 1 ≤ a' by omega) (by omega))
    rw [heq, triAt_of_le n h'] at hbefore
    omega
  obtain rfl : i = i' := Nat.le_antisymm (hrow h' hj' h hj heq.symm) (hrow h hj h' hj' heq)
  rw [triAt_of_le n h, triAt_of_le n h'] at heq
  omega

/-! ## Entries changed one after another -/

/-- Entries changed at distinct places, each by what stood there. -/
theorem getD_foldl_set {κ : Type} (place : κ → Nat) (g : κ → Nat → Nat) (keys : List κ) (xs : List Nat) (hnodup : (keys.map place).Nodup)
    (hlt : ∀ k ∈ keys, place k < xs.length) :
    let ys := keys.foldl (fun xs k => xs.set (place k) (g k (xs.getD (place k) 0))) xs
    ys.length = xs.length ∧ (∀ k ∈ keys, ys.getD (place k) 0 = g k (xs.getD (place k) 0)) ∧
      ∀ p, p ∉ keys.map place → ys.getD p 0 = xs.getD p 0 := by
  induction keys generalizing xs with
  | nil => exact ⟨rfl, fun k hk => absurd hk List.not_mem_nil, fun p _ => rfl⟩
  | cons k keys ih =>
    rw [List.map_cons, List.nodup_cons] at hnodup
    obtain ⟨hfresh, hnodup⟩ := hnodup
    obtain ⟨hk, hlt⟩ := List.forall_mem_cons.mp hlt
    have hother {p : Nat} (hp : p ≠ place k) : (xs.set (place k) (g k (xs.getD (place k) 0))).getD p 0 = xs.getD p 0 := by
      rw [List.getD_eq_getElem?_getD, List.getElem?_set_ne (Ne.symm hp), List.getD_eq_getElem?_getD]
    obtain ⟨hlen, hin, hout⟩ := ih (xs.set (place k) (g k (xs.getD (place k) 0))) hnodup (by simpa using hlt)
    refine ⟨hlen.trans (List.length_set ..), fun k' hk' => ?_, fun p hp => ?_⟩
    · rcases List.mem_cons.mp hk' with rfl | hk'
      · rw [List.foldl_cons, hout _ hfresh, List.getD_eq_getElem?_getD, List.getElem?_set_self hk]
        rfl
      · rw [List.foldl_cons, hin k' hk', hother]
        exact fun h => hfresh (h ▸ List.mem_map_of_mem hk')
    · rw [List.map_cons, List.mem_cons, not_or] at hp
      rw [List.foldl_cons, hout p hp.2, hother hp.1]

/-! ## One pivot -/

/-- An entry of the matrix after pivot `p`. -/
def Joint.newLam (m : Joint) (p : Nat) (ij : Nat × Nat) (v : Nat) : Nat :=
  sub32 v (mul32 (div32 (m.at_ ij.1 p) (m.at_ p p)) (m.at_ p ij.2))

/-- An entry of the vector after pivot `p`. -/
def Joint.newEta (m : Joint) (p i v : Nat) : Nat := sub32 v (mul32 (div32 (m.at_ i p) (m.at_ p p)) (m.h p))

/-- The entries that the elimination from the variables `rm` changes, row by row. -/
def pairsOf (l rm : List Nat) : List (Nat × Nat) := l.flatMap fun i => (rm.filter (i ≤ ·)).map (i, ·)

/-- The matrix with entries changed. -/
def Joint.lamAfter (m : Joint) (p : Nat) (ijs : List (Nat × Nat)) (lam : List Nat) : List Nat :=
  ijs.foldl (fun lam ij => lam.set (triAt m.n ij.1 ij.2) (m.newLam p ij (lam.getD (triAt m.n ij.1 ij.2) 0))) lam

/-- The vector with entries changed. -/
def Joint.etaAfter (m : Joint) (p : Nat) (is : List Nat) (eta : List Nat) : List Nat :=
  is.foldl (fun eta i => eta.set i (m.newEta p i (eta.getD i 0))) eta

/-- The elimination changes the matrix and the vector, each by itself. -/
theorem Joint.eliminate_eq (m : Joint) (rm : List Nat) (p : Nat) :
    m.eliminate rm p = { n := m.n, lam := m.lamAfter p (pairsOf rm rm) m.lam, eta := m.etaAfter p rm m.eta } := by
  have hrow (i : Nat) (l : List Nat) (r : Joint) (hr : r.n = m.n) :
      l.foldl (fun r j => if j < i then r
        else { r with lam := r.lam.set (triAt r.n i j) (sub32 (r.at_ i j) (mul32 (div32 (m.at_ i p) (m.at_ p p)) (m.at_ p j))) }) r =
      { r with lam := m.lamAfter p ((l.filter (i ≤ ·)).map (i, ·)) r.lam } := by
    induction l generalizing r with
    | nil => rfl
    | cons j l ih =>
      rw [List.foldl_cons]
      by_cases hj : j < i
      · rw [if_pos hj, ih r hr, List.filter_cons_of_neg (by simpa using hj)]
      · rw [if_neg hj, List.filter_cons_of_pos (by simpa using hj)]
        refine (ih _ ?_).trans ?_
        · exact hr
        simp only [Joint.lamAfter, List.map_cons, List.foldl_cons, Joint.newLam, Joint.at_, hr]
  have hall (l : List Nat) (r : Joint) (hr : r.n = m.n) :
      (l.map fun i => (i, div32 (m.at_ i p) (m.at_ p p))).foldl (fun r il =>
        let r := rm.foldl (fun r j => if j < il.1 then r
          else { r with lam := r.lam.set (triAt r.n il.1 j) (sub32 (r.at_ il.1 j) (mul32 il.2 (m.at_ p j))) }) r
        { r with eta := r.eta.set il.1 (sub32 (r.h il.1) (mul32 il.2 (m.h p))) }) r =
      { n := m.n, lam := m.lamAfter p (pairsOf l rm) r.lam, eta := m.etaAfter p l r.eta } := by
    induction l generalizing r with
    | nil =>
      obtain ⟨_, _, _⟩ := r
      subst hr
      rfl
    | cons i l ih =>
      rw [List.map_cons, List.foldl_cons]
      rw [hrow i rm r hr]
      refine (ih _ ?_).trans ?_
      · exact hr
      simp only [Joint.lamAfter, Joint.etaAfter, pairsOf, List.flatMap_cons, List.foldl_append, List.foldl_cons, Joint.newEta, Joint.h]
  exact hall rm m rfl

/-- A record's matrix and vector are these functions. -/
structure Joint.Shows (m : Joint) (n : Nat) (r : (Nat → Nat → Nat) × (Nat → Nat)) : Prop where
  dim : m.n = n
  lamSize : m.lam.length = triSize n
  etaSize : m.eta.length = n
  at_ : ∀ i < n, ∀ j < n, m.at_ i j = r.1 i j
  h : ∀ i < n, m.h i = r.2 i

/-- A matrix and a vector from which pivot `p` is eliminated, among the variables that are left. -/
def dropOver (left : Nat → Bool) (p : Nat) (r : (Nat → Nat → Nat) × (Nat → Nat)) : (Nat → Nat → Nat) × (Nat → Nat) :=
  (fun i l => if left i && left l then sub32 (r.1 i l) (mul32 (div32 (r.1 (min i l) p) (r.1 p p)) (r.1 p (max i l))) else r.1 i l,
    fun i => if left i then sub32 (r.2 i) (mul32 (div32 (r.1 i p) (r.1 p p)) (r.2 p)) else r.2 i)

theorem mem_pairsOf {l rm : List Nat} {i j : Nat} : (i, j) ∈ pairsOf l rm ↔ i ∈ l ∧ j ∈ rm ∧ i ≤ j := by
  simp only [pairsOf, List.mem_flatMap, List.mem_map, List.mem_filter, decide_eq_true_eq, Prod.mk.injEq]
  constructor
  · rintro ⟨_, hi, _, ⟨hj, hle⟩, rfl, rfl⟩
    exact ⟨hi, hj, hle⟩
  · rintro ⟨hi, hj, hle⟩
    exact ⟨i, hi, j, ⟨hj, hle⟩, rfl, rfl⟩

theorem nodup_pairsOf {l rm : List Nat} (hl : l.Nodup) (hrm : rm.Nodup) : (pairsOf l rm).Nodup := by
  refine List.nodup_flatMap.mpr ⟨fun i _ => (hrm.filter _).map fun _ _ h => (Prod.mk.inj h).2, ?_⟩
  refine hl.imp fun {i i'} hne => ?_
  rw [Function.onFun, List.disjoint_left]
  simp only [List.mem_map]
  rintro _ ⟨_, _, rfl⟩ ⟨_, _, h⟩
  exact hne (Prod.mk.inj h).1.symm

/-- The places of the entries changed are distinct. -/
theorem nodup_places {n : Nat} {rm : List Nat} (hrm : rm.Nodup) (hlt : ∀ i ∈ rm, i < n) :
    ((pairsOf rm rm).map fun ij => triAt n ij.1 ij.2).Nodup := by
  refine (nodup_pairsOf hrm hrm).map_on ?_
  rintro ⟨i, j⟩ hij ⟨i', j'⟩ hij' heq
  obtain ⟨-, hj, hle⟩ := mem_pairsOf.mp hij
  obtain ⟨-, hj', hle'⟩ := mem_pairsOf.mp hij'
  obtain ⟨rfl, rfl⟩ := triAt_inj hle (hlt j hj) hle' (hlt j' hj') heq
  rfl

theorem Joint.Shows.eliminate {m : Joint} {n p : Nat} {r : (Nat → Nat → Nat) × (Nat → Nat)} (h : m.Shows n r) (hp : p < n)
    {rm : List Nat} (hrm : rm.Nodup) (hlt : ∀ i ∈ rm, i < n) {left : Nat → Bool} (hleft : ∀ i < n, left i = decide (i ∈ rm)) :
    (m.eliminate rm p).Shows n (dropOver left p r) := by
  obtain ⟨rfl, hlam, heta, hat, hh⟩ := h
  obtain ⟨hlamLen, hlamIn, hlamOut⟩ := getD_foldl_set (fun ij => triAt m.n ij.1 ij.2) (m.newLam p) (pairsOf rm rm) m.lam (nodup_places hrm hlt)
    (by
      rintro ⟨i, j⟩ hij
      obtain ⟨-, hj, hle⟩ := mem_pairsOf.mp hij
      rw [hlam]
      exact triAt_lt hle (hlt j hj))
  obtain ⟨hetaLen, hetaIn, hetaOut⟩ := getD_foldl_set id (m.newEta p) rm m.eta (by simpa using hrm) fun i hi => heta ▸ hlt i hi
  rw [Joint.eliminate_eq]
  refine ⟨rfl, hlamLen.trans hlam, hetaLen.trans heta, fun i hi j hj => ?_, fun i hi => ?_⟩
  · have hmin : min i j < m.n := by omega
    have hmax : max i j < m.n := by omega
    rw [Joint.at_, ← triAt_min_max]
    unfold dropOver
    dsimp only
    rw [hleft i hi, hleft j hj]
    by_cases hmem : i ∈ rm ∧ j ∈ rm
    · have hpair : (min i j, max i j) ∈ pairsOf rm rm := by
        rw [mem_pairsOf]
        rcases Nat.le_total i j with hij | hij
        · rw [Nat.min_eq_left hij, Nat.max_eq_right hij]
          exact ⟨hmem.1, hmem.2, hij⟩
        · rw [Nat.min_eq_right hij, Nat.max_eq_left hij]
          exact ⟨hmem.2, hmem.1, hij⟩
      have hold : m.lam.getD (triAt m.n (min i j) (max i j)) 0 = r.1 i j := by
        rw [triAt_min_max, ← hat i hi j hj]
        rfl
      rw [if_pos (by simp [hmem])]
      refine (hlamIn _ hpair).trans ?_
      rw [hold, Joint.newLam, hat _ hmin p hp, hat p hp p hp, hat p hp _ hmax]
    · rw [if_neg (by simpa using hmem)]
      refine (hlamOut _ ?_).trans ?_
      · rw [List.mem_map]
        rintro ⟨⟨a, b⟩, hab, heq⟩
        obtain ⟨ha, hb, hle⟩ := mem_pairsOf.mp hab
        obtain ⟨hmin', hmax'⟩ := triAt_inj hle (hlt b hb) (Nat.min_le_left i j |>.trans (Nat.le_max_left i j)) hmax heq
        rcases Nat.le_total i j with hij | hij
        · rw [Nat.min_eq_left hij] at hmin'
          rw [Nat.max_eq_right hij] at hmax'
          exact hmem ⟨hmin' ▸ ha, hmax' ▸ hb⟩
        · rw [Nat.min_eq_right hij] at hmin'
          rw [Nat.max_eq_left hij] at hmax'
          exact hmem ⟨hmax' ▸ hb, hmin' ▸ ha⟩
      · rw [triAt_min_max, ← hat i hi j hj]
        rfl
  · unfold dropOver
    dsimp only
    rw [hleft i hi, ← hh i hi, ← hh p hp, ← hat i hi p hp, ← hat p hp p hp]
    by_cases hmem : i ∈ rm
    · rw [if_pos (by simpa using hmem)]
      exact hetaIn i hmem
    · rw [if_neg (by simpa using hmem)]
      exact hetaOut i (by simpa using hmem)

end Sys2Proof.Machine
end

section
/-! PROOF. Pivots eliminated in order, and the solution by back substitution (R245, R247, R249). -/

namespace Sys2Proof.Machine

open Sys2Proof

/-! ## Pivots in order -/

theorem Joint.factor_append (tau : Nat) (rest : Nat → List Nat) (ps qs : List Nat) (m : Joint) (w : Nat) :
    m.factor tau rest (ps ++ qs) w = match m.factor tau rest ps w with
      | .ok (m', w') => m'.factor tau rest qs w'
      | .error e => .error e := by
  induction ps generalizing m w with
  | nil => rfl
  | cons p ps ih =>
    rw [List.cons_append, Joint.factor, Joint.factor]
    split
    · exact ih _ _
    · rfl

section
variable (n base tau : Nat) (left : Nat → Nat → Bool) (rest : Nat → List Nat) (start : (Nat → Nat → Nat) × (Nat → Nat))

/-- The matrix and the vector after the first `q` pivots from `base` on. -/
def dropped (q : Nat) : (Nat → Nat → Nat) × (Nat → Nat) :=
  (List.range q).foldl (fun r q => dropOver (left (base + q)) (base + q) r) start

/-- The pivot that stands `q`-th, when those before it are eliminated. -/
def pivotAt (q : Nat) : Nat := (dropped base left start q).1 (base + q) (base + q)

/-- The cycles that the first `q` pivots cost (R249). -/
def pivotCost (q : Nat) : Nat := ((List.range q).map fun i => (rest (base + i)).length * ((rest (base + i)).length + 3) / 2).sum

theorem pivotCost_succ (q : Nat) : pivotCost base rest (q + 1) =
    pivotCost base rest q + (rest (base + q)).length * ((rest (base + q)).length + 3) / 2 := by
  rw [pivotCost, List.range_succ, List.map_append, List.sum_append, List.map_singleton, List.sum_singleton]
  rfl

variable {n base tau left rest start} {k : Nat} {m : Joint}
  (hk : base + k ≤ n)
  (hrest : ∀ q < k, (rest (base + q)).Nodup ∧ (∀ i ∈ rest (base + q), i < n) ∧ ∀ i < n, left (base + q) i = decide (i ∈ rest (base + q)))
  (hm : m.Shows n start)
include hk hrest hm

/-- While each pivot exceeds the threshold it is eliminated (R245). -/
theorem Joint.factor_good {q : Nat} (hq : q ≤ k) (hgood : ∀ i < q, gt32 (pivotAt base left start i) tau = true) (w : Nat) :
    ∃ m', m.factor tau rest ((List.range q).map (base + ·)) w = .ok (m', w + pivotCost base rest q) ∧
      m'.Shows n (dropped base left start q) := by
  induction q with
  | zero => exact ⟨m, rfl, hm⟩
  | succ q ih =>
    obtain ⟨m', hrun, hshow⟩ := ih (by omega) fun i hi => hgood i (by omega)
    obtain ⟨hnodup, hlt, hleft⟩ := hrest q (by omega)
    have hpivot : m'.at_ (base + q) (base + q) = pivotAt base left start q := hshow.at_ _ (by omega) _ (by omega)
    refine ⟨m'.eliminate (rest (base + q)) (base + q), ?_, ?_⟩
    · rw [List.range_succ, List.map_append, Joint.factor_append, hrun, pivotCost_succ, List.map_singleton]
      dsimp only
      rw [Joint.factor, hpivot, if_pos (hgood q (by omega)), Joint.factor, ← Nat.add_assoc]
    · rw [dropped, List.range_succ, List.foldl_append]
      exact hshow.eliminate (by omega) hnodup hlt hleft

/-- The first pivot that does not exceed the threshold is singular (R245). -/
theorem Joint.factor_singular {b : Nat} (hb : b < k) (hgood : ∀ i < b, gt32 (pivotAt base left start i) tau = true)
    (hsing : gt32 (pivotAt base left start b) tau = false) (w : Nat) :
    m.factor tau rest ((List.range k).map (base + ·)) w = .error (base + b, pivotAt base left start b, w + pivotCost base rest b) := by
  obtain ⟨m', hrun, hshow⟩ := Joint.factor_good hk hrest hm hb.le hgood w
  obtain ⟨j, rfl⟩ := Nat.exists_eq_add_of_lt hb
  have hpivot : m'.at_ (base + b) (base + b) = pivotAt base left start b := hshow.at_ _ (by omega) _ (by omega)
  rw [Nat.add_assoc, List.range_add, List.map_append, Joint.factor_append, hrun, List.range_succ_eq_map]
  simp only [List.map_cons, Nat.add_zero]
  rw [Joint.factor, hpivot, if_neg (by simp [hsing])]

end

/-! ## The variables that are left -/

theorem filter_lt_range {n p : Nat} (h : p < n) : (List.range n).filter (p < ·) = (List.range (n - 1 - p)).map (p + 1 + ·) := by
  obtain ⟨j, rfl⟩ := Nat.exists_eq_add_of_lt h
  have hno : (List.range (p + 1)).filter (p < ·) = [] := by
    rw [List.filter_eq_nil_iff]
    intro a ha
    have ha := List.mem_range.mp ha
    simp only [decide_eq_true_eq]
    omega
  have hall : ((List.range j).map (p + 1 + ·)).filter (p < ·) = (List.range j).map (p + 1 + ·) := by
    rw [List.filter_eq_self]
    intro a ha
    obtain ⟨i, -, rfl⟩ := List.mem_map.mp ha
    simp only [decide_eq_true_eq]
    omega
  rw [show p + j + 1 = p + 1 + j by omega, List.range_add, List.filter_append, hno, hall, List.nil_append,
    show p + 1 + j - 1 - p = j by omega]

/-- The first `na` variables and those after a pivot that stands after them. -/
theorem rest_keeps {n na p : Nat} (hna : na ≤ p) (hp : p < n) :
    (List.range na ++ (List.range n).filter (p < ·)).Nodup ∧ (∀ i ∈ List.range na ++ (List.range n).filter (p < ·), i < n) ∧
      (∀ i < n, decide (i < na ∨ p < i) = decide (i ∈ List.range na ++ (List.range n).filter (p < ·))) ∧
      (List.range na ++ (List.range n).filter (p < ·)).length = na + (n - 1 - p) := by
  refine ⟨?_, fun i hi => ?_, fun i hi => ?_, ?_⟩
  · rw [List.nodup_append]
    refine ⟨List.nodup_range, List.nodup_range.filter _, fun i hi j hj => ?_⟩
    rw [List.mem_range] at hi
    rw [List.mem_filter, decide_eq_true_eq] at hj
    omega
  · rw [List.mem_append, List.mem_filter, List.mem_range, List.mem_range] at hi
    omega
  · rw [decide_eq_decide, List.mem_append, List.mem_filter, List.mem_range, List.mem_range, decide_eq_true_eq]
    omega
  · rw [filter_lt_range hp]
    simp

/-! ## Back substitution (R247) -/

/-- The mean of variable `i`, when those of the later variables are known. -/
def meanOf (r : (Nat → Nat → Nat) × (Nat → Nat)) (mu : List Nat) (i : Nat) : Nat :=
  div32 (mu.zipIdx.foldl (fun x v => sub32 x (mul32 (r.1 i (i + 1 + v.2)) v.1)) (r.2 i)) (r.1 i i)

theorem find_numbered (vs : List Nat) (k j : Nat) (h : j < vs.length) :
    ((vs.zipIdx k).map fun v => (v.2, v.1)).find? (·.1 == k + j) = some (k + j, vs.getD j 0) := by
  induction vs generalizing k j with
  | nil => cases h
  | cons v vs ih =>
    rw [List.zipIdx_cons, List.map_cons]
    cases j with
    | zero => simp
    | succ j =>
      rw [List.find?_cons_of_neg (by simp), show k + (j + 1) = k + 1 + j by omega, ih (k + 1) j (by simpa using h)]
      rfl

theorem zipIdx_eq_map_range (vs : List Nat) : vs.zipIdx = (List.range vs.length).map fun i => (vs.getD i 0, i) := by
  refine List.ext_getElem (by simp) fun i hi _ => ?_
  have hi : i < vs.length := by simpa using hi
  simp [hi]

theorem backSolve_eq {m : Joint} {n : Nat} {r : (Nat → Nat → Nat) × (Nat → Nat)} (hm : m.Shows n r) {k : Nat} (vs : List Nat)
    (hvs : k + vs.length = n) : (backSolve m k ((vs.zipIdx k).map fun v => (v.2, v.1))).map (·.2) =
      ((List.range k).reverse).foldl (fun mu i => meanOf r mu i :: mu) vs := by
  induction k generalizing vs with
  | zero =>
    rw [backSolve, List.map_map]
    exact (List.zipIdx_map_fst 0 vs)
  | succ k ih =>
    have hk : k < n := by omega
    have hsum : (List.range m.n).foldl (fun s j => if k < j then sub32 s (mul32 (m.at_ k j)
          ((((vs.zipIdx (k + 1)).map fun v => (v.2, v.1)).find? (·.1 == j)).map (·.2) |>.getD 0)) else s) (m.h k) =
        vs.zipIdx.foldl (fun x v => sub32 x (mul32 (r.1 k (k + 1 + v.2)) v.1)) (r.2 k) := by
      rw [hm.dim, ← hvs, List.range_add, List.foldl_append, zipIdx_eq_map_range vs, List.foldl_map, List.foldl_map, hm.h k hk]
      have hnone : (List.range (k + 1)).foldl (fun s j => if k < j then sub32 s (mul32 (m.at_ k j)
          ((((vs.zipIdx (k + 1)).map fun v => (v.2, v.1)).find? (·.1 == j)).map (·.2) |>.getD 0)) else s) (r.2 k) = r.2 k :=
        (List.foldl_ext _ (fun s _ => s) _ fun s j hj => if_neg (by have := List.mem_range.mp hj; omega)).trans (List.foldl_fixed _)
      rw [hnone]
      refine List.foldl_ext _ _ _ fun x i hi => ?_
      have hi := List.mem_range.mp hi
      rw [if_pos (by omega), find_numbered vs (k + 1) i hi, hm.at_ k hk _ (by omega)]
      rfl
    rw [backSolve, List.range_succ, List.reverse_append, List.reverse_singleton, List.foldl_append, List.foldl_cons, List.foldl_nil]
    rw [hsum, hm.at_ k hk k hk]
    exact ih (meanOf r vs k :: vs) (by rw [List.length_cons]; omega)

end Sys2Proof.Machine
end

section
/-! PROOF. The plans of `gschur`, `gdamp` and `gmean` (R245 to R247, R249). -/

namespace Sys2Proof.Machine

open Sys2Proof

/-! ## Records read -/

/-- The matrix of a record of dimension `n` whose values are `f`. -/
def lamOf (n : Nat) (f : Nat → Nat) (i l : Nat) : Nat :=
  f (n + min i l * n - min i l * (min i l - 1) / 2 + (max i l - min i l))

/-- The values of the record at `a`. -/
def Core.value (k : Core) (a i : Nat) : Nat := k.number (a + 16 + 4 * i) 4

theorem triAt_shift {n i j : Nat} (hi : i < n) :
    n + min i j * n - min i j * (min i j - 1) / 2 + (max i j - min i j) = n + triAt n i j := by
  have hle : min i j * (min i j - 1) / 2 ≤ min i j * n := (Nat.div_le_self _ _).trans (Nat.mul_le_mul_left _ (by omega))
  rw [triAt]
  omega

theorem Core.joint_shows (k : Core) (a n : Nat) : (k.joint a n).Shows n (lamOf n (k.value a), k.value a) := by
  refine ⟨rfl, by simp [Core.joint, Core.floats], by simp [Core.joint, Core.floats], fun i hi j hj => ?_, fun i hi => ?_⟩
  · have hlt : triAt n i j < triSize n := by
      rw [← triAt_min_max]
      exact triAt_lt (by omega) (by omega)
    have hval : (k.joint a n).at_ i j = k.readN (a + 16 + 4 * n + 4 * triAt n i j) 4 := by
      simp [Joint.at_, Core.joint, Core.floats, hlt]
    have hplace : lamOf n (k.value a) i j = k.number (a + 16 + 4 * (n + triAt n i j)) 4 := congrArg (k.value a) (triAt_shift hi)
    refine Eq.trans ?_ hplace.symm
    rw [hval, Core.readN_eq_number, Nat.mul_add, Nat.add_assoc (a + 16)]
  · have hval : (k.joint a n).h i = k.readN (a + 16 + 4 * i) 4 := by
      simp [Joint.h, Core.joint, Core.floats, hi]
    rw [hval, Core.readN_eq_number]
    rfl

theorem Core.Corrected.joint {k k' : Core} (h : k.Corrected k') (a n : Nat) : k'.joint a n = k.joint a n := by
  obtain ⟨⟨_, _, rfl⟩, -⟩ := h
  rfl

/-! ## Costs (R249) -/

theorem pivotCost_eq {n base q : Nat} {rest : Nat → List Nat} (hq : q ≤ n) (h : ∀ i < q, (rest (base + i)).length = n - 1 - i) :
    pivotCost base rest q = ((List.range q).map fun i => (n - 1 - i) * (n + 2 - i) / 2).sum := by
  refine congrArg List.sum (List.map_congr_left fun i hi => ?_)
  have hi := List.mem_range.mp hi
  rw [h i hi, show n - 1 - i + 3 = n + 2 - i by omega]

/-! ## The threshold (R242, R245) -/

/-- A pivot threshold that is neither negative nor infinite is in order. -/
theorem pivotOk_gives {m : Mach} {r : BitVec 32} (h : r.toNat < 0x7F800000) : m.Gives (pivotOk r) () := by
  have hmag : r.toNat % 2 ^ 31 = r.toNat := Nat.mod_eq_of_lt (by omega)
  obtain ⟨k, e, hread, -⟩ := read_f32_fin (x := r.toNat) (by omega)
  have hsign : signF32 r.toNat = false := by
    rw [signF32, Nat.div_eq_of_lt (by omega)]
    rfl
  rw [hsign] at hread
  refine Mach.gives_require ?_ _
  rw [hread]
  rfl

/-- The greatest of one number is that number. -/
theorem max32_singleton {x : Nat} (h : x % 2 ^ 31 ≤ 0x7F800000) : max32 [x] = x := by
  have hx := isNan_read_f32 (x := x) (Nat.not_lt.mpr h)
  have hinf : fmtF32.read false 0xFF800000 = .inf true := read_f32_inf (by decide)
  have hgt : gt32 0xFF800000 x = false := by
    unfold gt32
    dsimp only
    rw [hinf, hx]
    cases hr : fmtF32.read false x with
    | nan => rw [hr] at hx; cases hx
    | inf n => cases n <;> rfl
    | fin => rfl
  have hone : max32 [x] = if (fmtF32.read false x).isNan || (fmtF32.read false 0xFF800000).isNan then nan32
      else if gt32 0xFF800000 x then 0xFF800000 else x := rfl
  rw [hone, hx, hinf, hgt]
  rfl

/-! ## `gschur` (R245) -/

/-- The operands of a `gschur` that eliminates the last `nb` of `n` variables (R242, R245). -/
structure Mach.SchurOperands (m : Mach) (c t : Nat) (o j x : Word) (n nb : Nat) : Prop where
  count : x = BitVec.ofNat 64 nb
  dim : n ≤ 12
  one : 1 ≤ nb
  six : nb ≤ 6
  fewer : nb < n
  kept : n - nb ≤ 6
  threshold : m.me.kgpiv.toNat < 0x7F800000
  jAligned : j.toNat % 128 = 0
  oAligned : o.toNat % 128 = 0
  jFits : j.toNat + recordSize n ≤ 65536
  oFits : o.toNat + recordSize (n - nb) ≤ 65536
  apart : o.toNat = j.toNat ∨ o.toNat + recordSize (n - nb) ≤ j.toNat ∨ j.toNat + recordSize n ≤ o.toNat
  head : (m.core c).number j.toNat 8 = n
  second : (m.core c).number (j.toNat + 8) 8 = 0
  readHead : m.admits c t j.toNat 16 false = true
  readAll : m.admits c t j.toNat (recordSize n) false = true

/-- The variables from which `gschur` eliminates a pivot: those that stay, and those eliminated later. -/
def schurRest (n na p : Nat) : List Nat := List.range na ++ (List.range n).filter (p < ·)

/-- What a `gschur` does when it has tried its pivots: the plan of a singular block, or of the first variables' record. -/
def schurEnd (o j n na : Nat) (k : Core) : Except (Nat × Nat × Nat) (Joint × Nat) → Act SchurPlan
  | .error (p, v, w) =>
    return { cycles := 118 + w, ranges := [(j, recordSize n), (o, recordSize na)], singular := some (p - na, BitVec.ofNat 32 v) }
  | .ok (r, w) => do
    let head := k.mem64 o
    let word := wd (head.toNat - fld head 29 27 * 2 ^ 27 + na * 2 ^ 27)
    let lam := (List.range na).flatMap fun i => ((List.range na).filter (i ≤ ·)).map fun l => r.at_ i l
    let cs := cellsAt o (leBytes word.toNat 8) ++ floatCells (o + 16) ((List.range na).map r.h ++ lam)
    schurGate cs
    schurRead o 8
    return { cycles := 118 + w, ranges := [(j, recordSize n), (o, recordSize na)], writes := cs }

/-- The threshold of a `gschur`: kgpiv times the greatest of the diagonal of what it eliminates (R245). -/
def schurTau (m : Mach) (c j n nb : Nat) : Nat := mul32 m.me.kgpiv.toNat
  (max32 ((List.range nb).map fun q => lamOf n ((m.core c).value j) (n - nb + q) (n - nb + q)))

section
variable {m : Mach} {c t : Nat} (hc : m.cur = .core c t)
include hc

/-- A `gschur` of well-formed operands tries its pivots. -/
theorem planSchur_gives {o j x : Word} {n nb : Nat} (h : m.SchurOperands c t o j x n nb) {p : SchurPlan}
    (hend : ∀ k, (m.core c).Corrected k → m.Gives (schurEnd o.toNat j.toNat n (n - nb) k (((m.core c).joint j.toNat n).factor
      (schurTau m c j.toNat n nb) (schurRest n (n - nb)) ((List.range nb).map (n - nb + ·)) 0)) p) : m.Gives (planSchur o j x) p := by
  have hdim := h.dim
  have hone := h.one
  have hsix := h.six
  have hfewer := h.fewer
  have hkept := h.kept
  have hj : j.toNat < 65536 := by have := h.jFits; rw [recordSize] at this; omega
  have ho : o.toNat < 65536 := by have := h.oFits; rw [recordSize] at this; omega
  have hx : x.toNat = nb := by
    rw [h.count, BitVec.toNat_ofNat, Nat.mod_eq_of_lt (by omega)]
  have hxhi : fld x 63 3 = 0 := by rw [fld, hx]; omega
  have hxlo : fld x 2 0 = nb := by rw [fld, hx]; omega
  have hj8 : j.toNat % 8 = 0 := by have := h.jAligned; omega
  refine (schurOff_gives ho h.oAligned).bind ((schurOff_gives hj h.jAligned).bind ((Mach.gives_require (by simp [hxhi]) _).bind
    ((schurFits_gives (by have := h.jFits; rw [recordSize] at this; omega)).bind ((schurRead_gives hc h.readHead).bind
      (gives_myCore hc fun k hk => ?_)))))
  have hw0 := ((congrArg BitVec.toNat (hk.mem64 j.toNat)).trans ((m.core c).mem64_toNat hj8)).trans h.head
  have hw1 := ((congrArg BitVec.toNat (hk.mem64 (j.toNat + 8))).trans ((m.core c).mem64_toNat (a := j.toNat + 8) (by omega))).trans h.second
  have hn : fld (k.mem64 j.toNat) 3 0 = n := by rw [fld, hw0]; omega
  have hnhi : fld (k.mem64 j.toNat) 63 4 = 0 := by rw [fld, hw0]; omega
  have hzero : k.mem64 (j.toNat + 8) = 0 := BitVec.eq_of_toNat_eq hw1
  dsimp only
  rw [hn, hnhi, hzero, hxlo]
  refine (Mach.gives_require rfl _).bind ((Mach.gives_require (by simp; omega) _).bind ((Mach.gives_require (by simp; omega) _).bind
    ((gives_me hc).bind ((pivotOk_gives h.threshold).bind ((schurFits_gives h.jFits).bind ((schurFits_gives h.oFits).bind
      ((schurApart_gives (by have := h.apart; simp only [true_and]; omega)).bind ((schurRead_gives hc h.readAll).bind (gives_myCore hc fun k' hk' => ?_)))))))))
  have htau : max32 (((List.range nb).map (n - nb + ·)).map fun i => ((m.core c).joint j.toNat n).at_ i i) =
      max32 ((List.range nb).map fun q => lamOf n ((m.core c).value j.toNat) (n - nb + q) (n - nb + q)) := by
    rw [List.map_map]
    refine congrArg max32 (List.map_congr_left fun q hq => ?_)
    have hq := List.mem_range.mp hq
    have hlt : n - nb + q < n := by omega
    exact ((m.core c).joint_shows j.toNat n).at_ _ hlt _ hlt
  have hgoal := hend k' hk'
  rw [hk'.joint, htau]
  exact hgoal

end

end Sys2Proof.Machine
end

section
/-! PROOF. The ends of `gschur`, and the plans of `gdamp` and `gmean` (R245 to R247, R249). -/

namespace Sys2Proof.Machine

open Sys2Proof

/-! ## `gschur` ends (R245) -/

/-- The matrix and the vector of a record after the first `q` pivots of a `gschur`. -/
def schurAfter (m : Mach) (c j n na q : Nat) : (Nat → Nat → Nat) × (Nat → Nat) :=
  dropped na (fun p i => decide (i < na ∨ p < i)) (lamOf n ((m.core c).value j), (m.core c).value j) q

/-- The `q`-th pivot of a `gschur`, when those before it are eliminated. -/
def schurPivot (m : Mach) (c j n na q : Nat) : Nat := (schurAfter m c j n na q).1 (na + q) (na + q)

/-- The cycles of `q` pivots among `n` variables (R249). -/
def pivotCycles (n q : Nat) : Nat := ((List.range q).map fun i => (n - 1 - i) * (n + 2 - i) / 2).sum

/-- The header word of the output slot of a `gschur`: only its dimension is new (R245). -/
def schurHead (k : Core) (o na : Nat) : Nat := k.number o 8 - k.number o 8 / 2 ^ 27 % 8 * 2 ^ 27 + na * 2 ^ 27

/-- The values of the output slot of a `gschur` (R245). -/
def schurValues (r : (Nat → Nat → Nat) × (Nat → Nat)) (na : Nat) : List Nat :=
  (List.range na).map r.2 ++ (List.range na).flatMap fun i => ((List.range na).filter (i ≤ ·)).map (r.1 i)

theorem length_filter_le (n i : Nat) : ((List.range n).filter (i ≤ ·)).length = n - i := by
  induction n with
  | zero => simp
  | succ n ih =>
    rw [List.range_succ, List.filter_append, List.length_append, ih, List.filter_singleton]
    by_cases h : i ≤ n
    · simp [h]
      omega
    · simp [h]
      omega

theorem triSize_succ (n : Nat) : triSize (n + 1) = n + 1 + triSize n := by
  have h₁ := triSize_two_mul n
  have h₂ := triSize_two_mul (n + 1)
  have h₃ : (n + 1) * (n + 1 + 1) = n * (n + 1) + 2 * (n + 1) := by ring
  omega

/-- The values of a matrix's upper triangle, row by row, are as many as its places. -/
theorem sum_upper (n : Nat) : ((List.range n).map fun i => n - i).sum = triSize n := by
  induction n with
  | zero => rfl
  | succ n ih =>
    rw [List.range_succ_eq_map, List.map_cons, List.map_map, List.sum_cons, triSize_succ, ← ih]
    exact congrArg (n + 1 - 0 + List.sum ·) (List.map_congr_left fun i _ => Nat.succ_sub_succ n i)

theorem length_schurValues (r : (Nat → Nat → Nat) × (Nat → Nat)) (na : Nat) : (schurValues r na).length = na + triSize na := by
  simp only [schurValues, List.length_append, List.length_map, List.length_range, List.length_flatMap, length_filter_le, sum_upper]

section
variable {m : Mach} {c t : Nat} {o j x : Word} {n nb : Nat}

/-- What the pivots of well-formed operands leave. -/
theorem schur_rest (h : m.SchurOperands c t o j x n nb) : ∀ q < nb, (schurRest n (n - nb) (n - nb + q)).Nodup ∧
    (∀ i ∈ schurRest n (n - nb) (n - nb + q), i < n) ∧
    ∀ i < n, decide (i < n - nb ∨ n - nb + q < i) = decide (i ∈ schurRest n (n - nb) (n - nb + q)) := fun q hq => by
  have hfewer := h.fewer
  obtain ⟨hnodup, hlt, hleft, -⟩ := rest_keeps (n := n) (na := n - nb) (p := n - nb + q) (by omega) (by omega)
  exact ⟨hnodup, hlt, hleft⟩

theorem schur_cost (h : m.SchurOperands c t o j x n nb) {q : Nat} (hq : q ≤ nb) :
    pivotCost (n - nb) (schurRest n (n - nb)) q = pivotCycles n q := by
  have hfewer := h.fewer
  refine pivotCost_eq (by omega) fun i hi => ?_
  obtain ⟨-, -, -, hlen⟩ := rest_keeps (n := n) (na := n - nb) (p := n - nb + i) (by omega) (by omega)
  rw [schurRest, hlen]
  omega

variable (hc : m.cur = .core c t)
include hc

/-- A pivot that does not exceed the threshold is singular, and nothing is written (R245). -/
theorem planSchur_singular (h : m.SchurOperands c t o j x n nb) {b : Nat} (hb : b < nb)
    (hgood : ∀ i < b, gt32 (schurPivot m c j.toNat n (n - nb) i) (schurTau m c j.toNat n nb) = true)
    (hsing : gt32 (schurPivot m c j.toNat n (n - nb) b) (schurTau m c j.toNat n nb) = false) : m.Gives (planSchur o j x)
      { cycles := 118 + pivotCycles n b, ranges := [(j.toNat, recordSize n), (o.toNat, recordSize (n - nb))]
        singular := some (b, BitVec.ofNat 32 (schurPivot m c j.toNat n (n - nb) b)) } := by
  refine planSchur_gives hc h fun k _ => ?_
  have hfewer := h.fewer
  have hfactor := Joint.factor_singular (by omega) (schur_rest h) ((m.core c).joint_shows j.toNat n) hb hgood hsing 0
  rw [hfactor, Nat.zero_add, schur_cost h hb.le, schurEnd, Nat.add_sub_cancel_left]
  exact Mach.gives_pure _

/-- When every pivot exceeds the threshold, the output slot receives the first variables' record (R245). -/
theorem planSchur_writes (h : m.SchurOperands c t o j x n nb)
    (hgood : ∀ i < nb, gt32 (schurPivot m c j.toNat n (n - nb) i) (schurTau m c j.toNat n nb) = true)
    (hread : m.admits c t o.toNat 8 false = true) (hhead : m.admits c t o.toNat 8 true = true)
    (hvalues : ∀ i < (n - nb + triSize (n - nb) + 1) / 2, m.admits c t (o.toNat + 16 + 8 * i) 8 true = true) : m.Gives (planSchur o j x)
      { cycles := 118 + pivotCycles n nb, ranges := [(j.toNat, recordSize n), (o.toNat, recordSize (n - nb))]
        writes := cellsAt o.toNat (leBytes (schurHead (m.core c) o.toNat (n - nb)) 8) ++
          floatCells (o.toNat + 16) (schurValues (schurAfter m c j.toNat n (n - nb) nb) (n - nb)) } := by
  refine planSchur_gives hc h fun k hk => ?_
  have hfewer := h.fewer
  have hkept := h.kept
  have ho8 : o.toNat % 8 = 0 := by have := h.oAligned; omega
  obtain ⟨r, hfactor, hshow⟩ := Joint.factor_good (by omega) (schur_rest h) ((m.core c).joint_shows j.toNat n) le_rfl hgood 0
  have hword := (congrArg BitVec.toNat (hk.mem64 o.toNat)).trans ((m.core c).mem64_toNat ho8)
  have hlt := (m.core c).number_lt o.toNat 8
  have hhead' : (wd ((k.mem64 o.toNat).toNat - fld (k.mem64 o.toNat) 29 27 * 2 ^ 27 + (n - nb) * 2 ^ 27)).toNat =
      schurHead (m.core c) o.toNat (n - nb) := by
    rw [fld, hword, wd, BitVec.toNat_ofNat]
    exact Nat.mod_eq_of_lt (by omega)
  have hvals : (List.range (n - nb)).map r.h ++ (List.range (n - nb)).flatMap (fun i =>
      ((List.range (n - nb)).filter (i ≤ ·)).map fun l => r.at_ i l) = schurValues (schurAfter m c j.toNat n (n - nb) nb) (n - nb) := by
    refine congrArg₂ _ (List.map_congr_left fun i hi => hshow.h i (by have := List.mem_range.mp hi; omega)) ?_
    refine List.flatMap_congr fun i hi => List.map_congr_left fun l hl => ?_
    have hi := List.mem_range.mp hi
    have hl := List.mem_range.mp (List.mem_of_mem_filter hl)
    exact hshow.at_ i (by omega) l (by omega)
  rw [hfactor, Nat.zero_add, schur_cost h le_rfl, schurEnd]
  rw [hhead', hvals]
  refine (schurGate_gives hc fun w hw => ?_).bind ((schurRead_gives hc hread).bind (Mach.gives_pure _))
  rcases cellWords_append.mp hw with hw | hw
  · obtain ⟨i, hi, hat⟩ := cellWords_cellsAt ho8 hw
    rw [length_leBytes] at hi
    obtain rfl : i = 0 := by omega
    rw [hat]
    exact hhead
  · obtain ⟨i, hi, hat⟩ := cellWords_floatCells (by omega) hw
    rw [length_schurValues] at hi
    rw [hat]
    exact hvalues i hi

end

/-! ## `gdamp` (R246) -/

theorem Memory.bytes_eq_map (m : Memory) (a n : Nat) : Memory.bytes m a n = (List.range n).map fun i => m.byte (a + i) := by
  induction n generalizing a with
  | zero => rfl
  | succ n ih =>
    rw [Memory.bytes, ih, List.range_succ_eq_map, List.map_cons, List.map_map]
    refine congrArg _ (List.map_congr_left fun i _ => ?_)
    rw [Function.comp, Nat.add_assoc, Nat.add_comm 1]

section
variable {m : Mach} {c t : Nat} (hc : m.cur = .core c t)
include hc

/-- The output slot of a `gdamp` receives the header of the new slot and the mixed values (R246). -/
theorem planDamp_gives {o x y : Word} {n : Nat} (hx : m.SlotAt c t x.toNat n) (hy : m.SlotAt c t y.toNat n)
    (hxy : x.toNat + recordSize n ≤ y.toNat ∨ y.toNat + recordSize n ≤ x.toNat) (ho : o.toNat % 128 = 0)
    (hfit : o.toNat + recordSize n ≤ 65536)
    (hox : o.toNat = x.toNat ∨ x.toNat + recordSize n ≤ o.toNat ∨ o.toNat + recordSize n ≤ x.toNat)
    (hoy : o.toNat = y.toNat ∨ y.toNat + recordSize n ≤ o.toNat ∨ o.toNat + recordSize n ≤ y.toNat)
    (hw : ∀ i < 2 + (n + triSize n + 1) / 2, m.admits c t (o.toNat + 8 * i) 8 true = true) : m.Gives (planDamp o x y)
      { cycles := 32, ranges := [(x.toNat, recordSize n), (y.toNat, recordSize n), (o.toNat, recordSize n)]
        writes := (List.range 16).map (fun i => (o.toNat + i, (m.core c).mem.byte (x.toNat + i))) ++
          floatCells (o.toNat + 16) ((List.range (n + triSize n)).map fun i =>
            damp ((m.core c).number x.toNat 8 % 65536) ((m.core c).value x.toNat i) ((m.core c).value y.toNat i)) } := by
  have hlt : o.toNat < 65536 := by rw [recordSize] at hfit; omega
  have hx8 : x.toNat % 8 = 0 := by have := hx.aligned; omega
  refine (schurOff_gives hlt ho).bind ((schurOff_gives hx.lt hx.aligned).bind ((schurOff_gives hy.lt hy.aligned).bind
    ((slotDim_gives hc hx).bind ((slotDim_gives hc hy).bind ((Mach.gives_require (by simp) _).bind ((schurFits_gives hfit).bind
      ((schurApart_gives (by simp only [true_and]; omega)).bind ((schurApart_gives (by simp only [true_and]; omega)).bind
        ((schurApart_gives (.inr hxy)).bind (gives_myCore hc fun k hk => ?_))))))))))
  have hmem : k.mem = (m.core c).mem := by
    obtain ⟨⟨_, _, rfl⟩, -⟩ := hk
    rfl
  have hdelta : fld (k.mem64 x.toNat) 15 0 = (m.core c).number x.toNat 8 % 65536 := by
    have hword := (congrArg BitVec.toNat (hk.mem64 x.toNat)).trans ((m.core c).mem64_toNat hx8)
    rw [fld, hword, Nat.pow_zero, Nat.div_one]
    rfl
  dsimp only
  rw [hk.floats, hk.floats, List.zipWith_map, List.zipWith_self, hdelta, hmem, Memory.bytes_eq_map, cellsAt_map_range]
  refine (schurGate_gives hc fun w h => ?_).bind (Mach.gives_pure _)
  rcases cellWords_append.mp h with h | h
  · rw [← cellsAt_map_range fun i => (m.core c).mem.byte (x.toNat + i)] at h
    obtain ⟨i, hi, hat⟩ := cellWords_cellsAt (by omega) h
    rw [List.length_map, List.length_range] at hi
    rw [hat]
    exact hw i (by omega)
  · obtain ⟨i, hi, hat⟩ := cellWords_floatCells (by omega) h
    rw [List.length_map, List.length_range] at hi
    rw [hat, show o.toNat + 16 + 8 * i = o.toNat + 8 * (2 + i) by omega]
    exact hw (2 + i) (by omega)

end

/-! ## `gmean` (R247) -/

theorem length_foldl_meanOf (r : (Nat → Nat → Nat) × (Nat → Nat)) (l mu : List Nat) :
    (l.foldl (fun mu i => meanOf r mu i :: mu) mu).length = l.length + mu.length := by
  induction l generalizing mu with
  | nil => simp
  | cons i l ih =>
    rw [List.foldl_cons, ih, List.length_cons, List.length_cons]
    omega

/-- The matrix and the vector of a slot after the first `q` pivots of a `gmean`. -/
def meanAfter (m : Mach) (c x n q : Nat) : (Nat → Nat → Nat) × (Nat → Nat) :=
  dropped 0 (fun p i => decide (p < i)) (lamOf n ((m.core c).value x), (m.core c).value x) q

/-- The `q`-th pivot of a `gmean`, when those before it are eliminated. -/
def meanPivot (m : Mach) (c x n q : Nat) : Nat := (meanAfter m c x n q).1 (0 + q) (0 + q)

/-- The threshold of a `gmean`: kgpiv times the greatest of the diagonal (R247). -/
def meanTau (m : Mach) (c x n : Nat) : Nat :=
  mul32 m.me.kgpiv.toNat (max32 ((List.range n).map fun i => lamOf n ((m.core c).value x) i i))

/-- The variables from which `gmean` eliminates a pivot: the later ones. -/
def meanRest (n p : Nat) : List Nat := (List.range n).filter (p < ·)

/-- What a `gmean` does when it has tried its pivots: the plan of a singular block, or of the means (R247). -/
def meanEnd (o x n : Nat) : Except (Nat × Nat × Nat) (Joint × Nat) → Act SchurPlan
  | .error (p, v, w) => return { cycles := 64 + w, ranges := [(x, recordSize n), (o, 4 * n)], singular := some (p, BitVec.ofNat 32 v) }
  | .ok (r, w) => do
    let cs := floatCells o ((backSolve r n []).map (·.2))
    schurGate cs
    return { cycles := 64 + w + n * (n + 1) / 2, ranges := [(x, recordSize n), (o, 4 * n)], writes := cs }

/-- The operands of a `gmean` of a slot of dimension `n` (R242, R247). -/
structure Mach.MeanOperands (m : Mach) (c t : Nat) (o x : Word) (n : Nat) : Prop where
  slot : m.SlotAt c t x.toNat n
  aligned : o.toNat % 8 = 0
  fits : o.toNat + 4 * n ≤ 65536
  apart : x.toNat + recordSize n ≤ o.toNat ∨ o.toNat + 4 * n ≤ x.toNat
  threshold : m.me.kgpiv.toNat < 0x7F800000

section
variable {m : Mach} {c t : Nat} {o x : Word} {n : Nat}

theorem mean_rest : ∀ q < n, (meanRest n (0 + q)).Nodup ∧ (∀ i ∈ meanRest n (0 + q), i < n) ∧
    ∀ i < n, decide (0 + q < i) = decide (i ∈ meanRest n (0 + q)) := fun q hq => by
  obtain ⟨hnodup, hlt, hleft, -⟩ := rest_keeps (n := n) (na := 0) (p := 0 + q) (by omega) (by omega)
  exact ⟨hnodup, hlt, fun i hi => by simpa [meanRest] using hleft i hi⟩

theorem mean_cost {q : Nat} (hq : q ≤ n) : pivotCost 0 (meanRest n) q = pivotCycles n q := by
  refine pivotCost_eq hq fun i hi => ?_
  rw [meanRest, filter_lt_range (by omega)]
  simp

variable (hc : m.cur = .core c t)
include hc

/-- A `gmean` of well-formed operands tries its pivots. -/
theorem planMean_gives (h : m.MeanOperands c t o x n) {p : SchurPlan}
    (hend : m.Gives (meanEnd o.toNat x.toNat n (((m.core c).joint x.toNat n).factor (meanTau m c x.toNat n)
      (meanRest n) ((List.range n).map (0 + ·)) 0)) p) : m.Gives (planMean o x) p := by
  have hlow := h.slot.low
  have hlt : o.toNat < 65536 := by have := h.fits; omega
  refine (schurOff_gives hlt h.aligned).bind ((schurOff_gives h.slot.lt h.slot.aligned).bind ((slotDim_gives hc h.slot).bind
    ((gives_me hc).bind ((pivotOk_gives h.threshold).bind ((schurFits_gives h.fits).bind ((schurApart_gives (.inr h.apart)).bind
      (gives_myCore hc fun k hk => ?_)))))))
  have htau : max32 ((List.range n).map fun i => ((m.core c).joint x.toNat n).at_ i i) =
      max32 ((List.range n).map fun i => lamOf n ((m.core c).value x.toNat) i i) :=
    congrArg max32 (List.map_congr_left fun i hi =>
      ((m.core c).joint_shows x.toNat n).at_ i (List.mem_range.mp hi) i (List.mem_range.mp hi))
  have hpivots : (List.range n).map (0 + ·) = List.range n := by simp
  rw [hpivots] at hend
  rw [hk.joint]
  dsimp only
  rw [htau]
  exact hend

/-- A pivot that does not exceed the threshold is singular, and nothing is written (R247). -/
theorem planMean_singular (h : m.MeanOperands c t o x n) {b : Nat} (hb : b < n)
    (hgood : ∀ i < b, gt32 (meanPivot m c x.toNat n i) (meanTau m c x.toNat n) = true)
    (hsing : gt32 (meanPivot m c x.toNat n b) (meanTau m c x.toNat n) = false) : m.Gives (planMean o x)
      { cycles := 64 + pivotCycles n b, ranges := [(x.toNat, recordSize n), (o.toNat, 4 * n)]
        singular := some (b, BitVec.ofNat 32 (meanPivot m c x.toNat n b)) } := by
  refine planMean_gives hc h ?_
  have hfactor := Joint.factor_singular (by omega) mean_rest ((m.core c).joint_shows x.toNat n) hb hgood hsing 0
  rw [hfactor, Nat.zero_add, mean_cost hb.le, meanEnd, Nat.zero_add]
  exact Mach.gives_pure _

/-- When every pivot exceeds the threshold, the means are written, solved for from the last variable back (R247). -/
theorem planMean_writes (h : m.MeanOperands c t o x n)
    (hgood : ∀ i < n, gt32 (meanPivot m c x.toNat n i) (meanTau m c x.toNat n) = true)
    (hw : ∀ i < (n + 1) / 2, m.admits c t (o.toNat + 8 * i) 8 true = true) : m.Gives (planMean o x)
      { cycles := 64 + pivotCycles n n + n * (n + 1) / 2, ranges := [(x.toNat, recordSize n), (o.toNat, 4 * n)]
        writes := floatCells o.toNat (((List.range n).reverse).foldl (fun mu i => meanOf (meanAfter m c x.toNat n n) mu i :: mu) []) } := by
  refine planMean_gives hc h ?_
  obtain ⟨r, hfactor, hshow⟩ := Joint.factor_good (by omega) mean_rest ((m.core c).joint_shows x.toNat n) le_rfl hgood 0
  have hmeans := backSolve_eq hshow (k := n) [] rfl
  rw [hfactor, Nat.zero_add, mean_cost le_rfl, meanEnd]
  rw [List.zipIdx_nil, List.map_nil] at hmeans
  rw [hmeans]
  refine (schurGate_gives hc fun w h' => ?_).bind (Mach.gives_pure _)
  obtain ⟨i, hi, hat⟩ := cellWords_floatCells h.aligned h'
  rw [hat]
  refine hw i (hi.trans_eq ?_)
  rw [length_foldl_meanOf]
  simp

end

end Sys2Proof.Machine
end

section
/-! PROOF. The forms of the unit begin (R243), and what they begin with as the spec writes it. -/

namespace Sys2Proof.Machine

open Sys2Proof

/-- A thread set whose operation has begun waits where it stands (R243). -/
def Begun (s : State) (c t : Nat) (p : SchurPlan) (r : Host.Outcome State Fault Refusal) : Prop :=
  ∃ v, r = .next v ∧ (v.mach.core c).schur = some (p.op t s.mach.clk) ∧ (v.mach.core c).mem = s.mach.myCore.mem ∧
    (v.mach.tset (.core c t)).pc = s.mach.me.pc ∧ (v.mach.tset (.core c t)).x = s.mach.me.x

section
variable {s : State} {c t : Nat} (hp : Plain s.mach c t = true) (hfree : s.mach.myCore.schur = none) (a : Args)
include hp hfree

theorem begun_g2 {plan : Word → Word → Act SchurPlan} {p : SchurPlan}
    (h : s.mach.Gives (plan (s.mach.me.xreg a.d) (s.mach.me.xreg a.s)) p) : Begun s c t p (issue (semG2 plan a) s) := by
  obtain ⟨hc, -, -, -, -, -, hub, hre⟩ := Plain.iff.mp hp
  refine begins_of_run hp ?_
  rw [semG2, run_bind_ok (EStateM.run_get s.mach), run_bind_ok (srcPort_run hub _ _), run_bind_ok (srcPort_run hub _ _),
    run_bind_ok (readX_run hub hre _), run_bind_ok (readX_run hub hre _)]
  exact runSchur_begins hc hfree h a

theorem begun_g3 {plan : Word → Word → Word → Act SchurPlan} {p : SchurPlan}
    (h : s.mach.Gives (plan (s.mach.me.xreg a.d) (s.mach.me.xreg a.s) (s.mach.me.xreg a.t)) p) : Begun s c t p (issue (semG3 plan a) s) := by
  obtain ⟨hc, -, -, -, -, -, hub, hre⟩ := Plain.iff.mp hp
  refine begins_of_run hp ?_
  rw [semG3, run_bind_ok (EStateM.run_get s.mach), run_bind_ok (srcPort_run hub _ _), run_bind_ok (srcPort_run hub _ _),
    run_bind_ok (srcPort_run hub _ _), run_bind_ok (readX_run hub hre _), run_bind_ok (readX_run hub hre _), run_bind_ok (readX_run hub hre _)]
  exact runSchur_begins hc hfree h a

theorem begun_gres {p : SchurPlan} (h : s.mach.Gives (planRes (s.mach.me.xreg a.s) (s.mach.me.xreg a.t)) p) :
    Begun s c t p (issue (semGres a) s) := by
  obtain ⟨hc, -, -, -, -, -, hub, hre⟩ := Plain.iff.mp hp
  refine begins_of_run hp ?_
  rw [semGres, run_bind_ok (EStateM.run_get s.mach), run_bind_ok (srcPort_run hub _ _), run_bind_ok (srcPort_run hub _ _),
    run_bind_ok (dstPort_run hub _ _), run_bind_ok (readX_run hub hre _), run_bind_ok (readX_run hub hre _)]
  exact runSchur_begins hc hfree h a

theorem traps_g2 {plan : Word → Word → Act SchurPlan} {r : FaultRec}
    (h : s.mach.Traps (plan (s.mach.me.xreg a.d) (s.mach.me.xreg a.s)) r) : issue (semG2 plan a) s = s.traps c t r := by
  obtain ⟨hc, -, -, -, -, -, hub, hre⟩ := Plain.iff.mp hp
  obtain ⟨m, hr⟩ := runSchur_traps hfree h a
  refine issue_traps (Plain.alone hp) (m := m) ?_
  rw [semG2, run_bind_ok (EStateM.run_get s.mach), run_bind_ok (srcPort_run hub _ _), run_bind_ok (srcPort_run hub _ _),
    run_bind_ok (readX_run hub hre _), run_bind_ok (readX_run hub hre _)]
  exact hr

end

/-! ## A record of two variables -/

theorem leBytes_add (a b x y : Nat) (hx : x < 256 ^ a) : leBytes (x + 256 ^ a * y) (a + b) = leBytes x a ++ leBytes y b := by
  induction a generalizing x with
  | zero =>
    obtain rfl : x = 0 := by simpa using hx
    simp [leBytes]
  | succ a ih =>
    have hdiv : (x + 256 ^ (a + 1) * y) / 256 = x / 256 + 256 ^ a * y := by
      rw [Nat.pow_succ, Nat.mul_comm (256 ^ a) 256, Nat.mul_assoc, Nat.add_mul_div_left _ _ (by decide)]
    have hlow : BitVec.ofNat 8 (x + 256 ^ (a + 1) * y) = BitVec.ofNat 8 x := by
      refine BitVec.eq_of_toNat_eq ?_
      rw [BitVec.toNat_ofNat, BitVec.toNat_ofNat, Nat.pow_succ, Nat.mul_comm (256 ^ a) 256, Nat.mul_assoc]
      exact Nat.add_mul_mod_self_left x 256 _
    rw [show a + 1 + b = a + b + 1 by omega, leBytes, leBytes, hdiv, hlow, ih (x / 256) (Nat.div_lt_of_lt_mul (by rwa [Nat.pow_succ'] at hx))]
    rfl

/-- A header word and two values behind a gap of 8 bytes, as the bytes of one number. -/
theorem cells_two {o head x y : Nat} (hh : head < 2 ^ 64) (hx : x < 2 ^ 32) :
    cellsAt o (leBytes head 8) ++ floatCells (o + 16) [x, y] = (List.range 16).map fun i =>
      (if i < 8 then o + i else o + 8 + i, BitVec.ofNat 8 ((head + 2 ^ 64 * (x + 2 ^ 32 * y)) / 256 ^ i)) := by
  have hvalues : floatCells (o + 16) [x, y] = cellsAt (o + 16) (leBytes (x + 256 ^ 4 * y) (4 + 4)) := by
    rw [leBytes_add 4 4 x y hx]
    simp [floatCells]
  have hbytes : leBytes (head + 256 ^ 8 * (x + 256 ^ 4 * y)) (8 + 8) = leBytes head 8 ++ leBytes (x + 256 ^ 4 * y) (4 + 4) :=
    leBytes_add 8 8 head _ hh
  rw [leBytes_eq_map, List.range_add, List.map_append, List.map_map] at hbytes
  obtain ⟨hlow, hhigh⟩ := List.append_inj hbytes (by simp)
  rw [hvalues, ← hlow, ← hhigh, cellsAt_map_range, cellsAt_map_range]
  refine Eq.trans ?_ (congrArg (List.map _) (List.range_add (n := 8) (m := 8))).symm
  rw [List.map_append, List.map_map]
  refine congrArg₂ _ (List.map_congr_left fun i hi => ?_) (List.map_congr_left fun i _ => ?_)
  · rw [if_pos (List.mem_range.mp hi)]
    rfl
  · rw [Function.comp, Function.comp, if_neg (by omega), show o + 8 + (8 + i) = o + 16 + i by omega]
    rfl

theorem lamOf_two (f : Nat → Nat) : lamOf 2 f 0 0 = f 2 ∧ lamOf 2 f 0 1 = f 3 ∧ lamOf 2 f 1 1 = f 4 := ⟨rfl, rfl, rfl⟩

/-- The values of the first variable after the only pivot of a record of two variables (R245). -/
theorem schurValues_two (f : Nat → Nat) : schurValues (dropOver (fun i => decide (i < 1 ∨ 1 < i)) 1 (lamOf 2 f, f)) 1 =
    [sub32 (f 0) (mul32 (div32 (f 3) (f 4)) (f 1)), sub32 (f 2) (mul32 (div32 (f 3) (f 4)) (f 3))] := by
  obtain ⟨h00, h01, h11⟩ := lamOf_two f
  have h10 : lamOf 2 f 1 0 = f 3 := rfl
  simp [schurValues, dropOver, h00, h01, h11, h10]

end Sys2Proof.Machine
end

section
/-! PROOF. The operations of the unit, clause by clause (R242 to R249). -/

open Sys2Proof Sys2Proof.Machine

/-- Settles O35: the plan of each operation gives its cycles, its cells and its result, or the singular block that it meets. -/
theorem schurOperations : Obligations.SchurOperations := by
  refine ⟨?slots, ?two, ?joint, ?damped⟩
  case slots =>
    intro s c t a n n' hp hfree u k size slot f d x y apart cnt writable cells begins gap num
    obtain ⟨hc, -⟩ := Plain.iff.mp hp
    have hk : k = s.mach.core c := Mach.myCore_of_cur hc
    have hsize (n : Nat) : size n = recordSize n := (recordSize_eq n).symm
    have hcnt : cnt = n + triSize n := (congrArg (fun z => (z - 16) / 4) (hsize n)).trans (recordSize_values n)
    have hnum (r : Nat × FFlags) : num r = step32 r := (step32_eq r).symm
    have hf (x i : Nat) : f x i = (s.mach.core c).number (x + 16 + 4 * i) 4 := congrArg (·.number (x + 16 + 4 * i) 4) hk
    have hgap (x y : Nat) : gap x y = residual x y := (residual_eq x y).symm
    have hslot {x n : Nat} (h : slot x n) : s.mach.SlotAt c t x n := by
      obtain ⟨hlow, hhigh, hal, hfit, hdim, hkind, hsecond, hhead, hwhole⟩ := h
      rw [hk] at hdim hkind hsecond
      rw [hsize] at hfit hwhole
      exact ⟨hlow, hhigh, hal, hfit, hdim, hkind, hsecond, hhead, hwhole⟩
    refine ⟨?_, ?_, ?_⟩
    · rintro ⟨hd, hx, hapart, hw⟩
      have happ : d = x ∨ d + recordSize n ≤ x ∨ x + recordSize n ≤ d := by rwa [← hsize]
      have hwrite : ∀ i < (n + triSize n + 1) / 2, s.mach.admits c t (d + 16 + 8 * i) 8 true = true := fun i hi =>
        List.all_eq_true.mp hw i (List.mem_range.mpr (by rwa [hcnt]))
      have hbegin (op : Nat → Nat → Nat) (op' : Nat → Nat → Nat) (hop : ∀ x y, op x y = op' x y) : ∃ v, issue (semG2 (planAcc op) a) s = .next v ∧
          (v.mach.core c).schur.map (fun q => (q.ts, q.done, q.writes, q.result, q.singular, q.ended)) =
            some (t, s.mach.clk + 24, cells op', none, none, false) ∧
          (v.mach.core c).mem = k.mem ∧ (v.mach.tset (.core c t)).pc = u.pc ∧ (v.mach.tset (.core c t)).x = u.x := by
        obtain ⟨v, hrun, hschur, hrest⟩ := begun_g2 hp hfree a (planAcc_gives hc (op := op) (hslot hd) (hslot hx) happ hwrite)
        refine ⟨v, hrun, ?_, hrest⟩
        have hcells : floatCells (d + 16) ((List.range (n + triSize n)).map fun i =>
            op ((s.mach.core c).number (d + 16 + 4 * i) 4) ((s.mach.core c).number (x + 16 + 4 * i) 4)) = cells op' := by
          rw [floatCells_map, ← hcnt]
          simp only [hop, ← hf]
          rfl
        rw [hschur, ← hcells]
        rfl
      exact ⟨hbegin add32 _ fun x y => (hnum _).symm, hbegin sub32 _ fun x y => (hnum _).symm⟩
    · rintro ⟨hx, hy, hapart⟩
      have happ : x = y ∨ x + recordSize n ≤ y ∨ y + recordSize n ≤ x := by rwa [← hsize]
      obtain ⟨v, hrun, hschur, hrest⟩ := begun_gres hp hfree a (planRes_gives hc (hslot hx) (hslot hy) happ)
      refine ⟨v, hrun, ?_, hrest⟩
      have hgaps : ((List.range (n + triSize n)).map fun i =>
          residual ((s.mach.core c).number (x + 16 + 4 * i) 4) ((s.mach.core c).number (y + 16 + 4 * i) 4)) =
            (List.range cnt).map fun i => gap (f x i) (f y i) := by
        rw [hcnt]
        simp only [← hf, hgap]
      rw [hschur, ← hgaps]
      rfl
    · rintro ⟨hd, hx, hne⟩
      exact traps_g2 hp hfree a (planAcc_traps hc (hslot hd) (hslot hx) hne)
  case two =>
    intro s c t a hp hfree u k o j num div less f tau pivots named head l out begins
    obtain ⟨hc, -⟩ := Plain.iff.mp hp
    have hk : k = s.mach.core c := Mach.myCore_of_cur hc
    have hnum (r : Nat × FFlags) : num r = step32 r := (step32_eq r).symm
    have hf (i : Nat) : f i = (s.mach.core c).value j i := congrArg (·.number (j + 16 + 4 * i) 4) hk
    have hoperands (h : named) : s.mach.SchurOperands c t (u.xreg a.d) (u.xreg a.s) (u.xreg a.t) 2 1 := by
      obtain ⟨hcount, hthreshold, hj, ho, hjfit, hofit, hhead, hsecond, hreadHead, hreadAll, -⟩ := h
      rw [hk] at hhead hsecond
      refine ⟨hcount, by decide, by decide, by decide, by decide, by decide, hthreshold, hj, ho, hjfit, hofit, ?_, hhead, hsecond, hreadHead,
        hreadAll⟩
      have hone : recordSize (2 - 1) = 24 := rfl
      have htwo : recordSize 2 = 36 := rfl
      omega
    have hsum : (List.range 1).map (fun q => lamOf 2 ((s.mach.core c).value j) (2 - 1 + q) (2 - 1 + q)) = [f 4] := by
      rw [hf]
      exact congrArg (fun v => [v]) (lamOf_two _).2.2
    have hpivot (h : named) : gt32 (f 4) (schurTau s.mach c j 2 1) = pivots := by
      obtain ⟨-, -, -, -, -, -, -, -, -, -, -, -, hnumber⟩ := h
      rw [schurTau, hsum, max32_singleton hnumber]
      refine Eq.trans ?_ (compare_f32_less tau (f 4)).symm
      exact congrArg (gt32 (f 4)) (hnum _).symm
    have hfirst : schurPivot s.mach c j 2 (2 - 1) 0 = f 4 := by
      rw [hf]
      exact (lamOf_two ((s.mach.core c).value j)).2.2
    have hless (x l y : Nat) : less x l y = sub32 x (mul32 l y) :=
      (hnum _).trans (congrArg (fun z => step32 (fmtF32.sub 0 x z)) (hnum _))
    have hl : l = div32 (f 3) (f 4) := hnum _
    refine ⟨?_, ?_⟩
    · rintro ⟨hnamed, hpass⟩
      have hgood : ∀ i < 1, gt32 (schurPivot s.mach c j 2 (2 - 1) i) (schurTau s.mach c j 2 1) = true := fun i hi => by
        obtain rfl : i = 0 := by omega
        rw [hfirst, hpivot hnamed, hpass]
      obtain ⟨-, -, -, -, -, -, -, -, -, -, hread, hwrite, -⟩ := id hnamed
      have hstore (i : Nat) (hi : i < 3) := List.all_eq_true.mp hwrite i (List.mem_range.mpr hi)
      have hplan := planSchur_writes hc (hoperands hnamed) hgood hread (hstore 0 (by decide)) fun i hi => by
        obtain rfl : i = 0 := by
          have hsize : triSize (2 - 1) = 1 := rfl
          omega
        exact hstore 2 (by decide)
      have hhead : schurHead (s.mach.core c) o (2 - 1) = head := by
        rw [schurHead, ← hk, Nat.one_mul]
      have hheadLt : head < 2 ^ 64 := by
        have hlt := k.number_lt o 8
        simp only [head]
        omega
      have hvalues : schurValues (schurAfter s.mach c j 2 (2 - 1) 1) (2 - 1) = [less (f 0) l (f 1), less (f 2) l (f 3)] := by
        refine (schurValues_two _).trans ?_
        rw [hless, hless, hl, hf, hf, hf, hf, hf]
      obtain ⟨v, hrun, hschur, hmem, hpc, -⟩ := begun_g3 hp hfree a hplan
      refine ⟨v, hrun, ?_, hmem, hpc⟩
      have hcells : cellsAt o (leBytes (schurHead (s.mach.core c) o (2 - 1)) 8) ++ floatCells (o + 16) (schurValues
          (schurAfter s.mach c j 2 (2 - 1) 1) (2 - 1)) = (List.range 16).map fun i =>
            (if i < 8 then o + i else o + 8 + i, BitVec.ofNat 8 (out / 256 ^ i)) := by
        rw [hhead, hvalues]
        exact cells_two hheadLt (hless (f 0) l (f 1) ▸ sub32_lt _ _)
      rw [hschur, ← hcells]
      rfl
    · rintro ⟨hnamed, hpass⟩
      have hplan := planSchur_singular hc (hoperands hnamed) (b := 0) (by decide) (fun i hi => absurd hi (Nat.not_lt_zero i))
        ((congrArg (gt32 · _) hfirst).trans ((hpivot hnamed).trans hpass))
      obtain ⟨v, hrun, hschur, hmem, hpc, -⟩ := begun_g3 hp hfree a hplan
      refine ⟨v, hrun, ?_, hmem, hpc⟩
      rw [hschur, ← hfirst]
      rfl
  case joint =>
    intro s c t a n nb b hp hfree u k na o j size f lam left drop after tau pivot cnt named writable word vals cost begins good
    obtain ⟨hc, -⟩ := Plain.iff.mp hp
    have hk : k = s.mach.core c := Mach.myCore_of_cur hc
    have hsize (n : Nat) : size n = recordSize n := (recordSize_eq n).symm
    have hcnt : cnt = na + triSize na := (congrArg (fun z => (z - 16) / 4) (hsize na)).trans (recordSize_values na)
    have hf : f = (s.mach.core c).value j := funext fun i => congrArg (·.number (j + 16 + 4 * i) 4) hk
    have hafter (q : Nat) : after q = schurAfter s.mach c j n na q := by
      have hdropped : after q = dropped na left (lamOf n f, f) q := rfl
      rw [hdropped, hf]
      rfl
    have hpivot (q : Nat) : pivot q = schurPivot s.mach c j n na q := congrArg (fun r => r.1 (na + q) (na + q)) (hafter q)
    have htau : tau = schurTau s.mach c j n nb := by
      have hlam : lam = lamOf n f := rfl
      simp only [tau, hlam, hf]
      rfl
    have hoperands (h : named) : s.mach.SchurOperands c t (u.xreg a.d) (u.xreg a.s) (u.xreg a.t) n nb := by
      obtain ⟨hcount, hn, hone, hsix, hfewer, hkept, hthreshold, hj, ho, hjfit, hofit, hapart, hhead, hsecond, hreadHead, hreadAll⟩ := h
      rw [hk] at hhead hsecond
      rw [hsize] at hjfit hofit hreadAll
      rw [hsize, hsize] at hapart
      exact ⟨hcount, hn, hone, hsix, hfewer, hkept, hthreshold, hj, ho, hjfit, hofit, hapart, hhead, hsecond, hreadHead, hreadAll⟩
    have hgood {q : Nat} (h : good q = true) : ∀ i < q, gt32 (schurPivot s.mach c j n na i) (schurTau s.mach c j n nb) = true :=
      fun i hi => by
        rw [← hpivot, ← htau]
        exact List.all_eq_true.mp h i (List.mem_range.mpr hi)
    refine ⟨?_, ?_⟩
    · rintro ⟨hnamed, hw, hall⟩
      simp only [writable, Bool.and_eq_true] at hw
      obtain ⟨⟨hread, hhead⟩, hstore⟩ := hw
      have hplan := planSchur_writes hc (hoperands hnamed) (hgood hall) hread hhead fun i hi =>
        List.all_eq_true.mp hstore i (List.mem_range.mpr (by rwa [hcnt]))
      have hvals : schurValues (schurAfter s.mach c j n na nb) na = vals := by
        rw [← hafter]
        rfl
      have hword : schurHead (s.mach.core c) o na = word := by
        rw [schurHead, ← hk]
      obtain ⟨v, hrun, hschur, hmem, hpc, -⟩ := begun_g3 hp hfree a hplan
      refine ⟨v, hrun, ?_, hmem, hpc⟩
      rw [hschur, ← hvals, ← hword]
      rfl
    · rintro ⟨hnamed, hb, hall, hfail⟩
      have hplan := planSchur_singular hc (hoperands hnamed) hb (hgood hall) (by rwa [← hpivot, ← htau])
      obtain ⟨v, hrun, hschur, hmem, hpc, -⟩ := begun_g3 hp hfree a hplan
      refine ⟨v, hrun, ?_, hmem, hpc⟩
      rw [hschur, hpivot]
      rfl
  case damped =>
    intro s c t a n b hp hfree u k size slot f o x y apart cnt writes begins delta share mixed lam drop after tau pivot good solve means cost solves
    obtain ⟨hc, -⟩ := Plain.iff.mp hp
    have hk : k = s.mach.core c := Mach.myCore_of_cur hc
    have hsize : size n = recordSize n := (recordSize_eq n).symm
    have hcnt : cnt = n + triSize n := (congrArg (fun z => (z - 16) / 4) hsize).trans (recordSize_values n)
    have hf (x : Nat) : f x = (s.mach.core c).value x := funext fun i => congrArg (·.number (x + 16 + 4 * i) 4) hk
    have hslot {x : Nat} (h : slot x) : s.mach.SlotAt c t x n := by
      obtain ⟨hlow, hhigh, hal, hfit, hdim, hkind, hsecond, hhead, hwhole⟩ := h
      rw [hk] at hdim hkind hsecond
      rw [hsize] at hfit hwhole
      exact ⟨hlow, hhigh, hal, hfit, hdim, hkind, hsecond, hhead, hwhole⟩
    have hwrites {from_ words : Nat} (h : writes from_ words = true) (i : Nat) (hi : i < words) :
        s.mach.admits c t (from_ + 8 * i) 8 true = true := List.all_eq_true.mp h i (List.mem_range.mpr hi)
    have hafter (q : Nat) : after q = meanAfter s.mach c x n q := by
      have hdrop : (fun r p => drop p r) = fun r q => dropOver (fun i => decide (0 + q < i)) (0 + q) r := by
        funext r p
        rw [Nat.zero_add]
        simp only [drop, dropOver, decide_eq_true_eq]
      have hfold : after q = (List.range q).foldl (fun r p => drop p r) (lamOf n (f x), f x) := rfl
      rw [hfold, hdrop, hf]
      rfl
    have hpivot (q : Nat) : pivot q = meanPivot s.mach c x n q := by
      rw [meanPivot, Nat.zero_add]
      exact congrArg (fun r => r.1 q q) (hafter q)
    have htau : tau = meanTau s.mach c x n := by
      have hlam : lam = lamOf n (f x) := rfl
      simp only [tau, hlam, hf]
      rfl
    have hgood {q : Nat} (h : good q = true) : ∀ i < q, gt32 (meanPivot s.mach c x n i) (meanTau s.mach c x n) = true := fun i hi => by
      rw [← hpivot, ← htau]
      exact List.all_eq_true.mp h i (List.mem_range.mpr hi)
    have hoperands (h : solves) : s.mach.MeanOperands c t (u.xreg a.d) (u.xreg a.s) n := by
      obtain ⟨hx, ho, hfit, hapart, hthreshold⟩ := h
      rw [hsize] at hapart
      exact ⟨hslot hx, ho, hfit, hapart, hthreshold⟩
    refine ⟨?_, ?_, ?_⟩
    · rintro ⟨hx, hy, hxy, ho, hfit, hox, hoy, hw⟩
      rw [hsize] at hxy hfit hox hoy
      rw [hcnt] at hw
      have hplan := planDamp_gives hc (hslot hx) (hslot hy) hxy ho hfit hox hoy (hwrites hw)
      have hbytes : (s.mach.core c).mem = k.mem := congrArg Core.mem hk.symm
      have hmixed : (List.range (n + triSize n)).map (fun i => damp ((s.mach.core c).number x 8 % 65536) ((s.mach.core c).value x i)
          ((s.mach.core c).value y i)) = (List.range cnt).map mixed := by
        rw [hcnt, ← hf, ← hf, ← hk]
        rfl
      obtain ⟨v, hrun, hschur, hmem, hpc, -⟩ := begun_g3 hp hfree a hplan
      refine ⟨v, hrun, ?_, hmem, hpc⟩
      rw [hschur, ← hmixed, ← hbytes]
      rfl
    · rintro ⟨hsolves, hw, hall⟩
      have hplan := planMean_writes hc (hoperands hsolves) (hgood hall) (hwrites hw)
      have hmeans : ((List.range n).reverse).foldl (fun mu i => meanOf (meanAfter s.mach c x n n) mu i :: mu) [] = means := by
        rw [← hafter]
        rfl
      obtain ⟨v, hrun, hschur, hmem, hpc, -⟩ := begun_g2 hp hfree a hplan
      refine ⟨v, hrun, ?_, hmem, hpc⟩
      rw [hschur, ← hmeans]
      rfl
    · rintro ⟨hsolves, hb, hall, hfail⟩
      have hplan := planMean_singular hc (hoperands hsolves) hb (hgood hall) (by rwa [← hpivot, ← htau])
      obtain ⟨v, hrun, hschur, hmem, hpc, -⟩ := begun_g2 hp hfree a hplan
      refine ⟨v, hrun, ?_, hmem, hpc⟩
      rw [hschur, hpivot]
      rfl
end

section
/-! PROOF. `mbinc` at an address outside the counter space: the record shows a far address with bits 61:60 as zero (R75, R250, R261). -/

namespace Sys2Proof.Machine

open Sys2Proof

/-- The increment at x1 meets the address fault, since x1 names no counter. -/
theorem farMach_mbinc : (semMbinc { d := 1 }).run farMach =
    .error (.trap { faultOf Cause.address with addr := farShown }) farMach := by rfl

end Sys2Proof.Machine

open Sys2Proof Sys2Proof.Machine

/-- Refutes O38: the clause on addresses outside the counter space has ADDR as the address was formed, and the record shows a far address
with bits 61:60 as zero (R75). In `farMach` the address 0x5000000000000000 of `mbinc` traps as 0x4000000000000000. -/
theorem not_mailboxAndRingForms : ¬ Obligations.MailboxAndRingForms := by
  intro h
  obtain ⟨-, -, -, -, -, hspace⟩ := h.1 { mach := farMach } 0 0 { d := 1 } 0 (by decide) (by decide)
  have hrun : exec (.mbinc { d := 1 }) { mach := farMach } = _ :=
    issue_traps (s := { mach := farMach }) (c := 0) (t := 0) (by decide) farMach_mbinc
  have haddr := State.traps_addr_inj (by decide) (by decide) (hrun.symm.trans (hspace (by decide)).1)
  exact absurd haddr (by decide)
end

section
/-! PROOF. `park` on the event of a receive ring whose control words are not aligned (R80, R93, R99, R259). -/

namespace Sys2Proof.Machine

open Sys2Proof

/-- Core 0 with receive ring 0 at offset 1, where TAIL is 1 and HEAD is 0: its control words lie in three words, of which the last, at
offset 16, has an uncorrectable error. Thread set 0 has a handler and the operand of `park` for ring 0 in x1. -/
def unalignedRing : Core :=
  { ts := #v[{ busy := true, kvec := 2, x := vset (Vector.replicate 32 0) 1 0x8000000000000000 }, {}, {}, {}]
    placed := true, inBase := #v[1, 0xD400, 0xD800, 0xDC00], mem := [(1, 1)], side := [(2, { ecc := .double })] }

/-- The machine in which thread set 0 of that core has its turn. -/
def unalignedMach : Mach := { cur := .core 0 0, npc := 4, cores := [(0, unalignedRing)] }

/-- Reading the control words meets the memory-ECC fault. -/
theorem unalignedMach_park : (semPark { s := 1 }).run unalignedMach =
    .error (.trap { faultOf Cause.memoryEcc with addr := 1 }) unalignedMach := by rfl

end Sys2Proof.Machine

open Sys2Proof Sys2Proof.Machine

/-- Refutes O9: the clause on a `park` whose event holds asks that the words at the ring's base and 8 bytes after it are good, and not that
the base is a multiple of 8 (R93), without which the control words reach into a third word. In `unalignedMach` that word has an
uncorrectable error, and the `park` traps (R80). -/
theorem not_doneAndParkForms : ¬ Obligations.DoneAndParkForms := by
  intro h
  obtain ⟨-, -, hpasses, -⟩ := h.2 { mach := unalignedMach } 0 0 0 { s := 1 } (by decide)
  have htrap := issue_traps (s := { mach := unalignedMach }) (c := 0) (t := 0) (by decide) unalignedMach_park
  exact State.traps_ne_after rfl (by decide) (by decide) (by decide) (htrap.symm.trans (hpasses (by decide)))
end

section
/-! PROOF. `cue.dec` of a cue that is not armed and has count 1, while the slot of its ring is held back (R95, R132, R230, R255). -/

namespace Sys2Proof.Machine

open Sys2Proof

/-- A solo matrix operation that runs until cycle 9 and reads ready ring A among its A rows. -/
def ringReader : MatOp :=
  { acc := 0, gang := false, a := 0xC000, b := 0, sample := {}, ts := 1, cid := 0, pc := 0, phase := .running 9 [] }

/-- Core 0 with that operation and, at offset 0x1000, a cue with count 1 that is not armed. x1 of thread set 0 names the cue. -/
def unarmedMach : Mach :=
  { cur := .core 0 0, npc := 4
    cores := [(0, { ts := #v[{ busy := true, x := vset (Vector.replicate 32 0) 1 0x1000 }, {}, {}, {}], placed := true
                    mem := [(0x1000, 1)], mat := [ringReader] })] }

/-- The decrement waits for the ring's slot, before it looks at whether the cue is armed. -/
theorem unarmedMach_cueDec : (semCueDec { s := 1 }).run unarmedMach = .error (.wait .other) unarmedMach := by rfl

end Sys2Proof.Machine

open Sys2Proof Sys2Proof.Machine

/-- Refutes O37: the clause on the underflow of `cue.dec` does not ask that the slot of the cue's ring is not held back (R230). In
`unarmedMach` the cue has count 1 and a running operation reads ring A; the decrement waits, and counts no underflow. -/
theorem not_cueForms : ¬ Obligations.CueForms := by
  intro h
  obtain ⟨-, -, hunder, -⟩ := h.1 { mach := unarmedMach } 0 0 { s := 1 } 0x1000 false (by decide) (by decide)
  obtain ⟨v, hv, -, -, hcount, -⟩ := hunder (by decide) (.cueDec { s := 1 }) List.mem_cons_self
  have hwaits := issue_wait (s := { mach := unarmedMach }) (c := 0) (t := 0) (by decide) unarmedMach_cueDec
  obtain rfl := Host.Outcome.next.inj (hwaits.symm.trans hv)
  exact absurd hcount (by decide)
end

section
/-! PROOF. A message whose ring has a HEAD word with an uncorrectable error (R80, R99, R101). -/

namespace Sys2Proof.Machine

open Sys2Proof

/-- A message of core 1 to ring 0 of core 0, which has come to core 0. -/
def arrivedMessage : Delivery :=
  { id := 0, src := 1, ts := 0, cid := 0, pc := 0, dst := 0, part := 0, body := .msg 0 0 [], phase := .flying 0, win := none }

/-- The message at core 0, whose HEAD word of ring 0 has an uncorrectable error. -/
def badHeadMach : Mach := { cores := [(0, { side := [(0xD008 / 8, { ecc := .double })] })], net := [arrivedMessage] }

/-- A delivery is answered with a fault that its target found. -/
def Delivery.faulted (d : Delivery) : Bool :=
  match d.phase with
  | .accepting _ f => f.isSome
  | _ => false

/-- The message is appended, and its acceptance carries the memory-ECC fault of the HEAD word. -/
theorem badHeadMach_append : ∃ v, execMessageAppend 0 { mach := badHeadMach } = .next v ∧
    (v.mach.delivery 0).any Delivery.faulted = true := ⟨_, rfl, by decide⟩

end Sys2Proof.Machine

open Sys2Proof Sys2Proof.Machine

/-- Refutes O45: the clause on MESSAGE_APPEND asks that TAIL can be read, and not the same of HEAD, which is read too (R99). In `badHeadMach`
HEAD has an uncorrectable error (R80), and the acceptance of the message carries the fault. -/
theorem not_deliveriesAreReceived : ¬ Obligations.DeliveriesAreReceived := by
  intro h
  obtain ⟨-, -, -, -, -, -, hmsg, -⟩ :=
    h { mach := badHeadMach } 0 0 0 0 0 0 0 0 0 0 0 [] 0 0 arrivedMessage none {} rfl
  obtain ⟨v, hv, ⟨hanswer, -⟩, -⟩ := hmsg (by decide)
  obtain ⟨v', hv', hfault⟩ := badHeadMach_append
  obtain rfl := Host.Outcome.next.inj (hv'.symm.trans hv)
  rw [hanswer] at hfault
  cases hfault
end

section
/-! PROOF. The capability queue forms: the handle's checks, the queue that a form leaves, and its result (R109, R267, R268). -/

namespace Sys2Proof.Machine

open Sys2Proof

/-! ## Queues and handles (R109) -/

/-- The queue that a handle or descriptor names at cluster `n`. -/
def Mach.queueAt (m : Mach) (n : Nat) (h : Word) : CapQueue := Map.get (m.cluster n).queues {} (h.toNat % 64)

/-- The machine with queue `i` of cluster `n` replaced. -/
def Mach.putQueue (m : Mach) (n i : Nat) (q : CapQueue) : Mach :=
  { m with clusters := Map.set m.clusters n { m.cluster n with queues := Map.set (m.cluster n).queues i q } }

/-- The agent's wait for the controller of cluster `n` (R267, R268). -/
def Mach.controlled (m : Mach) (n : Nat) (u : ThreadSet) : ThreadSet := { u with notBefore := m.clk + m.queueWait n }

/-- An entry appended at the tail of a queue, which takes it while it holds fewer than 64 (R268). -/
def CapQueue.enqueue (q : CapQueue) (w : Word) : CapQueue :=
  if q.entries.length < 64 then { q with entries := q.entries ++ [w] } else q

/-- What `qmint` without a parent makes of a descriptor (R109, R267). -/
def Mach.mint (m : Mach) (n : Nat) (h : Word) : Word :=
  let w := wd ((m.queueAt n h).gen.toNat * 2 ^ 32 + m.myPart * 2 ^ 16 + h.toNat)
  w + wd ((m.cluster n).check w * 2 ^ 48)

theorem fld_queue (h : Word) : fld h 5 0 = h.toNat % 64 := by simp [fld]

theorem Mach.queueAt_putQueue (m : Mach) (n : Nat) (h : Word) (q : CapQueue) : (m.putQueue n (h.toNat % 64) q).queueAt n h = q := by
  simp [Mach.queueAt, Mach.putQueue, Mach.cluster]

theorem Mach.clusters_modMe (m : Mach) (f : ThreadSet → ThreadSet) : (m.modMe f).clusters = m.clusters := by
  unfold Mach.modMe Mach.modTs
  split <;> rfl

/-- A handle honours its queue by CHECK, generation and partition, and has a right by its bit. -/
theorem Mach.honours_iff (m : Mach) (n q : Nat) (h : Word) (b : Nat) : ((m.cluster n).honours q h && bit h b) = true ↔
    h.toNat / 2 ^ 48 = (m.cluster n).check h ∧ h.toNat / 2 ^ 32 % 2 ^ 16 = (m.queueAt n h).gen.toNat ∧
      h.toNat / 2 ^ 16 % 16 = q ∧ h.getLsbD b = true := by
  have hcheck : fld h 63 48 = h.toNat / 2 ^ 48 := Nat.mod_eq_of_lt (by omega)
  simp only [Cluster.honours, bit_eq_getLsbD, Bool.and_eq_true, beq_iff_eq, hcheck, fld_queue, and_assoc]
  rfl

/-- A handle of a mesh core names a cluster of its partition, or none. -/
theorem Mach.queueCluster_eq {m : Mach} (hm : m.here < meshCores) (h : Word) : m.queueCluster h =
    if (m.part m.myPart).holds (h.toNat / 2 ^ 27 % 32 * 16) (h.toNat / 2 ^ 23 % 16 * 12) = true then
      some (h.toNat / 2 ^ 23 % 16 * 32 + h.toNat / 2 ^ 27 % 32)
    else none := by
  simp only [Mach.queueCluster, hm, decide_true, Bool.true_and]
  rfl

section
variable {m : Mach} {h : Word}

/-- A handle of the partition passes where it honours its queue and has the right (R268). -/
theorem checkHandle_run {n : Nat} (hn : m.queueCluster h = some n) (r : Nat) : (checkHandle h r).run m =
    if (m.cluster n).honours m.myPart h && bit h r then .ok (n, m.queueAt n h) m
    else .error (.trap { cause := 0x23, addr := h }) m := by
  rw [checkHandle, run_bind_ok (EStateM.run_get m), hn, fld_queue]
  simp only [EStateM.run_bind, require_run]
  cases (m.cluster n).honours m.myPart h && bit h r <;> rfl

theorem checkHandle_outside (hn : m.queueCluster h = none) (r : Nat) :
    (checkHandle h r).run m = .error (.trap { cause := 0x07, addr := h }) m := by
  rw [checkHandle, run_bind_ok (EStateM.run_get m), hn]
  rfl

end

/-! ## The forms, run -/

section
variable {m : Mach} (hub : m.me.anyBound = false) (hre : m.me.regErr = []) {a : Args} {h : Word} (hh : m.me.xreg a.s = h)
include hub

/-- A queue is replaced and the result written. -/
theorem setQueue_writeX_run {c t : Nat} (hc : m.cur = .core c t) (ht : t < 4) (n i : Nat) (q : CapQueue) (d : RegNo) (x : Word) :
    (setQueue n i q >>= fun _ => writeX d x).run m = .ok () ((m.putQueue n i q).modMe fun u => (m.controlled n u).setX d x) := by
  have hc' : (m.putQueue n i q).cur = .core c t := hc
  have hset : (setQueue n i q).run m = .ok () ((m.putQueue n i q).modMe (m.controlled n)) := rfl
  have hub' : ((m.putQueue n i q).modMe (m.controlled n)).me.anyBound = false := by
    rw [Mach.me_modMe hc' ht]
    exact hub
  rw [run_bind_ok hset, writeX_run hub', Mach.modMe_modMe hc' ht]

include hre hh

/-- `qdeq` and `qsteal` check their handle, replace the queue and write the entry taken. -/
theorem semQtake_run (r : Nat) (tail : Bool) : (semQtake r tail a).run m = (checkHandle h r >>= fun nq =>
    setQueue nq.1 (h.toNat % 64) { nq.2 with entries := if tail then nq.2.entries.dropLast else nq.2.entries.drop 1 } >>= fun _ =>
      writeX a.d (if tail then nq.2.entries.getLastD 0 else nq.2.entries.headD 0)).run m := by
  rw [semQtake, run_bind_ok (srcPort_run hub _ _), run_bind_ok (dstPort_run hub _ _), run_bind_ok (readX_run hub hre _), hh]
  simp only [fld_queue]
  cases tail <;> rfl

/-- `qenq` of an entry other than 0 checks its handle, replaces the queue and writes whether there was no room. -/
theorem semQenq_run (hw : m.me.xreg a.t ≠ 0) : (semQenq a).run m = (checkHandle h 8 >>= fun nq =>
    setQueue nq.1 (h.toNat % 64) (nq.2.enqueue (m.me.xreg a.t)) >>= fun _ =>
      writeX a.d (if nq.2.entries.length < 64 then 0 else 1)).run m := by
  rw [semQenq, run_bind_ok (srcPort_run hub _ _), run_bind_ok (srcPort_run hub _ _), run_bind_ok (dstPort_run hub _ _),
    run_bind_ok (readX_run hub hre _), run_bind_ok (readX_run hub hre _), run_bind_ok (require_passes (by simpa using hw) _ _), hh]
  simp only [fld_queue]
  refine congrArg (fun f => (checkHandle h 8 >>= f).run m) (funext fun nq => ?_)
  rw [CapQueue.enqueue]
  split_ifs <;> rfl

/-- `qmint` without a parent needs supervisor level and a cluster of the partition. -/
theorem semQmint_run (hz : h.toNat < 2 ^ 32 ∧ h.toNat / 2 ^ 6 % 4 = 0 ∧ h.toNat / 2 ^ 11 % 2 ^ 12 = 0) (hw : m.me.xreg a.t = 0) :
    (semQmint a).run m =
      if m.me.priv = .user then .error (.trap { cause := 0x03, addr := h }) m
      else match m.queueCluster h with
        | none => .error (.trap { cause := 0x02, addr := h }) m
        | some n => .ok () ((m.modMe (·.setX a.d (m.mint n h))).modMe (m.controlled n)) := by
  obtain ⟨h32, h6, h11⟩ := hz
  have hzero : (fld h 7 6 == 0 && fld h 22 11 == 0 && fld h 63 32 == 0) = true := by
    simp only [fld, Bool.and_eq_true, beq_iff_eq]
    omega
  rw [semQmint, run_bind_ok (srcPort_run hub _ _), run_bind_ok (srcPort_run hub _ _), run_bind_ok (dstPort_run hub _ _),
    run_bind_ok (readX_run hub hre _), run_bind_ok (readX_run hub hre _), run_bind_ok (EStateM.run_get m), hh, hw,
    run_bind_ok (require_passes hzero _ _)]
  by_cases hu : m.me.priv = .user
  · rw [if_pos hu]
    exact run_bind_error (require_stops (by simp [hu]) _ _)
  · rw [if_neg hu, run_bind_ok (require_passes (by simpa using hu) _ _)]
    cases m.queueCluster h with
    | none => rfl
    | some n =>
      dsimp only
      rw [run_bind_ok (require_passes (by simp) _ _), fld_queue, run_bind_ok (writeX_run hub _ _)]
      rfl

end

/-! ## What the forms leave -/

/-- The agent of `s` has gone on with xd = `x` and its memory as it was, and `q` is the queue that `h` names at cluster `n`. -/
structure QueueStep (s v : State) (c t n : Nat) (h : Word) (q : CapQueue) (d : RegNo) (x : Word) : Prop where
  queue : v.mach.queueAt n h = q
  x : (v.mach.tset (.core c t)).x = (s.mach.me.setX d x).x
  mem : (v.mach.core c).mem = s.mach.myCore.mem
  pc : (v.mach.tset (.core c t)).pc = s.mach.npc

theorem QueueStep.outcome {s : State} {c t n : Nat} {h : Word} {q : CapQueue} {d : RegNo} {x : Word} {o : Host.Outcome State Fault Refusal}
    (hstep : ∃ v, o = .next v ∧ QueueStep s v c t n h q d x) : ∃ v, o = .next v ∧ (v.mach.queueAt n h).entries = q.entries ∧
      (v.mach.queueAt n h).gen = q.gen ∧ (v.mach.tset (.core c t)).x = (s.mach.me.setX d x).x ∧
      (v.mach.core c).mem = s.mach.myCore.mem ∧ (v.mach.tset (.core c t)).pc = s.mach.npc := by
  obtain ⟨v, hv, hqueue, hx, hmem, hpc⟩ := hstep
  exact ⟨v, hv, congrArg CapQueue.entries hqueue, congrArg CapQueue.gen hqueue, hx, hmem, hpc⟩

/-- A queue form that has changed queues, and its own thread set last. -/
theorem queueStep_after {s : State} {c t : Nat} (hc : s.mach.cur = .core c t) (ht : t < 4) {m : Mach} (hcur : m.cur = .core c t)
    (hnpc : m.npc = s.mach.npc) (hcore : m.core c = s.mach.core c) {f : ThreadSet → ThreadSet} {d : RegNo} {x : Word}
    (hf : ∀ u, (f u).x = (u.setX d x).x) (n : Nat) (h : Word) : QueueStep s (s.after (m.modMe f)) c t n h (m.queueAt n h) d x where
  queue := by
    have hclusters : (s.after (m.modMe f)).mach.clusters = m.clusters := by
      simp only [State.after, Mach.complete, hc]
      exact m.clusters_modMe f
    rw [Mach.queueAt, Mach.cluster, hclusters]
    rfl
  x := by rw [State.tset_after_modMe hc hcur _ ht, ThreadSet.advance_x, hf, hcore, Mach.me_of_cur hc]
  mem := by rw [State.mem_after hc, Mach.core_modMe hcur, if_pos rfl, hcore, Mach.myCore_of_cur hc]; rfl
  pc := by rw [State.tset_after_modMe hc hcur _ ht]; exact hnpc

section
variable {s : State} {c t : Nat} (hp : Plain s.mach c t = true) {a : Args} {n : Nat} {h : Word}
include hp

/-- A form that checks its handle and then replaces the queue: with a handle that passes it goes on, and else it traps (R109). -/
theorem issue_checked (hn : s.mach.queueCluster h = some n) {sem : Act Unit} {r : Nat} (q : CapQueue → CapQueue) (x : CapQueue → Word)
    (hsem : sem.run s.mach =
      (checkHandle h r >>= fun nq => setQueue nq.1 (h.toNat % 64) (q nq.2) >>= fun _ => writeX a.d (x nq.2)).run s.mach) :
    if (s.mach.cluster n).honours s.mach.myPart h && bit h r then
      ∃ v, issue sem s = .next v ∧ QueueStep s v c t n h (q (s.mach.queueAt n h)) a.d (x (s.mach.queueAt n h))
    else issue sem s = s.traps c t { cause := 0x23, addr := h } := by
  obtain ⟨hc, -, ht, -, -, -, hub, -⟩ := Plain.iff.mp hp
  have hcheck := checkHandle_run hn r
  split
  · next hpass =>
    rw [if_pos hpass] at hcheck
    rw [run_bind_ok hcheck, setQueue_writeX_run hub hc ht] at hsem
    refine ⟨_, issue_ok (Plain.alone hp) hsem, ?_⟩
    have hstep := queueStep_after hc ht (m := s.mach.putQueue n (h.toNat % 64) (q (s.mach.queueAt n h))) hc rfl rfl
      (f := fun u => (s.mach.controlled n u).setX a.d (x (s.mach.queueAt n h))) (d := a.d) (x := x (s.mach.queueAt n h))
      (fun u => by simp only [ThreadSet.setX]; split <;> rfl) n h
    rwa [Mach.queueAt_putQueue] at hstep
  · next hfail =>
    rw [if_neg hfail] at hcheck
    exact issue_traps (Plain.alone hp) (hsem.trans (run_bind_error hcheck))

variable (hh : s.mach.me.xreg a.s = h)
include hh

theorem exec_qdeq_checked (hn : s.mach.queueCluster h = some n) :
    if (s.mach.cluster n).honours s.mach.myPart h && bit h 9 then
      ∃ v, exec (.qdeq a) s = .next v ∧ QueueStep s v c t n h
        { s.mach.queueAt n h with entries := (s.mach.queueAt n h).entries.dropLast } a.d ((s.mach.queueAt n h).entries.getLastD 0)
    else exec (.qdeq a) s = s.traps c t { cause := 0x23, addr := h } := by
  obtain ⟨-, -, -, -, -, -, hub, hre⟩ := Plain.iff.mp hp
  exact issue_checked hp hn (fun q => { q with entries := q.entries.dropLast }) (fun q => q.entries.getLastD 0)
    (semQtake_run hub hre hh 9 true)

theorem exec_qsteal_checked (hn : s.mach.queueCluster h = some n) :
    if (s.mach.cluster n).honours s.mach.myPart h && bit h 10 then
      ∃ v, exec (.qsteal a) s = .next v ∧ QueueStep s v c t n h
        { s.mach.queueAt n h with entries := (s.mach.queueAt n h).entries.drop 1 } a.d ((s.mach.queueAt n h).entries.headD 0)
    else exec (.qsteal a) s = s.traps c t { cause := 0x23, addr := h } := by
  obtain ⟨-, -, -, -, -, -, hub, hre⟩ := Plain.iff.mp hp
  exact issue_checked hp hn (fun q => { q with entries := q.entries.drop 1 }) (fun q => q.entries.headD 0)
    (semQtake_run hub hre hh 10 false)

theorem exec_qenq_checked (hn : s.mach.queueCluster h = some n) (hw : s.mach.me.xreg a.t ≠ 0) :
    if (s.mach.cluster n).honours s.mach.myPart h && bit h 8 then
      ∃ v, exec (.qenq a) s = .next v ∧ QueueStep s v c t n h ((s.mach.queueAt n h).enqueue (s.mach.me.xreg a.t)) a.d
        (if (s.mach.queueAt n h).entries.length < 64 then 0 else 1)
    else exec (.qenq a) s = s.traps c t { cause := 0x23, addr := h } := by
  obtain ⟨-, -, -, -, -, -, hub, hre⟩ := Plain.iff.mp hp
  exact issue_checked hp hn (·.enqueue (s.mach.me.xreg a.t)) (fun q => if q.entries.length < 64 then 0 else 1)
    (semQenq_run hub hre hh hw)

/-- `qdeq` and `qsteal` of a handle whose cluster lies outside the partition (R268). -/
theorem exec_qtake_outside (hn : s.mach.queueCluster h = none) : exec (.qdeq a) s = s.traps c t { cause := 0x07, addr := h } ∧
    exec (.qsteal a) s = s.traps c t { cause := 0x07, addr := h } := by
  obtain ⟨-, -, -, -, -, -, hub, hre⟩ := Plain.iff.mp hp
  have htrap r tail := (semQtake_run hub hre hh r tail).trans (run_bind_error (checkHandle_outside hn r))
  exact ⟨issue_traps (Plain.alone hp) (htrap 9 true), issue_traps (Plain.alone hp) (htrap 10 false)⟩

end

end Sys2Proof.Machine

open Sys2Proof Sys2Proof.Machine

/-- Settles O40: the handle's cluster and checks, then the queue that each form leaves. -/
theorem queueForms : Obligations.QueueForms := by
  intro s c t a hp hmesh
  obtain ⟨hc, -, ht, -, -, -, hub, hre⟩ := Plain.iff.mp hp
  have hal := Plain.alone hp
  have hq : s.mach.myPart = s.mach.myCore.part.toNat := by rw [Mach.myPart_of_cur hc, Mach.myCore_of_cur hc]
  dsimp only
  rw [← hq]
  generalize hh : s.mach.me.xreg a.s = h
  have hcluster := Mach.queueCluster_eq (by rw [Mach.here_of_cur hc]; exact hmesh) h
  generalize h.toNat / 2 ^ 23 % 16 * 32 + h.toNat / 2 ^ 27 % 32 = n at *
  have hqueue (m : Mach) : Map.get (m.cluster n).queues {} (h.toNat % 64) = m.queueAt n h := rfl
  simp only [hqueue]
  have hin hholds := hcluster.trans (if_pos hholds)
  have honours := s.mach.honours_iff n s.mach.myPart h
  refine ⟨?enq, ?full, ?deq, ?steal, ?enqRefused, ?deqRefused, ?outside, ?mint⟩
  case enq =>
    rintro ⟨hholds, hright, hw, hroom⟩
    have hrun := exec_qenq_checked hp hh (hin hholds) hw
    rw [if_pos ((honours 8).mpr hright), if_pos hroom, CapQueue.enqueue, if_pos hroom] at hrun
    exact QueueStep.outcome hrun
  case full =>
    rintro ⟨hholds, hright, hw, hfull⟩
    have hrun := exec_qenq_checked hp hh (hin hholds) hw
    rw [if_pos ((honours 8).mpr hright), if_neg hfull, CapQueue.enqueue, if_neg hfull] at hrun
    exact QueueStep.outcome hrun
  case deq =>
    rintro ⟨hholds, hright⟩
    exact QueueStep.outcome ((if_pos ((honours 9).mpr hright)).mp (exec_qdeq_checked hp hh (hin hholds)))
  case steal =>
    rintro ⟨hholds, hright⟩
    rw [← List.drop_one]
    exact QueueStep.outcome ((if_pos ((honours 10).mpr hright)).mp (exec_qsteal_checked hp hh (hin hholds)))
  case enqRefused =>
    rintro ⟨hholds, hright, hw⟩
    exact (if_neg (mt (honours 8).mp hright)).mp (exec_qenq_checked hp hh (hin hholds) hw)
  case deqRefused =>
    rintro ⟨hholds, hright⟩
    exact (if_neg (mt (honours 9).mp hright)).mp (exec_qdeq_checked hp hh (hin hholds))
  case outside =>
    intro hholds
    exact exec_qtake_outside hp hh (hcluster.trans (if_neg (ne_true_of_eq_false hholds)))
  case mint =>
    rintro ⟨h32, h6, h11, hw⟩
    have hrun := semQmint_run hub hre hh ⟨h32, h6, h11⟩ hw
    refine ⟨fun hu => ?_, fun ⟨hu, hholds⟩ => ?_⟩
    · exact issue_traps hal (hrun.trans (if_pos hu))
    · rw [if_neg hu, hin hholds] at hrun
      dsimp only at hrun
      rw [Mach.modMe_modMe hc ht] at hrun
      exact QueueStep.outcome ⟨_, issue_ok hal hrun, queueStep_after hc ht (m := s.mach) hc rfl rfl
        (f := fun u => s.mach.controlled n (u.setX a.d (s.mach.mint n h))) (fun _ => rfl) n h⟩
end

section
/-! PROOF. `send` and `sendc`: the checks of a message, its payload read, and the deliveries that it leaves as (R100, R120, R253, R254). -/

namespace Sys2Proof.Machine

open Sys2Proof

/-! ## The checks (R253) -/

/-- The message names a cue of its target. -/
abbrev Cued (h : Word) : Prop := h.toNat / 2 ^ 43 % 2 = 1

/-- The length of the payload. -/
abbrev payloadLen (h : Word) : Nat := h.toNat / 2 ^ 29 % 256

/-- Header and payload offset are well formed. -/
abbrev MessageFormed (h p : Word) : Prop :=
  h.toNat / 2 ^ 37 % 4 = 0 ∧ h.toNat / 2 ^ 16 % 2 ^ 13 = 0 ∧ payloadLen h ≤ 128 ∧ p.toNat < 65536 ∧ (¬Cued h → h.toNat % 65536 = 0)

/-- A message that passes the checks: formed, its cue and its payload aligned, and its payload within own memory. -/
abbrev MessageGood (h p : Word) : Prop :=
  h.toNat / 2 ^ 37 % 4 = 0 ∧ h.toNat / 2 ^ 16 % 2 ^ 13 = 0 ∧ payloadLen h ≤ 128 ∧ p.toNat < 65536 ∧ (¬Cued h → h.toNat % 65536 = 0) ∧
    (Cued h → h.toNat % 8 = 0) ∧ (payloadLen h ≠ 0 → p.toNat % 8 = 0 ∧ p.toNat + payloadLen h ≤ 65536)

theorem messageFormed_iff (h p : Word) : (!bit h 37 && !bit h 38 && fld h 28 16 == 0 && fld h 36 29 ≤ 128 && fld p 63 16 == 0 &&
    (bit h 43 || fld h 15 0 == 0)) = true ↔ MessageFormed h p := by
  have hp := p.isLt
  simp only [Bool.and_eq_true, Bool.or_eq_true, Bool.not_eq_true', decide_eq_true_eq]
  simp only [bit, beq_iff_eq, beq_eq_false_iff_ne, fld, MessageFormed, Cued, payloadLen]
  omega

/-- The checks in their order. -/
theorem checkMessage_run (h p : Word) (m : Mach) : (checkMessage h p 65536).run m =
    if ¬MessageFormed h p then .error (.trap { cause := 0x02, addr := h }) m
    else if Cued h ∧ h.toNat % 8 ≠ 0 then .error (.trap { cause := 0x05, addr := BitVec.ofNat 64 (h.toNat % 65536) }) m
    else if payloadLen h ≠ 0 ∧ p.toNat % 8 ≠ 0 then .error (.trap { cause := 0x05, addr := p }) m
    else if payloadLen h ≠ 0 ∧ 65536 < p.toNat + payloadLen h then .error (.trap { cause := 0x04, addr := p }) m
    else .ok () m := by
  have hcue : (!bit h 43 || fld h 2 0 == 0) = !decide (Cued h ∧ h.toNat % 8 ≠ 0) := by
    rw [Bool.eq_iff_iff]
    simp only [bit, fld, Cued, Bool.or_eq_true, Bool.not_eq_true', beq_iff_eq, beq_eq_false_iff_ne,
      decide_eq_false_iff_not]
    omega
  have halign : (fld h 36 29 == 0 || fld p 2 0 == 0) = !decide (payloadLen h ≠ 0 ∧ p.toNat % 8 ≠ 0) := by
    rw [Bool.eq_iff_iff]
    simp only [fld, payloadLen, Bool.or_eq_true, Bool.not_eq_true', beq_iff_eq, decide_eq_false_iff_not]
    omega
  have hin : (fld h 36 29 == 0 || decide (p.toNat + fld h 36 29 ≤ 65536)) =
      !decide (payloadLen h ≠ 0 ∧ 65536 < p.toNat + payloadLen h) := by
    have hlen : fld h 36 29 = payloadLen h := rfl
    rw [hlen, Bool.eq_iff_iff]
    simp only [Bool.or_eq_true, Bool.not_eq_true', beq_iff_eq, decide_eq_true_eq, decide_eq_false_iff_not]
    omega
  have hlow : fld h 15 0 = h.toNat % 65536 := by simp [fld]
  rw [checkMessage]
  dsimp only
  split
  · next hf => exact run_bind_error (require_stops (eq_false_of_ne_true (mt (messageFormed_iff h p).mp hf)) _ _)
  next hf =>
  rw [run_bind_ok (require_passes ((messageFormed_iff h p).mpr (not_not.mp hf)) _ _), hcue, halign, hin, hlow]
  split
  · next hc => exact run_bind_error (require_stops (by rw [decide_eq_true hc]; rfl) _ _)
  next hc =>
  rw [run_bind_ok (require_passes (by rw [decide_eq_false hc]; rfl) _ _)]
  split
  · next ha => exact run_bind_error (require_stops (by rw [decide_eq_true ha]; rfl) _ _)
  next ha =>
  rw [run_bind_ok (require_passes (by rw [decide_eq_false ha]; rfl) _ _)]
  split
  · next hi => exact require_stops (by rw [decide_eq_true hi]; rfl) _ _
  · next hi => exact require_passes (by rw [decide_eq_false hi]; rfl) _ _

theorem checkMessage_good {h p : Word} (hgood : MessageGood h p) (m : Mach) : (checkMessage h p 65536).run m = .ok () m := by
  obtain ⟨h37, h16, hlen, hlow, hnocue, hcue, hpay⟩ := hgood
  rw [checkMessage_run, if_neg (not_not.mpr ⟨h37, h16, hlen, hlow, hnocue⟩), if_neg fun hc => hc.2 (hcue hc.1), if_neg fun ha => ha.2 (hpay ha.1).1,
    if_neg fun hi => Nat.not_lt.mpr (hpay hi.1).2 hi.2]

theorem checkMessage_unformed {h p : Word} (hf : ¬MessageFormed h p) (m : Mach) :
    (checkMessage h p 65536).run m = .error (.trap { cause := 0x02, addr := h }) m := by
  rw [checkMessage_run, if_pos hf]

/-- The header's TCB, clear in a formed header, is the sender's top-code bit (R100). -/
theorem sentHeader_eq {h : Word} (hz : h.toNat / 2 ^ 37 % 4 = 0) (tc : Bool) :
    sentHeader h tc = if tc then BitVec.ofNat 64 (h.toNat + 2 ^ 38) else h := by
  have hbit : h.getLsbD 38 = false := by
    rw [BitVec.getLsbD, Nat.testBit_eq_decide_div_mod_eq, decide_eq_false_iff_not]
    omega
  have hand : h &&& BitVec.twoPow 64 38 = 0 := by rw [BitVec.and_twoPow, hbit]; rfl
  have hsum : BitVec.ofNat 64 (h.toNat + 2 ^ 38) = h ||| BitVec.twoPow 64 38 := by
    rw [← BitVec.add_eq_or_of_and_eq_zero _ _ hand, BitVec.ofNat_add, BitVec.ofNat_toNat, BitVec.setWidth_eq]
    rfl
  rw [sentHeader, hsum]
  rfl

/-! ## The payload (R100) -/

/-- The machine after a message has read its payload and taken its number. -/
def Mach.numbered (m : Mach) (c p n : Nat) : Mach :=
  (if n = 0 then m else m.modCore c (·.correct p n)).modCore c fun k => { k with msgNo := k.msgNo + 1 }

/-- The payload's bytes. -/
def Core.payload (k : Core) (p n : Nat) : List Byte := (List.range n).map fun i => k.mem.byte (p + i)

/-- What reads corrected leaves thread sets and message numbers. -/
theorem Core.correct_rest (k : Core) (p n : Nat) : (k.correct p n).ts = k.ts ∧ (k.correct p n).msgNo = k.msgNo ∧ (k.correct p n).mem = k.mem := by
  obtain ⟨_, _, hk⟩ := (k.corrected_correct p n).rest
  rw [hk]
  exact ⟨rfl, rfl, rfl⟩

theorem Mach.cur_numbered (m : Mach) (c p n : Nat) : (m.numbered c p n).cur = m.cur := by
  unfold Mach.numbered
  split <;> rfl

theorem Mach.nextId_numbered (m : Mach) (c p n : Nat) : (m.numbered c p n).nextId = m.nextId := by
  unfold Mach.numbered
  split <;> rfl

theorem Mach.routers_numbered (m : Mach) (c p n : Nat) : (m.numbered c p n).routers = m.routers := by
  unfold Mach.numbered
  split <;> rfl

section
variable {m : Mach} {c t : Nat} (hc : m.cur = .core c t)
include hc

theorem Mach.me_numbered (p n : Nat) : (m.numbered c p n).me = m.me := by
  rw [Mach.me_of_cur ((m.cur_numbered c p n).trans hc), Mach.me_of_cur hc, Mach.numbered, Mach.core_modCore, if_pos rfl]
  split
  · rfl
  · rw [Mach.core_modCore, if_pos rfl]
    exact congrArg (vget · {} t) ((m.core c).correct_rest p n).1

/-- A payload whose words the waits of R185 let through, and which can be read, is read as it stands (R80, R100). -/
theorem readPayload_run {p n : Nat} (hal : n ≠ 0 → p % 8 = 0) (hread : ∀ i < (n + 7) / 8, m.admits c t (p + 8 * i) 8 false = true) :
    (readPayload p n).run m = .ok ((m.core c).payload p n) (if n = 0 then m else m.modCore c (·.correct p n)) := by
  rw [readPayload, run_bind_ok (EStateM.run_get m)]
  simp only [hc]
  by_cases hn : n = 0
  · subst hn
    rfl
  · have hp := hal hn
    have hcount : ceilDiv (p % 8 + n) 8 = (n + 7) / 8 := by rw [hp, ceilDiv]; omega
    have hword {w : Nat} (hw : w ∈ (List.range ((n + 7) / 8)).map (p / 8 + ·)) :
        m.gate c t (8 * w) 8 false = .open_ ∧ (m.core c).badRead (8 * w) 8 = none := by
      obtain ⟨i, hi, rfl⟩ := List.mem_map.mp hw
      have hadmits := hread i (List.mem_range.mp hi)
      rw [show p + 8 * i = 8 * (p / 8 + i) by omega] at hadmits
      obtain ⟨hgate, hbad, -⟩ := admits_iff.mp hadmits
      exact ⟨hgate, hbad⟩
    have hbad : (m.core c).badRead p n = none := by
      rw [Core.badRead, hcount]
      exact List.find?_eq_none.mpr fun w hw => by simpa using Core.ecc_of_badRead (hword hw).2
    have hecc : (eccRead c p n (wd p)).run m = .ok () (m.modCore c (·.correct p n)) := by
      rw [eccRead, run_bind_ok (EStateM.run_get m), hbad]
      rfl
    have hc' : (m.modCore c (·.correct p n)).cur = .core c t := hc
    rw [if_neg hn, if_neg hn, show ceilDiv n 8 = (n + 7) / 8 from rfl, run_bind_ok (gateWords_run hc fun w hw => (hword hw).1),
      run_bind_ok hecc, run_bind_ok (myCore_run _), Mach.myCore_of_cur hc', Mach.core_modCore, if_pos rfl, ((m.core c).correct_rest p n).2.2]
    rw [Memory.bytes_eq_map]
    rfl

/-- A message reads its payload and takes the core's next number. -/
theorem payload_takeMsgNo_run {p n : Nat} (hal : n ≠ 0 → p % 8 = 0)
    (hread : ∀ i < (n + 7) / 8, m.admits c t (p + 8 * i) 8 false = true) (f : List Byte → BitVec 32 → Act Unit) :
    (readPayload p n >>= fun body => takeMsgNo >>= fun no => f body no).run m =
      (f ((m.core c).payload p n) (m.core c).msgNo).run (m.numbered c p n) := by
  have hnum (m' : Mach) (hcur : m'.cur = .core c t) :
      takeMsgNo.run m' = .ok (m'.core c).msgNo (m'.modCore c fun k => { k with msgNo := k.msgNo + 1 }) := by
    rw [← Mach.myCore_of_cur hcur, ← Mach.here_of_cur hcur]
    rfl
  rw [run_bind_ok (readPayload_run hc hal hread), Mach.numbered]
  split
  · rw [run_bind_ok (hnum m hc)]
  · rw [run_bind_ok (hnum (m.modCore c (·.correct p n)) hc), Mach.core_modCore, if_pos rfl, ((m.core c).correct_rest p n).2.1]

end

/-! ## `send` (R253) -/

/-- What `send` of thread set `t` of core `c` does in machine `m` once its target `q` is known. -/
def sendMessage (m : Mach) (c t q : Nat) (h p : Word) : Act Unit := do
  stallUntil (m.windowFree c)
  let body ← readPayload (fld p 15 0) (fld h 36 29)
  let no ← takeMsgNo
  modify fun m => m.post c t q (.msg (sentHeader h m.me.tc) (headerWord1 (posOf c).1 (posOf c).2 no.toNat) body) none true

section
variable {m : Mach} {c t : Nat} (hc : m.cur = .core c t) {h p : Word}
include hc

/-- A mesh core's message goes to a core of its partition. -/
theorem Mach.target_eq (hmesh : c < 73728) (x y : Nat) : m.target x y =
    if x < 512 ∧ y < 144 then
      if (m.part (m.core c).part.toNat).holds x y = true then .ok (y * 512 + x) else .error 0x07
    else .error 0x06 := by
  have hhouse : decide (meshCores ≤ c) = false := decide_eq_false (Nat.not_le.mpr hmesh)
  simp only [Mach.target, hc, meshCore, Mach.myPart_of_cur hc, hhouse, Bool.false_or]
  by_cases hxy : x < 512 ∧ y < 144
  · rw [if_pos hxy, if_pos hxy]
    cases (m.part (m.core c).part.toNat).holds x y <;> rfl
  · rw [if_neg hxy, if_neg hxy]
    rfl

/-- `send`, from its checks on. -/
theorem semSend_run (hub : m.me.anyBound = false) (hre : m.me.regErr = []) {a : Args} (hh : m.me.xreg a.d = h) (hp : m.me.xreg a.s = p) :
    (semSend a).run m = (checkMessage h p 65536 >>= fun _ =>
      match m.target (h.toNat / 2 ^ 54) (h.toNat / 2 ^ 46 % 256) with
      | .error code => trapAt code h
      | .ok q => sendMessage m c t q h p).run m := by
  have hx : fld h 63 54 = h.toNat / 2 ^ 54 := Nat.mod_eq_of_lt (by omega)
  rw [semSend, run_bind_ok (srcPort_run hub _ _), run_bind_ok (srcPort_run hub _ _), run_bind_ok (readX_run hub hre _),
    run_bind_ok (readX_run hub hre _), run_bind_ok (EStateM.run_get m), hh, hp]
  simp only [hc, hx]
  rfl

omit hc in
theorem sendMessage_full (q : Nat) (hw : m.windowFree c = false) : (sendMessage m c t q h p).run m = .error (.wait .other) m := by
  exact run_bind_error (stallUntil_stops hw _ _)

/-- With a free window entry and a payload that can be read the message leaves. -/
theorem sendMessage_run (q : Nat) (hw : m.windowFree c = true) (hp : p.toNat < 65536) (hal : payloadLen h ≠ 0 → p.toNat % 8 = 0)
    (hread : ∀ i < (payloadLen h + 7) / 8, m.admits c t (p.toNat + 8 * i) 8 false = true) : (sendMessage m c t q h p).run m =
      .ok () ((m.numbered c p.toNat (payloadLen h)).post c t q (.msg (sentHeader h m.me.tc)
        (headerWord1 (posOf c).1 (posOf c).2 (m.core c).msgNo.toNat) ((m.core c).payload p.toNat (payloadLen h))) none true) := by
  have hlow : fld p 15 0 = p.toNat := by simp [fld]; omega
  have hlen : fld h 36 29 = payloadLen h := rfl
  rw [sendMessage, run_bind_ok (stallUntil_passes hw _ _), hlow, hlen, payload_takeMsgNo_run hc hal hread,
    EStateM.run_modify, Mach.me_numbered hc]

end

/-- `send` of page 0 and of page 7 do the same. -/
theorem exec_send_forms {s : State} {a : Args} {o : Host.Outcome State Fault Refusal} (h : issue (semSend a) s = o) :
    ∀ i ∈ [Instr.send a, .sendP7 a], exec i s = o := by
  simp only [List.forall_mem_cons]
  exact ⟨h, h, fun _ hi => nomatch hi⟩

/-! ## `sendc` (R121, R254) -/

theorem Mach.treeWalk_congr {m m' : Mach} (h : m'.routers = m.routers) (n f r k : Nat) : m'.treeWalk n f r k = m.treeWalk n f r k := by
  induction f generalizing r k with
  | zero => rfl
  | succ f ih =>
    have htree : m'.treeAt n r = m.treeAt n r := by simp only [Mach.treeAt, Mach.router, h]
    simp only [Mach.treeWalk, htree, ih]

/-- The copies of a multicast are a matter of the routers alone. -/
theorem Cast.copies_congr (k : Cast) {m m' : Mach} (h : m'.routers = m.routers) (n c : Nat) : k.copies m' n c = k.copies m n c := by
  simp only [Cast.copies, Mach.fanOut, Mach.treeWalk_congr h]

/-- No copy goes to a lost member (R120). -/
theorem Cast.not_lost_of_copies {k : Cast} {m : Mach} {n c : Nat} {q : Nat × Nat} (h : q ∈ k.copies m n c) :
    k.lostAt.contains q.1 = false := by
  obtain ⟨p, hp, rfl⟩ := List.mem_map.mp h
  simpa using (List.mem_filter.mp hp).2

/-- The copies of a message, all in the window entry `win`, of which the first leads. -/
def Mach.postCopies (m : Mach) (c t n win : Nat) (b : Payload) (copies : List (Nat × Nat)) : Mach :=
  copies.foldl (fun m' q =>
    m'.post c t q.1 b (some win) (cast := some (n, q.2)) (lead := (copies.head?.map (·.1)) == some q.1)) m

/-- What `sendc` of core `c` does in machine `m` after the checks that it shares with `send`. -/
def castMessage (m : Mach) (c n : Nat) (cast : Cast) (h p : Word) : Act Unit := do
  require (fld h 63 46 == 0) { faultOf Cause.illegalOperation with addr := h }
  require (c < meshCores && cast.v) { faultOf Cause.illegalOperation with addr := h }
  stallUntil (m.windowFree c)
  let body ← readPayload (fld p 15 0) (fld h 36 29)
  let no ← takeMsgNo
  modify fun m => m.postCopies c m.tsNo n m.nextId (.msg (sentHeader h m.me.tc) (headerWord1 (posOf c).1 (posOf c).2 no.toNat) body)
    (cast.copies m n c)

section
variable {m : Mach} {c t : Nat} (hc : m.cur = .core c t) {h p : Word}

include hc in
/-- `sendc`, from its checks on. -/
theorem semSendc_run (hub : m.me.anyBound = false) (hre : m.me.regErr = []) {a : Args} (hh : m.me.xreg a.d = h) (hp : m.me.xreg a.s = p) :
    (semSendc a).run m = (checkMessage h p 65536 >>= fun _ =>
      castMessage m c a.imm.toNat ((m.part (m.core c).part.toNat).cast a.imm.toNat) h p).run m := by
  rw [semSendc, run_bind_ok (srcPort_run hub _ _), run_bind_ok (srcPort_run hub _ _), run_bind_ok (readX_run hub hre _),
    run_bind_ok (readX_run hub hre _), run_bind_ok (EStateM.run_get m), hh, hp, Mach.here_of_cur hc, Mach.myPart_of_cur hc]
  rfl

/-- A cast that is not valid, or a header that names a target, is refused. -/
theorem castMessage_refused {n : Nat} {cast : Cast} (hbad : h.toNat / 2 ^ 46 ≠ 0 ∨ cast.v = false) :
    (castMessage m c n cast h p).run m = .error (.trap { cause := 0x02, addr := h }) m := by
  have htop : fld h 63 46 = h.toNat / 2 ^ 46 := Nat.mod_eq_of_lt (by omega)
  rw [castMessage, htop]
  by_cases hz : h.toNat / 2 ^ 46 = 0
  · rw [run_bind_ok (require_passes (by simpa using hz) _ _)]
    exact run_bind_error (require_stops (by rw [hbad.resolve_left (not_not.mpr hz), Bool.and_false]) _ _)
  · exact run_bind_error (require_stops (by simpa using hz) _ _)

section
variable {n : Nat} {cast : Cast} (hmesh : c < 73728) (hz : h.toNat / 2 ^ 46 = 0) (hv : cast.v = true)
include hmesh hz hv

theorem castMessage_full (hw : m.windowFree c = false) :
    (castMessage m c n cast h p).run m = .error (.wait .other) m := by
  have htop : fld h 63 46 = h.toNat / 2 ^ 46 := Nat.mod_eq_of_lt (by omega)
  rw [castMessage, htop, run_bind_ok (require_passes (by simpa using hz) _ _),
    run_bind_ok (require_passes (by rw [hv, Bool.and_true]; exact decide_eq_true hmesh) _ _)]
  exact run_bind_error (stallUntil_stops hw _ _)

include hc in
/-- With a free window entry and a payload that can be read the copies leave. -/
theorem castMessage_run (hw : m.windowFree c = true) (hp : p.toNat < 65536) (hal : payloadLen h ≠ 0 → p.toNat % 8 = 0)
    (hread : ∀ i < (payloadLen h + 7) / 8, m.admits c t (p.toNat + 8 * i) 8 false = true) :
    (castMessage m c n cast h p).run m = .ok () ((m.numbered c p.toNat (payloadLen h)).postCopies c t n m.nextId
      (.msg (sentHeader h m.me.tc) (headerWord1 (posOf c).1 (posOf c).2 (m.core c).msgNo.toNat)
        ((m.core c).payload p.toNat (payloadLen h))) (cast.copies m n c)) := by
  have htop : fld h 63 46 = h.toNat / 2 ^ 46 := Nat.mod_eq_of_lt (by omega)
  have hlow : fld p 15 0 = p.toNat := by simp [fld]; omega
  have hlen : fld h 36 29 = payloadLen h := rfl
  rw [castMessage, htop, run_bind_ok (require_passes (by simpa using hz) _ _),
    run_bind_ok (require_passes (by rw [hv, Bool.and_true]; exact decide_eq_true hmesh) _ _),
    run_bind_ok (stallUntil_passes hw _ _), hlow, hlen, payload_takeMsgNo_run hc hal hread, EStateM.run_modify, Mach.me_numbered hc,
    Mach.tsNo_of_cur ((m.cur_numbered _ _ _).trans hc), Mach.nextId_numbered, cast.copies_congr (m.routers_numbered c p.toNat (payloadLen h))]

end

end

end Sys2Proof.Machine

open Sys2Proof Sys2Proof.Machine

/-- Settles O36: the checks in their order, then the message or its copies. -/
theorem sendForms : Obligations.SendForms := by
  refine ⟨fun s c t a q hplain hmesh => ?_, fun s c t a hplain hmesh => ?_⟩
  · obtain ⟨hc, -, -, -, -, -, hub, hre⟩ := Plain.iff.mp hplain
    have hal := Plain.alone hplain
    dsimp only
    rw [Mach.myCore_of_cur hc]
    generalize hh : s.mach.me.xreg a.d = h
    generalize hp : s.mach.me.xreg a.s = p
    have htarget := Mach.target_eq hc hmesh (h.toNat / 2 ^ 54) (h.toNat / 2 ^ 46 % 256)
    have hcheck := checkMessage_run h p s.mach
    have hrun := semSend_run hc hub hre hh hp
    have stops {r : FaultRec} (hr : (checkMessage h p 65536).run s.mach = .error (.trap r) s.mach) :=
      exec_send_forms (issue_traps hal (hrun.trans (run_bind_error hr)))
    refine ⟨?posts, ?waits, ?unroutable, ?foreign, ?long, ?unformed, ?cueAlign, ?align, ?outside⟩
    case posts =>
      rintro ⟨hgood, ⟨hx, hy, hq⟩, hholds, hfree, hread⟩
      have hcore : h.toNat / 2 ^ 46 % 256 * 512 + h.toNat / 2 ^ 54 = q := by omega
      rw [run_bind_ok (checkMessage_good hgood _), htarget, if_pos (by omega), if_pos hholds, hcore] at hrun
      obtain ⟨h37, -, -, hlow, -, -, hpay⟩ := hgood
      rw [← sentHeader_eq h37]
      exact exec_send_forms (issue_ok hal (hrun.trans (sendMessage_run hc q hfree hlow (fun hn => (hpay hn).1)
        fun i hi => List.all_eq_true.mp hread i (List.mem_range.mpr hi))))
    case waits =>
      rintro ⟨hgood, ⟨hx, hy, hq⟩, hholds, hfull⟩
      rw [run_bind_ok (checkMessage_good hgood _), htarget, if_pos (by omega), if_pos hholds] at hrun
      exact exec_send_forms (issue_wait hal (hrun.trans (sendMessage_full _ hfull)))
    case unroutable =>
      rintro ⟨hgood, hout⟩
      rw [run_bind_ok (checkMessage_good hgood _), htarget, if_neg hout] at hrun
      exact exec_send_forms (issue_traps hal hrun)
    case foreign =>
      rintro ⟨hgood, ⟨hx, hy, hq⟩, hforeign⟩
      rw [run_bind_ok (checkMessage_good hgood _), htarget, if_pos (by omega), if_neg (ne_true_of_eq_false hforeign)] at hrun
      exact exec_send_forms (issue_traps hal hrun)
    case long =>
      exact fun hlong => stops (checkMessage_unformed (fun ⟨_, _, hlen, _⟩ => Nat.not_lt.mpr hlen hlong) _)
    case unformed => exact fun hf => stops (checkMessage_unformed hf _)
    case cueAlign =>
      rintro ⟨hf, hcue, hodd⟩
      exact stops (hcheck.trans (by rw [if_neg (not_not.mpr hf), if_pos ⟨hcue, hodd⟩]))
    case align =>
      rintro ⟨hf, hcue, hn, hodd⟩
      exact stops (hcheck.trans (by rw [if_neg (not_not.mpr hf), if_neg fun hc => hc.2 (hcue hc.1), if_pos ⟨hn, hodd⟩]))
    case outside =>
      rintro ⟨hf, hcue, hn, halign, hend⟩
      exact stops (hcheck.trans (by
        rw [if_neg (not_not.mpr hf), if_neg fun hc => hc.2 (hcue hc.1), if_neg fun ha => ha.2 halign, if_pos ⟨hn, hend⟩]))
  · obtain ⟨hc, -, -, -, -, -, hub, hre⟩ := Plain.iff.mp hplain
    have hal := Plain.alone hplain
    dsimp only
    rw [Mach.myCore_of_cur hc]
    generalize hh : s.mach.me.xreg a.d = h
    generalize hp : s.mach.me.xreg a.s = p
    have hrun := semSendc_run hc hub hre hh hp
    refine ⟨?copies, ?castWaits, ?invalid, ?castUnformed, ?targeted⟩
    case copies =>
      rintro ⟨⟨h37, h16, hlen, hlow, hnocue, hcue, hpay, hz⟩, hv, hfree, hread⟩
      rw [run_bind_ok (checkMessage_good ⟨h37, h16, hlen, hlow, hnocue, hcue, hpay⟩ _)] at hrun
      rw [← sentHeader_eq h37]
      exact ⟨issue_ok hal (hrun.trans (castMessage_run hc hmesh hz hv hfree hlow (fun hn => (hpay hn).1)
        fun i hi => List.all_eq_true.mp hread i (List.mem_range.mpr hi))), fun q hq => Cast.not_lost_of_copies hq⟩
    case castWaits =>
      rintro ⟨⟨h37, h16, hlen, hlow, hnocue, hcue, hpay, hz⟩, hv, hfull⟩
      rw [run_bind_ok (checkMessage_good ⟨h37, h16, hlen, hlow, hnocue, hcue, hpay⟩ _)] at hrun
      exact issue_wait hal (hrun.trans (castMessage_full hmesh hz hv hfull))
    case invalid =>
      rintro ⟨⟨h37, h16, hlen, hlow, hnocue, hcue, hpay, -⟩, hv⟩
      rw [run_bind_ok (checkMessage_good ⟨h37, h16, hlen, hlow, hnocue, hcue, hpay⟩ _)] at hrun
      exact issue_traps hal (hrun.trans (castMessage_refused (.inr hv)))
    case castUnformed =>
      intro hbad
      exact issue_traps hal (hrun.trans (run_bind_error (checkMessage_unformed (by unfold MessageFormed Cued payloadLen; omega) _)))
    case targeted =>
      rintro ⟨htop, hlow, hn⟩
      by_cases hf : MessageFormed h p
      · obtain ⟨h37, h16, hlen, hp64, hnocue⟩ := hf
        rw [run_bind_ok (checkMessage_good ⟨h37, h16, hlen, hp64, hnocue, fun _ => by omega, fun hne => absurd hn hne⟩ _)] at hrun
        exact issue_traps hal (hrun.trans (castMessage_refused (.inl htop)))
      · exact issue_traps hal (hrun.trans (run_bind_error (checkMessage_unformed hf _)))
end

section
/-! PROOF. `part.cfg` with W = 0: what the partition keeps when its clusters are released (R138, R272, R341). -/

namespace Sys2Proof.Machine

open Sys2Proof

/-- A release leaves of the partition its energy counters, the classes at work in it, its remaining energy and its queue pairs. -/
theorem Mach.part_release (m : Mach) {q : Nat} (hq : q < 16) : (m.release q).part q =
    { energy := (m.part q).energy, active := (m.part q).active, rem := (m.part q).rem, qps := (m.part q).qps } := by
  have hhands (l : List Nat) (m : Mach) (f : Stagehand → Stagehand) : (l.foldl (fun m s => m.modHand s f) m).part q = m.part q :=
    foldl_keeps (f := fun m s => m.modHand s f) (·.part q) (fun _ _ => rfl) l m
  have hcores (l : List Nat) (m : Mach) (f : Core → Core) :
      (l.foldl (fun m c => if m.live c then m.modCore c f else m) m).part q = m.part q :=
    foldl_keeps (f := fun m c => if m.live c then m.modCore c f else m) (·.part q) (fun _ _ => by split <;> rfl) l m
  unfold Mach.release
  dsimp only
  rw [Mach.part_modPart _ hq, if_pos rfl, hhands, hcores]

section
variable {m : Mach} {c t : Nat} (hub : m.me.anyBound = false) (hre : m.me.regErr = [])
include hub hre

/-- The register names its partition where its other bits are zero (R272). -/
theorem partOf_run {d : RegNo} (hq : (m.me.xreg d).toNat < 16) : (partOf d).run m = .ok (m.me.xreg d).toNat m := by
  have hhigh : fld (m.me.xreg d) 63 4 = 0 := by
    rw [fld]
    omega
  have hlow : fld (m.me.xreg d) 3 0 = (m.me.xreg d).toNat := by
    rw [fld]
    omega
  rw [partOf, run_bind_ok (readX_run hub hre _), if_pos hhigh, hlow]
  rfl

/-- `part.cfg` with W = 0 releases a configured partition, once it has read its record (R272). -/
theorem semPartCfgRelease_run (hc : m.cur = .core c t) (hl : m.me.priv = .house) {a : Args} {q : Nat} {v : Word}
    (hd : (m.me.xreg a.d).toNat = q) (hq : q < 16) (hs : m.me.xreg a.s = v) (hin : v.toNat + 144 ≤ 65536) (hal : v.toNat % 8 = 0)
    (ha : m.admits c t v.toNat 144 false = true) (hz : recordZeros ((m.core c).mem.bytes v.toNat 144) = true)
    (hw : (Partition.ofRecord ((m.core c).mem.bytes v.toNat 144)).w = 0) (hst : (m.part q).st = .configured) :
    (semPartCfgRelease a).run m = .ok () ((m.modCore c (·.correct v.toNat 144)).release q) := by
  subst hd hs
  have hst' : ((m.modCore c (·.correct (m.me.xreg a.s).toNat 144)).part (m.me.xreg a.d).toNat).st = .configured := hst
  rw [semPartCfgRelease, run_bind_ok (needHouse_run hl), run_bind_ok (srcPort_run hub _ _), run_bind_ok (srcPort_run hub _ _),
    run_bind_ok (partOf_run hub hre hq), run_bind_ok (readX_run hub hre _), run_bind_ok (houseBytes_run hc hin hal ha),
    run_bind_ok (EStateM.run_get _), hz, hw, hst']
  rfl

end

/-- Partition 0, configured, with the queue pairs that its configuration gave it. -/
def configuredPart : Partition := { st := .configured, w := 1, h := 1, qps := List.range 64 }

/-- Thread set 0 of house core (1023, 0), with x1 naming that partition and x2 a record with W = 0 and STRV = 20 at offset 0x1000. -/
def releaseMach : Mach :=
  { cur := .core 73728 0, npc := 4, parts := vset (Vector.replicate 16 {}) 0 configuredPart
    cores := [(73728, { ts := #v[{ busy := true, priv := .house, x := vset (Vector.replicate 32 0) 2 0x1000 }, {}, {}, {}]
                        placed := true, mem := [(0x1004, 0x50)] })] }

/-- The release of that partition. -/
theorem releaseMach_release : (semPartCfgRelease { d := 1, s := 2 }).run releaseMach =
    .ok () ((releaseMach.modCore 73728 (·.correct 0x1000 144)).release 0) :=
  semPartCfgRelease_run (t := 0) (v := 0x1000) (by decide) (by decide) (by decide) (by decide) (by decide) (by decide) (by decide) (by decide)
    (by decide) (by decide) (by decide) (by decide) (by decide)

end Sys2Proof.Machine

open Sys2Proof Sys2Proof.Machine

/-- Refutes O42: the clause on a release has the partition as it is at reset, but its queue pairs stay until its next configuration, so that an
access through them fails (R341), and so do its energy counters (R138). In `releaseMach` the released partition keeps 64 queue pairs. -/
theorem not_partitionForms : ¬ Obligations.PartitionForms := by
  intro h
  obtain ⟨-, -, -, -, -, hrelease, -⟩ := h.1 { mach := releaseMach } 73728 0 { d := 1, s := 2 } 0x1000 0 0 (by decide) (by decide)
  obtain ⟨v, hv, hpart, -⟩ := hrelease (by decide)
  have hrun := issue_ok (s := { mach := releaseMach }) (c := 73728) (t := 0) (by decide) releaseMach_release
  obtain rfl := Host.Outcome.next.inj (hrun.symm.trans hv)
  have hkept := State.part_after (s := { mach := releaseMach }) (t := 0) rfl ((releaseMach.modCore 73728 (·.correct 0x1000 144)).release 0) 0
  rw [Mach.part_release _ (by decide)] at hkept
  exact absurd (congrArg Partition.qps (hkept.symm.trans hpart)) (by decide)
end

section
/-! PROOF. A request to zero a partition that has a RoCE exchange under way: zeroing answers the exchange (R272, R341, R343, R351). -/

namespace Sys2Proof.Machine

open Sys2Proof

/-! ## A request that is performed at once (R342) -/

/-- The state once a request is accepted while no other waits: its SEQ is the last one, and the ceiling stands above it (R342). -/
def State.accepts (s : State) (type : Nat) (r : MgmtReq) : State :=
  { perm := { s.perm with flash := { s.perm.flash with
      ceiling := if s.perm.flash.ceiling < r.seq.toNat then r.seq.toNat + 2 ^ 32 else s.perm.flash.ceiling } }
    mach := { s.mach with lastSeq := r.seq.toNat, requests := [(type, r)] } }

/-- A request with the operator's tag and a new SEQ is performed where no other waits. -/
theorem State.request_accepted {s : State} {type : Nat} {r : MgmtReq} (hboot : s.mach.booted = true)
    (hup : s.mach.ports.toList.all (!·.up) = false) (hflags : r.flags = 0) (htag : tagOk r s.perm.flash.opKey type = true)
    (hseq : s.mach.lastSeq < r.seq.toNat) (hnone : s.mach.requests = []) : s.request type r = (s.accepts type r).pump 1 := by
  unfold State.request
  dsimp only
  rw [if_neg (by simp [hboot, hup, hflags]), if_neg (by simp [htag]), if_neg (Nat.not_le.mpr hseq), if_pos hnone, hnone]
  rfl

/-- A request that waits for its partition stays the one under way. -/
theorem State.mach_pump_later {s : State} {n type : Nat} {r : MgmtReq} {rest : List (Nat × MgmtReq)} {m : Mach}
    (hreq : s.mach.requests = (type, r) :: rest) (htype : type ≠ 0x0B) (hserve : s.mach.serve s.perm type r = .later m) :
    (s.pump (n + 1)).mach = m := by
  simp only [State.pump, hreq, if_neg htype, hserve]

/-- A request to zero a running partition begins the zeroing (R272, R343). -/
theorem Mach.serve_zero {m : Mach} {r : MgmtReq} (perm : Perm) (hq : r.part.toNat < 16) (hst : (m.part r.part.toNat).st = .running) :
    m.serve perm 0x02 r = .later (m.zero r.part.toNat) := by
  simp only [Mach.serve, Mach.zeroAsk, hst, if_neg (Nat.not_le.mpr hq)]

/-! ## What zeroing sends to the host (R272, R351) -/

@[simp] theorem Mach.replies_discarded (m : Mach) (q src n : Nat) : (m.discarded q src n).replies = m.replies := rfl

/-- Counting what a reset discards sends nothing. -/
theorem Mach.replies_countDiscards (m : Mach) (q : Nat) : (m.countDiscards q).replies = m.replies := by
  unfold Mach.countDiscards
  dsimp only
  rw [foldl_keeps Mach.replies, foldl_keeps Mach.replies, foldl_keeps Mach.replies]
  · exact fun m d => m.replies_discarded q d.src 1
  · intro m c
    refine foldl_keeps Mach.replies (fun m d => ?_) _ m
    split <;> rfl
  · intro m s
    rw [foldl_keeps Mach.replies, foldl_keeps Mach.replies]
    · intro m v
      split <;> rfl
    · exact fun m k => m.replies_discarded q k.core 1

/-- Zeroing sends the answers of the RoCE exchanges whose parts it completes, and nothing else. -/
theorem Mach.replies_zero (m : Mach) (q : Nat) :
    (m.zero q).replies = ((m.modPart q fun p => { p with report := [] }).flushRdma q).replies := by
  unfold Mach.zero Mach.resetQueues
  dsimp only
  rw [foldl_keeps Mach.replies, Mach.modPart_replies, foldl_keeps Mach.replies, foldl_keeps Mach.replies]
  · exact Mach.replies_countDiscards _ q
  · intro m c
    split <;> rfl
  · exact fun _ _ => rfl
  · exact fun _ _ => rfl

/-! ## A read under way when the request comes -/

/-- An exchange that reads 8 bytes at the far address of partition 0's window; its one part waits at the port for a place at stagehand 0. -/
def waitingRead : Rdma :=
  { xid := 1, write := false, left := 8, len := 8
    todo := [(0, { id := 1, part := 0, kind := .rdmaRead 1 0, addr := 2 ^ 62, win := 0, off := 0, len := 8 })] }

/-- Partition 0, running, with a window of 64 KiB at stagehand 0 whose table maps nothing. -/
def windowedPart : Partition :=
  { st := .running, w := 1, h := 1, quota := 3072, windows := vset (Vector.replicate 8 {}) 0 { v := true, cnt := 1, size := 1 } }

/-- The module after its boot with that partition and that exchange, and port 0 up. -/
def readingMach : Mach :=
  { booted := true, ports := #v[{ up := true, resolved := true }, {}], parts := vset (Vector.replicate 16 {}) 0 windowedPart
    rdma := [waitingRead] }

/-- The operator's request to zero partition 0. -/
def zeroRequest : MgmtReq := { part := 0, flags := 0, seq := 1, tag := tagOf [] 2 0 0 0 1 [], body := [] }

/-- The exchange is completed, here by an answer that it has failed. -/
theorem readingMach_flushRdma :
    (((({ mach := readingMach } : State).accepts 2 zeroRequest).mach.modPart 0 fun p => { p with report := [] }).flushRdma 0).replies =
      [.rdma 1 false []] := by decide +kernel

end Sys2Proof.Machine

open Sys2Proof Sys2Proof.Machine

/-- Refutes O52: the clause on the request to zero a partition has no frame sent to the host until the zeroing is done, but the RoCE exchanges
of the partition that have been accepted are completed first, and answered (R341, R351). In `readingMach` the answer to a read is sent. -/
theorem not_managementRequests : ¬ Obligations.ManagementRequests := by
  intro h
  obtain ⟨-, hzero, -⟩ := h { mach := readingMach } zeroRequest 0 0 {} rfl (by decide) rfl
  have htag : tagOk zeroRequest [] 2 = true := by simp [tagOk, zeroRequest]
  obtain ⟨v, hv, ⟨-, -, -, hreplies⟩, -⟩ := hzero ⟨by decide, ⟨htag, by decide, rfl⟩, .inl rfl⟩
  obtain rfl := Host.Outcome.next.inj hv
  have hrequest := State.request_accepted (s := { mach := readingMach }) rfl (by decide) rfl htag (by decide) rfl
  have hbegun := State.mach_pump_later (n := 0) (s := State.accepts { mach := readingMach } 2 zeroRequest) rfl (by decide)
    (Mach.serve_zero _ (by decide) rfl)
  rw [hrequest, hbegun, Mach.replies_zero] at hreplies
  cases readingMach_flushRdma.symm.trans hreplies
end

section
/-! PROOF. `cpy` and `wmk`: the parts of a far range follow one another, a free window takes the request of each, and the checks of `cpy` in
their order (R75, R105, R137, R204, R205). -/

namespace Sys2Proof.Machine

open Sys2Proof

/-! ## The parts of a far range (R113, R204) -/

/-- The parts follow one another from address `a` on and hold `n` bytes together. -/
def PartsTile : Nat → Nat → List FarPart → Prop
  | _, n, [] => n = 0
  | a, n, p :: ps => p.addr = a ∧ p.len ≤ n ∧ PartsTile (a + p.len) (n - p.len) ps

theorem Partition.parts_tile (p : Partition) {fuel a n : Nat} {ps : List FarPart} (h : p.parts fuel a n = some ps) : PartsTile a n ps := by
  induction fuel generalizing a n ps with
  | zero =>
    obtain ⟨hn, rfl⟩ : n = 0 ∧ [] = ps := by simpa [Partition.parts] using h
    exact hn
  | succ fuel ih =>
    rw [Partition.parts] at h
    split at h
    · next hn =>
      obtain rfl := Option.some.inj h
      exact hn
    · split at h
      · cases h
      · obtain ⟨qs, hqs, rfl⟩ := Option.map_eq_some_iff.mp h
        exact ⟨rfl, Nat.min_le_left _ _, ih hqs⟩

/-! ## Window entries (R105) -/

/-- Travelling deliveries keep their window entries. -/
theorem Mach.Carried.windowUsed {m m' : Mach} (h : m.Carried m') (c : Nat) : m'.windowUsed c = m.windowUsed c := by
  have hentries (l : List Delivery) : (l.filterMap fun d => if d.src == c then d.win else none) =
      (l.map Delivery.letter).filterMap fun d => if d.src == c then d.win else none := by
    rw [List.filterMap_map]
    rfl
  rw [Mach.windowUsed, Mach.windowUsed, hentries, h.letters, ← hentries]

theorem length_eraseDups_concat (l : List Nat) (x : Nat) : (l ++ [x]).eraseDups.length ≤ l.eraseDups.length + 1 := by
  rw [List.eraseDups_append, List.length_append]
  refine Nat.add_le_add_left ?_ _
  by_cases hx : x ∈ l
  · simp [List.removeAll, hx]
  · simp [List.removeAll, hx, List.eraseDups_cons]

/-- A delivery issued takes one window entry at most. -/
theorem Mach.windowUsed_concat (m : Mach) (d : Delivery) (id c : Nat) :
    ({ m with net := m.net ++ [d], nextId := id } : Mach).windowUsed c ≤ m.windowUsed c + 1 := by
  simp only [Mach.windowUsed, List.filterMap_append]
  cases hd : (if d.src == c then d.win else none) with
  | none => simp only [List.filterMap_cons, hd, List.filterMap_nil, List.append_nil, Nat.le_succ]
  | some w =>
    simp only [List.filterMap_cons, hd, List.filterMap_nil]
    exact length_eraseDups_concat _ w

/-! ## Channels -/

theorem Core.channel_modChan (k : Core) {i : Nat} (hi : i < 4) (f : Chan → Chan) : (k.modChan i f).channel i = f (k.channel i) :=
  vget_vset_same _ _ _ hi

theorem Core.modChan_modChan (k : Core) {i : Nat} (hi : i < 4) (f g : Chan → Chan) :
    (k.modChan i f).modChan i g = k.modChan i fun q => g (f q) := by
  rw [Core.modChan, Core.channel_modChan k hi]
  simp only [Core.modChan, vset_vset]

theorem Core.modChan_self {k : Core} {i : Nat} {f : Chan → Chan} (h : f (k.channel i) = k.channel i) : k.modChan i f = k := by
  rw [Core.modChan, h, Core.channel, vset_vget]

/-- The channel with the requests for `n` more bytes of its source sent. -/
def Chan.sent (n : Nat) (q : Chan) : Chan := { q with todo := q.todo - n }

/-! ## The requests of a copy (R204) -/

/-- What core `k` asks of a stagehand for part `p` of a copy into channel `i`, which goes to `base` from far offset `src` on. -/
def Core.copyMove (k : Core) (c i base src : Nat) (p : FarPart) (id : Nat) : Move :=
  { id := id, part := k.part.toNat, kind := .copy c i (base + (p.addr - src)), addr := farWord p.addr, win := p.win, off := p.off, len := p.len }

/-- The move `v` is asked of stagehand `hand` by core `c`, under some number. -/
def Mach.Asks (m : Mach) (c hand : Nat) (v : Nat → Move) : Prop :=
  ∃ d ∈ m.net, d.src = c ∧ d.dst = handBase + hand ∧ ∃ id, d.body = .move (v id)

/-- `m'` is `m` once core `c` has sent the requests `ps` of a copy into channel `i`, for `n` bytes. -/
structure Mach.Requested (m m' : Mach) (c i base src n : Nat) (ps : List FarPart) : Prop where
  cur : m'.cur = m.cur
  npc : m'.npc = m.npc
  core : m'.core c = (m.core c).modChan i (Chan.sent n)
  kept : ∀ d ∈ m.net, ∃ e ∈ m'.net, e.letter = d.letter
  asks : ∀ p ∈ ps, m'.Asks c p.hand ((m.core c).copyMove c i base src p)

theorem Mach.Asks.kept {m m' : Mach} (h : ∀ d ∈ m.net, ∃ e ∈ m'.net, e.letter = d.letter) {c hand : Nat} {v : Nat → Move}
    (ha : m.Asks c hand v) : m'.Asks c hand v := by
  obtain ⟨d, hd, hsrc, hdst, id, hbody⟩ := ha
  obtain ⟨e, he, hl⟩ := h d hd
  exact ⟨e, he, (congrArg Delivery.src hl).trans hsrc, (congrArg Delivery.dst hl).trans hdst, id, (congrArg Delivery.body hl).trans hbody⟩

section
variable (m : Mach) (c t : Nat) {i : Nat} (base src : Nat) (p : FarPart)

/-- The machine after the request for the next part of a copy. -/
def Mach.sendPart (i : Nat) : Mach :=
  (m.postMove c t (.copy c i (base + (p.addr - src))) p).modCore c (·.modChan i (Chan.sent p.len))

/-- The delivery that carries a request. -/
theorem Mach.carried_postMove (kind : MoveKind) : ∃ d : Delivery, d.src = c ∧ d.dst = handBase + p.hand ∧
    d.body = .move { id := m.nextId, part := (m.core c).part.toNat, kind := kind, addr := farWord p.addr, win := p.win, off := p.off,
                     len := p.len } ∧
    ({ m with net := m.net ++ [d], nextId := m.nextId + 1 + 1 } : Mach).Carried (m.postMove c t kind p) :=
  ({ m with nextId := m.nextId + 1 } : Mach).carried_post c t (handBase + p.hand) _ none true false [] none true

/-- The request for one part is under way, and takes one window entry at most. -/
theorem Mach.sendPart_requested : m.Requested (m.sendPart c t base src p i) c i base src p.len [p] ∧
    (m.sendPart c t base src p i).windowUsed c ≤ m.windowUsed c + 1 := by
  obtain ⟨d, hsrc, hdst, hbody, hd⟩ := m.carried_postMove c t p (.copy c i (base + (p.addr - src)))
  have hcur : (m.postMove c t (.copy c i (base + (p.addr - src))) p).cur = m.cur := by
    obtain ⟨_, _, _, hrest⟩ := hd.rest
    rw [hrest]
  refine ⟨⟨hcur, hd.npc, ?_, fun e he => hd.exists_mem (List.mem_append_left _ he), fun q hq => ?_⟩, ?_⟩
  · rw [Mach.sendPart, Mach.core_modCore, if_pos rfl, hd.core]
    rfl
  · obtain rfl := List.mem_singleton.mp hq
    obtain ⟨e, he, hl⟩ := hd.exists_mem (d := d) (by simp)
    exact ⟨e, he, (congrArg Delivery.src hl).trans hsrc, (congrArg Delivery.dst hl).trans hdst, m.nextId,
      (congrArg Delivery.body hl).trans hbody⟩
  · exact (hd.windowUsed c).trans_le (m.windowUsed_concat d _ c)

end

/-- Requests sent after others. -/
theorem Mach.Requested.append {m m' m'' : Mach} {c i base src n k : Nat} {ps qs : List FarPart} (hi : i < 4)
    (h : m.Requested m' c i base src n ps) (h' : m'.Requested m'' c i base src k qs) :
    m.Requested m'' c i base src (n + k) (ps ++ qs) where
  cur := h'.cur.trans h.cur
  npc := h'.npc.trans h.npc
  core := by
    rw [h'.core, h.core, Core.modChan_modChan _ hi]
    simp only [Chan.sent, Nat.sub_sub]
    rfl
  kept d hd := by
    obtain ⟨e, he, hl⟩ := h.kept d hd
    obtain ⟨f, hf, hl'⟩ := h'.kept e he
    exact ⟨f, hf, hl'.trans hl⟩
  asks p hp := by
    rcases List.mem_append.mp hp with hp | hp
    · exact (h.asks p hp).kept h'.kept
    · have hpart : (m'.core c).part = (m.core c).part := by rw [h.core]; rfl
      have hmove : (m'.core c).copyMove c i base src p = (m.core c).copyMove c i base src p := by
        funext id
        rw [Core.copyMove, hpart, Core.copyMove]
      exact hmove ▸ h'.asks p hp

/-- The core that has armed a channel and sent requests. -/
theorem Mach.Requested.core_armed {m m' : Mach} {c i base src n : Nat} {ps : List FarPart} {q : Chan} (hi : i < 4)
    (h : (m.modCore c (·.modChan i fun _ => q)).Requested m' c i base src n ps) : m'.core c = (m.core c).modChan i fun _ => q.sent n := by
  rw [h.core, Mach.core_modCore, if_pos rfl, Core.modChan_modChan _ hi]

/-- With a window entry for each part, all requests of a copy are sent. -/
theorem Mach.sendParts_requested {c t i base src n : Nat} {ps : List FarPart} (m : Mach) (hi : i < 4)
    (hlimit : ((m.core c).channel i).limit.toNat = base + n) (htodo : ((m.core c).channel i).todo ≤ n)
    (htile : PartsTile (src + (n - ((m.core c).channel i).todo)) ((m.core c).channel i).todo ps) (hw : m.windowUsed c + ps.length ≤ 16) :
    m.Requested (m.sendParts c t i base src ps) c i base src ((m.core c).channel i).todo ps := by
  induction ps generalizing m with
  | nil =>
    exact ⟨rfl, rfl, (Core.modChan_self (by rw [show ((m.core c).channel i).todo = 0 from htile]; rfl)).symm, fun d hd => ⟨d, hd, rfl⟩,
      fun p hp => absurd hp List.not_mem_nil⟩
  | cons p ps ih =>
    obtain ⟨haddr, hlen, htile⟩ := htile
    rw [List.length_cons] at hw
    obtain ⟨hsent, hused⟩ := m.sendPart_requested c t (i := i) base src p
    have hchan : ((m.sendPart c t base src p i).core c).channel i = ((m.core c).channel i).sent p.len := by
      rw [hsent.core, Core.channel_modChan _ hi]
    have hrest := ih (m.sendPart c t base src p i) (by rw [hchan]; exact hlimit) (by rw [hchan]; exact (Nat.sub_le _ _).trans htodo)
      (by
        have hplace : src + (n - (((m.core c).channel i).todo - p.len)) = src + (n - ((m.core c).channel i).todo) + p.len := by omega
        rw [hchan, Chan.sent, hplace]
        exact htile)
      (by omega)
    have hall := hsent.append hi hrest
    rw [hchan, Chan.sent, Nat.add_sub_cancel' hlen, List.singleton_append] at hall
    have hgo : (m.windowFree c && src + (((m.core c).channel i).limit.toNat - base - ((m.core c).channel i).todo) == p.addr) = true := by
      rw [hlimit, Nat.add_sub_cancel_left, haddr, Mach.windowFree]
      simpa using (show m.windowUsed c < 16 by omega)
    rw [Mach.sendParts, List.foldl_cons, if_pos hgo]
    exact hall

/-! ## The forms, run -/

theorem b2n_eq_toNat (b : Bool) : b2n b = b.toNat := by cases b <;> rfl

/-- An instruction that completes, or stalls and keeps what it has done. -/
theorem setOrKeep_run (p : Prop) [Decidable p] (m m' : Mach) :
    (if p then set m' else do
      set m'
      throw (.waitKeep .other) : Act Unit).run m = if p then .ok () m' else .error (.waitKeep .other) m' := by
  split <;> rfl

/-- The operands of `cpy` are formed as they should be (R204). -/
def CopyFormed (d o src : Word) : Bool :=
  fld d 15 2 == 0 && fld d 63 48 == 0 && fld o 63 7 == 0 && fld d 31 16 % 16 == 0 && fld d 47 32 % 16 == 0 &&
    decide (fld d 31 16 < fld d 47 32) && fld src 3 0 == 0 && isFar src

/-- The channel that `cpy` of thread set `t`, in the state `u`, arms. -/
def armedChan (u : ThreadSet) (t base limit : Nat) (o : Word) : Chan :=
  { base := BitVec.ofNat 16 base, limit := BitVec.ofNat 16 limit, wm := BitVec.ofNat 16 base, busy := true, todo := limit - base,
    left := limit - base, cv := bit o 6, cnt := BitVec.ofNat 6 (fld o 5 0), ts := t, cid := u.cid, pc := u.pc, priv := u.priv }

/-- The channel is busy with the copy that this instruction has armed, some of whose requests have not been sent. -/
def Chan.ownedBy (q : Chan) (u : ThreadSet) (t : Nat) : Bool := q.busy && q.todo != 0 && q.cid == u.cid && q.ts == t && q.pc == u.pc

/-- The machine after `cpy` has armed channel `i`, unless it has done so before, and asked for what the window takes. -/
def Mach.copyAsked (m : Mach) (c t i base limit : Nat) (o : Word) (src : Nat) (ps : List FarPart) : Mach :=
  (if ((m.core c).channel i).ownedBy m.me t then m else m.modCore c (·.modChan i fun _ => armedChan m.me t base limit o)).sendParts
    c t i base src ps

section
variable {m : Mach} {c t : Nat} (hc : m.cur = .core c t) (hub : m.me.anyBound = false) {a : Args}
include hc hub

/-- `wmk` reads the channel (R205). -/
theorem semWmk_run {q : Chan} (hq : (m.core c).channel (a.imm.toNat % 4) = q) : (semWmk a).run m = .ok () (m.modMe (·.setX a.d (BitVec.ofNat 64
    (q.wm.toNat + q.base.toNat * 2 ^ 16 + q.limit.toNat * 2 ^ 32 + q.busy.toNat * 2 ^ 48 + q.flt.toNat * 2 ^ 49)))) := by
  rw [semWmk, run_bind_ok (dstPort_run hub _ _), run_bind_ok (myCore_run m), Mach.myCore_of_cur hc, hq]
  refine (writeX_run hub _ _).trans ?_
  rw [wd, b2n_eq_toNat, b2n_eq_toNat]

variable (hmesh : c < 73728) (hre : m.me.regErr = []) {d o src : Word} (hd : m.me.xreg a.d = d) (ho : m.me.xreg a.t = o) (hs : m.me.xreg a.s = src)
include hmesh hre hd ho hs

omit hc hmesh in
/-- `cpy` reads its operands and checks them. -/
theorem semCpy_unformed (hf : CopyFormed d o src = false) : (semCpy a).run m = .error (.trap { cause := 0x02, addr := shown src }) m := by
  rw [semCpy, run_bind_ok (EStateM.run_get m), run_bind_ok (srcPort_run hub _ _), run_bind_ok (srcPort_run hub _ _),
    run_bind_ok (srcPort_run hub _ _), run_bind_ok (readX_run hub hre _), run_bind_ok (readX_run hub hre _),
    run_bind_ok (readX_run hub hre _), hd, ho, hs]
  exact run_bind_error (require_stops hf _ _)

/-- `cpy` of formed operands, by its outcomes: no window holds the source, the channel is another copy's, the window has taken every request, or
not yet. -/
theorem semCpy_run (hf : CopyFormed d o src = true) : (semCpy a).run m =
    match (m.part (m.core c).part.toNat).parts 20 (fld src 59 0) (fld d 47 32 - fld d 31 16) with
    | none => .error (.trap { cause := 0x0F, addr := farAddr src }) m
    | some ps =>
      if ((m.core c).channel (fld d 1 0)).busy && !((m.core c).channel (fld d 1 0)).ownedBy m.me t then .error (.wait .other) m
      else
        let m' := m.copyAsked c t (fld d 1 0) (fld d 31 16) (fld d 47 32) o (fld src 59 0) ps
        if (m'.myCore.channel (fld d 1 0)).todo = 0 then .ok () m' else .error (.waitKeep .other) m' := by
  have hpart : m.farPart m.here = some (m.part (m.core c).part.toNat) := by
    rw [Mach.here_of_cur hc, Mach.farPart, if_neg (show ¬meshCores ≤ c from Nat.not_le.mpr hmesh)]
  rw [semCpy, run_bind_ok (EStateM.run_get m), run_bind_ok (srcPort_run hub _ _), run_bind_ok (srcPort_run hub _ _),
    run_bind_ok (srcPort_run hub _ _), run_bind_ok (readX_run hub hre _), run_bind_ok (readX_run hub hre _),
    run_bind_ok (readX_run hub hre _), hd, ho, hs]
  refine (run_bind_ok (require_passes hf _ _)).trans ?_
  rw [run_bind_ok (me_run m)]
  simp only [hpart, Option.bind_some]
  cases (m.part (m.core c).part.toNat).parts 20 (fld src 59 0) (fld d 47 32 - fld d 31 16) with
  | none => rfl
  | some ps =>
    simp only [Mach.myCore_of_cur hc, Mach.here_of_cur hc, Mach.tsNo_of_cur hc]
    generalize hq : (m.core c).channel (fld d 1 0) = q
    by_cases hwait : (q.busy && !q.ownedBy m.me t) = true
    · rw [if_pos hwait]
      exact run_bind_error (stallUntil_stops (b := !q.busy || q.ownedBy m.me t) (by simpa using hwait) _ _)
    · rw [if_neg hwait]
      refine (run_bind_ok (stallUntil_passes (b := !q.busy || q.ownedBy m.me t) (by simpa [imp_iff_not_or] using hwait) _ _)).trans ?_
      rw [run_bind_ok (EStateM.run_get m)]
      simp only [Mach.here_of_cur hc, Mach.tsNo_of_cur hc]
      subst hq
      exact setOrKeep_run _ m (m.copyAsked c t (fld d 1 0) (fld d 31 16) (fld d 47 32) o (fld src 59 0) ps)

end

/-- A free channel is armed, and every request of its copy sent where the window has room. -/
theorem Mach.copyAsked_requested (m : Mach) (c t : Nat) {i base limit src : Nat} (o : Word) {ps : List FarPart} (hi : i < 4) (hlt : base < limit)
    (hlimit : limit < 65536) (hfree : ((m.core c).channel i).busy = false) (htile : PartsTile src (limit - base) ps)
    (hw : m.windowUsed c + ps.length ≤ 16) :
    (m.modCore c (·.modChan i fun _ => armedChan m.me t base limit o)).Requested (m.copyAsked c t i base limit o src ps) c i base src
      (limit - base) ps := by
  have hchan : ((m.modCore c (·.modChan i fun _ => armedChan m.me t base limit o)).core c).channel i = armedChan m.me t base limit o := by
    rw [Mach.core_modCore, if_pos rfl, Core.channel_modChan _ hi]
  have hall := Mach.sendParts_requested (m.modCore c (·.modChan i fun _ => armedChan m.me t base limit o)) (t := t) (n := limit - base)
    (base := base) (src := src) (ps := ps) hi (by rw [hchan]; simp only [armedChan, BitVec.toNat_ofNat]; omega) (by rw [hchan]; exact le_rfl)
    (by rw [hchan]; simpa [armedChan] using htile) hw
  rw [hchan] at hall
  rw [Mach.copyAsked, if_neg (by simp [Chan.ownedBy, hfree])]
  exact hall

/-! ## The operands as the statement names them -/

/-- The low six bits of a word (R204). -/
theorem fld_low6 (o : Word) : BitVec.ofNat 6 (fld o 5 0) = o.setWidth 6 := by
  refine BitVec.eq_of_toNat_eq ?_
  simp [fld]

/-- The operands name channel `i`, its range and a source in far space (R204). -/
def CopyNamed (d o src : Word) (i base limit : Nat) : Prop :=
  d.toNat = i + base * 2 ^ 16 + limit * 2 ^ 32 ∧ base < limit ∧ limit < 65536 ∧ base % 16 = 0 ∧ limit % 16 = 0 ∧ o.toNat < 128 ∧
    src.toNat / 2 ^ 62 = 1 ∧ src.toNat % 16 = 0

theorem CopyNamed.fields {d o src : Word} {i base limit : Nat} (h : CopyNamed d o src i base limit) (hi : i < 4) :
    fld d 1 0 = i ∧ fld d 31 16 = base ∧ fld d 47 32 = limit ∧ fld d 15 2 = 0 ∧ fld d 63 48 = 0 := by
  obtain ⟨hd, hlt, hlimit, -⟩ := h
  unfold fld
  omega

theorem CopyNamed.formed {d o src : Word} {i base limit : Nat} (h : CopyNamed d o src i base limit) (hi : i < 4) :
    CopyFormed d o src = true := by
  obtain ⟨-, hbase, hlimit, hlow, hhigh⟩ := h.fields hi
  obtain ⟨-, hlt, -, hb, hl, ho, hfar, hs⟩ := h
  have ho7 : fld o 63 7 = 0 := by unfold fld; omega
  have hs16 : fld src 3 0 = 0 := by unfold fld; omega
  simp [CopyFormed, hbase, hlimit, hlow, hhigh, hb, hl, hlt, ho7, hs16, (fld_space_of_far hfar).1]

/-- A source outside far space is not formed as it should be, and its address is shown as it is (R75). -/
theorem copyFormed_near {src : Word} (h : ¬src.toNat / 2 ^ 62 = 1) (d o : Word) : CopyFormed d o src = false ∧ shown src = src := by
  have hlt := src.isLt
  have hnear : isFar src = false := by
    simp only [isFar, fld, beq_eq_false_iff_ne]
    omega
  simp [CopyFormed, shown, hnear]

end Sys2Proof.Machine

open Sys2Proof Sys2Proof.Machine

/-- Settles O21: `cpy` by the outcomes of its checks, and the requests of an armed channel by induction over the parts of its source. -/
theorem copyForms : Obligations.CopyForms := by
  intro s c t a base limit ps hplain hmesh
  obtain ⟨hc, -, ht, -, -, -, hub, hre⟩ := Plain.iff.mp hplain
  have hal := Plain.alone hplain
  dsimp only
  rw [Mach.myCore_of_cur hc]
  generalize hd : s.mach.me.xreg a.d = d
  generalize ho : s.mach.me.xreg a.t = o
  generalize hs : s.mach.me.xreg a.s = src
  have hi : d.toNat % 4 < 4 := Nat.mod_lt _ (by decide)
  generalize d.toNat % 4 = i at hi
  have hfar : src.toNat % 2 ^ 62 % 2 ^ 60 = fld src 59 0 := by rw [fld_low60]; omega
  rw [hfar]
  have hrun (h : CopyNamed d o src i base limit) := semCpy_run hc hub hmesh hre hd ho hs (h.formed hi)
  refine ⟨?arms, ?waits, ?outside, ?near, ?reads⟩
  case arms =>
    rintro ⟨hnamed, hparts, hfree, hwindow⟩
    obtain ⟨hchan, hbase, hlimit, -⟩ := CopyNamed.fields hnamed hi
    have hrun := hrun hnamed
    obtain ⟨-, hlt, hlimit16, -⟩ := hnamed
    have hreq := s.mach.copyAsked_requested c t o hi hlt hlimit16 hfree (Partition.parts_tile _ hparts) hwindow
    rw [hchan, hbase, hlimit, hparts] at hrun
    dsimp only at hrun
    rw [if_neg (by simp [hfree])] at hrun
    generalize s.mach.copyAsked c t i base limit o (fld src 59 0) ps = m at hrun hreq
    have hcore := hreq.core_armed hi
    have harmed : (m.core c).channel i = { armedChan s.mach.me t base limit o with todo := 0 } := by
      rw [hcore, Core.channel_modChan _ hi, Chan.sent]
      simp [armedChan]
    rw [Mach.myCore_of_cur (hreq.cur.trans hc), harmed, if_pos rfl] at hrun
    obtain ⟨hpc, hx, hmem⟩ := State.goesOn_after hc ht (m := m) hreq.npc (by rw [hcore]; rfl) (by rw [hcore]; rfl)
    rw [Mach.myCore_of_cur hc] at hmem
    refine ⟨_, issue_ok hal hrun, ?_, List.all_eq_true.mpr fun q hq => List.any_eq_true.mpr ?_, hmem, hx, hpc⟩
    · rw [State.core_after hc, if_pos rfl]
      refine harmed.trans ?_
      simp [armedChan, bit_eq_getLsbD, fld_low6]
    · obtain ⟨e, he, hsrc, hdst, id, hbody⟩ := hreq.asks q hq
      refine ⟨e, by simpa only [State.after, Mach.complete, hc, Mach.modCore_net] using he, ?_⟩
      rw [Mach.core_modCore, if_pos rfl] at hbody
      simp only [hsrc, hdst, hbody, beq_self_eq_true]
      exact Bool.and_eq_true_iff.mpr ⟨beq_self_eq_true _, decide_eq_true rfl⟩
  case waits =>
    rintro ⟨hnamed, hparts, hbusy, hdone⟩
    obtain ⟨hchan, hbase, hlimit, -⟩ := CopyNamed.fields hnamed hi
    obtain ⟨qs, hqs⟩ := Option.ne_none_iff_exists'.mp hparts
    have hrun := hrun hnamed
    rw [hchan, hbase, hlimit, hqs] at hrun
    dsimp only at hrun
    rw [if_pos (by simp [Chan.ownedBy, hbusy, hdone])] at hrun
    exact issue_wait hal hrun
  case outside =>
    rintro ⟨hnamed, hparts⟩
    obtain ⟨-, hbase, hlimit, -⟩ := CopyNamed.fields hnamed hi
    have hrun := hrun hnamed
    obtain ⟨-, -, -, -, -, -, hspace, -⟩ := hnamed
    rw [hbase, hlimit, hparts, farAddr_of_far (fld_space_of_far hspace).1, ← fld_low60, Nat.add_comm] at hrun
    exact issue_traps hal hrun
  case near =>
    intro hnear
    obtain ⟨hunformed, hshown⟩ := copyFormed_near hnear d o
    have hrun := semCpy_unformed hub hre hd ho hs hunformed
    rw [hshown] at hrun
    exact issue_traps hal hrun
  case reads => exact issue_ok hal (semWmk_run hc hub rfl)
end

section
/-! PROOF. Chains of prefixes: which word may join, and what a chain read so far holds (R145, R152). -/

namespace Sys2Proof

/-! ## One word of a chain -/

/-- The word is one of the prefixes: its op6 is one of 0x30 to 0x33 (R145). -/
def IsPrefix (p : IWord) : Prop := 0xC000 ≤ p.toNat ∧ p.toNat < 0xD000

/-- The kind of such a word: 0 for PAGE, 1 for REG, 2 for IMM, 3 for HINT (R145). -/
def prefixKind (p : IWord) : Nat := p.toNat / 1024 % 4

theorem op6_of_isPrefix {p : IWord} (h : IsPrefix p) : op6 p = 0x30 + prefixKind p := by
  obtain ⟨hlo, hhi⟩ := h
  unfold op6 prefixKind
  omega

theorem prefixKind_cases (p : IWord) : prefixKind p = 0 ∨ prefixKind p = 1 ∨ prefixKind p = 2 ∨ prefixKind p = 3 := by
  unfold prefixKind
  omega

namespace Chain

/-- How far a chain has come: to its PAGE, its REG, a first IMM, a second IMM, its HINT. -/
def reach (c : Chain) : Nat :=
  if c.hint ≠ none then 5 else if 2 ≤ c.imms.length then 4 else if c.imms ≠ [] then 3 else if c.reg ≠ none then 2
  else if c.pfx ≠ 0 then 1 else 0

/-- The farthest a chain may have come for a word of the kind to join it (R152). -/
def reachBefore : Nat → Nat
  | 0 => 0
  | 1 => 1
  | 2 => 3
  | _ => 4

/-- How far a chain has come with a further word of the kind. -/
def reachAfter (n : Nat) : Nat → Nat
  | 0 => 1
  | 1 => 2
  | 2 => if n = 3 then 4 else 3
  | _ => 5

/-- The chain with a further word, whatever the order of the kinds. -/
def add (c : Chain) (p : IWord) : Chain :=
  match prefixKind p with
  | 0 => { c with page := some (low10 p), pfx := c.pfx + 1 }
  | 1 => { c with reg := some (low10 p), pfx := c.pfx + 1 }
  | 2 => { c with imms := c.imms ++ [low10 p], pfx := c.pfx + 1 }
  | _ => { c with hint := some (low10 p), pfx := c.pfx + 1 }

theorem reach_le_zero {c : Chain} : c.reach ≤ 0 ↔ c.reg = none ∧ c.imms = [] ∧ c.hint = none ∧ c.pfx = 0 := by
  grind [reach]

theorem reach_le_one {c : Chain} : c.reach ≤ 1 ↔ c.reg = none ∧ c.imms = [] ∧ c.hint = none := by
  grind [reach]

theorem reach_le_three {c : Chain} : c.reach ≤ 3 ↔ c.imms.length < 2 ∧ c.hint = none := by
  grind [reach]

theorem reach_le_four {c : Chain} : c.reach ≤ 4 ↔ c.hint = none := by
  grind [reach]

/-- A word of the prefixes joins a chain of fewer than four that has not come too far for it (R152). -/
theorem push_of_isPrefix {c : Chain} {p : IWord} (hp : IsPrefix p) (hc : c.pfx = 0 → c.reach ≤ 0) :
    c.push p = if c.pfx < 4 ∧ c.reach ≤ reachBefore (prefixKind p) then some (c.add p) else none := by
  unfold push add
  rw [op6_of_isPrefix hp]
  by_cases h4 : 4 ≤ c.pfx
  · rw [if_pos h4, if_neg (by omega)]
  have hlt : c.pfx < 4 := by omega
  obtain h | h | h | h := prefixKind_cases p <;> simp only [h, h4, hlt, if_false, true_and, reachBefore]
  · have : c.reach ≤ 0 ↔ c.pfx = 0 := ⟨fun h => (reach_le_zero.mp h).2.2.2, hc⟩
    simp only [this]
  · simp only [reach_le_one]
  · simp only [reach_le_three]
  · simp only [reach_le_four]

/-- No word from 0xD000 on joins a chain (R145). -/
theorem push_of_illegal (c : Chain) {w : IWord} (hw : 0xD000 ≤ w.toNat) : c.push w = none := by
  have hop : 0x34 ≤ op6 w := by unfold op6; omega
  unfold push
  split
  · rfl
  · split
    · omega
    · omega
    · omega
    · omega
    · rfl

theorem reach_add {c : Chain} {p : IWord} (hp : c.reach ≤ reachBefore (prefixKind p)) :
    (c.add p).reach = reachAfter c.reach (prefixKind p) := by
  unfold add
  obtain h | h | h | h := prefixKind_cases p <;> simp only [h, reachBefore, reachAfter] at hp ⊢
  · obtain ⟨hreg, himms, hhint, -⟩ := reach_le_zero.mp hp
    simp [reach, hreg, himms, hhint]
  · obtain ⟨-, himms, hhint⟩ := reach_le_one.mp hp
    simp [reach, himms, hhint]
  · obtain ⟨hlt, hhint⟩ := reach_le_three.mp hp
    cases himms : c.imms <;> grind [reach]
  · simp [reach]

/-! ## Words read one after another -/

/-- Reading a word that joins the chain. -/
theorem read_of_push {c c' : Chain} {p : IWord} (hp : IsPrefix p) (h : c.push p = some c') (ws : List IWord) :
    c.read (p :: ws) = c'.read ws := by
  rw [read, if_neg (by rw [op6_of_isPrefix hp]; omega), h]

/-- A word from 0xC000 on that does not join the chain is the word found illegal (R153). -/
theorem read_of_push_none {c : Chain} {p : IWord} (hp : 0xC000 ≤ p.toNat) (h : c.push p = none) (ws : List IWord) :
    c.read (p :: ws) = .error (.illegal c.pfx) := by
  rw [read, if_neg (by unfold op6; omega), h]

/-- A base word ends the chain (R152). -/
theorem read_base (c : Chain) {w : IWord} (hw : w.toNat < 0xC000) (ws : List IWord) : c.read (w :: ws) = .ok { c with base := w } := by
  rw [read, if_pos (by unfold op6; omega)]

/-! ## The chain that prefixes make -/

/-- The payloads of the prefixes of a kind, in their order. -/
def payloads (ps : List IWord) (k : Nat) : List (BitVec 10) := (ps.filter fun p => prefixKind p = k).map low10

/-- What prefixes make of an empty chain. -/
def ofPrefixes (ps : List IWord) : Chain :=
  { page := (payloads ps 0).head?, reg := (payloads ps 1).head?, imms := payloads ps 2, hint := (payloads ps 3).head?, pfx := ps.length }

theorem payloads_concat (ps : List IWord) (p : IWord) (k : Nat) :
    payloads (ps ++ [p]) k = payloads ps k ++ if prefixKind p = k then [low10 p] else [] := by
  by_cases h : prefixKind p = k <;> simp [payloads, h]

/-- A word that may join adds its payload to those of its kind. -/
theorem ofPrefixes_concat {ps : List IWord} {p : IWord} (h : (ofPrefixes ps).reach ≤ reachBefore (prefixKind p)) :
    ofPrefixes (ps ++ [p]) = (ofPrefixes ps).add p := by
  unfold add
  obtain hk | hk | hk | hk := prefixKind_cases p <;> simp only [hk, reachBefore] at h ⊢
  · obtain ⟨-, -, -, hnil⟩ := reach_le_zero.mp h
    rw [List.eq_nil_of_length_eq_zero hnil]
    simp [ofPrefixes, hk, payloads]
  · have hreg : payloads ps 1 = [] := List.head?_eq_none_iff.mp (reach_le_one.mp h).1
    simp [ofPrefixes, payloads_concat, hk, hreg]
  · simp [ofPrefixes, payloads_concat, hk]
  · have hhint : payloads ps 3 = [] := List.head?_eq_none_iff.mp (reach_le_four.mp h)
    simp [ofPrefixes, payloads_concat, hk, hhint]

/-! ## The order of the kinds (R152) -/

/-- The kind of the word at a place. -/
def kindAt (ps : List IWord) (j : Nat) : Nat := prefixKind (ps.getD j 0)

theorem kindAt_of_lt {ps : List IWord} {j : Nat} (h : j < ps.length) : kindAt ps j = prefixKind ps[j] := by
  rw [kindAt, List.getD_eq_getElem _ _ h]

theorem kindAt_cases (ps : List IWord) (j : Nat) : kindAt ps j = 0 ∨ kindAt ps j = 1 ∨ kindAt ps j = 2 ∨ kindAt ps j = 3 :=
  prefixKind_cases _

/-- The word at a place is none too many and stands in order after the ones before it. -/
def LegalAt (ps : List IWord) (j : Nat) : Prop :=
  j < 4 ∧ (j = 0 ∨ kindAt ps (j - 1) < kindAt ps j ∨
    (kindAt ps (j - 1) = 2 ∧ kindAt ps j = 2 ∧ (j = 1 ∨ kindAt ps (j - 2) ≠ 2)))

/-- How far a chain in order has come with its first prefixes, by the last two of them. -/
def reachAt (ps : List IWord) : Nat → Nat
  | 0 => 0
  | n + 1 => if kindAt ps n = 2 then (if n ≠ 0 ∧ kindAt ps (n - 1) = 2 then 4 else 3) else reachAfter 0 (kindAt ps n)

theorem legalAt_iff (ps : List IWord) (n : Nat) : LegalAt ps n ↔ n < 4 ∧ reachAt ps n ≤ reachBefore (kindAt ps n) := by
  unfold LegalAt
  refine and_congr_right fun _ => ?_
  cases n with
  | zero => simp [reachAt]
  | succ n =>
    simp only [reachAt, Nat.add_sub_cancel, show n + 1 - 2 = n - 1 by omega]
    obtain h | h | h | h := kindAt_cases ps n <;> obtain h' | h' | h' | h' := kindAt_cases ps (n + 1) <;>
      grind [reachAfter, reachBefore]

theorem reachAt_eq_three {ps : List IWord} {n : Nat} (h : reachAt ps n ≤ 3) : reachAt ps n = 3 ↔ n ≠ 0 ∧ kindAt ps (n - 1) = 2 := by
  cases n with
  | zero => simp [reachAt]
  | succ n =>
    simp only [reachAt, Nat.add_sub_cancel] at h ⊢
    obtain hk | hk | hk | hk := kindAt_cases ps n <;> simp only [hk, reachAfter] at h ⊢
    · simp
    · simp
    · simpa using fun hn h' => by simp [hn, h'] at h
    · simp at h

/-- Each word in order takes the chain on. -/
theorem reachAt_succ {ps : List IWord} {n : Nat} (h : reachAt ps n ≤ reachBefore (kindAt ps n)) :
    reachAt ps (n + 1) = reachAfter (reachAt ps n) (kindAt ps n) := by
  rw [show reachAt ps (n + 1) = if kindAt ps n = 2 then (if n ≠ 0 ∧ kindAt ps (n - 1) = 2 then 4 else 3)
    else reachAfter 0 (kindAt ps n) from rfl]
  obtain hk | hk | hk | hk := kindAt_cases ps n <;> rw [hk] at h ⊢
  · rfl
  · rfl
  · simp only [reachAfter, if_pos, reachAt_eq_three h]
  · rfl

/-! ## The chain of the first prefixes -/

section
variable {ps : List IWord}

theorem ofPrefixes_take_succ {n : Nat} (hn : n < ps.length)
    (h : (ofPrefixes (ps.take n)).reach ≤ reachBefore (kindAt ps n)) :
    ofPrefixes (ps.take (n + 1)) = (ofPrefixes (ps.take n)).add ps[n] := by
  rw [kindAt_of_lt hn] at h
  rw [← List.take_concat_get' _ _ hn, ofPrefixes_concat h]

/-- With its first prefixes in order, a chain has come as far as the last two of them say. -/
theorem reach_ofPrefixes_take {n : Nat} (hn : n ≤ ps.length) (h : ∀ j < n, LegalAt ps j) :
    (ofPrefixes (ps.take n)).reach = reachAt ps n := by
  induction n with
  | zero => rfl
  | succ n ih =>
    have ih := ih (by omega) fun j hj => h j (by omega)
    have hle := ((legalAt_iff ps n).mp (h n (by omega))).2
    have hle' : (ofPrefixes (ps.take n)).reach ≤ reachBefore (prefixKind ps[n]) := by
      rwa [ih, ← kindAt_of_lt hn]
    rw [ofPrefixes_take_succ hn (ih ▸ hle), reach_add hle', ih, reachAt_succ hle, kindAt_of_lt hn]

theorem reach_ofPrefixes_of_pfx (h : (ofPrefixes ps).pfx = 0) : (ofPrefixes ps).reach ≤ 0 := by
  rw [List.eq_nil_of_length_eq_zero h]
  exact Nat.le_refl 0

variable (hps : ∀ p ∈ ps, IsPrefix p)
include hps

/-- After words in order, the next one joins where it is none too many and the chain has not come too far for it. -/
theorem push_ofPrefixes_take {n : Nat} (hn : n < ps.length) (h : ∀ j < n, LegalAt ps j) :
    (ofPrefixes (ps.take n)).push ps[n] =
      if n < 4 ∧ reachAt ps n ≤ reachBefore (kindAt ps n) then some ((ofPrefixes (ps.take n)).add ps[n]) else none := by
  have hlen : (ofPrefixes (ps.take n)).pfx = n := by simp [ofPrefixes]; omega
  rw [push_of_isPrefix (hps _ (List.getElem_mem hn)) reach_ofPrefixes_of_pfx, hlen, reach_ofPrefixes_take (by omega) h,
    ← kindAt_of_lt hn]

/-- Prefixes in order are read as the chain they make (R152). -/
theorem read_take {n : Nat} (hn : n ≤ ps.length) (h : ∀ j < n, LegalAt ps j) (ws : List IWord) :
    read {} (ps ++ ws) = (ofPrefixes (ps.take n)).read (ps.drop n ++ ws) := by
  induction n with
  | zero => rfl
  | succ n ih =>
    have h' : ∀ j < n, LegalAt ps j := fun j hj => h j (by omega)
    have hl := (legalAt_iff ps n).mp (h n (by omega))
    have hle : (ofPrefixes (ps.take n)).reach ≤ reachBefore (kindAt ps n) := by
      rw [reach_ofPrefixes_take (by omega) h']
      exact hl.2
    rw [ih (by omega) h', List.drop_eq_getElem_cons hn, List.cons_append, ofPrefixes_take_succ hn hle,
      read_of_push (hps _ (List.getElem_mem hn)) ((push_ofPrefixes_take hps hn h').trans (if_pos hl))]

theorem read_of_legal (h : ∀ j < ps.length, LegalAt ps j) (ws : List IWord) : read {} (ps ++ ws) = (ofPrefixes ps).read ws := by
  rw [read_take hps (Nat.le_refl _) h, List.take_length, List.drop_length, List.nil_append]

/-- The first word out of order is the word found illegal (R152, R153). -/
theorem read_of_not_legal {n : Nat} (hn : n < ps.length) (h : ∀ j < n, LegalAt ps j) (hl : ¬LegalAt ps n) (ws : List IWord) :
    read {} (ps ++ ws) = .error (.illegal n) := by
  rw [read_take hps (by omega) h, List.drop_eq_getElem_cons hn, List.cons_append,
    read_of_push_none (hps _ (List.getElem_mem hn)).1
      ((push_ofPrefixes_take hps hn h).trans (if_neg fun hl' => hl ((legalAt_iff ps n).mpr hl')))]
  simp [ofPrefixes]
  omega

end

/-- The payloads of a kind, by the places of its prefixes. -/
theorem payloads_eq_range (ps : List IWord) (k : Nat) : payloads ps k =
    ((List.range ps.length).filter fun j => kindAt ps j = k).map fun j => (ps.getD j 0).setWidth 10 := by
  have hrange : ps = (List.range ps.length).map (ps.getD · 0) := by
    refine List.ext_getElem (by simp) fun j hj _ => ?_
    rw [List.getElem_map, List.getElem_range, List.getD_eq_getElem _ _ hj]
  rw [payloads]
  conv_lhs => rw [hrange]
  rw [List.filter_map, List.map_map]
  rfl

end Chain
end Sys2Proof

open Sys2Proof Sys2Proof.Machine

/-- Settles O56: the chain that the prefixes before a place make tells whether the next one may join. -/
theorem prefixChains : Obligations.PrefixChains := by
  intro ps w rest i hall kind payload legal places sound only
  have hps : ∀ p ∈ ps, IsPrefix p := by simpa [IsPrefix] using hall
  have hsound (h : sound) : ∀ j < ps.length, Chain.LegalAt ps j := fun j hj => h j (List.mem_range.mpr hj)
  refine ⟨?read, ?outOfOrder, ?noBase, ?slotEnd⟩
  case read =>
    rintro ⟨hw, hs⟩
    rw [Chain.read_of_legal hps (hsound hs), Chain.read_base _ hw]
    simp only [Chain.ofPrefixes, Chain.payloads_eq_range]
    rfl
  case outOfOrder =>
    rintro ⟨hi, hl, hbefore⟩
    exact Chain.read_of_not_legal hps hi (fun j hj => hbefore j (List.mem_range.mpr hj)) hl _
  case noBase =>
    rintro ⟨hw, hs⟩
    rw [Chain.read_of_legal hps (hsound hs), Chain.read_of_push_none (by omega) (Chain.push_of_illegal _ hw)]
    rfl
  case slotEnd =>
    rintro ⟨-, hs⟩
    have h := Chain.read_of_legal hps (hsound hs) []
    rw [List.append_nil] at h
    rw [h]
    rfl
end

section
/-! PROOF. The map entries of the encoded instructions, all together (R156 to R165): each leads back to its instruction, and what of its
fields go together. -/

namespace Sys2Proof.Laws.MapEntry

/-- Every instruction's row and operands lead back to it. -/
theorem forall_statement : ∀ i, Statement i :=
  Instr.rec
    add sub and or xor shl shr sra mul seq slt sltu sel addImm shlImm shrImm sraImm andImm li mov ldD ldW stD stW vld vst ldfr stfr
    b jal beq bne blt bge bltu bgeu bz bnz jr loop kget kput cueDec send pstD pstv beos nop done ret eret halt trap ldSize stSize
    ldAcq stRel stS ldv stv rcl ver pstSize pstvP1 ldfar stfar vldfar vldP1 vstP1 vlds vsts vgat vsct amoAdd amoAnd amoOr amoXor
    amoMin amoMax amoMinu amoMaxu amoSwap cas fence cpy wmk job jwait tilePut tileGet sfill sdrain vaddInt vsubInt vmulInt vminInt
    vmaxInt vabsInt vnegInt vcmpInt vsel vand vor vxor vshl vshr vsra vperm vbcst vext vins vmov vredSumInt vredMaxInt vredMinInt
    andn rol mulh mulhu div divu rem remu min max minu maxu clz ctz popc bswap sext zext lih adds bfx bfi orImm xorImm vaddFloat
    vsubFloat vmulFloat vfma vfms vminFloat vmaxFloat vabsFloat vnegFloat vdiv vsqrt vcmpFloat vredSumFloat vredMaxFloat
    vredMinFloat vdot vcvt vbmand vpfx vpopc pand por pxor pnot pmov pset mma mmag mmix macz macr macw macst mreh mwait gacc gsub
    gschur gdamp gmean gres sendP7 sendc cueDecP7 cueArm cueBind cueStat ready park rpoll rwait rpop mbinc mbwait mbget sbind sclose
    sstat sseek beosP8 ldfrP8 stfrP8 vldfr vstfr enter leave dmov frref frrel cfetch cstat jf jfl curtain curtainArr curtainExcuse
    castq qenq qdeq qsteal qmint chorus chorusEnd partCfg partCfgRelease partZero partRun partSusp slicePut sliceArm keyPut keyZero
    sysPageTableWrite asyncTrapDelivery codeletStart contextResume faultResume eventTake cueDecArrival messageAppend
    postedStoreArrival stvArrival mailboxIncrement deliveryAccepted deliveryRefused retransmit farRequest farAnswer contextWake
    faultWake versionWaitPark parkTimeout quantumChoice fetchComplete fetchFault drainEnd writebackDone pinTimeout streamFill
    streamDrain linkElementArrival copyPush copyFault jobStart jobComplete jobFault stageTimeout matrixBegin matrixComplete
    gangBarrierComplete gangTimeout gangAbort schurComplete curtainRelease curtainTimeout mailboxTimeout chorusWaitTimeout
    castRoundComplete collectiveTimeout overlayFetchDone energyUpdate budgetPeriod powerPeriod launchGo zeroingDone sliceSwitch
    linkResync linkDead routeChange moduleReset configurePartition zeroPartition launch suspend resume sliceEntry armSlices
    setAllotment readEnergy attest advanceRollback readStatus rdmaWrite rdmaRead roceSend ptpMessage ptpHoldover addressResolution
    illegalInstruction instructionFetch droppedFrame priorityFlowControl portLinkUpOrDown stage1FirmwareUpdate

end Sys2Proof.Laws.MapEntry

namespace Sys2Proof

/-- A form of page 0 has no PAGE word to hold a modifier or a variant; a trap's number stands in an S form; an S form of another page has
sub10 = 0 (R143, R146, R159). -/
def Row.regular (r : Row) : Bool :=
  (r.page != 0 || (r.modMax == 0 && r.varMax == 0)) && (r.limit != .trapNo || r.fmt == .s) &&
    (r.fmt != .s || r.page == 0 || r.limit == .sub 0)

theorem regular_of_parts {i : Instr} {r : Row} {a : Args} (h : i.parts = some (r, a)) : r.regular = true := by
  cases i <;> cases h <;> rfl

end Sys2Proof
end

section
/-! PROOF. What the encoder writes is read as one chain: immediates and their low bits, the fields of a word, the words of a chain, and
the chain of a form with its operands (R142, R145, R150 to R152, R155). -/

namespace Sys2Proof

/-! ## Immediates (R150) -/

/-- The low `n` bits of an immediate, every bit above them zero. -/
def lowBits (n : Nat) (v : Word) : Word := (v.setWidth n).setWidth 64

theorem lowBits_getLsbD (n : Nat) (v : Word) (i : Nat) : (lowBits n v).getLsbD i = (decide (i < n) && v.getLsbD i) := by
  simp only [lowBits, BitVec.getLsbD_setWidth]
  by_cases h : i < 64
  · simp [h]
  · simp [BitVec.getLsbD_of_ge v i (by omega)]

/-- The next ten bits of an immediate, above its low ones. -/
theorem payload_or_lowBits (b : Nat) (v : Word) :
    ((v.extractLsb' b 10).setWidth 64 <<< b) ||| lowBits b v = lowBits (b + 10) v := by
  refine BitVec.eq_of_getLsbD_eq fun i hi => ?_
  simp only [BitVec.getLsbD_or, BitVec.getLsbD_shiftLeft, BitVec.getLsbD_setWidth, BitVec.getLsbD_extractLsb', lowBits_getLsbD]
  by_cases h : i < b
  · simp [h, show i < b + 10 by omega]
  · have : (decide (i - b < 64)) = true := by simp; omega
    simp [h, hi, this, show b + (i - b) = i by omega, show i - b < 10 ↔ i < b + 10 by omega]

/-- An immediate that fits is its own low bits, extended. -/
theorem extend_lowBits {k : ImmKind} {n : Nat} (hn : n ≤ 64) {v : Word} (h : fits k n v = true) : extend k n (lowBits n v) = v := by
  cases k with
  | none => exact (beq_iff_eq.mp h).symm
  | signed =>
    have hshift : lowBits n v <<< (64 - n) = v <<< (64 - n) := by
      refine BitVec.eq_of_getLsbD_eq fun i hi => ?_
      simp only [BitVec.getLsbD_shiftLeft, lowBits_getLsbD]
      by_cases hin : i - (64 - n) < n
      · simp [hin]
      · simp [show i < 64 - n by omega]
    simpa only [fits, extend, hshift, beq_iff_eq] using h
  | unsigned =>
    have hlt : v.toNat < 2 ^ n := by simpa [fits] using h
    refine BitVec.eq_of_toNat_eq ?_
    simp only [extend, lowBits, BitVec.toNat_setWidth]
    rw [Nat.mod_eq_of_lt hlt, Nat.mod_eq_of_lt v.isLt]

/-! ## Words by their fields (R143, R145) -/

theorem toNat_append_div {m n : Nat} (x : BitVec m) (y : BitVec n) : (x ++ y).toNat / 2 ^ n = x.toNat := by
  rw [BitVec.toNat_append, ← Nat.shiftLeft_add_eq_or_of_lt y.isLt, Nat.shiftLeft_eq, Nat.mul_comm,
    Nat.mul_add_div (Nat.two_pow_pos n), Nat.div_eq_of_lt y.isLt, Nat.add_zero]

theorem op6_mkWord {op : Nat} (h : op < 64) (x : BitVec 10) : op6 (mkWord op x) = op :=
  (toNat_append_div (BitVec.ofNat 6 op) x).trans (Nat.mod_eq_of_lt h)

@[simp] theorem low10_mkWord (op : Nat) (x : BitVec 10) : low10 (mkWord op x) = x :=
  BitVec.extractLsb'_append_eq_right

/-- The fields of a word's low ten bits. -/
theorem extractLsb'_mkWord {start len : Nat} (h : start + len ≤ 10) (op : Nat) (x : BitVec 10) :
    (mkWord op x).extractLsb' start len = x.extractLsb' start len :=
  BitVec.extractLsb'_append_eq_of_add_le h

/-! ## The words of a chain, read back (R145, R152) -/

namespace Chain

/-- The words of a chain: its prefixes in ascending order of their kinds, and its base word. -/
def words (c : Chain) : List IWord :=
  c.page.toList.map (mkWord 0x30) ++ (c.reg.toList.map (mkWord 0x31) ++ (c.imms.map (mkWord 0x32) ++
    (c.hint.toList.map (mkWord 0x33) ++ [c.base])))

theorem read_page (o : Option (BitVec 10)) (ws : List IWord) :
    read {} (o.toList.map (mkWord 0x30) ++ ws) = read { page := o, pfx := o.toList.length } ws := by
  cases o with
  | none => rfl
  | some x => simp [read, push, op6_mkWord]

section
variable {c : Chain} (hhint : c.hint = none)
include hhint

theorem read_reg (hreg : c.reg = none) (himms : c.imms = []) {o : Option (BitVec 10)} (h : c.pfx + o.toList.length ≤ 4)
    (ws : List IWord) : c.read (o.toList.map (mkWord 0x31) ++ ws) = read { c with reg := o, pfx := c.pfx + o.toList.length } ws := by
  cases o with
  | none => cases c; cases hreg; rfl
  | some x =>
    have hlt : ¬4 ≤ c.pfx := by simp at h; omega
    simp [read, push, op6_mkWord, hlt, hreg, himms, hhint]

theorem read_imms {l : List (BitVec 10)} (hl : c.imms.length + l.length ≤ 2) (h : c.pfx + l.length ≤ 4) (ws : List IWord) :
    c.read (l.map (mkWord 0x32) ++ ws) = read { c with imms := c.imms ++ l, pfx := c.pfx + l.length } ws := by
  induction l generalizing c with
  | nil => simp
  | cons x l ih =>
    rw [List.length_cons] at hl h
    have hpush : c.push (mkWord 0x32 x) = some { c with imms := c.imms ++ [x], pfx := c.pfx + 1 } := by
      simp [push, op6_mkWord, hhint, show ¬4 ≤ c.pfx by omega, show c.imms.length < 2 by omega]
    rw [List.map_cons, List.cons_append, read, if_neg (by simp [op6_mkWord]), hpush]
    refine (ih (c := { c with imms := c.imms ++ [x], pfx := c.pfx + 1 }) hhint
      (by simp only [List.length_append, List.length_singleton]; omega) (by simp only; omega)).trans ?_
    simp [Nat.add_assoc, Nat.add_comm 1]

theorem read_hint {o : Option (BitVec 10)} (h : c.pfx + o.toList.length ≤ 4) (ws : List IWord) :
    c.read (o.toList.map (mkWord 0x33) ++ ws) = read { c with hint := o, pfx := c.pfx + o.toList.length } ws := by
  cases o with
  | none => cases c; cases hhint; rfl
  | some x =>
    have hlt : ¬4 ≤ c.pfx := by simp at h; omega
    simp [read, push, op6_mkWord, hlt, hhint]

end

/-- What a chain of at most four prefixes writes is read as that chain, whatever follows. -/
theorem read_words {c : Chain} (hbase : op6 c.base < 0x30) (himms : c.imms.length ≤ 2) (hpfx : c.words.length = c.pfx + 1)
    (h4 : c.pfx ≤ 4) (rest : List IWord) : read {} (c.words ++ rest) = .ok c := by
  have hlen : c.page.toList.length + c.reg.toList.length + c.imms.length + c.hint.toList.length = c.pfx := by
    simp [words] at hpfx
    omega
  simp only [words, List.append_assoc]
  rw [read_page, read_reg rfl rfl rfl (by simp only; omega), read_imms rfl (by simpa using himms) (by simp only; omega),
    read_hint rfl (by simp only; omega), List.singleton_append, read, if_pos hbase]
  simp only [hlen, List.nil_append]

end Chain
/-! ## The chain that the encoder writes (R155) -/

namespace Row

/-- How many prefixes an instruction needs without a stall count. -/
def prefixes (r : Row) (a : Args) : Nat :=
  (if r.page = 0 then 0 else 1) + (if r.needsReg a then 1 else 0) + (r.immWords a.imm).length

/-- The chain of the words that `encodeRow` writes. -/
def chain (r : Row) (a : Args) (h : BitVec 3) : Chain where
  page := if r.page = 0 then none else some (BitVec.ofNat 4 r.page ++ a.m ++ a.v)
  reg := if r.needsReg a then some (a.t ++ a.p ++ a.w) else none
  imms := r.immWords a.imm
  hint := if h = 0 ∨ 4 ≤ r.prefixes a then none else some (h ++ 0#7)
  base := mkWord r.op (r.low a)
  pfx := r.prefixes a + if h = 0 ∨ 4 ≤ r.prefixes a then 0 else 1

theorem length_immWords_le (r : Row) (v : Word) : (r.immWords v).length ≤ 2 := by
  unfold immWords
  split <;> simp

theorem encodeRow_eq_words (r : Row) (a : Args) (h : BitVec 3) : encodeRow r a h = (r.chain a h).words := by
  have hcount : ((if r.page = 0 then [] else [mkWord 0x30 (BitVec.ofNat 4 r.page ++ a.m ++ a.v)]) ++
      (if r.needsReg a then [mkWord 0x31 (a.t ++ a.p ++ a.w)] else []) ++ (r.immWords a.imm).map (mkWord 0x32)).length =
      r.prefixes a := by
    simp only [prefixes, List.length_append, List.length_map]
    split <;> split <;> rfl
  simp only [encodeRow, hcount]
  simp only [Chain.words, chain, Bool.or_eq_true, decide_eq_true_eq, List.append_assoc]
  split <;> split <;> split <;> rfl

theorem length_words_chain (r : Row) (a : Args) (h : BitVec 3) : (r.chain a h).words.length = (r.chain a h).pfx + 1 := by
  simp only [Chain.words, chain, prefixes, List.length_append, List.length_map]
  split <;> split <;> split <;> simp <;> omega

theorem length_encodeRow (r : Row) (a : Args) (h : BitVec 3) : (encodeRow r a h).length = (r.chain a h).pfx + 1 := by
  rw [encodeRow_eq_words, length_words_chain]

theorem prefixes_le (r : Row) (a : Args) : r.prefixes a ≤ 4 := by
  have := r.length_immWords_le a.imm
  unfold prefixes
  split <;> split <;> omega

/-- The encoder's words are read as their chain, whatever follows. -/
theorem read_encodeRow {r : Row} (hop : r.op < 0x30) (a : Args) (h : BitVec 3) (rest : List IWord) :
    Chain.read {} (encodeRow r a h ++ rest) = .ok (r.chain a h) := by
  rw [encodeRow_eq_words]
  refine Chain.read_words ?_ (r.length_immWords_le a.imm) (r.length_words_chain a h) ?_ rest
  · rw [show (r.chain a h).base = mkWord r.op (r.low a) from rfl, op6_mkWord (by omega)]
    exact hop
  · have := r.prefixes_le a
    simp only [chain]
    split <;> omega

/-- The stall count is read back, or 0 where four prefixes stand without it (R151, R155). -/
theorem stall_chain (r : Row) (a : Args) (h : BitVec 3) :
    ((r.chain a h).hint.getD 0).toNat / 128 = if (encodeRow r a 0).length = maxWords then 0 else h.toNat := by
  have hle := r.prefixes_le a
  have hlen : (encodeRow r a 0).length = maxWords ↔ 4 ≤ r.prefixes a := by
    rw [length_encodeRow]
    simp only [chain, true_or, if_true, maxWords]
    omega
  simp only [hlen, chain]
  by_cases h4 : 4 ≤ r.prefixes a
  · simp [h4]
  by_cases h0 : h = 0
  · simp [h0]
  · rw [if_neg (by tauto), if_neg h4]
    exact toNat_append_div h 0#7

end Row
end Sys2Proof
end

section
/-! PROOF. The operands that decode reads from the encoder's chain are the operands it was written from (R144 to R150). -/

namespace Sys2Proof
namespace Row

/-! ## Operands as decode delivers them (R144 to R150) -/

section
variable {r : Row} {a : Args}

theorem argsOk_iff : r.argsOk a = true ↔ r.pageOk a.m a.v = true ∧ r.regOk a.t a.p a.w = true ∧ r.limitsOk a = true ∧
    r.immOk a.imm = true ∧ (a.short = true → r.rt = .t2 ∧ a.t = 0 ∧ a.p = 7 ∧ a.w = 0) ∧
    (r.fmt = .rr ∨ r.fmt = .ri ∨ a.d = 0) ∧ (r.fmt = .rr ∨ a.s = 0) := by
  cases hs : a.short <;> simp [argsOk, hs, and_assoc, or_assoc]

theorem regular_iff : r.regular = true ↔ (r.page = 0 → r.modMax = 0 ∧ r.varMax = 0) ∧ (r.limit = .trapNo → r.fmt = .s) ∧
    (r.fmt = .s → r.page = 0 ∨ r.limit = .sub 0) := by
  simp [regular, and_assoc, or_iff_not_imp_left]

theorem regOk_iff {t : RegNo} {p : BitVec 3} {w : BitVec 2} : r.regOk t p w = true ↔
    w ≠ 3 ∧ (p ≠ 7 → r.pred = true) ∧ (w ≠ 0 → r.group = true) ∧ (t ≠ 0 → r.rt ≠ .none) := by
  simp only [regOk, Bool.and_eq_true, Bool.or_eq_true, bne_iff_ne, beq_iff_eq, and_assoc, or_iff_not_imp_right, ne_eq]

theorem needsReg_iff : r.needsReg a = true ↔ r.rt = .t ∨ (r.rt = .t2 ∧ a.short = false) ∨ a.p ≠ 7 ∨ a.w ≠ 0 := by
  simp [needsReg, or_assoc]

/-- The fields of PAGE, or of its absence, are the operands'. -/
theorem page_chain (hreg : r.regular = true) (hok : r.argsOk a = true) (h : BitVec 3) :
    (r.chain a h).page.getD 0 = BitVec.ofNat 4 r.page ++ a.m ++ a.v := by
  by_cases hp : r.page = 0
  · obtain ⟨hmod, hvar⟩ := (regular_iff.mp hreg).1 hp
    have hm : a.m = 0 ∧ a.v = 0 := by
      have := (argsOk_iff.mp hok).1
      simp only [pageOk, hmod, hvar, Bool.and_eq_true, decide_eq_true_eq] at this
      exact ⟨BitVec.eq_of_toNat_eq (by simp; omega), BitVec.eq_of_toNat_eq (by simp; omega)⟩
    simp only [chain, hp, if_pos, hm]
    decide
  · simp only [chain, hp, if_false, Option.getD_some]

variable (hok : r.argsOk a = true) (h : BitVec 3)
include hok

/-- The fields of REG, or of its absence, are the operands'. -/
theorem reg_chain : (r.chain a h).reg.getD 0x01C = a.t ++ a.p ++ a.w := by
  obtain ⟨-, hregOk, -, -, hshort, -⟩ := argsOk_iff.mp hok
  by_cases hn : r.needsReg a = true
  · simp only [chain, hn, if_true, Option.getD_some]
  · have ht : a.t = 0 := by
      obtain ⟨-, -, -, hnone⟩ := regOk_iff.mp hregOk
      rw [needsReg_iff] at hn
      cases hrt : r.rt with
      | none => exact not_not.mp fun ht => hnone ht hrt
      | t => exact absurd (.inl hrt) hn
      | t2 => exact (hshort (by simpa using fun hs => hn (.inr (.inl ⟨hrt, hs⟩)))).2.1
    have hpw : a.p = 7 ∧ a.w = 0 := by
      rw [needsReg_iff] at hn
      tauto
    simp only [chain, hn, ht, hpw]
    decide

/-- A t2 form is short where the encoder writes no REG (R149). -/
theorem short_chain : (r.rt == .t2 && (r.chain a h).reg == none) = a.short := by
  obtain ⟨-, -, -, -, hshort, -⟩ := argsOk_iff.mp hok
  cases hs : a.short with
  | true =>
    obtain ⟨hrt, -, hp, hw⟩ := hshort hs
    have hn : r.needsReg a = false := by simp [needsReg, hrt, hs, hp, hw]
    simp [hrt, chain, hn]
  | false =>
    by_cases hrt : r.rt = .t2
    · have hn : r.needsReg a = true := needsReg_iff.mpr (.inr (.inl ⟨hrt, hs⟩))
      simp [chain, hn]
    · simp [hrt]

/-- The d field of the base word. -/
theorem d_chain : (if r.fmt == .rr || r.fmt == .ri then (r.chain a h).base.extractLsb' 5 5 else 0) = a.d := by
  obtain ⟨-, -, -, -, -, hd, -⟩ := argsOk_iff.mp hok
  have hbase : (r.chain a h).base.extractLsb' 5 5 = (r.low a).extractLsb' 5 5 := extractLsb'_mkWord (by omega) _ _
  rw [hbase]
  cases hf : r.fmt <;> simp only [hf, low] at hd ⊢
  · exact BitVec.extractLsb'_append_eq_left
  · exact BitVec.extractLsb'_append_eq_left
  · exact (by simpa using hd : a.d = 0).symm
  · exact (by simpa using hd : a.d = 0).symm

/-- The s field of the base word. -/
theorem s_chain : (if r.fmt == .rr then (r.chain a h).base.extractLsb' 0 5 else 0) = a.s := by
  obtain ⟨-, -, -, -, -, -, hs⟩ := argsOk_iff.mp hok
  have hbase : (r.chain a h).base.extractLsb' 0 5 = (r.low a).extractLsb' 0 5 := extractLsb'_mkWord (by omega) _ _
  rw [hbase]
  cases hf : r.fmt <;> simp only [hf, low] at hs ⊢
  · exact BitVec.extractLsb'_append_eq_right
  · exact (by simpa using hs : a.s = 0).symm
  · exact (by simpa using hs : a.s = 0).symm
  · exact (by simpa using hs : a.s = 0).symm

end

/-! ## Immediates, written and read back (R150) -/

/-- The base word holds the low bits of the immediate. -/
theorem baseImm_mkWord (r : Row) (a : Args) : r.fmt.baseImm (mkWord r.op (r.low a)) = lowBits r.fmt.baseBits a.imm := by
  cases hf : r.fmt <;> simp only [Fmt.baseImm, Fmt.baseBits, low, hf]
  · exact (BitVec.eq_of_getLsbD_eq fun i _ => by simp [lowBits_getLsbD])
  · rw [extractLsb'_mkWord (by omega), BitVec.extractLsb'_append_eq_right, lowBits, BitVec.setWidth_eq_extractLsb' (w := 5) (by omega)]
  · rw [extractLsb'_mkWord (by omega), lowBits, BitVec.setWidth_eq_extractLsb' (w := 10) (by omega), BitVec.extractLsb'_eq_self]
  · exact (BitVec.eq_of_getLsbD_eq fun i _ => by simp [lowBits_getLsbD])

/-- The payloads of IMM and the base word make the low bits of the immediate. -/
theorem assemble_immWords (r : Row) (a : Args) : assemble r.fmt (r.immWords a.imm) (mkWord r.op (r.low a)) =
    lowBits (r.fmt.baseBits + 10 * (r.immWords a.imm).length) a.imm := by
  unfold immWords
  split
  · exact r.baseImm_mkWord a
  · rw [assemble, baseImm_mkWord, payload_or_lowBits]
    rfl
  · rw [assemble, baseImm_mkWord, BitVec.or_assoc, payload_or_lowBits, payload_or_lowBits]
    rfl

theorem immOk_iff {r : Row} {v : Word} : r.immOk v = true ↔
    if r.limit = .trapNo then v.toNat < 256 else fits r.imm r.immBits v = true := by
  cases hl : r.limit <;> simp [immOk, hl]

theorem length_immWords (r : Row) (v : Word) : (r.immWords v).length = r.immCount v := by
  have hle : r.immCount v ≤ 2 := by
    unfold immCount
    split_ifs <;> omega
  unfold immWords
  split
  · exact Eq.symm ‹_›
  · exact Eq.symm ‹_›
  · have : r.immCount v ≠ 0 ∧ r.immCount v ≠ 1 := ⟨‹_›, ‹_›⟩
    simp only [List.length_cons, List.length_nil]
    omega

/-- The immediate fits the bits that its IMM prefixes and its base word hold. -/
theorem fits_immWords {r : Row} {v : Word} (hl : r.limit ≠ .trapNo) (hok : r.immOk v = true) :
    fits r.imm (r.fmt.baseBits + 10 * (r.immWords v).length) v = true := by
  rw [immOk_iff, if_neg hl] at hok
  rw [length_immWords, immCount, if_neg (by simpa using hl)]
  split_ifs with hnone hbase hone
  · rw [beq_iff_eq.mp hnone] at hok ⊢
    exact hok
  · exact (Bool.and_eq_true_iff.mp hbase).2
  · exact hone
  · exact hok

/-- The immediate of a form, and the number of a trap, are read back from the chain. -/
theorem imm_chain {r : Row} {a : Args} (hreg : r.regular = true) (hok : r.immOk a.imm = true) (h : BitVec 3) :
    (if r.limit == .trapNo then ((r.chain a h).base.extractLsb' 0 8).setWidth 64
      else extend r.imm (r.fmt.baseBits + 10 * (r.chain a h).imms.length) (assemble r.fmt (r.chain a h).imms (r.chain a h).base)) =
      a.imm := by
  by_cases hl : r.limit = .trapNo
  · have hlt : a.imm.toNat < 256 := by simpa only [immOk_iff, hl, if_true] using hok
    have hbase : (r.chain a h).base.extractLsb' 0 8 = (r.low a).extractLsb' 0 8 := extractLsb'_mkWord (by omega) _ _
    have hlow : r.low a = 0x100#10 ||| (a.imm.extractLsb' 0 8).setWidth 10 := by
      simp only [low, (regular_iff.mp hreg).2.1 hl, hl]
    have hlow8 (x : BitVec 8) : (0x100#10 ||| x.setWidth 10).extractLsb' 0 8 = x := by
      refine BitVec.eq_of_getLsbD_eq fun i hi => ?_
      have hbit : (0x100#10).getLsbD i = false := by decide +revert
      simp only [BitVec.getLsbD_extractLsb', BitVec.getLsbD_or, BitVec.getLsbD_setWidth, Nat.zero_add, hbit, hi, Bool.false_or,
        show i < 10 by omega, decide_true, Bool.true_and]
    rw [if_pos (beq_iff_eq.mpr hl), hbase, hlow, hlow8]
    refine BitVec.eq_of_toNat_eq ?_
    simp only [BitVec.toNat_setWidth, BitVec.extractLsb'_toNat]
    omega
  · have hn : r.fmt.baseBits + 10 * (r.immWords a.imm).length ≤ 64 := by
      have := r.length_immWords_le a.imm
      cases r.fmt <;> simp only [Fmt.baseBits] <;> omega
    rw [if_neg (by simpa using hl)]
    simp only [chain]
    rw [assemble_immWords, extend_lowBits hn (fits_immWords hl hok)]

theorem extractLsb'_append_append_left {k m n : Nat} {x : BitVec k} {y : BitVec m} {z : BitVec n} :
    (x ++ y ++ z).extractLsb' (m + n) k = x := by
  rw [BitVec.extractLsb'_append_eq_of_le (by omega), Nat.add_sub_cancel, BitVec.extractLsb'_append_eq_left]

theorem extractLsb'_append_append_mid {k m n : Nat} {x : BitVec k} {y : BitVec m} {z : BitVec n} :
    (x ++ y ++ z).extractLsb' n m = y := by
  rw [BitVec.extractLsb'_append_eq_of_le (by omega), Nat.sub_self, BitVec.extractLsb'_append_eq_right]

/-- Decode's operands of the encoder's chain are the operands. -/
theorem args_chain {r : Row} {a : Args} (hreg : r.regular = true) (hok : r.argsOk a = true) (h : BitVec 3) :
    r.args (r.chain a h) = a := by
  obtain ⟨-, -, -, himm, -⟩ := argsOk_iff.mp hok
  simp only [args, page_chain hreg hok, reg_chain hok, short_chain hok, d_chain hok, s_chain hok, imm_chain hreg himm]
  congr 1
  · exact extractLsb'_append_append_left
  · exact extractLsb'_append_append_mid
  · exact BitVec.extractLsb'_append_eq_right
  · exact extractLsb'_append_append_mid
  · exact BitVec.extractLsb'_append_eq_right

end Row
end Sys2Proof
end

section
/-! PROOF. Decode of the encoder's words: each check of R153 passes, and the form at the page and op takes the operands. -/

namespace Sys2Proof
namespace Row

section
variable {r : Row} {a : Args}

theorem pageNumber_chain (hreg : r.regular = true) (hok : r.argsOk a = true) (h : BitVec 3) (hp : r.page < 16) :
    ((r.chain a h).page.getD 0).toNat / 64 = r.page := by
  rw [page_chain hreg hok, show 64 = 2 ^ 3 * 2 ^ 3 from rfl, ← Nat.div_div_eq_div_mul, toNat_append_div, toNat_append_div]
  exact Nat.mod_eq_of_lt hp

/-- A REG word that the encoder writes is one that the form takes (R149). -/
theorem takesReg_of_needsReg (hok : r.argsOk a = true) (hn : r.needsReg a = true) : r.takesReg = true := by
  obtain ⟨-, hregOk, -⟩ := argsOk_iff.mp hok
  obtain ⟨-, hpred, hgroup, -⟩ := regOk_iff.mp hregOk
  obtain hrt | ⟨hrt, -⟩ | hp | hw := needsReg_iff.mp hn
  · simp [takesReg, hrt]
  · simp [takesReg, hrt]
  · simp [takesReg, hpred hp]
  · simp [takesReg, hgroup hw]

/-- No IMM word stands before a form without an immediate (R150). -/
theorem immWords_of_none (hi : r.imm = .none) (v : Word) : r.immWords v = [] := by
  rw [← List.length_eq_zero_iff, length_immWords, immCount, hi]
  simp

/-- The S forms outside page 0 have sub10 = 0 (R159). -/
theorem low_of_s (hreg : r.regular = true) (hf : r.fmt = .s) (hp : r.page ≠ 0) : r.low a = 0 := by
  have hl := ((regular_iff.mp hreg).2.2 hf).resolve_left hp
  simp only [low, hf, hl]
  rfl

/-- Every check of steps 4 to 6 of R153 passes for the encoder's chain, and the form at its page and op takes the operands. -/
theorem decodeForm_chain (hreg : r.regular = true) (hok : r.argsOk a = true) (h : BitVec 3) {stage : Bool} {i i0 : Instr} {a0 : Args}
    (hp : r.page < 16) (hop : r.op < 64) (hhome : r.home.admits stage = true)
    (hform0 : formAt r.page r.op (r.low a).toNat {} = some i0) (hparts0 : i0.parts = some (r, a0))
    (hform : formAt r.page r.op (r.low a).toNat a = some i) :
    decodeForm stage (r.chain a h) =
      .ok { instr := i, words := (r.chain a h).pfx + 1, stall := ((r.chain a h).hint.getD 0).toNat / 128 } := by
  obtain ⟨hpage, hregOk, hlimits, -⟩ := argsOk_iff.mp hok
  have hbase : op6 (r.chain a h).base = r.op := op6_mkWord hop _
  have hlow : low10 (r.chain a h).base = r.low a := low10_mkWord _ _
  unfold decodeForm
  dsimp only
  rw [pageNumber_chain hreg hok h hp, hbase, hlow, hform0]
  dsimp only
  rw [hparts0]
  dsimp only
  rw [args_chain hreg hok, hform, if_neg (by simp [hhome]), if_neg (by simp [hpage])]
  have hrt : ¬(decide ((r.chain a h).reg = none) && r.rt == .t) = true := by
    by_cases hrt : r.rt = .t
    · simp [chain, needsReg_iff.mpr (.inl hrt)]
    · simp [hrt]
  have htakes : ¬(decide ((r.chain a h).reg ≠ none) && !(r.takesReg && r.regOk a.t a.p a.w)) = true := by
    by_cases hn : r.needsReg a = true
    · simp [takesReg_of_needsReg hok hn, hregOk]
    · simp [chain, hn]
  have himms : ¬(decide ((r.chain a h).imms ≠ []) && r.imm == .none) = true := by
    by_cases hi : r.imm = .none
    · simp [chain, immWords_of_none hi]
    · simp [hi]
  have hsub : ¬(r.fmt == .s && decide (r.page ≠ 0) && decide ((r.low a).toNat ≠ 0)) = true := by
    by_cases hf : r.fmt = .s
    · by_cases hp : r.page = 0
      · simp [hp]
      · simp [low_of_s hreg hf hp]
    · simp [hf]
  rw [if_neg hrt, if_neg htakes, if_neg himms, if_neg hsub, if_neg (by simp [hlimits])]

end
end Row

/-- Decode of the encoder's words. -/
theorem decode_encodeRow {i : Instr} {r : Row} {a : Args} (hparts : i.parts = some (r, a)) (hok : r.argsOk a = true)
    {stage house : Bool} (hhome : r.home.admits stage = true) (hhouse : r.page = 15 → house = true) (h : BitVec 3) (rest : List IWord) :
    decode stage house (encodeRow r a h ++ rest) = .ok
      { instr := i, words := (encodeRow r a h).length,
        stall := if (encodeRow r a 0).length = maxWords then 0 else h.toNat } := by
  have hreg := regular_of_parts hparts
  obtain ⟨hform, hrow, hop, hpage⟩ := Laws.MapEntry.forall_statement i r a hparts hok
  obtain ⟨i0, hform0, hrow0⟩ := Option.bind_eq_some_iff.mp hrow
  obtain ⟨⟨r0, a0⟩, hparts0, hr⟩ := Option.map_eq_some_iff.mp hrow0
  obtain rfl : r = r0 := hr.symm
  have hlt : r.page < 16 := by omega
  have hprivilege : ¬(decide (r.page = 15) && !stage && !house) = true := by
    by_cases hp : r.page = 15
    · simp [hhouse hp]
    · simp [hp]
  have hopen : ¬(decide (10 ≤ r.page) && (decide (r.page ≤ 14) || stage)) = true := by
    obtain hp | ⟨hp, hcore⟩ := hpage
    · simp [Nat.not_le.mpr hp]
    · have hstage : stage = false := by simpa [hcore, Home.admits] using hhome
      simp [hp, hstage]
  unfold decode
  rw [Row.read_encodeRow hop]
  dsimp only
  rw [Row.pageNumber_chain hreg hok h hlt, if_neg hprivilege, if_neg hopen,
    Row.decodeForm_chain hreg hok h hlt (by omega) hhome hform0 hparts0 hform, Row.length_encodeRow, Row.stall_chain]

end Sys2Proof

open Sys2Proof

/-- Settles O57: the encoder's words are read as the chain of the form and its operands, which passes every check of decode. -/
theorem roundTrip : Obligations.RoundTrip := by
  intro i r a stage house h rest hparts hwf hhome hhouse
  have hok : r.argsOk a = true := by simpa only [Instr.wf, hparts] using hwf
  exact decode_encodeRow hparts hok hhome hhouse h rest
end

section
/-! PROOF. Branches and `loop` (R154, R178, R179). -/

namespace Sys2Proof.Machine

open Sys2Proof

/-- The target of a branch, as a number of bytes from the instruction's start, modulo 16 KiB (R154). -/
theorem branchTarget_eq_ofInt (pc : BitVec 14) (imm : Word) : branchTarget pc imm = BitVec.ofInt 14 (pc.toNat + 2 * imm.toInt) := by
  have htwice : (imm <<< 1).setWidth 14 = BitVec.ofInt 14 (2 * imm.toInt) := by
    refine BitVec.eq_of_toNat_eq ?_
    rw [BitVec.toNat_setWidth, BitVec.toNat_shiftLeft, BitVec.toNat_ofInt, BitVec.toInt_eq_toNat_cond]
    split <;> omega
  rw [branchTarget, htwice, BitVec.ofInt_add]
  simp

/-- The machine after a branch that is taken to `pc`. -/
def Mach.branched (m : Mach) (pc : BitVec 14) : Mach := { m with npc := pc, taken := true }

theorem branchIf_run (b : Bool) (a : Args) (m : Mach) :
    (branchIf b a).run m = .ok () (if b then m.branched (branchTarget m.me.pc a.imm) else m) := by
  cases b <;> rfl

section
variable {s : State} {c t : Nat} {a : Args} (h : Plain s.mach c t = true)
include h

/-- A form that ends in a branch from machine `m` goes to the target where the condition holds, and to Next else. -/
theorem issue_branch {sem : Act Unit} {m : Mach} {b : Bool} {p : Prop} [Decidable p] (hb : b = true ↔ p)
    (hpc : m.me.pc = s.mach.me.pc) (hrun : sem.run s.mach = (branchIf b a).run m) :
    issue sem s = .next (s.after (if p then
      m.branched (BitVec.ofInt 14 (s.mach.me.pc.toNat + 2 * a.imm.toInt)) else m)) := by
  rw [branchIf_run, hpc, branchTarget_eq_ofInt] at hrun
  simp only [hb] at hrun
  exact issue_ok (Plain.alone h) hrun

/-- A compare-and-branch form reads its two registers (R178). -/
theorem issue_semCmpBranch {f : Word → Word → Bool} {p : Prop} [Decidable p]
    (hp : f (s.mach.me.xreg a.d) (s.mach.me.xreg a.s) = true ↔ p) :
    issue (semCmpBranch f a) s = .next (s.after (if p then
      s.mach.branched (BitVec.ofInt 14 (s.mach.me.pc.toNat + 2 * a.imm.toInt)) else s.mach)) := by
  obtain ⟨-, -, -, -, -, -, hub, hre⟩ := Plain.iff.mp h
  refine issue_branch h hp rfl ?_
  rw [semCmpBranch, run_bind_ok (srcPort_run hub _ _), run_bind_ok (srcPort_run hub _ _), run_bind_ok (readX_run hub hre _),
    run_bind_ok (readX_run hub hre _)]

/-- A branch on zero reads one register (R178). -/
theorem issue_semZeroBranch {f : Word → Bool} {p : Prop} [Decidable p] (hp : f (s.mach.me.xreg a.d) = true ↔ p) :
    issue (semZeroBranch f a) s = .next (s.after (if p then
      s.mach.branched (BitVec.ofInt 14 (s.mach.me.pc.toNat + 2 * a.imm.toInt)) else s.mach)) := by
  obtain ⟨-, -, -, -, -, -, hub, hre⟩ := Plain.iff.mp h
  refine issue_branch h hp rfl ?_
  rw [semZeroBranch, run_bind_ok (srcPort_run hub _ _), run_bind_ok (readX_run hub hre _)]

/-- `loop` branches from the machine with its register decremented (R179). -/
theorem issue_semLoop {n : Word} (hn : n = s.mach.me.xreg a.d - 1) {m : Mach} (hm : m = s.mach.modMe (·.setX a.d n)) :
    issue (semLoop a) s = .next (s.after (if n ≠ 0 then
      m.branched (BitVec.ofInt 14 (s.mach.me.pc.toNat + 2 * a.imm.toInt)) else m)) := by
  obtain ⟨hc, -, ht, -, -, -, hub, hre⟩ := Plain.iff.mp h
  have hpc : m.me.pc = s.mach.me.pc := by rw [hm, Mach.me_modMe hc ht, ThreadSet.setX_pc]
  refine issue_branch h bne_iff_ne hpc ?_
  rw [semLoop, run_bind_ok (bothPort_run hub _ _), run_bind_ok (readX_run hub hre _), ← hn, hm]
  exact run_bind_ok (writeX_run hub _ _)

end

end Sys2Proof.Machine

open Sys2Proof Sys2Proof.Machine

/-- Settles O3: each form ends in a branch, from the machine as it is or with `loop`'s register decremented. -/
theorem branchForms : Obligations.BranchForms := by
  intro s c t a h l r target goes
  refine ⟨?b, ?beq, ?bne, ?blt, ?bge, ?bltu, ?bgeu, ?bz, ?bnz, ?loop⟩
  case b => exact issue_branch h (by simp) rfl rfl
  case beq => exact issue_semCmpBranch h (by simp [l, r])
  case bne => exact issue_semCmpBranch h (by simp [l, r])
  case blt => exact issue_semCmpBranch h (by simp [l, r, BitVec.slt])
  case bge => exact issue_semCmpBranch h (by simp [l, r, BitVec.slt])
  case bltu => exact issue_semCmpBranch h (by simp [l, r, BitVec.ult])
  case bgeu => exact issue_semCmpBranch h (by simp [l, r, BitVec.ult])
  case bz => exact issue_semZeroBranch h (by simp [l])
  case bnz => exact issue_semZeroBranch h (by simp [l])
  case loop => exact issue_semLoop h rfl rfl
end

section
/-! PROOF. The system group by sub10, the other S forms, and worked encodings (R143, R146, R149, R155, R159). -/

namespace Sys2Proof

/-- A word's value by its op6 and its low ten bits (R143). -/
theorem ofNat_eq_mkWord {op n : Nat} (hn : n < 1024) (hop : op < 64) :
    BitVec.ofNat 16 (0x400 * op + n) = mkWord op (BitVec.ofNat 10 n) := by
  refine BitVec.eq_of_toNat_eq ?_
  rw [mkWord, BitVec.toNat_append, BitVec.toNat_ofNat, BitVec.toNat_ofNat, BitVec.toNat_ofNat, Nat.mod_eq_of_lt (by omega : op < 2 ^ 6),
    Nat.mod_eq_of_lt (by omega : n < 2 ^ 10), ← Nat.shiftLeft_add_eq_or_of_lt (by omega), Nat.shiftLeft_eq]
  omega

/-- A sub10 value that names no form of the system group is illegal (R159). -/
theorem decode_system_none {stage house : Bool} {x : BitVec 10} (h : systemForm x.toNat = none) :
    decode stage house [mkWord 0x2F x] = .error (.illegal 0) := by
  have hop : op6 (mkWord 0x2F x) = 0x2F := op6_mkWord (by omega) x
  rw [decode, Chain.read, if_pos (by omega)]
  simp [decodeForm, hop, formAt, h]

theorem systemForm_none {n : Nat} (h4 : 4 < n) (h : n < 0x100 ∨ 0x1FF < n) : systemForm n = none := by
  unfold systemForm
  split
  · omega
  · omega
  · omega
  · omega
  · omega
  · exact if_neg (by omega)

/-- The word of a trap's number (R159). -/
theorem decode_trap {n : Nat} (hlo : 0x100 ≤ n) (hhi : n ≤ 0x1FF) (stage house : Bool) :
    decode stage house [mkWord 0x2F (BitVec.ofNat 10 n)] =
      .ok { instr := .trap { imm := BitVec.ofNat 64 (n % 256) }, words := 1, stall := 0 } := by
  have hlow : (0x100#10 ||| ((BitVec.ofNat 64 (n % 256)).extractLsb' 0 8).setWidth 10) = BitVec.ofNat 10 n := by
    refine BitVec.eq_of_toNat_eq ?_
    rw [BitVec.toNat_or, BitVec.toNat_setWidth, BitVec.extractLsb'_toNat, BitVec.toNat_ofNat, BitVec.toNat_ofNat, BitVec.toNat_ofNat,
      Nat.shiftRight_zero, Nat.mod_eq_of_lt (a := n % 256 % 2 ^ 64 % 2 ^ 8) (by omega)]
    refine (Nat.two_pow_add_eq_or_of_lt (i := 8) (by omega) 1).symm.trans ?_
    omega
  have hok : (BitVec.ofNat 64 (n % 256)).toNat < 256 := by
    rw [BitVec.toNat_ofNat]
    omega
  rw [← hlow]
  exact decode_encodeRow (i := .trap { imm := BitVec.ofNat 64 (n % 256) }) rfl
    (by simp [Row.argsOk, Row.pageOk, Row.regOk, Row.limitsOk, Limit.holds, Row.immOk, File.count]; omega) rfl (by simp) 0 []

/-- An S form outside page 0, after a PAGE word with the fields that it admits: another sub10 than 0 is illegal at the base word
(R153, R159). -/
theorem decode_sub_illegal {pg : BitVec 10} {op : Nat} {i : Instr} {r : Row} {a : Args} {n : Nat} (hn : n < 1024) (hn0 : n ≠ 0)
    (hop : op < 0x30) (hpg : pg.toNat / 64 < 10 ∨ pg.toNat / 64 = 15) (hform : formAt (pg.toNat / 64) op n {} = some i)
    (hparts : i.parts = some (r, a)) (hhome : r.home.admits false = true)
    (hpageOk : r.pageOk (pg.extractLsb' 3 3) (pg.extractLsb' 0 3) = true) (hs : r.fmt = .s ∧ r.rt = .none ∧ r.page ≠ 0) :
    decode false true [mkWord 0x30 pg, BitVec.ofNat 16 (0x400 * op + n)] = .error (.illegal 1) := by
  obtain ⟨hfmt, hrt, hpage⟩ := hs
  rw [ofNat_eq_mkWord hn (by omega)]
  have hread : Chain.read {} [mkWord 0x30 pg, mkWord op (BitVec.ofNat 10 n)] =
      .ok { page := some pg, base := mkWord op (BitVec.ofNat 10 n), pfx := 1 } :=
    Chain.read_words (c := { page := some pg, base := mkWord op (BitVec.ofNat 10 n), pfx := 1 })
      (by rw [op6_mkWord (by omega)]; exact hop) (Nat.zero_le _) rfl (by simp) []
  have hlow : (low10 (mkWord op (BitVec.ofNat 10 n))).toNat = n := by
    rw [low10_mkWord, BitVec.toNat_ofNat, Nat.mod_eq_of_lt (by omega)]
  have hopen : ¬(decide (10 ≤ pg.toNat / 64) && (decide (pg.toNat / 64 ≤ 14) || false)) = true := by
    rw [Bool.or_false, Bool.and_eq_true, decide_eq_true_eq, decide_eq_true_eq]
    omega
  rw [decode, hread]
  dsimp only [Option.getD_some]
  rw [if_neg (by simp), if_neg hopen]
  unfold decodeForm
  dsimp only [Option.getD_some]
  rw [op6_mkWord (by omega), hlow, hform]
  dsimp only
  rw [hparts]
  dsimp only
  rw [if_neg (by simp [hhome]), if_neg (by simpa [Row.args] using hpageOk), if_neg (by simp [hrt]), if_neg (by simp), if_neg (by simp),
    if_pos (by simp [hfmt, hpage, hn0])]

end Sys2Proof

open Sys2Proof

/-- Settles O58: the system group by the value of sub10, the S forms of the further pages, and each chain of words evaluated. -/
theorem decodeWords : Obligations.DecodeWords := by
  intro n hn ok user house stage other sub
  have hsub : sub = user [mkWord 0x2F (BitVec.ofNat 10 n)] := by
    rw [← ofNat_eq_mkWord hn (by omega)]
  refine ⟨?nop, ?done, ?ret, ?eret, ?halt, ?trap, ?noForm, ?sub0, ?worked⟩
  case nop => rintro rfl; rfl
  case done => rintro rfl; rfl
  case ret => rintro rfl; rfl
  case eret => rintro rfl; rfl
  case halt => rintro rfl; rfl
  case trap =>
    rintro ⟨hlo, hhi⟩
    exact hsub.trans (decode_trap hlo hhi false false)
  case noForm =>
    rintro ⟨h4, h⟩
    refine hsub.trans (decode_system_none ?_)
    rw [BitVec.toNat_ofNat, Nat.mod_eq_of_lt (by omega)]
    exact systemForm_none h4 h
  case sub0 =>
    simp only [List.forall_mem_cons]
    refine ⟨?_, ?_, ?_, ?_, ?_, by simp⟩
    · refine ⟨by rintro rfl; rfl, fun hn0 => ?_⟩
      exact decode_sub_illegal (pg := 0x040) (op := 0x1E) hn hn0 (by omega) (by decide) rfl rfl rfl rfl ⟨rfl, rfl, by decide⟩
    · refine ⟨by rintro rfl; rfl, fun hn0 => ?_⟩
      exact decode_sub_illegal (pg := 0x140) (op := 0x07) hn hn0 (by omega) (by decide) rfl rfl rfl rfl ⟨rfl, rfl, by decide⟩
    · refine ⟨by rintro rfl; rfl, fun hn0 => ?_⟩
      exact decode_sub_illegal (pg := 0x200) (op := 0x0A) hn hn0 (by omega) (by decide) rfl rfl rfl rfl ⟨rfl, rfl, by decide⟩
    · refine ⟨by rintro rfl; rfl, fun hn0 => ?_⟩
      exact decode_sub_illegal (pg := 0x240) (op := 0x09) hn hn0 (by omega) (by decide) rfl rfl rfl rfl ⟨rfl, rfl, by decide⟩
    · refine ⟨by rintro rfl; rfl, fun hn0 => ?_⟩
      exact decode_sub_illegal (pg := 0x3C0) (op := 0x05) hn hn0 (by omega) (by decide) rfl rfl rfl rfl ⟨rfl, rfl, by decide⟩
  case worked =>
    exact ⟨rfl, rfl, rfl, rfl, rfl, rfl, ⟨rfl, rfl⟩, ⟨rfl, rfl, rfl⟩, ⟨rfl, rfl⟩, ⟨rfl, rfl⟩, ⟨rfl, rfl⟩,
      rfl, rfl, rfl, rfl, rfl, rfl, rfl, rfl, rfl, rfl⟩
end

section
/-! PROOF. The scalar forms: their runs, and the arithmetic, shifts and bits of their results (R169, R172 to R177). -/

namespace Sys2Proof.Machine

open Sys2Proof

/-! ## Runs of the scalar forms (R169, R172, R173) -/

section
variable {s : State} {c t : Nat} {a : Args} (h : Plain s.mach c t = true)
include h

/-- A form that, once it has read its sources, writes `v` under its predicate. -/
theorem issue_gives {sem : Act Unit} {v : Word} (hrun : sem.run s.mach = (predOn a >>= fun on => writeRes a on v).run s.mach) :
    issue sem s = s.gives a v := by
  obtain ⟨-, -, -, -, -, -, hub, hre⟩ := Plain.iff.mp h
  rw [run_bind_ok (predOn_run hre a), writeRes_run hub] at hrun
  exact issue_ok (Plain.alone h) hrun

/-- A t2 form gives its operation on its two sources, in the order of its form (R169, R172). -/
theorem issue_semBin {op : Word → Word → Word} {v : Word}
    (hv : op (s.mach.me.xreg (if a.short then a.d else a.s)) (s.mach.me.xreg (if a.short then a.s else a.t)) = v) :
    issue (semBin op a) s = s.gives a v := by
  obtain ⟨-, -, -, -, -, -, hub, hre⟩ := Plain.iff.mp h
  have hread : (readBin a).run s.mach =
      .ok (s.mach.me.xreg (if a.short then a.d else a.s), s.mach.me.xreg (if a.short then a.s else a.t)) s.mach := by
    rw [readBin]
    split
    · rw [run_bind_ok (bothPort_run hub _ _), run_bind_ok (srcPort_run hub _ _), run_bind_ok (readX_run hub hre _),
        run_bind_ok (readX_run hub hre _)]
      rfl
    · rw [run_bind_ok (srcPort_run hub _ _), run_bind_ok (srcPort_run hub _ _), run_bind_ok (dstPort_run hub _ _),
        run_bind_ok (readX_run hub hre _), run_bind_ok (readX_run hub hre _)]
      rfl
  refine issue_gives h ?_
  rw [semBin, run_bind_ok hread, ← hv]

/-- A form of one source gives its operation on it (R173, R175). -/
theorem issue_semUn {op : Word → Word} {v : Word} (hv : op (s.mach.me.xreg a.s) = v) : issue (semUn op a) s = s.gives a v := by
  obtain ⟨-, -, -, -, -, -, hub, hre⟩ := Plain.iff.mp h
  refine issue_gives h ?_
  rw [semUn, readUn, EStateM.run_bind, run_bind_ok (srcPort_run hub _ _), run_bind_ok (dstPort_run hub _ _), readX_run hub hre, ← hv]

/-- A form with an immediate gives its operation on the d register and the immediate (R173). -/
theorem issue_semImm {op : Word → Word → Word} {v : Word} (hv : op (s.mach.me.xreg a.d) a.imm = v) :
    issue (semImm op a) s = s.gives a v := by
  obtain ⟨-, -, -, -, -, -, hub, hre⟩ := Plain.iff.mp h
  refine issue_gives h ?_
  rw [semImm, run_bind_ok (bothPort_run hub _ _), run_bind_ok (readX_run hub hre _), ← hv]

theorem issue_semLi : issue (semLi a) s = s.gives a a.imm := by
  obtain ⟨-, -, -, -, -, -, hub, -⟩ := Plain.iff.mp h
  refine issue_gives h ?_
  rw [semLi, run_bind_ok (dstPort_run hub _ _)]

/-- `sel` tests the d register; its short form keeps it where it is not 0 (R177). -/
theorem issue_semSel : issue (semSel a) s = s.gives a (
    if s.mach.me.xreg a.d ≠ 0 then if a.short then s.mach.me.xreg a.d else s.mach.me.xreg a.s
    else if a.short then s.mach.me.xreg a.s else s.mach.me.xreg a.t) := by
  obtain ⟨-, -, -, -, -, -, hub, hre⟩ := Plain.iff.mp h
  refine issue_gives h ?_
  rw [semSel, run_bind_ok (bothPort_run hub _ _), run_bind_ok (srcPort_run hub _ _)]
  split
  · rw [run_bind_ok (readX_run hub hre _), run_bind_ok (readX_run hub hre _)]
  · rw [run_bind_ok (srcPort_run hub _ _), run_bind_ok (readX_run hub hre _), run_bind_ok (readX_run hub hre _),
      run_bind_ok (readX_run hub hre _)]

theorem issue_semBfi : issue (semBfi a) s =
    s.gives a (fieldPut (s.mach.me.xreg a.d) (s.mach.me.xreg a.s) (fieldPos a.imm) (fieldLen a.imm)) := by
  obtain ⟨-, -, -, -, -, -, hub, hre⟩ := Plain.iff.mp h
  refine issue_gives h ?_
  rw [semBfi, run_bind_ok (bothPort_run hub _ _), run_bind_ok (srcPort_run hub _ _), run_bind_ok (readX_run hub hre _),
    run_bind_ok (readX_run hub hre _)]

end

/-! ## Results of the t2 forms (R172, R174) -/

theorem rotateLeft_eq_or (l : Word) {n : Nat} (hn : n < 64) : l.rotateLeft n = l <<< n ||| l >>> (64 - n) := by
  rw [BitVec.rotateLeft_def, Nat.mod_eq_of_lt hn]

theorem mul_eq_ofNat (l r : Word) : l * r = BitVec.ofNat 64 (l.toNat * r.toNat) := by
  rw [BitVec.ofNat_mul, BitVec.ofNat_toNat, BitVec.ofNat_toNat, BitVec.setWidth_eq, BitVec.setWidth_eq]

/-- The high half of 128 bits of an integer is the integer's quotient, rounded down (R172). -/
theorem highHalf_ofInt (x : Int) : (BitVec.ofInt 128 x).extractLsb' 64 64 = BitVec.ofInt 64 (x / 2 ^ 64) := by
  refine BitVec.eq_of_toNat_eq ?_
  rw [BitVec.extractLsb'_toNat, BitVec.toNat_ofInt, BitVec.toNat_ofInt, Nat.shiftRight_eq_div_pow]
  omega

theorem mulHigh_eq (l r : Word) : mulHigh l r = BitVec.ofInt 64 (l.toInt * r.toInt / 2 ^ 64) := by
  rw [← highHalf_ofInt, BitVec.ofInt_mul]
  rfl

theorem mulHighU_eq (l r : Word) : mulHighU l r = BitVec.ofNat 64 (l.toNat * r.toNat / 2 ^ 64) := by
  have hprod : l.setWidth 128 * r.setWidth 128 = BitVec.ofInt 128 (l.toNat * r.toNat : Nat) := by
    rw [BitVec.ofInt_natCast, BitVec.ofNat_mul, BitVec.ofNat_toNat, BitVec.ofNat_toNat]
  rw [mulHighU, hprod, highHalf_ofInt, ← BitVec.ofInt_natCast]
  norm_cast

theorem flagWord_eq {b : Bool} {p : Prop} [Decidable p] (h : b = true ↔ p) : flagWord b = if p then 1 else 0 :=
  if_congr h rfl rfl

theorem addSat_eq (l r : Word) :
    addSat l r = BitVec.ofInt 64 (max (-(2 ^ 63)) (min (2 ^ 63 - 1) (l.toInt + r.toInt))) := by
  rw [addSat]
  split
  · exact congrArg _ (by omega)
  · split
    · exact congrArg _ (by omega)
    · exact congrArg _ (by omega)

theorem divSigned_quotient (l r : Word) : (divSigned l r).1 = if r = 0 then BitVec.allOnes 64
    else if l = 0x8000000000000000 ∧ r = BitVec.allOnes 64 then 0x8000000000000000 else BitVec.ofInt 64 (l.toInt.tdiv r.toInt) := by
  have hleast : BitVec.ofInt 64 (-(2 ^ 63)) = 0x8000000000000000 := rfl
  rw [divSigned, hleast]
  split
  · rfl
  · split
    · next hl => exact hl.1
    · rfl

theorem divSigned_remainder (l r : Word) : (divSigned l r).2 = if r = 0 then l
    else if l = 0x8000000000000000 ∧ r = BitVec.allOnes 64 then 0 else BitVec.ofInt 64 (l.toInt.tmod r.toInt) := by
  have hleast : BitVec.ofInt 64 (-(2 ^ 63)) = 0x8000000000000000 := rfl
  rw [divSigned, hleast, Int.tmod_def, Int.mul_comm r.toInt]
  split
  · rfl
  · split
    · rfl
    · rfl

theorem divUnsigned_quotient (l r : Word) :
    (divUnsigned l r).1 = if r = 0 then BitVec.allOnes 64 else BitVec.ofNat 64 (l.toNat / r.toNat) := by
  rw [divUnsigned, apply_ite Prod.fst]
  rfl

theorem divUnsigned_remainder (l r : Word) : (divUnsigned l r).2 = if r = 0 then l else BitVec.ofNat 64 (l.toNat % r.toNat) := by
  rw [divUnsigned, apply_ite Prod.snd]
  rfl

end Sys2Proof.Machine

open Sys2Proof Sys2Proof.Machine

/-- Settles O1: every form reads its two sources and gives its operation on them, which is the one that its table row names. -/
theorem scalarBinaryForms : Obligations.ScalarBinaryForms := by
  intro s c t a h l r n least flag
  have hn : fld r 5 0 = n := fld_queue r
  have hn64 : n < 64 := Nat.mod_lt _ (by decide)
  refine ⟨?add, ?sub, ?and, ?or, ?xor, ?andn, ?shl, ?shr, ?sra, ?rol, ?mul, ?mulh, ?mulhu, ?seq, ?slt, ?sltu, ?min, ?max, ?minu,
    ?maxu, ?adds, ?div, ?rem, ?divu, ?remu⟩
  case add => exact issue_semBin h rfl
  case sub => exact issue_semBin h rfl
  case and => exact issue_semBin h rfl
  case or => exact issue_semBin h rfl
  case xor => exact issue_semBin h rfl
  case andn => exact issue_semBin h rfl
  case shl => exact issue_semBin h (congrArg (l <<< ·) hn)
  case shr => exact issue_semBin h (congrArg (l >>> ·) hn)
  case sra => exact issue_semBin h (congrArg l.sshiftRight hn)
  case rol => exact issue_semBin h ((congrArg l.rotateLeft hn).trans (rotateLeft_eq_or l hn64))
  case mul => exact issue_semBin h (mul_eq_ofNat l r)
  case mulh => exact issue_semBin h (mulHigh_eq l r)
  case mulhu => exact issue_semBin h (mulHighU_eq l r)
  case seq => exact issue_semBin h (flagWord_eq beq_iff_eq)
  case slt => exact issue_semBin h (flagWord_eq BitVec.slt_iff_toInt_lt)
  case sltu => exact issue_semBin h (flagWord_eq BitVec.ult_iff_toNat_lt)
  case min => exact issue_semBin h (if_congr BitVec.slt_iff_toInt_lt rfl rfl)
  case max => exact issue_semBin h (if_congr BitVec.slt_iff_toInt_lt rfl rfl)
  case minu => exact issue_semBin h (if_congr BitVec.ult_iff_toNat_lt rfl rfl)
  case maxu => exact issue_semBin h (if_congr BitVec.ult_iff_toNat_lt rfl rfl)
  case adds => exact issue_semBin h (addSat_eq l r)
  case div => exact issue_semBin h (divSigned_quotient l r)
  case rem => exact issue_semBin h (divSigned_remainder l r)
  case divu => exact issue_semBin h (divUnsigned_quotient l r)
  case remu => exact issue_semBin h (divUnsigned_remainder l r)
end

section
/-! PROOF. The forms of one source, of an immediate and of a field: the bits of their results (R168, R173, R175 to R177). -/

namespace Sys2Proof.Machine

open Sys2Proof

/-! ## Extensions (R168) -/

theorem zext_eq_setWidth (v : Word) (n : Nat) : zext v n = (v.setWidth n).setWidth 64 := by
  refine BitVec.eq_of_toNat_eq ?_
  rw [zext, wd, BitVec.toNat_ofNat, BitVec.toNat_setWidth, BitVec.toNat_setWidth]

theorem sext_eq_signExtend (v : Word) {n : Nat} (hn0 : n ≠ 0) (hn : n ≤ 64) : sext v n = (v.setWidth n).signExtend 64 := by
  have hplace {i : Nat} : 64 - n + i < 64 ↔ i < n := by omega
  have hsign : ¬ 63 < 64 - n := by omega
  have hlast : 63 - (64 - n) = n - 1 := by omega
  rw [sext, if_neg hn0]
  ext i hi
  rw [BitVec.getElem_sshiftRight, BitVec.getElem_signExtend]
  by_cases h : i < n
  · simp [hplace, h, BitVec.getLsbD_eq_getElem hi]
  · simp [hplace, h, hsign, hlast, BitVec.msb_eq_getLsbD_last, Nat.pos_of_ne_zero hn0,
      BitVec.getLsbD_eq_getElem (show n - 1 < 64 by omega)]

theorem zext_eq_and (v : Word) {n : Nat} (hn : n ≤ 64) : zext v n = v &&& BitVec.ofNat 64 (2 ^ n - 1) := by
  have hlt : 2 ^ n - 1 < 2 ^ 64 := by
    have := Nat.pow_le_pow_right (n := 2) (by decide) hn
    omega
  refine BitVec.eq_of_toNat_eq ?_
  rw [zext, wd, BitVec.toNat_and, BitVec.toNat_ofNat, BitVec.toNat_ofNat, Nat.mod_eq_of_lt hlt, Nat.and_two_pow_sub_one_eq_mod,
    Nat.mod_eq_of_lt (lt_of_le_of_lt (Nat.mod_le _ _) v.isLt)]

/-! ## Counts of bits and the order of bytes (R175) -/

/-- The zero bits above the highest 1 are the places, from the top, before the first 1. -/
theorem clzNat_eq (v n : Nat) :
    clzNat v n = ((List.range n).takeWhile fun i => !(decide (i < n) && v.testBit (n - 1 - i))).length := by
  induction n with
  | zero => rfl
  | succ n ih =>
    have hnext : (fun i => !(decide (i < n + 1) && v.testBit (n + 1 - 1 - i))) ∘ Nat.succ =
        fun i => !(decide (i < n) && v.testBit (n - 1 - i)) := by
      funext i
      simp [Nat.sub_sub, Nat.add_comm 1 i]
    rw [clzNat, ih, List.range_succ_eq_map, List.takeWhile_cons, List.takeWhile_map, hnext]
    by_cases h : v / 2 ^ n % 2 = 1 <;> simp [Nat.testBit_eq_decide_div_mod_eq, h]

/-- The zero bits below the lowest 1 are the places before the first 1. -/
theorem ctzNat_eq (v n : Nat) : ctzNat v n = ((List.range n).takeWhile fun i => !v.testBit i).length := by
  induction n generalizing v with
  | zero => rfl
  | succ n ih =>
    have hnext : (fun i => !v.testBit i) ∘ Nat.succ = fun i => !(v / 2).testBit i :=
      funext fun i => congrArg _ (Nat.testBit_succ v i)
    rw [ctzNat, ih, List.range_succ_eq_map, List.takeWhile_cons, List.takeWhile_map, hnext]
    by_cases h : v % 2 = 1 <;> simp [Nat.testBit_zero, h]

theorem clz_eq (v : Word) : wd (clzNat v.toNat 64) = BitVec.ofNat 64 ((List.range 64).takeWhile fun i => !v.getMsbD i).length :=
  congrArg wd (clzNat_eq v.toNat 64)

theorem ctz_eq (v : Word) : wd (ctzNat v.toNat 64) = BitVec.ofNat 64 ((List.range 64).takeWhile fun i => !v.getLsbD i).length :=
  congrArg wd (ctzNat_eq v.toNat 64)

theorem popc_eq (v : Word) : wd (popNat v.toNat 64) = BitVec.ofNat 64 ((List.range 64).filter v.getLsbD).length :=
  congrArg wd (popNat_eq v.toNat 64)

/-- A byte appended below a number is or-ed into the place that a shift frees. -/
theorem wd_append_byte (v : Nat) (b : Byte) : wd (b.toNat + 256 * v) = wd v <<< 8 ||| b.setWidth 64 := by
  have hsum : wd (b.toNat + 256 * v) = wd v <<< 8 + b.setWidth 64 := by
    have hb := b.isLt
    refine BitVec.eq_of_toNat_eq ?_
    rw [wd, wd, BitVec.toNat_add, BitVec.toNat_shiftLeft, BitVec.toNat_ofNat, BitVec.toNat_ofNat,
      BitVec.toNat_setWidth_of_le (by decide), Nat.shiftLeft_eq]
    omega
  have happart : wd v <<< 8 &&& b.setWidth 64 = 0 := by
    ext i hi
    rw [BitVec.getElem_and, BitVec.getElem_shiftLeft, BitVec.getElem_setWidth]
    by_cases h : i < 8
    · simp [h]
    · simp [BitVec.getLsbD_of_ge b i (by omega)]
  rw [hsum, BitVec.add_eq_or_of_and_eq_zero _ _ happart]

theorem swapBytes_eq (v : Word) (n : Nat) :
    swapBytes v n = (List.range n).foldl (fun (w : Word) j => w <<< 8 ||| (v >>> (8 * j) &&& 0xFF)) 0 := by
  have hbyte (j : Nat) : (v.extractLsb' (8 * j) 8).setWidth 64 = v >>> (8 * j) &&& 0xFF := by
    refine Eq.trans ?_ (zext_eq_and (v >>> (8 * j)) (n := 8) (by decide))
    rw [zext_eq_setWidth]
    rfl
  rw [swapBytes, leNat_eq_foldr, List.foldr_reverse, leBytes_word, List.foldl_map]
  exact (List.foldl_hom wd fun w j => by rw [wd_append_byte, hbyte]).symm

/-! ## Fields (R176) -/

theorem fieldPos_eq (imm : Word) : fieldPos imm = imm.toNat % 64 := fld_queue imm

theorem fieldLen_eq (imm : Word) : fieldLen imm = imm.toNat / 64 % 64 + 1 := by
  simp [fieldLen, fld]

/-- `bfi` takes the bits of the field from the source and keeps the others (R176). -/
theorem getLsbD_fieldPut (old src : Word) (pos len : Nat) {i : Nat} (hi : i < 64) :
    (fieldPut old src pos len).getLsbD i = if pos ≤ i ∧ i < pos + len then src.getLsbD (i - pos) else old.getLsbD i := by
  have hmask : (wd (2 ^ len - 1) <<< pos).getLsbD i = decide (pos ≤ i ∧ i < pos + len) := by
    rw [BitVec.getLsbD_shiftLeft, wd, BitVec.getLsbD_ofNat, Nat.testBit_two_pow_sub_one, Bool.eq_iff_iff]
    simp only [Bool.and_eq_true, Bool.not_eq_true', decide_eq_true_eq, decide_eq_false_iff_not]
    omega
  rw [fieldPut, BitVec.getLsbD_or, BitVec.getLsbD_and, BitVec.getLsbD_and, BitVec.getLsbD_not, hmask, BitVec.getLsbD_shiftLeft]
  by_cases h : pos ≤ i ∧ i < pos + len
  · simp only [h, hi, Nat.not_lt.mpr h.1, and_self, decide_true, decide_false, Bool.not_true, Bool.not_false, Bool.and_false,
      Bool.and_true, Bool.true_and, Bool.false_or, if_true]
  · simp only [h, hi, decide_true, decide_false, Bool.not_false, Bool.and_false, Bool.and_true, Bool.or_false, if_false]

end Sys2Proof.Machine

open Sys2Proof Sys2Proof.Machine

/-- Settles O2: every form reads its sources and gives its operation on them, whose bits are those that the rules name. -/
theorem scalarUnaryAndImmediateForms : Obligations.ScalarUnaryAndImmediateForms := by
  intro s c t a h x v o bits pos len
  have hbytes : bits / 8 = Machine.sizeOf a.v := Nat.mul_div_cancel_left _ (by decide)
  have hpos : fieldPos a.imm = pos := fieldPos_eq a.imm
  have hlen : fieldLen a.imm = len := fieldLen_eq a.imm
  have hbits0 : bits ≠ 0 := (Nat.mul_pos (by decide) (Nat.two_pow_pos _)).ne'
  have hbits : bits ≤ 64 := Nat.mul_le_mul_left 8 (Nat.pow_le_pow_right (by decide) (by omega : a.v.toNat % 4 ≤ 3))
  refine ⟨?mov, ?clz, ?ctz, ?popc, ?bswap, ?sext, ?zext, ?bfx, ?bfi, ?sel, ?addImm, ?andImm, ?orImm, ?xorImm, ?shlImm, ?shrImm,
    ?sraImm, ?li, ?lih⟩
  case mov => exact issue_semUn h rfl
  case clz => exact issue_semUn h (clz_eq v)
  case ctz => exact issue_semUn h (ctz_eq v)
  case popc => exact issue_semUn h (popc_eq v)
  case bswap =>
    rw [hbytes]
    exact issue_semUn h (swapBytes_eq v _)
  case sext => exact issue_semUn h (sext_eq_signExtend v hbits0 hbits)
  case zext => exact issue_semUn h (zext_eq_setWidth v bits)
  case bfx =>
    refine issue_semUn h ?_
    rw [fieldGet, hpos, hlen]
    exact zext_eq_setWidth _ len
  case bfi =>
    refine ⟨_, issue_semBfi h, fun i hi => ?_⟩
    rw [hpos, hlen]
    exact getLsbD_fieldPut o v pos len hi
  case sel => exact issue_semSel h
  case addImm => exact issue_semImm h rfl
  case andImm => exact issue_semImm h rfl
  case orImm => exact issue_semImm h rfl
  case xorImm => exact issue_semImm h rfl
  case shlImm => exact issue_semImm h rfl
  case shrImm => exact issue_semImm h rfl
  case sraImm => exact issue_semImm h rfl
  case li => exact issue_semLi h
  case lih => exact issue_semImm h (congrArg (o <<< 25 ||| ·) (zext_eq_and a.imm (by decide)))
end

section
/-! PROOF. Calls, indirect jumps, returns and fenced jumps (R154, R180, R181). -/

namespace Sys2Proof.Machine

open Sys2Proof

/-- Where no register has an ECC error, none of the registers read is bad (R62). -/
theorem ThreadSet.badReg_of_regErr {u : ThreadSet} (h : u.regErr = []) (codes : List Nat) : u.badReg codes = none := by
  rw [ThreadSet.badReg, List.find?_eq_none]
  intro n _
  simp [h, Map.get, Map.find]

/-- A park into the free record that the core picks, whose words nothing holds back (R96, R97, R230). -/
theorem park_run {m : Mach} {c t r : Nat} (hc : m.cur = .core c t) (hre : m.me.regErr = []) (hfree : m.myCore.freeRec = some r)
    (hheld : m.recHeld c r = false) (wait : Nat) (arg : Word) (pc : BitVec 14) :
    (park wait arg pc).run m = .ok () (m.parkIn c t r wait arg pc none) := by
  rw [park, run_bind_ok (EStateM.run_get m), hfree]
  dsimp only
  rw [Mach.here_of_cur hc, hheld, run_bind_ok (stallUntil_run m _ _), ThreadSet.badReg_of_regErr hre, Mach.tsNo_of_cur hc]
  rfl

/-- The bits that an indirect jump's target may not have (R180). -/
theorem jumpTarget_iff (v : Word) : (fld v 63 14 == 0 && !bit v 0) = true ↔ v.toNat < 2 ^ 14 ∧ v.toNat % 2 = 0 := by
  have hv := v.isLt
  simp only [Bool.and_eq_true, Bool.not_eq_true', bit, beq_iff_eq, beq_eq_false_iff_ne, fld]
  omega

/-- An indirect jump of a thread set that follows no chorus (R180). -/
theorem jumpTo_run {m : Mach} (hfol : m.me.fol = false) (v : Word) : (jumpTo v).run m =
    if v.toNat < 2 ^ 14 ∧ v.toNat % 2 = 0 then .ok () (m.branched (v.setWidth 14))
    else .error (.trap { faultOf Cause.illegalOperation with addr := v }) m := by
  have hcheck := require_run m (fld v 63 14 == 0 && !bit v 0) { faultOf Cause.illegalOperation with addr := v }
  simp only [jumpTarget_iff] at hcheck
  rw [jumpTo, run_bind_ok (me_run m), if_neg (by simp [hfol])]
  split
  · next hv =>
    rw [if_pos hv] at hcheck
    exact run_bind_ok hcheck
  · next hv =>
    rw [if_neg hv] at hcheck
    exact run_bind_error hcheck

section
variable {s : State} {c t : Nat} {a : Args} (h : Plain s.mach c t = true)
include h

/-- A form that ends in an indirect jump to `v` (R180). -/
theorem issue_jumpTo {sem : Act Unit} {v : Word} (hrun : sem.run s.mach = (jumpTo v).run s.mach) : issue sem s =
    if v.toNat < 2 ^ 14 ∧ v.toNat % 2 = 0 then .next (s.after (s.mach.branched (v.setWidth 14)))
    else s.traps c t { cause := 0x02, addr := v } := by
  obtain ⟨-, -, -, -, hfol, -⟩ := Plain.iff.mp h
  rw [jumpTo_run hfol] at hrun
  split
  · next hv => exact issue_ok (Plain.alone h) (hrun.trans (if_pos hv))
  · next hv => exact issue_traps (Plain.alone h) (hrun.trans (if_neg hv))

theorem issue_semJr : issue (semJr a) s =
    if (s.mach.me.xreg a.s).toNat < 2 ^ 14 ∧ (s.mach.me.xreg a.s).toNat % 2 = 0
    then .next (s.after (s.mach.branched ((s.mach.me.xreg a.s).setWidth 14)))
    else s.traps c t { cause := 0x02, addr := s.mach.me.xreg a.s } := by
  obtain ⟨-, -, -, -, -, -, hub, hre⟩ := Plain.iff.mp h
  refine issue_jumpTo h ?_
  rw [semJr, run_bind_ok (srcPort_run hub _ _), run_bind_ok (readX_run hub hre _)]

theorem issue_semRet : issue (semRet a) s =
    if (s.mach.me.xreg 5).toNat < 2 ^ 14 ∧ (s.mach.me.xreg 5).toNat % 2 = 0
    then .next (s.after (s.mach.branched ((s.mach.me.xreg 5).setWidth 14)))
    else s.traps c t { cause := 0x02, addr := s.mach.me.xreg 5 } := by
  obtain ⟨-, -, -, -, -, -, hub, hre⟩ := Plain.iff.mp h
  exact issue_jumpTo h (run_bind_ok (readX_run hub hre _))

/-- `jal` writes the address of Next and branches (R180). -/
theorem issue_semJal : issue (semJal a) s = .next (s.after ((s.mach.modMe (·.setX 5 (s.mach.npc.setWidth 64))).branched
    (BitVec.ofInt 14 (s.mach.me.pc.toNat + 2 * a.imm.toInt)))) := by
  obtain ⟨hc, -, ht, -⟩ := Plain.iff.mp h
  have hpc : (s.mach.modMe (·.setX 5 (s.mach.npc.setWidth 64))).me.pc = s.mach.me.pc := by rw [Mach.me_modMe hc ht, ThreadSet.setX_pc]
  exact issue_branch h (b := true) (p := True) (by simp) hpc rfl

end

/-! ## Fenced jumps (R181) -/

section
variable {m : Mach} {pc : BitVec 14} (hfol : m.me.fol = false)
include hfol

theorem fenceCheck_valid (hst : (m.myCore.slot (pc.toNat / 1024)).st = .valid) : (fenceCheck pc).run m = .ok true m := by
  rw [fenceCheck, run_bind_ok (me_run m), if_neg (by simp [hfol]), run_bind_ok (myCore_run m), hst]
  rfl

theorem fenceCheck_empty (hst : (m.myCore.slot (pc.toNat / 1024)).st = .empty) : (fenceCheck pc).run m =
    .error (.trap { cause := 0x15, addr := pc.setWidth 64, index := BitVec.ofNat 16 (pc.toNat / 1024) }) m := by
  rw [fenceCheck, run_bind_ok (me_run m), if_neg (by simp [hfol]), run_bind_ok (myCore_run m), hst]
  rfl

theorem fenceCheck_full (hst : (m.myCore.slot (pc.toNat / 1024)).st = .loading) (hfree : m.myCore.freeRec = none) :
    (fenceCheck pc).run m = .error (.wait .other) m := by
  rw [fenceCheck, run_bind_ok (me_run m), if_neg (by simp [hfol]), run_bind_ok (myCore_run m), hst]
  dsimp only
  rw [run_bind_ok (myCore_run m), if_pos (by simp [hfree])]
  rfl

theorem fenceCheck_parks {c t r : Nat} (hc : m.cur = .core c t) (hheld : m.me.held = false) (hre : m.me.regErr = [])
    (hst : (m.myCore.slot (pc.toNat / 1024)).st = .loading) (hfree : m.myCore.freeRec = some r) (hrec : m.recHeld c r = false) :
    (fenceCheck pc).run m = .ok false (m.parkIn c t r 3 (wd (pc.toNat / 1024)) m.me.pc none) := by
  rw [fenceCheck, run_bind_ok (me_run m), if_neg (by simp [hfol]), run_bind_ok (myCore_run m), hst]
  dsimp only
  rw [run_bind_ok (myCore_run m), if_neg (by simp [hfree, hheld]), run_bind_ok (park_run hc hre hfree hrec _ _ _)]
  rfl

end

section
variable {link : Bool} {a : Args} {m m' : Mach}

/-- A fenced jump whose check lets it go writes x5 where it links, and goes to its target (R181). -/
theorem semFenced_goes (hcheck : (fenceCheck (branchTarget m.me.pc a.imm)).run m = .ok true m) : (semFenced link a).run m =
    .ok () ((if link then m.modMe (·.setX 5 (m.npc.setWidth 64)) else m).branched (branchTarget m.me.pc a.imm)) := by
  rw [semFenced, run_bind_ok (me_run m), run_bind_ok hcheck]
  cases link <;> rfl

theorem semFenced_parked (hcheck : (fenceCheck (branchTarget m.me.pc a.imm)).run m = .ok false m') :
    (semFenced link a).run m = .ok () m' := by
  rw [semFenced, run_bind_ok (me_run m), run_bind_ok hcheck]
  rfl

theorem semFenced_stops {e : Stop} (hcheck : (fenceCheck (branchTarget m.me.pc a.imm)).run m = .error e m') :
    (semFenced link a).run m = .error e m' := by
  rw [semFenced, run_bind_ok (me_run m), run_bind_error hcheck]

end

end Sys2Proof.Machine

open Sys2Proof Sys2Proof.Machine

/-- Settles O4: the indirect jumps end in one jump whose target is checked, and a fenced jump acts by the state of its target's slot. -/
theorem callAndJumpForms : Obligations.CallAndJumpForms := by
  refine ⟨fun s c t a h => ?calls, fun s c t r a h => ?fenced⟩
  case calls => exact ⟨issue_ok (Plain.alone h) rfl, issue_semJal h, issue_semJr h, issue_semRet h⟩
  case fenced =>
    obtain ⟨hc, -, -, hcho, hfol, -, hub, hre⟩ := Plain.iff.mp h
    have hal := Plain.alone h
    have hheld : s.mach.me.held = false := by simp [ThreadSet.held, hub, hcho, hfol]
    rw [← branchTarget_eq_ofInt]
    intro target g st both
    have hboth {o : Host.Outcome State Fault Refusal} (ho : ∀ link, issue (semFenced link a) s = o) : both o := ⟨ho false, ho true⟩
    refine ⟨fun hst => ?valid, fun hst => hboth fun link => ?empty, fun hst => hboth fun link => ?full,
      fun hst => hboth fun link => ?parks⟩
    case valid =>
      have hgo (link : Bool) := issue_ok hal (semFenced_goes (link := link) (fenceCheck_valid hfol hst))
      exact ⟨hgo false, hgo true⟩
    case empty => exact issue_traps hal (semFenced_stops (fenceCheck_empty hfol hst))
    case full =>
      obtain ⟨hloading, hfree⟩ := hst
      exact issue_wait hal (semFenced_stops (fenceCheck_full hfol hloading hfree))
    case parks =>
      obtain ⟨hloading, hfree, hrec⟩ := hst
      exact issue_ok hal (semFenced_parked (fenceCheck_parks hfol hc hheld hre hloading hfree hrec))
end

section
/-! PROOF. Scalar loads of the own core and of another core of the cluster (R75, R77, R80, R184, R187, R191). -/

namespace Sys2Proof.Machine

open Sys2Proof

/-! ## Places -/

/-- The bytes of a size divide the address space of a core's memory. -/
theorem sizeOf_dvd (v : BitVec 3) : sizeOf v ∣ 65536 := Nat.pow_dvd_pow 2 (n := 16) (by omega)

/-- The fields of a space-0x1 address (R75). -/
theorem fields_of_space1 {ea : Word} {x y off : Nat} (h : ea.toNat = 2 ^ 60 + x * 2 ^ 32 + y * 2 ^ 24 + off) (hx : x < 1024) (hy : y < 256)
    (hoff : off < 65536) : fld ea 63 60 = 1 ∧ fld ea 59 42 = 0 ∧ fld ea 23 16 = 0 ∧ fld ea 41 32 = x ∧ fld ea 31 24 = y ∧ fld ea 15 0 = off := by
  unfold fld
  omega

/-- Steps 1 to 3 of R184 pass an aligned address of another live core of the cluster. -/
theorem place_coreAt {m : Mach} {c q off n : Nat} {ea : Word} (priv : Priv) (sys : Bool) (h : coreAt q ea off = true) (hq : q ≠ c)
    (hlive : m.live q = true) (hcl : sameCluster c q = true) (hn : n ∣ 65536) (hal : off % n = 0) :
    m.place c priv ea n .cluster sys = .ok (.other q off) := by
  obtain ⟨⟨hoff, hmesh⟩, hea⟩ : (off < 65536 ∧ q < 73728) ∧ ea.toNat = 2 ^ 60 + (q % 512) * 2 ^ 32 + (q / 512) * 2 ^ 24 + off := by
    simpa [coreAt] using h
  have hx : q % 512 < 512 := Nat.mod_lt _ (by decide)
  have hy : q / 512 < 144 := by omega
  have hnum : q / 512 * 512 + q % 512 = q := by omega
  obtain ⟨hsp, hz, hz', hcol, hrow, hlow⟩ := fields_of_space1 hea (by omega) (by omega) hoff
  have halign : ea.toNat % n = 0 := by
    have hbase : n ∣ 2 ^ 60 + (q % 512) * 2 ^ 32 + (q / 512) * 2 ^ 24 := hn.trans (by omega)
    rw [hea]
    exact Nat.mod_eq_zero_of_dvd (hbase.add (Nat.dvd_of_mod_eq_zero hal))
  simp [Mach.place, hsp, hz, hz', hlow, hcol, hrow, agentAt, meshCore, hx, hy, hnum, hq, hlive, hcl, halign]

section
variable {m : Mach} {c t : Nat} (hc : m.cur = .core c t)
include hc

/-- A load's check ends in the place that its address names. -/
theorem checkElem_load_run {ea : Word} {n : Nat} {reach : MeshReach} {sys : Bool} {p : Place}
    (h : m.place c m.me.priv ea n reach sys = .ok p) (lane : Nat) : (checkElem ea n reach sys false lane).run m = .ok p m := by
  simp only [checkElem]
  rw [run_bind_ok (EStateM.run_get m)]
  simp only [hc, h]
  cases p <;> rfl

/-- A load of another core's memory that nothing holds back corrects the single-bit errors of its words and gives its bytes (R77, R80). -/
theorem loadPlace_other_run {q off n : Nat} (hinj : m.injPaused = false) (hgone : m.gone.contains q = false)
    (hacc : m.unaccepted c t q off n = false) (hmark : (m.core q).aboveMark off n = none) (hb : (m.core q).badRead off n = none) (ea : Word) :
    (loadPlace (.other q off) n ea).run m = .ok (((m.core q).correct off n).readN off n) (m.modCore q (·.correct off n)) := by
  have hopen : (meshOpen q).run m = .ok () m := by
    rw [meshOpen, run_bind_ok (EStateM.run_get m), hinj, hgone]
    rfl
  have hstall : (stallUntil (!m.unaccepted c t q off n)).run m = .ok () m := by
    rw [hacc]
    rfl
  have hbelow : (belowMark q off n).run m = .ok () m := by
    rw [belowMark, run_bind_ok (EStateM.run_get m)]
    simp only [hmark]
    rfl
  have hread : (eccRead q off n ea).run m = .ok () (m.modCore q (·.correct off n)) := by
    rw [eccRead, run_bind_ok (EStateM.run_get m), hb]
    rfl
  simp only [loadPlace]
  rw [run_bind_ok (EStateM.run_get m)]
  simp only [hc]
  rw [run_bind_ok hopen, run_bind_ok hstall, run_bind_ok hbelow, run_bind_ok hread, run_bind_ok (EStateM.run_get _), Mach.core_modCore,
    if_pos rfl]
  rfl

/-- A change of a core that leaves its thread sets leaves the agent's. -/
theorem Mach.me_modCore {f : Core → Core} (hf : ∀ k u, (f k).tset u = k.tset u) (q : Nat) : (m.modCore q f).me = m.me := by
  have hc' : (m.modCore q f).cur = .core c t := hc
  rw [Mach.me_of_cur hc', Mach.me_of_cur hc, Mach.core_modCore]
  split
  · next h => rw [h, hf]
  · rfl

end

/-- Correcting words leaves the thread sets. -/
theorem Core.tset_correct (k : Core) (off n u : Nat) : (k.correct off n).tset u = k.tset u :=
  congrArg (fun ts => vget ts ({} : ThreadSet) u) (k.correct_rest off n).1

/-- Correcting leaves the number that bytes hold. -/
theorem Core.readN_correct (k : Core) (off n : Nat) : (k.correct off n).readN off n = k.number off n :=
  (Core.readN_eq_number _ off n).trans ((k.corrected_correct off n).number off n)

/-! ## The forms, run -/

section
variable {s : State} {c t : Nat} (hp : Plain s.mach c t = true) {a : Args} {ctr : Option Nat} {n : Nat}
include hp

/-- A load whose predicate bit 0 is 0 makes no access (R55). -/
theorem issue_semLoad_off (hoff : s.on a = false) : issue (semLoad ctr n a) s = s.passes := by
  obtain ⟨-, -, -, -, -, -, hub, hre⟩ := Plain.iff.mp hp
  refine issue_ok (Plain.alone hp) ?_
  rw [semLoad, run_bind_ok (srcPort_run hub _ _), run_bind_ok (dstPort_run hub _ _), effAddr, EStateM.run_bind,
    run_bind_ok (readX_run hub hre _), EStateM.run_pure]
  dsimp only
  rw [run_bind_ok (predOn_run hre a)]
  have hoff : (s.mach.me.preg a.p.toNat).getLsbD 0 = false := hoff
  rw [hoff]
  exact writeRes_run hub a false 0

/-- A load from a place of core `d` whose check passes (R187). -/
theorem issue_semLoad {d off : Nat} {p : Place} (hon : s.on a = true) (hsys : p ≠ .system)
    (hplace : ∀ sys, s.mach.place c s.mach.me.priv (s.mach.me.xreg a.s + a.imm) n .cluster sys = .ok p)
    (hload : (loadPlace p n (s.mach.me.xreg a.s + a.imm)).run s.mach =
      .ok (((s.mach.core d).correct off n).readN off n) (s.mach.modCore d (·.correct off n))) :
    issue (semLoad ctr n a) s = .next (s.after
      ((s.mach.modCore d (·.correct off n)).modMe (·.setX a.d (BitVec.ofNat 64 ((s.mach.core d).number off n))))) := by
  obtain ⟨hc, -, -, -, -, -, hub, hre⟩ := Plain.iff.mp hp
  have hon : (s.mach.me.preg a.p.toNat).getLsbD 0 = true := hon
  have hub' : (s.mach.modCore d (·.correct off n)).me.anyBound = false := by
    rw [Mach.me_modCore hc fun k => k.tset_correct off n]
    exact hub
  refine issue_ok (Plain.alone hp) ?_
  rw [semLoad, run_bind_ok (srcPort_run hub _ _), run_bind_ok (dstPort_run hub _ _), effAddr, EStateM.run_bind,
    run_bind_ok (readX_run hub hre _), EStateM.run_pure]
  dsimp only
  rw [run_bind_ok (predOn_run hre a), hon, if_pos rfl, run_bind_ok (checkElem_load_run hc (hplace _) 0), if_neg hsys, run_bind_ok hload,
    writeRes_run hub', if_pos rfl, Core.readN_correct, wd]

end

/-- The load forms are loads of their size (R187, R191). -/
theorem exec_load_forms {s : State} {a : Args} {n : Nat} {i : Instr}
    (h : (i, n) ∈ [(Instr.ldD a, 8), (Instr.ldW a, 4), (Instr.ldSize a, 2 ^ (a.v.toNat % 4)), (Instr.ldAcq a, 2 ^ (a.v.toNat % 4))]) :
    (∃ ctr, exec i s = issue (semLoad ctr n a) s) ∧ n ∣ 65536 := by
  simp only [List.mem_cons, Prod.mk.injEq, List.not_mem_nil, or_false] at h
  obtain ⟨rfl, rfl⟩ | ⟨rfl, rfl⟩ | ⟨rfl, rfl⟩ | ⟨rfl, rfl⟩ := h
  · exact ⟨⟨_, rfl⟩, by decide⟩
  · exact ⟨⟨_, rfl⟩, by decide⟩
  · exact ⟨⟨_, rfl⟩, sizeOf_dvd a.v⟩
  · exact ⟨⟨_, rfl⟩, sizeOf_dvd a.v⟩

end Sys2Proof.Machine

open Sys2Proof Sys2Proof.Machine

/-- Settles O10: a load form is one load of its size, whose check ends in the place that the address names, and whose bytes are read there. -/
theorem scalarLoads : Obligations.ScalarLoads := by
  intro s c t off q a i n hp hi ea runs gives
  obtain ⟨⟨ctr, hexec⟩, hn⟩ := exec_load_forms hi
  obtain ⟨hc, hcore, -⟩ := Plain.iff.mp hp
  rw [hexec]
  refine ⟨issue_semLoad_off hp, ?own, ?other⟩
  case own =>
    rintro ⟨⟨hon, hal⟩, hown, hadm⟩
    obtain ⟨hgate, hgood, -⟩ := admits_iff.mp hadm
    exact issue_semLoad hp hon (by simp) (fun _ => place_ownAt _ hcore _ _ _ hown hn hal) (loadPlace_own_run hc hgate hgood _)
  case other =>
    rintro ⟨⟨hon, hal⟩, hat, hq, hcl, hlive, hinj, hgone, hacc, hmark, hgood⟩
    exact issue_semLoad hp hon (by simp) (fun _ => place_coreAt _ _ hat hq hlive hcl hn hal)
      (loadPlace_other_run hc hinj hgone hacc hmark hgood _)
end

section
/-! PROOF. Atomics of the own core (R55, R185, R191, R194). -/

namespace Sys2Proof.Machine

open Sys2Proof

/-! ## Bytes and thread sets -/

theorem cellsAt_leBytes (off n : Nat) (w : Word) : cellsAt off (leBytes w.toNat n) = spread off n w := by
  rw [leBytes_word, cellsAt_map_range]
  rfl

/-- The low bytes of a word are those of the word cut to them. -/
theorem spread_setWidth (off n : Nat) (w : Word) : spread off n ((w.setWidth (8 * n)).setWidth 64) = spread off n w := by
  refine List.map_congr_left fun i hi => Prod.ext rfl (BitVec.eq_of_getLsbD_eq fun j hj => ?_)
  have hi := List.mem_range.mp hi
  have hlow : 8 * i + j < 8 * n := by omega
  by_cases h64 : 8 * i + j < 64
  · simp [hj, h64, hlow]
  · simp [h64, BitVec.getLsbD_of_ge w _ (Nat.le_of_not_lt h64)]

/-- A store leaves the thread sets. -/
theorem Core.tset_store (k : Core) (cs : List (Nat × Byte)) (u : Nat) : (k.store cs).tset u = k.tset u := by
  obtain ⟨_, _, hk⟩ := k.store_rest cs
  rw [hk]
  rfl

/-- The signed order of the low bytes (R194). -/
theorem sltAt_iff {n : Nat} (hn0 : n ≠ 0) (hn : n ≤ 8) (l r : Word) :
    sltAt n l r = true ↔ (l.setWidth (8 * n)).toInt < (r.setWidth (8 * n)).toInt := by
  rw [sltAt, sext_eq_signExtend _ (by omega) (by omega), sext_eq_signExtend _ (by omega) (by omega), BitVec.slt_iff_toInt_lt,
    BitVec.toInt_signExtend_of_le (by omega), BitVec.toInt_signExtend_of_le (by omega)]

/-! ## The read-modify-write -/

/-- The machine after core `c` has stored the new value of a read-modify-write, if it has one. -/
def Mach.rmwStore (m : Mach) (c off n : Nat) : Option Word → Mach
  | none => m
  | some w => m.modCore c (·.store (spread off n w))

/-- What `amo` and `cas` do once they have read their sources: under the predicate, the checks, the wait for earlier accesses, the
read-modify-write and the old value as the result (R194). -/
def rmwForm (a : Args) (ea : Word) (f : Word → Option Word) : Act Unit := do
  if ← predOn a then
    let p ← checkElem ea (sizeOf a.v) .cluster false true
    waitQuiet
    writeRes a true (← rmw p (sizeOf a.v) ea f)
  else writeRes a false 0

section
variable {m : Mach} {c t : Nat} (hc : m.cur = .core c t)
include hc

theorem waitQuiet_run (hq : m.quiet c t = true) (hub : m.me.anyBound = false) : waitQuiet.run m = .ok () m := by
  rw [waitQuiet, run_bind_ok (EStateM.run_get m), Mach.here_of_cur hc, Mach.tsNo_of_cur hc, hq, ThreadSet.drained_unbound hub]
  rfl

/-- A read-modify-write of own memory reads the old value and stores the new one in one step. -/
theorem rmw_own_run {off n : Nat} (hg : m.gate c t off n true = .open_) (hb : (m.core c).badRead off n = none) (ea : Word)
    (f : Word → Option Word) : (rmw (.own off) n ea f).run m = .ok (wd ((m.core c).number off n))
      ((m.modCore c (·.correct off n)).rmwStore c off n (f (wd ((m.core c).number off n)))) := by
  have hread : (eccRead c off n ea).run m = .ok () (m.modCore c (·.correct off n)) := by
    rw [eccRead, run_bind_ok (EStateM.run_get m), hb]
    rfl
  have hold : ((m.modCore c (·.correct off n)).core c).readN off n = (m.core c).number off n := by
    rw [Mach.core_modCore, if_pos rfl, Core.readN_correct]
  rw [rmw, run_bind_ok (EStateM.run_get m)]
  simp only [Mach.here_of_cur hc, if_true]
  rw [run_bind_ok (waitGate_run hc hg _), run_bind_ok hread, run_bind_ok (EStateM.run_get _), hold]
  cases hf : f (wd ((m.core c).number off n)) with
  | none => rfl
  | some w => rw [Mach.rmwStore, ← cellsAt_leBytes]; rfl

end

/-! ## The forms, run -/

section
variable {m : Mach} (hub : m.me.anyBound = false) (hre : m.me.regErr = []) (a : Args)
include hub hre

theorem semAmo_run (op : Nat → Word → Word → Word) : (semAmo op a).run m =
    (rmwForm a (m.me.xreg a.s + a.imm) fun old => some (op (sizeOf a.v) old (zext (m.me.xreg a.t) (8 * sizeOf a.v)))).run m := by
  rw [semAmo, run_bind_ok (srcPort_run hub _ _), run_bind_ok (srcPort_run hub _ _), run_bind_ok (dstPort_run hub _ _), effAddr,
    EStateM.run_bind, run_bind_ok (readX_run hub hre _), EStateM.run_pure]
  dsimp only
  rw [run_bind_ok (readX_run hub hre _)]
  rfl

theorem semCas_run : (semCas a).run m = (rmwForm a (m.me.xreg a.s + a.imm) fun old =>
    if old = zext (m.me.xreg a.d) (8 * sizeOf a.v) then some (m.me.xreg a.t) else none).run m := by
  rw [semCas, run_bind_ok (srcPort_run hub _ _), run_bind_ok (bothPort_run hub _ _), run_bind_ok (srcPort_run hub _ _), effAddr,
    EStateM.run_bind, run_bind_ok (readX_run hub hre _), EStateM.run_pure]
  dsimp only
  rw [run_bind_ok (readX_run hub hre _), run_bind_ok (readX_run hub hre _)]
  rfl

end

section
variable {s : State} {c t : Nat} (hp : Plain s.mach c t = true) {a : Args} {sem : Act Unit} {ea : Word} {f : Word → Option Word}
  (hsem : sem.run s.mach = (rmwForm a ea f).run s.mach)
include hp hsem

/-- An atomic whose predicate bit 0 is 0 makes no access (R55). -/
theorem issue_rmwForm_off (hoff : s.on a = false) : issue sem s = s.passes := by
  obtain ⟨-, -, -, -, -, -, hub, hre⟩ := Plain.iff.mp hp
  have hoff : (s.mach.me.preg a.p.toNat).getLsbD 0 = false := hoff
  refine issue_ok (Plain.alone hp) (hsem.trans ?_)
  rw [rmwForm, run_bind_ok (predOn_run hre a), hoff]
  exact writeRes_run hub a false 0

/-- An atomic of own memory whose access nothing holds back. -/
theorem issue_rmwForm {off : Nat} (hon : s.on a = true) (hal : off % sizeOf a.v = 0) (hown : ownAt c ea off = true)
    (hq : s.mach.quiet c t = true) (hadm : s.mach.admits c t off (sizeOf a.v) true = true) :
    issue sem s = .next (s.after (((s.mach.modCore c (·.correct off (sizeOf a.v))).rmwStore c off (sizeOf a.v)
      (f (wd (s.mach.myCore.number off (sizeOf a.v))))).modMe (·.setX a.d (wd (s.mach.myCore.number off (sizeOf a.v)))))) := by
  obtain ⟨hc, hcore, -, -, -, -, hub, hre⟩ := Plain.iff.mp hp
  obtain ⟨hgate, hgood, hfree⟩ := admits_iff.mp hadm
  have hon : (s.mach.me.preg a.p.toNat).getLsbD 0 = true := hon
  rw [Mach.myCore_of_cur hc]
  have hme : ((s.mach.modCore c (·.correct off (sizeOf a.v))).rmwStore c off (sizeOf a.v)
      (f (wd ((s.mach.core c).number off (sizeOf a.v))))).me = s.mach.me := by
    cases f (wd ((s.mach.core c).number off (sizeOf a.v))) with
    | none => exact Mach.me_modCore hc (fun k => k.tset_correct _ _) c
    | some w =>
      exact (Mach.me_modCore (by exact hc) (fun k => k.tset_store _) c).trans (Mach.me_modCore hc (fun k => k.tset_correct _ _) c)
  refine issue_ok (Plain.alone hp) (hsem.trans ?_)
  rw [rmwForm, run_bind_ok (predOn_run hre a), hon, if_pos rfl,
    run_bind_ok (checkElem_own_run hc hcore hown (sizeOf_dvd a.v) hal (hfree rfl) _ _ _), run_bind_ok (waitQuiet_run hc hq hub),
    run_bind_ok (rmw_own_run hc hgate hgood ea f), writeRes_run (hme ▸ hub), if_pos rfl]

end

end Sys2Proof.Machine

open Sys2Proof Sys2Proof.Machine

/-- Settles O14: every form is one read-modify-write with its own function of the old value. -/
theorem atomicForms : Obligations.AtomicForms := by
  intro s c t a off i hp n trim signed x b e m stores forms
  obtain ⟨-, -, -, -, -, -, hub, hre⟩ := Plain.iff.mp hp
  have hn0 : n ≠ 0 := by positivity
  have hn : n ≤ 2 ^ 3 := Nat.pow_le_pow_right (by decide) (by omega)
  have hb : zext (s.mach.me.xreg a.t) (8 * n) = b := zext_eq_setWidth _ _
  have he : zext (s.mach.me.xreg a.d) (8 * n) = e := zext_eq_setWidth _ _
  have hspread : spread off n (s.mach.me.xreg a.t) = spread off n b := (spread_setWidth off n _).symm
  have hslt : (sltAt n x b = true) = (signed x < signed b) := propext (sltAt_iff hn0 hn x b)
  have hult : (x.ult b = true) = (x.toNat < b.toNat) := propext BitVec.ult_iff_toNat_lt
  refine ⟨fun ⟨hon, hal, hown, hq, hadm⟩ => ?runs, fun ⟨hoff, hi⟩ => ?off⟩
  case runs =>
    have amo (op : Nat → Word → Word → Word) : issue (semAmo op a) s = stores (op n x b) := by
      rw [← hb]
      exact issue_rmwForm hp (semAmo_run hub hre a op) hon hal hown hq hadm
    have cas : issue (semCas a) s = if x = e then stores b else .next (s.after (m.modMe (·.setX a.d x))) := by
      refine (issue_rmwForm hp (semCas_run hub hre a) hon hal hown hq hadm).trans ?_
      change Host.Outcome.next (s.after ((m.rmwStore c off n (if x = zext (s.mach.me.xreg a.d) (8 * n) then some (s.mach.me.xreg a.t)
        else none)).modMe (·.setX a.d x))) = _
      rw [he]
      split
      · simp only [Mach.rmwStore, hspread, stores]
      · rfl
    refine ⟨amo _, amo _, amo _, amo _, amo _, (amo _).trans ?_, (amo _).trans ?_, (amo _).trans ?_, (amo _).trans ?_, cas⟩
    · simp only [hslt]
    · simp only [hslt]
    · simp only [hult]
    · simp only [hult]
  case off =>
    have amo (op : Nat → Word → Word → Word) : issue (semAmo op a) s = s.passes := issue_rmwForm_off hp (semAmo_run hub hre a op) hoff
    have all : ∀ i ∈ forms, exec i s = s.passes := by
      simp only [forms, List.forall_mem_cons]
      exact ⟨amo _, amo _, amo _, amo _, amo _, amo _, amo _, amo _, amo _, issue_rmwForm_off hp (semCas_run hub hre a) hoff,
        List.forall_mem_nil _⟩
    exact all i hi
end

section
/-! PROOF. `job` and `jwait`: the card read, its checks, and the queue (R76, R137, R185, R206, R207). -/

namespace Sys2Proof.Machine

open Sys2Proof

/-! ## Footprints -/

/-- A range that one footprint covers is covered. -/
theorem covered_of_mem {fps : List (Nat × Nat × Bool)} {p : Bool → Bool} {first last e a : Nat} {w : Bool} (h : (first, last, w) ∈ fps)
    (hw : p w = true) (ha : first ≤ a ∧ a ≤ last) (he : e ≤ last + 1) (n : Nat) : covered fps p e a (n + 2) = true := by
  have hmem : last ∈ (fps.filter fun f => p f.2.2 && decide (f.1 ≤ a) && decide (a ≤ f.2.1)).map (·.2.1) :=
    List.mem_map.mpr ⟨_, List.mem_filter.mpr ⟨h, by simp [hw, ha]⟩, rfl⟩
  rw [covered]
  split
  · rfl
  · split
    · next hnil =>
      rw [hnil] at hmem
      cases hmem
    · next x xs hcons =>
      rw [hcons] at hmem
      have hmax : last ≤ (x :: xs).foldl max 0 := by
        rw [List.foldl_eq_foldr]
        exact List.le_max_of_le' 0 hmem le_rfl
      rw [covered, if_pos (by omega)]

/-! ## The card of a local copy (R206) -/

/-- The card of a copy of `len` bytes from `src` to `dst`, with CV `cv` and counter `cnt`. -/
def copyCard (src dst len cnt : Nat) (cv : Bool) : List Word :=
  [cv.toNat * 2 ^ 59 + cnt * 2 ^ 53 + 2 * 2 ^ 50, src + (src + len - 1) * 2 ^ 16,
    2 ^ 63 + dst + (dst + len - 1) * 2 ^ 16, 0, 0, src + dst * 2 ^ 16 + len * 2 ^ 32, 0, 0].map (BitVec.ofNat 64)

theorem fld_ofNat {v : Nat} (h : v < 2 ^ 64) (hi lo : Nat) : fld (BitVec.ofNat 64 v) hi lo = v / 2 ^ lo % 2 ^ (hi - lo + 1) := by
  rw [fld, BitVec.toNat_ofNat, Nat.mod_eq_of_lt h]

/-- The fields of a footprint word. -/
theorem fields_footprint {v w first last : Nat} (h : v = w * 2 ^ 63 + first + last * 2 ^ 16) (hw : w ≤ 1) (hfirst : first < 65536)
    (hlast : last < 65536) : fld (BitVec.ofNat 64 v) 15 0 = first ∧ fld (BitVec.ofNat 64 v) 31 16 = last ∧
      fld (BitVec.ofNat 64 v) 62 32 = 0 ∧ fld (BitVec.ofNat 64 v) 63 63 = w := by
  have hlt : v < 2 ^ 64 := by omega
  simp only [fld_ofNat hlt]
  omega

/-- The parts of a copy's card that every KIND shares. -/
theorem head_copyCard (src dst len : Nat) {cnt : Nat} (cv : Bool) (hcnt : cnt < 64) :
    fld ((copyCard src dst len cnt cv).getD 0 0) 63 60 = 0 ∧
    fld ((copyCard src dst len cnt cv).getD 0 0) 52 50 = 2 ∧
    fld ((copyCard src dst len cnt cv).getD 0 0) 49 0 = 0 := by
  have hcv := Bool.toNat_le cv
  have hlt : cv.toNat * 2 ^ 59 + cnt * 2 ^ 53 + 2 * 2 ^ 50 < 2 ^ 64 := by omega
  simp only [copyCard, List.map_cons, List.getD_cons_zero, fld_ofNat hlt]
  omega

section
variable {src dst len cnt : Nat} {cv : Bool} (hcnt : cnt < 64) (hlen : 8 ≤ len) (hlen' : len < 65536) (hsrc : src + len ≤ 65536)
  (hdst : dst + len ≤ 65536)
include hcnt hlen hlen' hsrc hdst

theorem footprints_copyCard :
    footprints (copyCard src dst len cnt cv) = [(src, src + len - 1, false), (dst, dst + len - 1, true)] := by
  obtain ⟨-, hn, -⟩ := head_copyCard src dst len cv hcnt
  obtain ⟨hs1, hs2, -, hs3⟩ := fields_footprint (v := src + (src + len - 1) * 2 ^ 16) (w := 0) (first := src)
    (last := src + len - 1) (by omega) (by omega) (by omega) (by omega)
  obtain ⟨hd1, hd2, -, hd3⟩ := fields_footprint (v := 2 ^ 63 + dst + (dst + len - 1) * 2 ^ 16) (w := 1) (first := dst)
    (last := dst + len - 1) (by omega) (by omega) (by omega) (by omega)
  rw [footprints, hn]
  simp only [copyCard, List.map_cons, List.drop_succ_cons, List.drop_zero, List.take_succ_cons, List.take_zero, List.map_nil, bit, hs1,
    hs2, hs3, hd1, hd2, hd3]
  rfl

theorem cardOk_copyCard : cardOk (copyCard src dst len cnt cv) = true := by
  obtain ⟨hkind, hn, hz⟩ := head_copyCard src dst len cv hcnt
  obtain ⟨hs1, hs2, hs3, -⟩ := fields_footprint (v := src + (src + len - 1) * 2 ^ 16) (w := 0) (first := src)
    (last := src + len - 1) (by omega) (by omega) (by omega) (by omega)
  obtain ⟨hd1, hd2, hd3, -⟩ := fields_footprint (v := 2 ^ 63 + dst + (dst + len - 1) * 2 ^ 16) (w := 1) (first := dst)
    (last := dst + len - 1) (by omega) (by omega) (by omega) (by omega)
  have hsle : src ≤ src + len - 1 := by omega
  have hdle : dst ≤ dst + len - 1 := by omega
  simp only [cardOk, hkind, hn, hz]
  simp only [List.range, List.range.loop, List.all_cons, List.all_nil, copyCard, List.map_cons, List.getD_cons_succ, List.getD_cons_zero,
    hs1, hs2, hs3, hd1, hd2, hd3, hsle, hdle, decide_true]
  rfl

omit hcnt in
/-- Word 5 of a copy's card. -/
theorem word5_copyCard {j : Job} (hj : j.card = copyCard src dst len cnt cv) :
    fld (j.word 5) 15 0 = src ∧ fld (j.word 5) 31 16 = dst ∧ fld (j.word 5) 47 32 = len ∧ fld (j.word 5) 63 48 = 0 := by
  have hlt : src + dst * 2 ^ 16 + len * 2 ^ 32 < 2 ^ 64 := by omega
  have hw5 : j.word 5 = BitVec.ofNat 64 (src + dst * 2 ^ 16 + len * 2 ^ 32) := by rw [Job.word, hj]; rfl
  have hlow : src + dst * 2 ^ 16 < 2 ^ 32 := by omega
  rw [hw5, fld_ofNat hlt, fld_ofNat hlt, fld_ofNat hlt, fld_ofNat hlt]
  refine ⟨by omega, by omega, ?_, by omega⟩
  rw [Nat.add_mul_div_right _ _ (by decide), Nat.div_eq_of_lt hlow, Nat.zero_add]
  exact Nat.mod_eq_of_lt hlen'

/-- A copy inside local memory is as its KIND asks (R206). -/
theorem kindOk_copyCard (hal : len % 8 = 0) (m : Mach) (c : Nat) {j : Job} (hj : j.card = copyCard src dst len cnt cv) :
    m.kindOk c j = true := by
  obtain ⟨hkind, -⟩ := head_copyCard src dst len cv hcnt
  have hfps := footprints_copyCard hcnt hlen hlen' hsrc hdst (cv := cv)
  obtain ⟨hsrcw, hdstw, hlenw, hzero⟩ := word5_copyCard hlen hlen' hsrc hdst hj
  have hw6 : j.word 6 = 0 := by rw [Job.word, hj]; rfl
  have hw7 : j.word 7 = 0 := by rw [Job.word, hj]; rfl
  have hk : j.kind = 0 := by rw [Job.kind, hj]; exact hkind
  have hread : covers j.card anyFp src len = true := by
    rw [covers, hj, hfps]
    exact Bool.and_eq_true_iff.mpr ⟨decide_eq_true hsrc, covered_of_mem List.mem_cons_self rfl (by omega) (by omega) 3⟩
  have hwrite : covers j.card writtenFp dst len = true := by
    rw [covers, hj, hfps]
    exact Bool.and_eq_true_iff.mpr ⟨decide_eq_true hdst,
      covered_of_mem (List.mem_cons_of_mem _ List.mem_cons_self) rfl (by omega) (by omega) 3⟩
  simp only [Mach.kindOk, hk, hsrcw, hdstw, hlenw, hzero, hw6, hw7, hal, hread, hwrite, decide_eq_true hlen]
  rfl

/-- The offsets of a copy of whole words are aligned. -/
theorem misaligned_copyCard (hs : src % 8 = 0) (hd : dst % 8 = 0) {j : Job} (hj : j.card = copyCard src dst len cnt cv) :
    j.misaligned = none := by
  obtain ⟨hkind, -⟩ := head_copyCard src dst len cv hcnt
  obtain ⟨hsrcw, hdstw, -⟩ := word5_copyCard hlen hlen' hsrc hdst hj
  have hk : j.kind = 0 := by rw [Job.kind, hj]; exact hkind
  simp [Job.misaligned, hk, hsrcw, hdstw, hs, hd]

omit hcnt hlen hlen' in
/-- The cast that a KIND 3 card of these bits would name. -/
theorem cast_copyCard {j : Job} (hj : j.card = copyCard src dst len cnt cv) : fld (j.word 5) 7 0 = (src + dst * 2 ^ 16) % 256 := by
  have hlt : src + dst * 2 ^ 16 + len * 2 ^ 32 < 2 ^ 64 := by omega
  have hw5 : j.word 5 = BitVec.ofNat 64 (src + dst * 2 ^ 16 + len * 2 ^ 32) := by rw [Job.word, hj]; rfl
  rw [hw5, fld_ofNat hlt]
  omega

end

/-! ## The card read (R76, R185) -/

section
variable {m : Mach} {c t : Nat} (hc : m.cur = .core c t)
include hc

/-- An aligned record that lies in own memory. -/
theorem ownRecord_run {ea : Word} {off n al : Nat} (hcore : c < 73732) (hown : ownAt c ea off = true) (hdvd : al ∣ 65536)
    (hal : off % al = 0) (hfit : off + n ≤ 65536) : (ownRecord ea n al).run m = .ok off m := by
  rw [ownRecord, run_bind_ok (checkElem_load_run hc (place_ownAt m hcore _ _ _ hown hdvd hal) 0)]
  exact run_bind_ok (require_passes (b := decide (off + n ≤ 65536)) (decide_eq_true hfit) _ m)

/-- A word of own memory whose load nothing holds back. -/
theorem loadOwn_gives {off : Nat} (h : m.admits c t off 8 false = true) :
    m.Gives (loadOwn off) (BitVec.ofNat 64 ((m.core c).number off 8)) := fun m' hm => by
  obtain ⟨hg, hb, -⟩ := admits_iff.mp (hm.admits h)
  refine ⟨_, ?_, hm.correct c off 8⟩
  rw [loadOwn, run_bind_ok (loadPlace_own_run (hm.cur.trans hc) hg hb _), Core.readN_correct, (hm.core c).number]
  rfl

end

/-- Parts that give values, one for each element of a list. -/
theorem Mach.gives_mapM {m : Mach} {α β : Type} {f : α → Act β} {g : α → β} {l : List α} (h : ∀ x ∈ l, m.Gives (f x) (g x)) :
    m.Gives (l.mapM f) (l.map g) := by
  induction l with
  | nil => exact m.gives_pure []
  | cons x l ih =>
    rw [List.mapM_cons]
    exact (h x List.mem_cons_self).bind ((ih fun y hy => h y (List.mem_cons_of_mem _ hy)).bind (m.gives_pure _))

/-! ## The card checked and queued (R206, R207) -/

/-- The card at own offset `off`. -/
def Core.cardAt (k : Core) (off : Nat) : List Word := (List.range 8).map fun i => BitVec.ofNat 64 (k.number (off + 8 * i) 8)

/-- The job that the agent queues with a card at own offset `off`. -/
def Mach.jobOf (m : Mach) (off : Nat) (card : List Word) : Job :=
  { uid := m.nextCid, num := m.myCore.jobNo, off := BitVec.ofNat 16 off, card := card, ts := m.tsNo, cid := m.me.cid, pc := m.me.pc,
    priv := m.me.priv, sample := m.me.matSample }

/-- The machine with the job `j` of the agent queued, in the next round of its cast where it is a collective (R206, R266). -/
def Mach.queueJob (m : Mach) (j : Job) : Mach :=
  let cast := fld (j.word 5) 7 0
  let n := Map.get m.myCore.rounds 0 cast
  let j : Job := { j with round := n }
  let rounds := if j.kind = 3 then Map.set m.myCore.rounds cast (n + 1) else m.myCore.rounds
  ({ m with nextCid := m.nextCid + 1 } : Mach).modCore m.here fun k => { k with jobs := k.jobs ++ [j], jobNo := k.jobNo + 1, rounds := rounds }

namespace Mach.Fixed

variable {m m' : Mach} (h : m.Fixed m') {c t : Nat} (hc : m.cur = .core c t)
include h

theorem myCore (hc : m.cur = .core c t) : (m.core c).Corrected m'.myCore := by
  rw [Mach.myCore_of_cur (h.cur.trans hc)]
  exact h.core c

theorem me (hc : m.cur = .core c t) : m'.me = m.me := by
  rw [Mach.me_of_cur (h.cur.trans hc), h.tset, Mach.me_of_cur hc]

theorem jobOf (hc : m.cur = .core c t) (off : Nat) (card : List Word) : m'.jobOf off card = m.jobOf off card := by
  obtain ⟨_, _, hk⟩ := (h.myCore hc).rest
  have hid : m'.nextCid = m.nextCid := by
    obtain ⟨⟨_, rfl⟩, -⟩ := h
    rfl
  simp only [Mach.jobOf, hid, h.me hc, Mach.tsNo_of_cur hc, Mach.tsNo_of_cur (h.cur.trans hc), hk, Mach.myCore_of_cur hc]

/-- Nor do the reads change what a card's KIND asks. -/
theorem kindOk (c : Nat) (j : Job) : m'.kindOk c j = m.kindOk c j := by
  obtain ⟨_, _, hk⟩ := (h.core c).rest
  have hpart : (m'.core c).part = (m.core c).part := by rw [hk]
  obtain ⟨⟨_, rfl⟩, -⟩ := h
  simp only [Mach.kindOk, hpart]
  rfl

end Mach.Fixed

section
variable {m : Mach} {c t : Nat} (hc : m.cur = .core c t) (hcore : c < 73732) (hub : m.me.anyBound = false) (hre : m.me.regErr = [])
  {a : Args} {off : Nat} (hown : ownAt c (m.me.xreg a.s) off = true) (hal : off % 64 = 0)
  (hread : (List.range 8).all (fun i => m.admits c t (off + 8 * i) 8 false) = true)
include hc hcore hub hre hown hal hread

/-- `job`, once its card is read: the checks in their order, and the job queued. -/
theorem semJob_run : ∃ m', m.Fixed m' ∧ ∀ j, m'.jobOf off ((m.core c).cardAt off) = j →
    ((cardOk j.card && m'.kindOk m'.here j) = false → (semJob a).run m =
      .error (.trap { faultOf Cause.illegalOperation with addr := m.me.xreg a.s }) m') ∧
    ((cardOk j.card && m'.kindOk m'.here j) = true → j.misaligned = none →
      (decide (m'.myCore.jobs.length < 16) = false → (semJob a).run m = .error (.wait .other) m') ∧
      (decide (m'.myCore.jobs.length < 16) = true → m'.cardClear m'.here m'.tsNo j.card = true →
        (semJob a).run m = (writeX a.d (j.num.setWidth 64)).run (m'.queueJob j))) := by
  obtain ⟨hoff, -⟩ := ownAt_iff.mp hown
  obtain ⟨m', hr, hm⟩ := Mach.gives_mapM (fun i hi => loadOwn_gives hc (List.all_eq_true.mp hread i hi)) m (.refl m)
  refine ⟨m', hm, ?_⟩
  rw [semJob, run_bind_ok (srcPort_run hub _ _), run_bind_ok (dstPort_run hub _ _), run_bind_ok (readX_run hub hre _),
    run_bind_ok (ownRecord_run hc hcore hown (by decide) hal (by omega)), run_bind_ok hr, run_bind_ok (EStateM.run_get m'),
    run_bind_ok (me_run m')]
  rintro _ rfl
  refine ⟨fun hbad => run_bind_error (require_stops hbad _ m'), fun hok hmis => ?_⟩
  refine ⟨fun hfull => (run_bind_ok (require_passes hok _ m')).trans ?_, fun hroom hclear => (run_bind_ok (require_passes hok _ m')).trans ?_⟩
  · generalize hw : Job.misaligned _ = w
    obtain rfl : w = none := hw.symm.trans hmis
    exact run_bind_error (stallUntil_stops hfull _ m')
  · generalize hw : Job.misaligned _ = w
    obtain rfl : w = none := hw.symm.trans hmis
    exact (run_bind_ok (stallUntil_passes hroom _ m')).trans (run_bind_ok (stallUntil_passes hclear _ m'))

end

/-- What queueing a job changes of the agent's core. -/
theorem Mach.core_queueJob {m : Mach} {c t : Nat} (hc : m.cur = .core c t) (j : Job) : ∃ rounds, (m.queueJob j).core c =
    { m.core c with jobs := (m.core c).jobs ++ [{ j with round := Map.get (m.core c).rounds 0 (fld (j.word 5) 7 0) }]
                    jobNo := (m.core c).jobNo + 1, rounds := rounds } := by
  rw [Mach.queueJob, Mach.myCore_of_cur hc, Mach.here_of_cur hc]
  exact ⟨_, (Mach.core_modCore _ c c _).trans (if_pos rfl)⟩

/-- A party with no delivery under way and no bound stream has no store to wait for (R207). -/
theorem Mach.cardClear_of_net {m : Mach} {c t : Nat} (hnet : m.net = []) (hub : ((m.core c).tset t).anyBound = false) (card : List Word) :
    m.cardClear c t card = true := by
  have hdry (x n : Nat) : ((m.core c).tset t).undrained x n = false := List.any_eq_false.mpr fun p hp => by
    simp [List.any_eq_false.mp hub p hp]
  have hsent (x n : Nat) : m.unaccepted c t c x n = false := by simp [Mach.unaccepted, hnet]
  simp [Mach.cardClear, hdry, hsent]

/-- A card with a reserved KIND is refused (R206). -/
theorem cardOk_of_kind {card : List Word} (h : 5 ≤ fld (card.getD 0 0) 63 60) : cardOk card = false := by
  have hkind : decide (fld (card.getD 0 0) 63 60 ≤ 4) = false := decide_eq_false (by omega)
  simp only [cardOk, hkind, Bool.false_and]

/-! ## The forms at an agent that runs alone -/

section
variable {s : State} {c t : Nat} (hp : Plain s.mach c t = true) {a : Args}
include hp

theorem exec_jwait : exec (.jwait a) s =
    if s.mach.myCore.jobs.any (·.num.toNat == (s.mach.me.xreg a.s).toNat % 65536) then s.waits .other else s.passes := by
  obtain ⟨-, -, -, -, -, -, hub, hre⟩ := Plain.iff.mp hp
  have hlow : fld (s.mach.me.xreg a.s) 15 0 = (s.mach.me.xreg a.s).toNat % 65536 := by simp [fld]
  have hrun : (semJwait a).run s.mach =
      (stallUntil (!s.mach.myCore.jobs.any (·.num.toNat == (s.mach.me.xreg a.s).toNat % 65536))).run s.mach := by
    rw [semJwait, run_bind_ok (srcPort_run hub _ _), run_bind_ok (readX_run hub hre _), run_bind_ok (myCore_run _), hlow]
  cases hany : s.mach.myCore.jobs.any (·.num.toNat == (s.mach.me.xreg a.s).toNat % 65536) with
  | true => exact issue_wait (Plain.alone hp) (hrun.trans (stallUntil_stops (by rw [hany]; rfl) _ _))
  | false => exact issue_ok (Plain.alone hp) (hrun.trans (stallUntil_passes (by rw [hany]; rfl) _ _))

variable {off : Nat} (hown : ownAt c (s.mach.me.xreg a.s) off = true) (hal : off % 64 = 0)
  (hread : (List.range 8).all (fun i => s.mach.admits c t (off + 8 * i) 8 false) = true)
include hown hal hread

/-- A card whose parts are not as they must be raises the illegal-operation trap. -/
theorem exec_job_refused (hbad : cardOk (s.mach.myCore.cardAt off) = false) :
    exec (.job a) s = s.traps c t { cause := 0x02, addr := s.mach.me.xreg a.s } := by
  obtain ⟨hc, hcore, -, -, -, -, hub, hre⟩ := Plain.iff.mp hp
  obtain ⟨m', hm, hrun⟩ := semJob_run hc hcore hub hre hown hal hread
  obtain ⟨htrap, -⟩ := hrun _ rfl
  rw [← Mach.myCore_of_cur hc] at htrap
  exact issue_traps (Plain.alone hp) (htrap (Bool.and_eq_false_iff.mpr (.inl hbad)))

variable {j : Job} (hj : s.mach.jobOf off (s.mach.myCore.cardAt off) = j) (hok : cardOk j.card = true) (hkind : s.mach.kindOk c j = true)
  (hmis : j.misaligned = none)
include hj hok hkind hmis

/-- A good card waits while 16 jobs stand in the queue (R207). -/
theorem exec_job_full (hfull : ¬s.mach.myCore.jobs.length < 16) : exec (.job a) s = s.waits .other := by
  obtain ⟨hc, hcore, -, -, -, -, hub, hre⟩ := Plain.iff.mp hp
  obtain ⟨m', hm, hrun⟩ := semJob_run hc hcore hub hre hown hal hread
  rw [← Mach.myCore_of_cur hc, hm.jobOf hc, hj] at hrun
  obtain ⟨-, hgood⟩ := hrun j rfl
  obtain ⟨_, _, hk⟩ := (hm.myCore hc).rest
  have hjobs : m'.myCore.jobs = s.mach.myCore.jobs := by rw [hk, Mach.myCore_of_cur hc]
  have hall : (cardOk j.card && m'.kindOk m'.here j) = true := by
    rw [Mach.here_of_cur (hm.cur.trans hc), hok, hm.kindOk, hkind]
    rfl
  exact issue_wait (Plain.alone hp) ((hgood hall hmis).1 (decide_eq_false (hjobs ▸ hfull)))

/-- A good card joins the queue, and its number is the result (R207). -/
theorem exec_job_queued (hroom : s.mach.myCore.jobs.length < 16) (hnet : s.mach.net = []) : ∃ v, exec (.job a) s = .next v ∧
    (v.mach.core c).jobs = s.mach.myCore.jobs ++ [{ j with round := Map.get s.mach.myCore.rounds 0 (fld (j.word 5) 7 0) }] ∧
    (v.mach.core c).jobNo = s.mach.myCore.jobNo + 1 ∧ (v.mach.core c).mem = s.mach.myCore.mem ∧
    (v.mach.tset (.core c t)).x = (s.mach.me.setX a.d (s.mach.myCore.jobNo.setWidth 64)).x ∧
    (v.mach.tset (.core c t)).pc = s.mach.npc := by
  obtain ⟨hc, hcore, ht, -, -, -, hub, hre⟩ := Plain.iff.mp hp
  obtain ⟨m', hm, hrun⟩ := semJob_run hc hcore hub hre hown hal hread
  rw [← Mach.myCore_of_cur hc, hm.jobOf hc, hj] at hrun
  obtain ⟨-, hgood⟩ := hrun j rfl
  obtain ⟨_, _, hk⟩ := (hm.core c).rest
  have hc' := hm.cur.trans hc
  rw [Mach.here_of_cur hc', Mach.tsNo_of_cur hc', Mach.myCore_of_cur hc', hm.kindOk, hok, hkind] at hgood
  have hclear : m'.cardClear c t j.card = true :=
    Mach.cardClear_of_net ((hm.loaded c).net.trans hnet) (by rw [hm.tset, ← Mach.me_of_cur hc]; exact hub) _
  have hnum : j.num = s.mach.myCore.jobNo := hj ▸ rfl
  have hq : (m'.queueJob j).cur = .core c t := hc'
  obtain ⟨rounds, hqcore⟩ := Mach.core_queueJob hc' j
  have hqtset : ((m'.queueJob j).core c).tset t = s.mach.me := by
    rw [hqcore, Mach.me_of_cur hc, ← hm.tset]
    rfl
  have hqub : (m'.queueJob j).me.anyBound = false := by rw [Mach.me_of_cur hq, hqtset]; exact hub
  have hdone := (hgood rfl hmis).2 (decide_eq_true (by rw [hk, ← Mach.myCore_of_cur hc]; exact hroom)) hclear
  refine ⟨_, issue_ok (Plain.alone hp) (hdone.trans (writeX_run hqub _ _)), ?_⟩
  rw [State.core_after hc, if_pos rfl, Mach.core_modMe hq, if_pos rfl, State.tset_after_modMe hc hq _ ht, hqtset, hqcore, hk,
    Mach.myCore_of_cur hc, hnum, Mach.myCore_of_cur hc]
  exact ⟨rfl, rfl, rfl, rfl, (hm.loaded c).npc⟩

end

end Sys2Proof.Machine

open Sys2Proof Sys2Proof.Machine

/-- Settles O22: a card is read under the waits of its words; then its checks, the room in the queue and the queueing follow, and the card of
a local copy passes the checks. -/
theorem jobForms : Obligations.JobForms := by
  intro s c t a off src dst len cnt cv hp hnet u k n card readable given any copies job
  have hc := (Plain.iff.mp hp).1
  have hid : s.mach.jobOf off (s.mach.myCore.cardAt off) = any := by
    rw [Mach.jobOf, Mach.tsNo_of_cur hc]
    rfl
  have hcopy : copies → len < 65536 → cardOk any.card = true ∧ s.mach.kindOk c any = true ∧ any.misaligned = none ∧
      fld (any.word 5) 7 0 = (src + dst * 2 ^ 16) % 256 := by
    rintro ⟨hcnt, hlen, hal, hsrc, hdst, hfit, hfit', hcard⟩ hlen'
    have hcard : any.card = copyCard src dst len cnt cv := hcard
    exact ⟨hcard ▸ cardOk_copyCard hcnt hlen hlen' hfit hfit', kindOk_copyCard hcnt hlen hlen' hfit hfit' hal _ _ hcard,
      misaligned_copyCard hcnt hlen hlen' hfit hfit' hsrc hdst hcard, cast_copyCard hfit hfit' hcard⟩
  refine ⟨?queued, ?full, ?reserved, ?others, exec_jwait hp⟩
  case queued =>
    rintro ⟨⟨hown, hal, hread⟩, hcopies, hlen, hroom⟩
    obtain ⟨hok, hkind, hmis, hcast⟩ := hcopy hcopies hlen
    obtain ⟨v, hv, hjobs, hrest⟩ := exec_job_queued hp hown hal hread hid hok hkind hmis hroom hnet
    obtain ⟨-, -, -, -, -, -, -, hcard⟩ := hcopies
    refine ⟨v, hv, hjobs.trans ?_, hrest⟩
    rw [hcast]
    exact congrArg (fun w : List Word => k.jobs ++ [{ job with card := w }]) hcard
  case full =>
    rintro ⟨⟨hown, hal, hread⟩, hcopies, hlen, hfull⟩
    obtain ⟨hok, hkind, hmis, -⟩ := hcopy hcopies hlen
    exact exec_job_full hp hown hal hread hid hok hkind hmis hfull
  case reserved =>
    rintro ⟨⟨hown, hal, hread⟩, hkind⟩
    have hlt : k.number off 8 < 2 ^ 64 := k.number_lt off 8
    refine exec_job_refused hp hown hal hread (cardOk_of_kind ?_)
    change 5 ≤ fld (BitVec.ofNat 64 (k.number off 8)) 63 60
    rw [fld_ofNat hlt]
    omega
  case others =>
    rintro ⟨⟨hown, hal, hread⟩, hok, hkind, hmis, hroom⟩
    obtain ⟨v, hv, hjobs, -⟩ := exec_job_queued hp hown hal hread hid hok hkind hmis hroom hnet
    exact ⟨v, hv, by rw [hjobs, List.map_append]; rfl⟩
end

section
/-! PROOF. Tiles: rows of 384 bytes, their planes, and a tile's bytes written to a core's memory (R40, R79, R212). -/

namespace Sys2Proof.Machine

open Sys2Proof

/-! ## Rows -/

theorem length_mapRows {f : List Byte → List Byte} (hf : ∀ row, row.length = 384 → (f row).length = 384) {bs : List Byte} {n : Nat}
    (hlen : bs.length = 384 * n) : (mapRows f bs n).length = 384 * n := by
  induction n generalizing bs with
  | zero => rfl
  | succ n ih =>
    have htake : (bs.take 384).length = 384 := by rw [List.length_take]; omega
    have hdrop : (bs.drop 384).length = 384 * n := by rw [List.length_drop]; omega
    rw [mapRows, List.length_append, hf _ htake, ih hdrop]
    omega

/-- A byte of a changed row. -/
theorem getD_mapRows {f : List Byte → List Byte} (hf : ∀ row, row.length = 384 → (f row).length = 384) {bs : List Byte} {n i q : Nat}
    (hlen : bs.length = 384 * n) (hi : i < n) (hq : q < 384) :
    (mapRows f bs n).getD (384 * i + q) 0 = (f ((bs.drop (384 * i)).take 384)).getD q 0 := by
  induction n generalizing bs i with
  | zero => omega
  | succ n ih =>
    have htake : (f (bs.take 384)).length = 384 := hf _ (by rw [List.length_take]; omega)
    have hdrop : (bs.drop 384).length = 384 * n := by rw [List.length_drop]; omega
    rw [mapRows]
    cases i with
    | zero => rw [List.getD_append _ _ _ _ (by omega), Nat.mul_zero, Nat.zero_add, List.drop_zero]
    | succ i =>
      have hsub : 384 * (i + 1) + q - 384 = 384 * i + q := by omega
      rw [List.getD_append_right _ _ _ _ (by omega), htake, hsub, ih hdrop (by omega), List.drop_drop, Nat.add_comm 384,
        ← Nat.mul_succ]

/-- A byte of a row in memory. -/
theorem getD_row (m : Memory) (a : Nat) {n i q : Nat} (hi : i < n) (hq : q < 384) :
    (((m.bytes a (384 * n)).drop (384 * i)).take 384).getD q 0 = m.byte (a + 384 * i + q) := by
  have hin : 384 * i + q < 384 * n := by omega
  rw [Memory.bytes_eq_map, List.getD_eq_getElem?_getD, List.getElem?_take_of_lt hq, List.getElem?_drop, List.getElem?_map,
    List.getElem?_range hin, Nat.add_assoc]
  rfl

/-! ## Planes (R40) -/

/-- A byte from its bits. -/
theorem getLsbD_ofBits (f : Nat → Bool) {b : Nat} (hb : b < 8) :
    (BitVec.ofNat 8 ((List.range 8).map fun i => b2n (f i) * 2 ^ i).sum).getLsbD b = f b := by
  have hsum : ((List.range 8).map fun i => b2n (f i) * 2 ^ i).sum = digitSum 1 (fun i => b2n (f i)) 8 := by
    simp only [digitSum, Nat.one_mul]
  have hlt : ∀ i < 8, b2n (f i) < 2 ^ 1 := fun i _ => by cases f i <;> decide
  have hdigit := digitSum_digit hlt hb
  rw [Nat.one_mul, Nat.pow_one] at hdigit
  rw [hsum, BitVec.getLsbD_ofNat, decide_eq_true hb, Bool.true_and, Nat.testBit_eq_decide_div_mod_eq, hdigit]
  cases f b <;> rfl

/-- A byte from its bits, the most significant first. -/
theorem getLsbD_ofBitsRev (f : Nat → Bool) {b : Nat} (hb : b < 8) :
    (BitVec.ofNat 8 ((List.range 8).map fun k => b2n (f k) * 2 ^ (7 - k)).sum).getLsbD b = f (7 - b) := by
  have hsum : ((List.range 8).map fun k => b2n (f k) * 2 ^ (7 - k)).sum = ((List.range 8).map fun i => b2n (f (7 - i)) * 2 ^ i).sum := by
    simp [List.range, List.range.loop]
    omega
  rw [hsum, getLsbD_ofBits (fun i => f (7 - i)) hb]

theorem length_toPlanes (row : List Byte) : (toPlanes row).length = 384 := by rw [toPlanes, List.length_map, List.length_range]

theorem length_ofPlanes (row : List Byte) : (ofPlanes row).length = 384 := by rw [ofPlanes, List.length_map, List.length_range]

/-- Bit `b` of byte `q` of a row in planes. -/
theorem bit_toPlanes (row : List Byte) {q b : Nat} (hq : q < 384) (hb : b < 8) :
    ((toPlanes row).getD q 0).getLsbD b = (row.getD (8 * (q % 48) + b) 0).getLsbD (7 - q / 48) := by
  rw [toPlanes, List.getD_eq_getElem?_getD, List.getElem?_map, List.getElem?_range hq, Option.map_some, Option.getD_some,
    getLsbD_ofBits (fun b => bit (row.getD (q % 48 * 8 + b) 0) (7 - q / 48)) hb, bit_eq_getLsbD, Nat.mul_comm]

/-- Bit `b` of byte `q` of a row read back from planes. -/
theorem bit_ofPlanes (row : List Byte) {q b : Nat} (hq : q < 384) (hb : b < 8) :
    ((ofPlanes row).getD q 0).getLsbD b = (row.getD (48 * (7 - b) + q / 8) 0).getLsbD (q % 8) := by
  rw [ofPlanes, List.getD_eq_getElem?_getD, List.getElem?_map, List.getElem?_range hq, Option.map_some, Option.getD_some,
    getLsbD_ofBitsRev (fun k => bit (row.getD (48 * k + q / 8) 0) (q % 8)) hb, bit_eq_getLsbD]

/-- Bit `b` of byte `q` of row `i` of the tile at `a`. -/
def tileBit (m : Memory) (a i q b : Nat) : Bool := (m.byte (a + 384 * i + q)).getLsbD b

/-- A tile of memory whose rows go as they are or in planes. -/
theorem bit_mapRows_toPlanes (planes : Bool) (m : Memory) (a : Nat) {n i q b : Nat} (hi : i < n) (hq : q < 384) (hb : b < 8) :
    ((mapRows (if planes then toPlanes else id) (m.bytes a (384 * n)) n).getD (384 * i + q) 0).getLsbD b =
      if planes then tileBit m a i (8 * (q % 48) + b) (7 - q / 48) else tileBit m a i q b := by
  have hlen : (m.bytes a (384 * n)).length = 384 * n := m.length_bytes a _
  cases planes with
  | false => rw [if_neg (by decide), getD_mapRows (f := id) (fun _ h => h) hlen hi hq, id, getD_row m a hi hq]; rfl
  | true =>
    rw [if_pos rfl, getD_mapRows (fun row _ => length_toPlanes row) hlen hi hq, bit_toPlanes _ hq hb, getD_row m a hi (by omega)]
    rfl

/-- A tile of memory whose rows go as they are or back from planes. -/
theorem bit_mapRows_ofPlanes (planes : Bool) (m : Memory) (a : Nat) {n i q b : Nat} (hi : i < n) (hq : q < 384) (hb : b < 8) :
    ((mapRows (if planes then ofPlanes else id) (m.bytes a (384 * n)) n).getD (384 * i + q) 0).getLsbD b =
      if planes then tileBit m a i (48 * (7 - b) + q / 8) (q % 8) else tileBit m a i q b := by
  have hlen : (m.bytes a (384 * n)).length = 384 * n := m.length_bytes a _
  cases planes with
  | false => rw [if_neg (by decide), getD_mapRows (f := id) (fun _ h => h) hlen hi hq, id, getD_row m a hi hq]; rfl
  | true =>
    rw [if_pos rfl, getD_mapRows (fun row _ => length_ofPlanes row) hlen hi hq, bit_ofPlanes _ hq hb, getD_row m a hi (by omega)]
    rfl

/-! ## A tile's bytes written (R79, R212) -/

theorem mem_cellsAt {bs : List Byte} {a i : Nat} (hi : i < bs.length) : (a + i, bs.getD i 0) ∈ cellsAt a bs := by
  induction bs generalizing a i with
  | nil => exact absurd hi (Nat.not_lt_zero i)
  | cons b bs ih =>
    cases i with
    | zero => exact List.mem_cons_self
    | succ i =>
      have h := ih (a := a + 1) (i := i) (Nat.lt_of_succ_lt_succ hi)
      rw [Nat.add_right_comm] at h
      exact List.mem_cons_of_mem _ h

theorem eq_of_mem_cellsAt {bs : List Byte} {a : Nat} {x : Nat × Byte} (h : x ∈ cellsAt a bs) : x.2 = bs.getD (x.1 - a) 0 := by
  induction bs generalizing a with
  | nil => cases h
  | cons b bs ih =>
    rcases List.mem_cons.mp h with rfl | h
    · simp
    · have hb := bounds_of_mem_cellsAt h
      have hsub : x.1 - a = x.1 - (a + 1) + 1 := by omega
      rw [ih h, hsub, List.getD_cons_succ]

/-- A byte that is written, always the same. -/
theorem Memory.byte_foldl_mem {cs : List (Nat × Byte)} {x : Nat} {v : Byte} (h : (x, v) ∈ cs) (hv : ∀ c ∈ cs, c.1 = x → c.2 = v)
    (m : Memory) : (cs.foldl (fun m c => Memory.poke m c.1 c.2) m).byte x = v := by
  induction cs generalizing m with
  | nil => cases h
  | cons c cs ih =>
    rw [List.foldl_cons]
    by_cases hin : ∃ d ∈ cs, d.1 = x
    · obtain ⟨d, hd, rfl⟩ := hin
      obtain rfl := hv d (List.mem_cons_of_mem _ hd) rfl
      exact ih hd (fun e he => hv e (List.mem_cons_of_mem _ he)) _
    · push Not at hin
      rcases List.mem_cons.mp h with rfl | h
      · rw [Memory.byte_foldl_other _ _ _ hin, Memory.byte_poke, if_pos rfl]
      · exact absurd rfl (hin _ h)

/-- Writing the cells of one kind and then those of the other writes them all. -/
theorem Core.byte_poke_store (k : Core) (p : Nat × Byte → Bool) {a i : Nat} {bs : List Byte} (hi : i < bs.length) :
    ((k.poke ((cellsAt a bs).filter p)).store ((cellsAt a bs).filter fun c => !p c)).mem.byte (a + i) = bs.getD i 0 := by
  have hv {c : Nat × Byte} (hc : c ∈ cellsAt a bs) (hx : c.1 = a + i) : c.2 = bs.getD i 0 := by
    rw [eq_of_mem_cellsAt hc, hx, Nat.add_sub_cancel_left]
  have hmem := mem_cellsAt (a := a) hi
  rw [Core.mem_store]
  by_cases hp : p (a + i, bs.getD i 0) = true
  · have hother : ∀ c ∈ (cellsAt a bs).filter fun c => !p c, c.1 ≠ a + i := by
      intro c hc hx
      obtain ⟨hc, hnp⟩ := List.mem_filter.mp hc
      rw [show c = (a + i, bs.getD i 0) from Prod.ext hx (hv hc hx), hp] at hnp
      cases hnp
    exact (Memory.byte_foldl_other _ _ _ hother).trans (Memory.byte_foldl_mem (List.mem_filter.mpr ⟨hmem, hp⟩)
      (fun c hc hx => hv (List.mem_of_mem_filter hc) hx) _)
  · exact Memory.byte_foldl_mem (List.mem_filter.mpr ⟨hmem, by simpa using hp⟩) (fun c hc hx => hv (List.mem_of_mem_filter hc) hx) _

end Sys2Proof.Machine
end

section
/-! PROOF. Stage programs at their turn: completion and stalls, the card, and the tile forms run (R208, R210, R212). -/

namespace Sys2Proof.Machine

open Sys2Proof

/-! ## Stage program units -/

theorem Mach.unit_modUnit (m : Mach) (h p : Nat) (f : StageUnit → StageUnit) : (m.modUnit h p f).unit h p = f (m.unit h p) := by
  rw [Mach.unit, Mach.modUnit, Mach.hand_modHand, if_pos rfl, Map.get_set, if_pos rfl]
  rfl

theorem Mach.me_of_stage {m : Mach} {h p : Nat} (hm : m.cur = .stage h p) : m.me = (m.unit h p).ts := by rw [Mach.me, hm]; rfl

section
variable {s : State} {h p : Nat} (hcur : s.mach.cur = .stage h p)
include hcur

/-- Completion of a stage program's instruction. -/
theorem State.unit_after (m : Mach) : (s.after m).mach.unit h p = { m.unit h p with ts := (m.unit h p).ts.advance m.npc m.clk } := by
  simp only [State.after, Mach.complete, hcur, Mach.unit_modUnit]

theorem State.core_after_stage (m : Mach) (c : Nat) : (s.after m).mach.core c = m.core c := by
  simp only [State.after, Mach.complete, hcur]
  rfl

variable (hh : h < 512) (hp : p < 16)
include hh hp

/-- What issuing does for a stage program, whatever its effect ends in (R307). -/
theorem issue_stage (sem : Act Unit) : issue sem s = lift s (conclude s.mach s.mach.cur (sem.run s.mach)) := by
  have hexists : (Agent.stage h p).exists = true := by simp [Agent.exists, hh, hp]
  simp only [issue, issueMach, hcur, hexists, if_true, Mach.unhold]

theorem issue_stage_ok {sem : Act Unit} {m : Mach} (hr : sem.run s.mach = .ok () m) : issue sem s = .next (s.after m) := by
  rw [issue_stage hcur hh hp, hr]; rfl

theorem issue_stage_waitKeep {sem : Act Unit} {k : WaitKind} {m : Mach} (hr : sem.run s.mach = .error (.waitKeep k) m) :
    issue sem s = .next { s with mach := m.stall s.mach.cur k } := by
  rw [issue_stage hcur hh hp, hr]; rfl

end

/-! ## Tiles, run -/

/-- The program whose card is `r` names a tile of `n` rows at `loc` in its card's range and at `scr` in its scratch area (R212). -/
structure StageRun.Tile (r : StageRun) (o n loc scr : Nat) : Prop where
  rows : 1 ≤ n ∧ n ≤ 16
  layout : o = n ∨ o = n + 256
  within : r.dst.toNat ≤ loc ∧ loc + 384 * n ≤ r.dst.toNat + r.len.toNat
  aligned : loc % 16 = 0
  scratch : scr + 384 * n ≤ 0x4000 ∧ scr % 16 = 0

/-- The machine once a transfer of `n` rows by the program of partition `p` at stagehand `h` has begun to hold it. -/
def Mach.transferred (m : Mach) (h p core n : Nat) : Mach :=
  m.modUnit h p fun u => { u with ts := { u.ts with notBefore := m.clk + 4 + hops (handBase + h) core + 6 * n } }

section
variable {m : Mach} {h p : Nat} {r : StageRun} (hcur : m.cur = .stage h p) (hcard : (m.unit h p).cards.head? = some r)

include hcur hcard in
theorem stageCard_run : stageCard.run m = .ok (h, p, r) m := by
  obtain ⟨rest, hcards⟩ : ∃ rest, (m.unit h p).cards = r :: rest := by
    cases hl : (m.unit h p).cards with
    | nil => rw [hl] at hcard; cases hcard
    | cons x xs => rw [hl] at hcard; exact ⟨xs, by rw [Option.some.inj hcard]⟩
  rw [stageCard, run_bind_ok (EStateM.run_get m)]
  simp only [hcur, hcards]
  rfl

/-- The checks of a tile pass, and tell its rows and its layout. -/
theorem tileArgs_run {loc scr o : Word} {n : Nat} (ht : r.Tile o.toNat n loc.toNat scr.toNat) :
    (tileArgs r loc scr o).run m = .ok (n, !decide (o.toNat = n)) m := by
  obtain ⟨⟨hlo, hhi⟩, hlayout, ⟨hdst, hend⟩, hal, hfit, hscr⟩ := ht
  have hn : fld o 4 0 = n := by unfold fld; omega
  have hz : fld o 7 5 = 0 ∧ fld o 63 9 = 0 := by unfold fld; omega
  have hbit : bit o 8 = !decide (o.toNat = n) := by
    rcases hlayout with ho | ho
    · rw [decide_eq_true ho, bit, show fld o 8 8 = 0 by unfold fld; omega]
      rfl
    · rw [decide_eq_false (by omega), bit, show fld o 8 8 = 1 by unfold fld; omega]
      rfl
  have hloc : fld loc 3 0 = 0 := by unfold fld; omega
  have hscr : fld scr 3 0 = 0 := by unfold fld; omega
  simp [tileArgs, hn, hz, hbit, hloc, hscr, hlo, hhi, hdst, hend, hfit, EStateM.run_bind]

/-- Bytes of the scratch area that can be read. -/
theorem scratchRead_run {a n : Nat} (hgood : (m.unit h p).badRead a n = false) (ea : Word) :
    (scratchRead h p a n ea).run m = .ok ((m.unit h p).scratch.bytes a n) m := by
  rw [scratchRead, run_bind_ok (EStateM.run_get m), run_bind_ok (require_passes (by rw [hgood]; rfl) _ m)]
  rfl

/-- The unit with bytes written into its scratch area. -/
def StageUnit.written (u : StageUnit) (a : Nat) (bs : List Byte) : StageUnit :=
  { u with scratch := Memory.pokes u.scratch a bs, badScratch := u.badScratch.filter fun w => !meets a bs.length (64 * w) (64 * w + 64) }

theorem scratchWrite_run {a : Nat} {bs : List Byte} (hgood : (m.unit h p).badWrite a bs.length = false) (ea : Word) :
    (scratchWrite h p a bs ea).run m = .ok () (m.modUnit h p (·.written a bs)) := by
  rw [scratchWrite, run_bind_ok (EStateM.run_get m), run_bind_ok (require_passes (by rw [hgood]; rfl) _ m)]
  rfl

variable (hub : m.me.anyBound = false) (hre : m.me.regErr = []) {a : Args} {n : Nat}
include hcur hcard hub hre

/-- `tile.put` of a tile outside protected areas writes its rows (R212). -/
theorem semTilePut_run (ht : r.Tile (m.me.xreg a.t).toNat n (m.me.xreg a.d).toNat (m.me.xreg a.s).toNat)
    (hheld : m.heldRange r.core (m.me.xreg a.d).toNat (384 * n) = false)
    (hgood : (m.unit h p).badRead (m.me.xreg a.s).toNat (384 * n) = false)
    (hfree : ∀ i < 384 * n, (m.core r.core).inQueueArea ((m.me.xreg a.d).toNat + i) = false ∧
      (m.core r.core).headerOf ((m.me.xreg a.d).toNat + i) = none) :
    (semTilePut a).run m = .ok () ((m.tileStore r (cellsAt (m.me.xreg a.d).toNat
      (mapRows (if !decide ((m.me.xreg a.t).toNat = n) then toPlanes else id)
        ((m.unit h p).scratch.bytes (m.me.xreg a.s).toNat (384 * n)) n))).transferred h p r.core n) := by
  have hlen : (mapRows (if !decide ((m.me.xreg a.t).toNat = n) then toPlanes else id)
      ((m.unit h p).scratch.bytes (m.me.xreg a.s).toNat (384 * n)) n).length = 384 * n := by
    refine length_mapRows (fun row hrow => ?_) (Memory.length_bytes _ _ _)
    split
    · exact length_toPlanes row
    · exact hrow
  rw [semTilePut, run_bind_ok (stageCard_run hcur hcard), run_bind_ok (readX_run hub hre _), run_bind_ok (readX_run hub hre _),
    run_bind_ok (readX_run hub hre _), run_bind_ok (tileArgs_run ht), run_bind_ok (EStateM.run_get m),
    run_bind_ok (stallUntil_passes (by rw [hheld]; rfl) _ m), run_bind_ok (scratchRead_run hgood _)]
  generalize mapRows _ _ n = bs at hlen ⊢
  have hprot : (m.core r.core).protectedCells (cellsAt (m.me.xreg a.d).toNat bs) = none := by
    have hcell {x : Nat × Byte} (hx : x ∈ cellsAt (m.me.xreg a.d).toNat bs) :
        (m.core r.core).inQueueArea x.1 = false ∧ (m.core r.core).headerOf x.1 = none := by
      have hb := bounds_of_mem_cellsAt hx
      have h := hfree (x.1 - (m.me.xreg a.d).toNat) (by omega)
      rwa [show (m.me.xreg a.d).toNat + (x.1 - (m.me.xreg a.d).toNat) = x.1 by omega] at h
    rw [Core.protectedCells, List.find?_eq_none.mpr fun x hx => by simp [(hcell hx).1],
      List.findSome?_eq_none_iff.mpr fun x hx => (hcell hx).2]
  simp only [hprot]
  rfl

/-- `tile.get` of a tile that can be read and written writes its rows into the scratch area (R212). -/
theorem semTileGet_run (ht : r.Tile (m.me.xreg a.t).toNat n (m.me.xreg a.s).toNat (m.me.xreg a.d).toNat)
    (hread : (m.core r.core).badRead (m.me.xreg a.s).toNat (384 * n) = none)
    (hgood : (m.unit h p).badWrite (m.me.xreg a.d).toNat (384 * n) = false) :
    (semTileGet a).run m = .ok () (((m.modCore r.core (·.correct (m.me.xreg a.s).toNat (384 * n))).modUnit h p
      (·.written (m.me.xreg a.d).toNat (mapRows (if !decide ((m.me.xreg a.t).toNat = n) then ofPlanes else id)
        ((m.core r.core).mem.bytes (m.me.xreg a.s).toNat (384 * n)) n))).transferred h p r.core n) := by
  have hlen : (mapRows (if !decide ((m.me.xreg a.t).toNat = n) then ofPlanes else id)
      ((m.core r.core).mem.bytes (m.me.xreg a.s).toNat (384 * n)) n).length = 384 * n := by
    refine length_mapRows (fun row hrow => ?_) (Memory.length_bytes _ _ _)
    split
    · exact length_ofPlanes row
    · exact hrow
  have hecc : (eccRead r.core (m.me.xreg a.s).toNat (384 * n) (m.me.xreg a.s)).run m =
      .ok () (m.modCore r.core (·.correct (m.me.xreg a.s).toNat (384 * n))) := by
    rw [eccRead, run_bind_ok (EStateM.run_get m), hread]
    rfl
  have hmem : ((m.modCore r.core (·.correct (m.me.xreg a.s).toNat (384 * n))).core r.core).mem = (m.core r.core).mem := by
    rw [Mach.core_modCore, if_pos rfl, (Core.correct_rest _ _ _).2.2]
  rw [semTileGet, run_bind_ok (stageCard_run hcur hcard), run_bind_ok (readX_run hub hre _), run_bind_ok (readX_run hub hre _),
    run_bind_ok (readX_run hub hre _), run_bind_ok (tileArgs_run ht), run_bind_ok hecc, run_bind_ok (EStateM.run_get _)]
  dsimp only
  rw [hmem]
  exact run_bind_ok (scratchWrite_run (by rw [hlen]; exact hgood) _)

end

end Sys2Proof.Machine
end

section
/-! PROOF. What a stagehand's service of requests leaves of stage program units: the request that each waits for, and where its program
stands (R110, R116, R204, R210, R299). -/

namespace Sys2Proof.Machine

open Sys2Proof

/-- Every stage program unit waits for the same request in `m'` as in `m`, at the same instruction. -/
def Mach.UnitsStand (m m' : Mach) : Prop := ∀ s p, (m'.unit s p).move = (m.unit s p).move ∧ (m'.unit s p).ts.pc = (m.unit s p).ts.pc

namespace Mach.UnitsStand

theorem refl (m : Mach) : m.UnitsStand m := fun _ _ => ⟨rfl, rfl⟩

theorem trans {m m' m'' : Mach} (h : m.UnitsStand m') (h' : m'.UnitsStand m'') : m.UnitsStand m'' :=
  fun s p => ⟨(h' s p).1.trans (h s p).1, (h' s p).2.trans (h s p).2⟩

theorem of_hands {m m' : Mach} (h : m'.hands = m.hands) : m.UnitsStand m' := fun s p => by simp only [Mach.unit, Mach.hand, h, and_self]

theorem modHand (m : Mach) (s : Nat) {f : Stagehand → Stagehand} (hf : ∀ h, (f h).units = h.units) : m.UnitsStand (m.modHand s f) :=
  fun r p => by
    rw [Mach.unit, Mach.hand_modHand]
    split
    · next h => rw [hf, h]; exact ⟨rfl, rfl⟩
    · exact ⟨rfl, rfl⟩

theorem modUnit (m : Mach) (s p : Nat) {f : StageUnit → StageUnit} (hf : ∀ u, (f u).move = u.move ∧ (f u).ts.pc = u.ts.pc) :
    m.UnitsStand (m.modUnit s p f) := fun r q => by
  rw [Mach.unit, Mach.modUnit, Mach.hand_modHand]
  split
  · next h =>
    subst h
    rw [Map.get_set]
    split
    · next h => rw [h]; exact hf _
    · exact ⟨rfl, rfl⟩
  · exact ⟨rfl, rfl⟩

theorem runtimeEvent (m : Mach) (q : Nat) (r : FaultRec) (ts : Option Nat) : m.UnitsStand (m.runtimeEvent q r ts) := by
  unfold Mach.runtimeEvent
  split
  · exact of_hands rfl
  · exact refl m

theorem postHand (m : Mach) (s dst part : Nat) (body : Payload) (delay : Nat) : m.UnitsStand (m.postHand s dst part body delay) := by
  unfold Mach.postHand
  dsimp only
  split
  · exact of_hands rfl
  · exact of_hands (Mach.carried_carry _ _ _).hands

theorem send (m : Mach) (r : Reply) : m.UnitsStand (m.send r) := by
  unfold Mach.send
  split
  · exact of_hands rfl
  · exact of_hands rfl

/-- A failed exchange takes requests from every stagehand (R341). -/
theorem endRdma (m : Mach) (r : Rdma) : m.UnitsStand (m.endRdma r) := by
  unfold Mach.endRdma
  extract_lets m'
  have h : m.UnitsStand m' := (of_hands rfl : m.UnitsStand { m with rdma := m.rdma.filter (·.xid != r.xid) }).trans (send _ _)
  split
  · refine h.trans fun s p => ?_
    have hhand := Map.get_map m'.hands (fun _ h => { h with requests := h.requests.filter fun v => !v.ofRdma r.xid }) {} s rfl
    simp only [Mach.unit, Mach.hand, hhand, and_self]
  · exact h

theorem modRdma (m : Mach) (x : Nat) (f : Rdma → Rdma) : m.UnitsStand (m.modRdma x f) := by
  unfold Mach.modRdma
  split
  · exact refl m
  · dsimp only
    split
    · exact endRdma m _
    · exact of_hands rfl

theorem putMove (m : Mach) (s : Nat) (v : Move) : m.UnitsStand (m.putMove s v) := modHand m s fun _ => rfl

theorem giveMove (m : Mach) (s : Nat) (v : Move) (bs : List Byte) (delay : Nat) : m.UnitsStand (m.giveMove s v bs delay) := by
  unfold Mach.giveMove
  split
  · exact modRdma m _ _
  · exact modRdma m _ _
  · exact modUnit m _ _ fun _ => ⟨rfl, rfl⟩
  · split
    · exact postHand m _ _ _ _ _
    · exact refl m

theorem failMove (m : Mach) (s : Nat) (v : Move) (cause : Nat) : m.UnitsStand (m.failMove s v cause) := by
  unfold Mach.failMove
  extract_lets m'
  have h : m.UnitsStand m' := putMove m s _
  split
  · exact h.trans (modRdma m' _ _)
  · exact h.trans (modRdma m' _ _)
  · exact h.trans (modUnit m' _ _ fun _ => ⟨rfl, rfl⟩)
  · split
    · exact h.trans (postHand m' _ _ _ _ _)
    · exact h

theorem moveMisses (m : Mach) (s : Nat) (v : Move) : m.UnitsStand (m.moveMisses s v) := by
  unfold Mach.moveMisses
  split
  · exact refl m
  · exact (putMove m s _).trans (runtimeEvent _ _ _ _)

theorem use (m : Mach) (s q c : Nat) : m.UnitsStand (m.use s q c) :=
  (modHand m s (f := fun h => { h with used := if c = 0 then h.used else Map.set h.used q (Map.get h.used 0 q + c) }) fun _ => rfl).trans
    (of_hands rfl)

theorem translate (m : Mach) (sh q w l : Nat) : m.UnitsStand (m.translate sh q w l).2 := by
  unfold Mach.translate
  dsimp only
  split
  · exact modHand m sh fun _ => rfl
  · split
    · exact modHand m sh fun _ => rfl
    · exact refl m
    · exact refl m

/-- A piece whose bytes have moved: its request is answered or goes on to its next piece. -/
theorem pieceMoved {m m' : Mach} (h : m.UnitsStand m') (s : Nat) (v v' : Move) (bs : List Byte) :
    m.UnitsStand ((m'.giveMove s v bs 0).putMove s v') :=
  h.trans ((giveMove m' s v bs 0).trans (putMove _ s v'))

theorem pieceFailed (m : Mach) (s q c : Nat) (v : Move) (cause : Nat) : m.UnitsStand ((m.use s q c).failMove s v cause) :=
  (use m s q c).trans (failMove _ s v cause)

/-- One piece of a request, served from its block on stage (R299). -/
theorem pieceStage (m : Mach) (s : Nat) (v : Move) (b : Blk) : m.UnitsStand (m.pieceStage s v b) := by
  unfold Mach.pieceStage
  extract_lets n o walk
  have hwalk := translate m s v.part v.win v.off
  split
  · generalize m.translate s v.part v.win v.off = tr at hwalk
    refine hwalk.trans ?_
    split
    · exact (use _ s v.part _).trans (moveMisses _ s v)
    · exact pieceFailed _ s v.part walk v _
    · exact pieceFailed _ s v.part walk v _
    · next m₁ =>
      extract_lets m₂ m₃
      have hused : m₁.UnitsStand m₂ := use m₁ s v.part walk
      have hwritten : m₂.UnitsStand m₃ := modHand m₂ s (f := fun h => h.modDir v.part b.blk (·.write o (v.bytes n))) fun _ => rfl
      split
      · exact hused.trans (failMove m₂ s v _)
      · exact pieceMoved (hused.trans hwritten) s v _ _
  · split
    · exact pieceFailed m s v.part 0 v _
    · exact pieceMoved (use m s v.part 0) s v _ _

theorem serveMove (m : Mach) (s id n : Nat) : m.UnitsStand (m.serveMove s id n) := by
  induction n generalizing m with
  | zero => exact refl m
  | succ n ih =>
    rw [Mach.serveMove]
    split
    · exact refl m
    · split
      · exact refl m
      · split
        · exact refl m
        · exact (pieceStage m s _ _).trans (ih _)

theorem serveMoves (m : Mach) (s : Nat) : m.UnitsStand (m.serveMoves s) := by
  unfold Mach.serveMoves
  generalize (m.hand s).requests.map (·.id) = ids
  induction ids generalizing m with
  | nil => exact refl m
  | cons id ids ih => exact (serveMove m s id 40).trans (ih _)

theorem enqueueMove (m : Mach) (s : Nat) (v : Move) : m.UnitsStand (m.enqueueMove s v) :=
  (modHand m s (f := fun h => { h with requests := h.requests ++ [v] }) fun _ => rfl).trans (serveMoves _ s)

end Mach.UnitsStand

end Sys2Proof.Machine
end

section
/-! PROOF. `sfill` and `sdrain`: their checks, the request asked and the end taken, and the forms of a stage program (R84, R113, R210 to
R212). -/

namespace Sys2Proof.Machine

open Sys2Proof

/-- The range of `len` bytes at far address `far` lies in one window, at stagehand `h`, and the scratch area holds as many at `scr` (R211). -/
structure Partition.Fills (p : Partition) (h far scr len : Nat) (q : FarPart) : Prop where
  space : far / 2 ^ 62 = 1
  far_aligned : far % 16 = 0
  scr_aligned : scr % 16 = 0
  units : len % 16 = 0
  size : 16 ≤ len ∧ len ≤ 16384
  fits : scr + len ≤ 0x4000
  parts : p.parts 20 (far % 2 ^ 60) len = some [q]
  hand : q.hand = h

section
variable {m : Mach} {h p : Nat} {r : StageRun} {q : FarPart}

theorem fillArgs_run {far scr n : Word} (hf : (m.part p).Fills h far.toNat scr.toNat n.toNat q) :
    (fillArgs h p far scr n).run m = .ok (q.win, q.hand, q.off) m := by
  obtain ⟨hspace, hfar, hscr, hunits, ⟨hlo, hhi⟩, hfit, hparts, hhand⟩ := hf
  have hisFar : isFar far = true := by rw [isFar, show fld far 63 62 = 1 by unfold fld; omega]; rfl
  have hn0 : fld n 3 0 = 0 := by unfold fld; omega
  have hfar0 : fld far 3 0 = 0 := by unfold fld; omega
  have hscr0 : fld scr 3 0 = 0 := by unfold fld; omega
  have hoff : fld far 59 0 = far.toNat % 2 ^ 60 := by simp [fld]
  rw [fillArgs, run_bind_ok (require_passes (by simp [hn0, hlo, hhi]) _ m), run_bind_ok (require_passes (by rw [hfar0]; rfl) _ m),
    run_bind_ok (require_passes (by rw [hscr0]; rfl) _ m), run_bind_ok (require_passes (decide_eq_true hfit) _ m),
    run_bind_ok (require_passes hisFar _ m), run_bind_ok (EStateM.run_get m), hoff, hparts]
  exact run_bind_ok (require_passes (by simp [hhand]) _ m)

/-- A move of a stage program that has none under way is asked, and the program waits (R210). -/
theorem stageMove_asks (hmove : (m.unit h p).move = none) (hroom : (m.hand h).queued < 256) (far : Word) (n : Nat) (q : Nat × Nat × Nat)
    (data : Option (List Byte)) : ∃ m', (stageMove m h p far n q data).run m = .error (.waitKeep .other) m' ∧
      (m'.unit h p).move = some m.nextId ∧ (m'.unit h p).ts.pc = (m.unit h p).ts.pc := by
  have hroom : m.handRoom h = true := decide_eq_true hroom
  obtain ⟨hkept, hpc⟩ := Mach.UnitsStand.enqueueMove (({ m with nextId := m.nextId + 1 } : Mach).modUnit h p fun u =>
    { u with move := some m.nextId, answer := none }) h
    { id := m.nextId, part := p, kind := .stage p data, addr := far, win := q.1, off := q.2.2, len := n } h p
  rw [Mach.unit_modUnit] at hkept hpc
  refine ⟨_, ?_, hkept, hpc⟩
  simp only [stageMove, hmove]
  rw [run_bind_ok (stallUntil_passes hroom _ m)]
  rfl

/-- The end of a served move is taken (R210). -/
theorem stageMove_ends {id : Nat} {bs : List Byte} (hmove : (m.unit h p).move = some id) (hans : (m.unit h p).answer = some (.served bs))
    (hdone : (m.hand h).requests.any (·.id == id) = false) (far : Word) (n : Nat) (q : Nat × Nat × Nat) (data : Option (List Byte)) :
    (stageMove m h p far n q data).run m = .ok bs (m.modUnit h p fun u => { u with move := none, answer := none }) := by
  simp only [stageMove, hmove, hans]
  rw [run_bind_ok (stallUntil_passes (by rw [hdone]; rfl) _ m)]
  rfl

variable (hcur : m.cur = .stage h p) (hcard : (m.unit h p).cards.head? = some r) (hub : m.me.anyBound = false) (hre : m.me.regErr = [])
  {a : Args}
include hcur hcard hub hre

theorem semSfill_move (hf : (m.part p).Fills h (m.me.xreg a.s).toNat (m.me.xreg a.d).toNat (m.me.xreg a.t).toNat q)
    (hgood : (m.unit h p).badWrite (m.me.xreg a.d).toNat (m.me.xreg a.t).toNat = false) : (semSfill a).run m =
      (stageMove m h p (m.me.xreg a.s) (m.me.xreg a.t).toNat (q.win, q.hand, q.off) none >>= fun bs =>
        scratchWrite h p (m.me.xreg a.d).toNat bs (m.me.xreg a.d)).run m := by
  rw [semSfill, run_bind_ok (EStateM.run_get m), run_bind_ok (stageCard_run hcur hcard), run_bind_ok (readX_run hub hre _),
    run_bind_ok (readX_run hub hre _), run_bind_ok (readX_run hub hre _), run_bind_ok (fillArgs_run hf),
    run_bind_ok (require_passes (by rw [hgood]; rfl) _ m)]

theorem semSdrain_move (hf : (m.part p).Fills h (m.me.xreg a.d).toNat (m.me.xreg a.s).toNat (m.me.xreg a.t).toNat q)
    (hgood : (m.unit h p).badRead (m.me.xreg a.s).toNat (m.me.xreg a.t).toNat = false)
    (hclear : (m.part p).inFarHeader (m.me.xreg a.d) (m.me.xreg a.t).toNat = false) : (semSdrain a).run m =
      (stageMove m h p (m.me.xreg a.d) (m.me.xreg a.t).toNat (q.win, q.hand, q.off)
        (some ((m.unit h p).scratch.bytes (m.me.xreg a.s).toNat (m.me.xreg a.t).toNat)) >>= fun _ => pure ()).run m := by
  have hguard : (headerGuard (m.me.xreg a.d) (m.me.xreg a.t).toNat true).run m = .ok () m := by
    have hpart : m.myPart = p := by simp only [Mach.myPart, hcur]
    rw [headerGuard, run_bind_ok (EStateM.run_get m), hpart]
    exact require_passes (by rw [hclear]; rfl) _ m
  rw [semSdrain, run_bind_ok (EStateM.run_get m), run_bind_ok (stageCard_run hcur hcard), run_bind_ok (readX_run hub hre _),
    run_bind_ok (readX_run hub hre _), run_bind_ok (readX_run hub hre _), run_bind_ok (fillArgs_run hf), run_bind_ok hguard,
    run_bind_ok (scratchRead_run hgood _)]

end

end Sys2Proof.Machine
end

section
/-! PROOF. The forms of a stage program at their turn: where the program stands after each, the bytes that a tile form or `sfill` leaves,
and the request of `sfill` and `sdrain` (R210 to R212). -/

namespace Sys2Proof.Machine

open Sys2Proof

/-- The machine after a tile's cells are written: the core's bytes. -/
theorem Mach.byte_tileStore (m : Mach) (r : StageRun) {a i : Nat} {bs : List Byte} (hi : i < bs.length) :
    ((m.tileStore r (cellsAt a bs)).core r.core).mem.byte (a + i) = bs.getD i 0 := by
  rw [Mach.tileStore, Mach.modJob, Mach.core_modCore_same, Mach.core_modCore_same]
  exact Core.byte_poke_store _ _ hi

/-- A range that the instruction of `h`'s program may ask for, as the statement decides it. -/
theorem Partition.fills_of_decide {q : Partition} {h far scr len : Nat}
    (hgone : (decide (far / 2 ^ 62 = 1 ∧ far % 16 = 0 ∧ scr % 16 = 0 ∧ len % 16 = 0 ∧ 16 ≤ len ∧ len ≤ 16384 ∧ scr + len ≤ 0x4000) &&
      (match q.parts 20 (far % 2 ^ 60) len with
       | some [x] => x.hand == h
       | _ => false)) = true) : ∃ x, q.Fills h far scr len x := by
  obtain ⟨hargs, hparts⟩ := Bool.and_eq_true_iff.mp hgone
  obtain ⟨hspace, hfar, hscr, hunits, hlo, hhi, hfit⟩ := of_decide_eq_true hargs
  split at hparts
  · next x hx => exact ⟨x, hspace, hfar, hscr, hunits, ⟨hlo, hhi⟩, hfit, hx, beq_iff_eq.mp hparts⟩
  · cases hparts

section
variable {s : State} {h p : Nat} {r : StageRun} {a : Args} (hh : h < 512) (hp : p < 16) (hcur : s.mach.cur = .stage h p)
  (hcard : (s.mach.unit h p).cards.head? = some r) (hre : s.mach.me.regErr = []) (hub : s.mach.me.anyBound = false)
include hh hp hcur hcard hre hub

/-- `tile.put` completes with the tile's rows in the core's memory. -/
theorem exec_tilePut_next {n : Nat} (ht : r.Tile (s.mach.me.xreg a.t).toNat n (s.mach.me.xreg a.d).toNat (s.mach.me.xreg a.s).toNat)
    (hheld : s.mach.heldRange r.core (s.mach.me.xreg a.d).toNat (384 * n) = false)
    (hgood : (s.mach.unit h p).badRead (s.mach.me.xreg a.s).toNat (384 * n) = false)
    (hfree : ∀ i < 384 * n, (s.mach.core r.core).inQueueArea ((s.mach.me.xreg a.d).toNat + i) = false ∧
      (s.mach.core r.core).headerOf ((s.mach.me.xreg a.d).toNat + i) = none) :
    ∃ v, exec (.tilePut a) s = .next v ∧ (v.mach.unit h p).scratch = (s.mach.unit h p).scratch ∧ (v.mach.unit h p).ts.pc = s.mach.npc ∧
      ∀ i < n, ∀ q < 384, ∀ b < 8, tileBit (v.mach.core r.core).mem (s.mach.me.xreg a.d).toNat i q b =
        if (s.mach.me.xreg a.t).toNat = n then tileBit (s.mach.unit h p).scratch (s.mach.me.xreg a.s).toNat i q b
        else tileBit (s.mach.unit h p).scratch (s.mach.me.xreg a.s).toNat i (8 * (q % 48) + b) (7 - q / 48) := by
  refine ⟨_, issue_stage_ok hcur hh hp (semTilePut_run hcur hcard hub hre ht hheld hgood hfree), ?_, ?_, fun i hi q hq b hb => ?_⟩
  · rw [State.unit_after hcur, Mach.transferred, Mach.unit_modUnit]
    rfl
  · rw [State.unit_after hcur]
    rfl
  · have hbit := bit_mapRows_toPlanes (!decide ((s.mach.me.xreg a.t).toNat = n)) (s.mach.unit h p).scratch (s.mach.me.xreg a.s).toNat
      hi hq hb
    have hlen := length_mapRows (f := if !decide ((s.mach.me.xreg a.t).toNat = n) then toPlanes else id)
      (fun row hrow => by split; exacts [length_toPlanes row, hrow])
      (Memory.length_bytes (s.mach.unit h p).scratch (s.mach.me.xreg a.s).toNat (384 * n))
    generalize mapRows _ _ n = bs at hbit hlen ⊢
    rw [State.core_after_stage hcur, tileBit, Nat.add_assoc]
    refine (congrArg (·.getLsbD b) (s.mach.byte_tileStore r (by omega))).trans (hbit.trans ?_)
    by_cases ho : (s.mach.me.xreg a.t).toNat = n <;> simp [ho]

/-- `tile.get` completes with the tile's rows in the scratch area. -/
theorem exec_tileGet_next {n : Nat} (ht : r.Tile (s.mach.me.xreg a.t).toNat n (s.mach.me.xreg a.s).toNat (s.mach.me.xreg a.d).toNat)
    (hread : (s.mach.core r.core).badRead (s.mach.me.xreg a.s).toNat (384 * n) = none)
    (hgood : (s.mach.unit h p).badWrite (s.mach.me.xreg a.d).toNat (384 * n) = false) :
    ∃ v, exec (.tileGet a) s = .next v ∧ (v.mach.core r.core).mem = (s.mach.core r.core).mem ∧ (v.mach.unit h p).ts.pc = s.mach.npc ∧
      ∀ i < n, ∀ q < 384, ∀ b < 8, tileBit (v.mach.unit h p).scratch (s.mach.me.xreg a.d).toNat i q b =
        if (s.mach.me.xreg a.t).toNat = n then tileBit (s.mach.core r.core).mem (s.mach.me.xreg a.s).toNat i q b
        else tileBit (s.mach.core r.core).mem (s.mach.me.xreg a.s).toNat i (48 * (7 - b) + q / 8) (q % 8) := by
  refine ⟨_, issue_stage_ok hcur hh hp (semTileGet_run hcur hcard hub hre ht hread hgood), ?_, ?_, fun i hi q hq b hb => ?_⟩
  · rw [State.core_after_stage hcur]
    exact (congrArg Core.mem (s.mach.core_modCore_same r.core (·.correct (s.mach.me.xreg a.s).toNat (384 * n)))).trans
      (Core.correct_rest _ _ _).2.2
  · rw [State.unit_after hcur]
    rfl
  · have hbit := bit_mapRows_ofPlanes (!decide ((s.mach.me.xreg a.t).toNat = n)) (s.mach.core r.core).mem (s.mach.me.xreg a.s).toNat
      hi hq hb
    have hlen := length_mapRows (f := if !decide ((s.mach.me.xreg a.t).toNat = n) then ofPlanes else id)
      (fun row hrow => by split; exacts [length_ofPlanes row, hrow])
      (Memory.length_bytes (s.mach.core r.core).mem (s.mach.me.xreg a.s).toNat (384 * n))
    generalize mapRows _ _ n = bs at hbit hlen ⊢
    have hin : 384 * i + q < 384 * n := by omega
    rw [State.unit_after hcur, Mach.transferred, Mach.unit_modUnit, Mach.unit_modUnit]
    refine Eq.trans ?_ (hbit.trans ?_)
    · simp only [StageUnit.written, tileBit, Nat.add_assoc, Memory.byte_pokes, hlen]
      rw [if_pos (by omega), Nat.add_sub_cancel_left]
    · by_cases ho : (s.mach.me.xreg a.t).toNat = n <;> simp [ho]

/-- `sfill` whose request was served completes with the bytes in the scratch area. -/
theorem exec_sfill_ends {q : FarPart} {id : Nat} {bs : List Byte}
    (hf : (s.mach.part p).Fills h (s.mach.me.xreg a.s).toNat (s.mach.me.xreg a.d).toNat (s.mach.me.xreg a.t).toNat q)
    (hgood : (s.mach.unit h p).badWrite (s.mach.me.xreg a.d).toNat (s.mach.me.xreg a.t).toNat = false)
    (hmove : (s.mach.unit h p).move = some id) (hans : (s.mach.unit h p).answer = some (.served bs))
    (hdone : (s.mach.hand h).requests.any (·.id == id) = false) (hlen : bs.length = (s.mach.me.xreg a.t).toNat) :
    ∃ v, exec (.sfill a) s = .next v ∧ (v.mach.unit h p).move = none ∧ (v.mach.unit h p).ts.pc = s.mach.npc ∧
      (v.mach.unit h p).scratch = Memory.pokes (s.mach.unit h p).scratch (s.mach.me.xreg a.d).toNat bs := by
  have hrun := (semSfill_move (a := a) hcur hcard hub hre hf hgood).trans ((run_bind_ok (stageMove_ends hmove hans hdone _ _ _ _)).trans
    (scratchWrite_run (by rw [Mach.unit_modUnit, hlen]; exact hgood) _))
  refine ⟨_, issue_stage_ok hcur hh hp hrun, ?_, ?_, ?_⟩ <;> rw [State.unit_after hcur] <;>
    simp only [Mach.unit_modUnit, StageUnit.written]
  rfl

/-- `sdrain` whose request was served completes. -/
theorem exec_sdrain_ends {q : FarPart} {id : Nat} {bs : List Byte}
    (hf : (s.mach.part p).Fills h (s.mach.me.xreg a.d).toNat (s.mach.me.xreg a.s).toNat (s.mach.me.xreg a.t).toNat q)
    (hgood : (s.mach.unit h p).badRead (s.mach.me.xreg a.s).toNat (s.mach.me.xreg a.t).toNat = false)
    (hclear : (s.mach.part p).inFarHeader (s.mach.me.xreg a.d) (s.mach.me.xreg a.t).toNat = false)
    (hmove : (s.mach.unit h p).move = some id) (hans : (s.mach.unit h p).answer = some (.served bs))
    (hdone : (s.mach.hand h).requests.any (·.id == id) = false) :
    ∃ v, exec (.sdrain a) s = .next v ∧ (v.mach.unit h p).move = none ∧ (v.mach.unit h p).ts.pc = s.mach.npc ∧
      (v.mach.unit h p).scratch = (s.mach.unit h p).scratch := by
  have hrun := (semSdrain_move (a := a) hcur hcard hub hre hf hgood hclear).trans (run_bind_ok (stageMove_ends hmove hans hdone _ _ _ _))
  refine ⟨_, issue_stage_ok hcur hh hp hrun, ?_, ?_, ?_⟩ <;> rw [State.unit_after hcur] <;> simp only [Mach.unit_modUnit]
  rfl

omit hcard hre hub in
/-- A form that asks for a move and waits for it: the request stands, and the program where it was. -/
theorem issue_asks {sem : Act Unit} {far : Word} {n : Nat} {q : Nat × Nat × Nat} {data : Option (List Byte)} {f : List Byte → Act Unit}
    (hsem : sem.run s.mach = (stageMove s.mach h p far n q data >>= f).run s.mach) (hmove : (s.mach.unit h p).move = none)
    (hroom : (s.mach.hand h).queued < 256) :
    ∃ v, issue sem s = .next v ∧ (v.mach.unit h p).move = some s.mach.nextId ∧ (v.mach.unit h p).ts.pc = s.mach.me.pc := by
  obtain ⟨m, hrun, hid, hpc⟩ := stageMove_asks hmove hroom far n q data
  have hts : (m.stall (.stage h p) .other).unit h p = { m.unit h p with ts := (m.unit h p).ts.stall .other m.clk } :=
    Mach.unit_modUnit m h p _
  refine ⟨_, issue_stage_waitKeep hcur hh hp (hsem.trans (run_bind_error hrun)), ?_, ?_⟩ <;> simp only [hcur, hts]
  · exact hid
  · rw [Mach.me_of_stage hcur]
    exact hpc

end

end Sys2Proof.Machine

open Sys2Proof Sys2Proof.Machine

/-- Settles O23: each form runs to its end, its wait or its request; the bytes of a tile are those of its rows, as they are or in planes. -/
theorem stageForms : Obligations.StageForms := by
  unfold Obligations.StageForms
  intro s h p a r bs id hh hp hcur hcard hre hub _ u w k o n xd xs tile plane gone clear ends
  have htile {loc scr : Nat} (ht : tile loc scr) : r.Tile o n loc scr := by
    obtain ⟨hlo, hhi, hlayout, hdst, hend, -, hal, hfit, hscr⟩ := ht
    exact ⟨⟨hlo, hhi⟩, hlayout, ⟨hdst, hend⟩, hal, ⟨hfit, hscr⟩⟩
  refine ⟨?_, ?_, ?_, ?_, ?_, ?_⟩
  · rintro ⟨ht, hheld, hgood, hfree⟩
    have hfree' : ∀ i < 384 * n, k.inQueueArea (xd + i) = false ∧ k.headerOf (xd + i) = none := by simpa using hfree
    obtain ⟨v, hv, hscr, hpc, hbits⟩ := exec_tilePut_next hh hp hcur hcard hre hub (htile ht) hheld hgood hfree'
    exact ⟨v, hv, hscr, hpc, fun i hi q hq b hb => hbits i (List.mem_range.mp hi) q (List.mem_range.mp hq) b (List.mem_range.mp hb)⟩
  · rintro ⟨ht, hread, hgood⟩
    obtain ⟨v, hv, hmem, hpc, hbits⟩ := exec_tileGet_next hh hp hcur hcard hre hub (htile ht) hread hgood
    exact ⟨v, hv, hmem, hpc, fun i hi q hq b hb => hbits i (List.mem_range.mp hi) q (List.mem_range.mp hq) b (List.mem_range.mp hb)⟩
  · rintro ⟨hgone, hgood, ⟨hmove, hans, hdone⟩, hlen⟩
    obtain ⟨q, hf⟩ := Partition.fills_of_decide hgone
    obtain ⟨v, hv, hnone, hpc, hscr⟩ := exec_sfill_ends hh hp hcur hcard hre hub hf hgood hmove hans hdone hlen
    exact ⟨v, hv, hnone, hpc, fun i _ => by rw [hscr, Memory.byte_pokes, hlen]⟩
  · rintro ⟨hgone, hgood, hclear, hmove, hans, hdone⟩
    obtain ⟨q, hf⟩ := Partition.fills_of_decide hgone
    exact exec_sdrain_ends hh hp hcur hcard hre hub hf hgood hclear hmove hans hdone
  · rintro ⟨hgone, hgood, hclear, hmove, hroom⟩
    obtain ⟨q, hf⟩ := Partition.fills_of_decide hgone
    exact issue_asks hh hp hcur (semSdrain_move (a := a) hcur hcard hub hre hf hgood hclear) hmove hroom
  · rintro ⟨hgone, hgood, hmove, hroom⟩
    obtain ⟨q, hf⟩ := Partition.fills_of_decide hgone
    exact issue_asks hh hp hcur (semSfill_move (a := a) hcur hcard hub hre hf hgood) hmove hroom
end

section
/-! PROOF. `vsts` beside a job's footprint in the same word (R185, R189, R207). -/

namespace Sys2Proof.Machine

open Sys2Proof

/-- An unfinished job whose one footprint is the bytes 0x4000 to 0x4003, which it reads. -/
def halfWordJob : Job :=
  { uid := 0, num := 0, off := 0, card := [0x4000000000000, 0x40034000, 0, 0, 0, 0, 0, 0], ts := 1, cid := 0, pc := 0, priv := .user, sample := {} }

/-- Core 0 with that job, where thread set 0 has its turn. -/
def halfWordMach : Mach :=
  { cur := .core 0 0, npc := 4, cores := [(0, { ts := #v[{ busy := true }, {}, {}, {}], placed := true, jobs := [halfWordJob] })] }

/-- Four lanes at offset 0x4004: base and stride are x0, and p7 governs. -/
def halfWordArgs : Args := { p := 7, imm := 0x4004 }

/-- The store waits for the word at 0x4000, in which its lanes and the footprint lie. -/
theorem halfWordMach_vsts : (semVsts halfWordArgs).run halfWordMach = .error (.wait .other) halfWordMach := by rfl

end Sys2Proof.Machine

open Sys2Proof Sys2Proof.Machine

/-- Refutes O26: the clause on `vsts` asks that the bytes of each lane meet no wait, and an access waits by the words it touches (R185). In
`halfWordMach` the lanes lie in the upper half of a word whose lower half is a footprint of an unfinished job, and the `vsts` waits (R207). -/
theorem not_stridedAndIndexed : ¬ Obligations.StridedAndIndexed := by
  intro h
  obtain ⟨-, hstores, -⟩ := h { mach := halfWordMach } 0 0 halfWordArgs (by decide) (by decide)
  have hwait := issue_wait (s := { mach := halfWordMach }) (c := 0) (t := 0) (by decide) halfWordMach_vsts
  exact State.waits_ne_after (c := 0) (t := 0) rfl (by decide) (by decide) (hwait.symm.trans (hstores (by decide)))
end
